-- ==== Sys2Proof/Word.lean ====
section
/-! DEFINITION. The register word, its bit fields, and sparse tables in one canonical form. -/
namespace Sys2Proof

/-- A 32-bit register or element word (R543). -/
abbrev Word := BitVec 32

/-- The bits `[hi:lo]` of a word, as a number. -/
def Word.bits (w : Word) (hi lo : Nat) : Nat := (w.toNat >>> lo) % 2 ^ (hi + 1 - lo)

/-- One bit of a word. -/
def Word.bit (w : Word) (i : Nat) : Bool := w.toNat.testBit i

/-- The word with its bits `[hi:lo]` replaced by the low bits of `v`. -/
def Word.withBits (w : Word) (hi lo v : Nat) : Word :=
  let m := 2 ^ (hi + 1 - lo)
  BitVec.ofNat 32 (w.toNat % 2 ^ lo + (v % m) * 2 ^ lo + (w.toNat >>> (hi + 1)) * 2 ^ (hi + 1))

/-- The mask whose bits `[hi:lo]` are ones. -/
def Word.mask (hi lo : Nat) : Word := BitVec.ofNat 32 ((2 ^ (hi + 1 - lo) - 1) * 2 ^ lo)

/-- A field read as a two's complement number of `n` bits. -/
def signedOf (n v : Nat) : Int := if v < 2 ^ (n - 1) then (v : Int) else (v : Int) - 2 ^ n

/-- A number written as a two's complement field of `n` bits. -/
def unsignedOf (n : Nat) (v : Int) : Nat := (v % 2 ^ n).toNat

/-- A truth value as one bit. -/
def bit (b : Bool) : Nat := if b then 1 else 0

/-- A sparse table: entries by number, the numbers strictly rising. -/
abbrev KMap (α : Type) := List (Nat × α)

end Sys2Proof
end

