-- ==== Sys2Proof/Config.lean ====
section
/-! DEFINITION. What the spec leaves open and the model leaves free: constants without a body. -/
namespace Sys2Proof.Config

/-- A value the spec does not state (a draw of the DRBG, an analogue adaptation, a value left open).
The argument is the counter `State.freeCount`, so that two draws are two constants. Log entry 3. -/
opaque freeWord : Nat → Word

/-- A draw of arbitrary width (a challenge, a nonce, a seed, a key, a ciphertext). Log entry 3. -/
opaque freeBits : Nat → Nat

/-- SHA-384: the 48 bytes for a message's bytes. The function is another standard's (R11). Log entry 5. -/
opaque sha384 : List Nat → List Nat

/-- AES (R201, R213, R287, R457): the key length in bits, the key, the block, and the block enciphered, as 128-bit numbers. The function is
another standard's (R11). Log entry 5. -/
opaque aes : Nat → Nat → Nat → Nat

/-- X25519 (R43): the shared value of a private key and a public value, the public value of 9 included. Log entry 5. -/
opaque x25519 : Nat → Nat → Nat

/-- ML-KEM encapsulation (R43): an encapsulation key and 256 random bits give a ciphertext and a shared secret. Log entry 5. -/
opaque kemEncap : List Word → Nat → List Word × Nat

/-- The signature of a hybrid identity (R43, R390): the ECDSA P-384 private key's and the ML-DSA-87 seed's derived bits, and the bytes
signed. Log entry 5. -/
opaque hybridSign : Nat → Nat → List Nat → List Word

/-- The chained check of a recorder record (R531): the check of the record before and the record's bytes. Log entry 5. -/
opaque recordMac : Nat → List Nat → Nat

/-- The highest on-die junction temperature in units of 0.25 °C, two's complement in 16 bits, in each millisecond (20, `GLB_TJ`).
Log entry 3. -/
opaque junction : Nat → Nat

/-- Whether an address of the range 0x8000 to 0xFBFC of a block is one of the 424 snapshot shadows (R518, R551). The spec gives
their number for each block and not their addresses. Log entry 6. -/
opaque isShadow : Nat → Bool

/-- The event code under which failures at steps 2 to 6 of R49 are recorded (R50). The spec gives the code no number. Log entry 7. -/
opaque unauthEvent : Nat

/-- The event code under which a certificate that names other keys is recorded (R390). The spec gives the code no number. Log entry 7. -/
opaque certEvent : Nat

/-- The bytes of the identity certificates of manufacture (R390): 0 the P-384 certificate, 1 the ML-DSA-87 one. Log entry 5. -/
opaque certBytes : Nat → List Nat

/-- The boot ROM's identity digest (R81), which the spec does not give. Log entry 5. -/
opaque romDigest : List Nat

/-- A header word of the image of manufacture of a KIND, by its index (Table 3.4), where the spec gives it no value. Log entry 24. -/
opaque factoryWord : Nat → Nat → Word

/-- The public key's encoding of a private key, by ALG (Table 13.6). Log entry 5. -/
opaque publicKey : Nat → Nat → List Word

/-- AES key wrap with padding (SP 800-38F KWP): the wrapping key and the bytes wrapped (R383). Log entry 5. -/
opaque kwp : Nat → List Nat → List Word

/-- The bytes of the key material of an ALG's value, as they are wrapped and held in a slot (R379, R383). Log entry 8. -/
opaque material : Nat → Nat → List Nat

/-- AES key wrap (RFC 3394): the wrapping key and the bytes wrapped (R237, R359); and the key that a wrapped one holds. Log entry 5. -/
opaque keyWrap : Nat → List Nat → List Word
opaque keyUnwrap : Nat → List Word → Nat

/-- The KEK of an MKA participant, from its CAK and its CKN's words (R237). Log entry 5. -/
opaque mkaKek : Nat → List Word → Nat

/-- AES deciphering: the key length in bits, the key, the block (R417). Log entry 5. -/
opaque aesInv : Nat → Nat → Nat → Nat

/-- ECDH or X25519 of a key of an ALG with a peer's public key, as PUBLIC_KEY encodes it (R424). Log entry 5. -/
opaque agree : Nat → Nat → List Word → Nat

/-- ML-KEM decapsulation with implicit rejection: the ALG, the seed held, the ciphertext (R413). Log entry 5. -/
opaque kemDecap : Nat → Nat → List Word → Nat

/-- The event code under which a pause watchdog trip is recorded (R125). The spec gives the code no number. Log entry 7. -/
opaque pauseTripEvent : Nat

/-- The 80 bits of the single-device-correcting code over a line's bytes and its tag (R458), which the spec gives by its properties alone. Log
entry 5. -/
opaque deviceCode : List Nat → Nat → Nat

/-- How many records one half of the persistent key area holds beyond 256 (R382). The spec gives a half 2 MiB and a record no size. Log
entry 14. -/
opaque moreRecords : Nat

/-- How many records one half of the persistent key area holds: DEDUCED, at least 256, since the longest wrapped key of KEY_IMPORT has 8,176
bytes (Table 13.6). Log entry 14. -/
def keyRecords : Nat := moreRecords + 256

/-- The bytes of the TLVs that the profile of IEEE C37.238-2017 sends, for a grandmaster's identity (R150), as type and bytes. Log entry 5. -/
opaque powerTlvs : Nat → List (Nat × List Nat)

/-- Whether the LPM trie's node memory holds a list of prefixes (R193), each as family, length, address. The spec gives the memory
no size. Log entry 16. -/
opaque lpmFits : List (Nat × Nat × Nat) → Bool

/-- The word at an index of what the hash engine gives for an algorithm, a state in, a message of some length, its words, and FINAL (R419):
a digest, or a state out. The hash functions are those of other standards and the state's layout is not given. Log entry 5. -/
opaque hashWord : Nat → List Word → Nat → List Word → Bool → Nat → Word

/-- Whether a hash state is of an algorithm and consistent in its length (R419). The spec gives the state no layout. Log entry 8. -/
opaque hashStateOk : Nat → List Word → Bool

/-- The length in bytes of the key material that WRAPPED carries for an RSA key of a modulus length (R383): the spec gives the CRT form no
encoding. Log entry 8. -/
opaque rsaMaterial : Nat → Nat

end Sys2Proof.Config
end

