-- ==== Sys2Proof/Syntax.lean ====
section
/-! DEFINITION. What arrives at the block: Apfesia frames, line and clear frames, bond, time and domain messages,
and the ONE inductive of the commands, one constructor per row of the opcode table. -/
namespace Sys2Proof

/-- The transport an Apfesia frame arrives on (02, section 2.1). -/
inductive Via where
  | mp (k : Nat)            -- management port MP0 or MP1
  | cp (port sub : Nat)     -- clear sub-port
  | slow                    -- the slow port
  deriving DecidableEq, Repr

/-- One type-length-value element of a body (R41): its type with the critical bit, the length of its value in bytes
as sent, and the words of the padded value. An element whose words are fewer than its length needs runs past the end
of the body. -/
structure Elem where
  typ : Nat
  len : Nat
  val : List Word
  deriving DecidableEq, Repr

/-- A body: its elements in order. -/
abbrev Body := List Elem

/-- A VLAN tag: TPID, VLAN identifier, priority. -/
structure VTag where
  tpid : Nat
  vid  : Nat
  pcp  : Nat
  deriving DecidableEq, Repr

/-- The 16 MAC bytes of a command frame (R40): those that its sender computed under the session key, or other bytes. -/
inductive MacField where
  | right
  | bytes (m : List Nat)
  deriving DecidableEq, Repr

/-- The header of an Apfesia command frame as received (Table 2.5), and what the frame shows outside it:
the instant `t` (ps) at which it has wholly arrived, its transport, EtherType, VLAN tags and source address,
the bytes of body present, its MAC, and the header's bytes 20 to 31, which a command's MAC covers and nothing else reads. -/
structure Hdr where
  t         : Nat
  via       : Via
  etype     : Nat := 0x88B5
  tags      : List VTag := []
  srcMac    : Nat := 0
  magic     : Nat := 0x41504653
  version   : Nat := 1
  world     : Nat
  mailbox   : Nat
  flags     : Nat := 0
  tag       : Nat
  sequence  : Nat
  session   : Nat
  length    : Nat := 0
  bodyBytes : Nat := 0
  rest      : Nat := 0
  mac       : MacField := .right
  deriving DecidableEq, Repr

/-- The kinds of session credential (02, section 2.3; 13 R393, R394). -/
inductive Cred where
  | officer (id : Nat)
  | tenant (n : Nat)
  | device (id : Nat)
  | bootstrap
  deriving DecidableEq, Repr

/-- Notification classes (R59). -/
inductive NotifyClass where
  | rehash | pnThreshold | longOp | portHalf | bondState | tamperTime
  deriving DecidableEq, Repr

/-! ## Frames -/

/-- A MACsec SecTAG as received (R202, R204): the flag bits, AN, SL, the 32-bit PN and the explicit SCI. -/
structure SecTag where
  v   : Bool := false
  es  : Bool := false
  sc  : Bool := false
  scb : Bool := false
  e   : Bool := true
  c   : Bool := true
  an  : Nat
  sl  : Nat := 0
  pn  : Nat
  sci : Nat := 0
  deriving DecidableEq, Repr

/-- A PAUSE (`classes` none) or PFC frame's content: the pause time in ps for each class it names. -/
structure PauseInfo where
  pfc   : Bool
  times : List (Nat × Nat)
  deriving DecidableEq, Repr

/-- An Ethernet frame as a port receives it: its length from destination address to FCS, its FCS verdict, addresses,
outer tags, the EtherType after them, the SecTAG, the destination IP address (family, value; of an ARP request its target address), whether its IP header carries options or extension headers, UDP destination port,
MAC control content, the FEC codewords corrected and not correctable and the MAC merge errors since the frame before it, the fragments it
came in, and its words from the destination address on (bytes past them are 0). The fields read out of those words, and for a
protected frame the tags and the sequence tag inside the secure data, stand beside them (log entry 5). -/
structure Frame where
  len       : Nat
  fcsOk     : Bool := true
  dst       : Nat := 0
  src       : Nat := 0
  tags      : List VTag := []
  etype     : Nat := 0x0800
  sec       : Option SecTag := none
  ip        : Option (Nat × Nat) := none
  ipOpts    : Bool := false
  udpPort   : Option Nat := none
  pause     : Option PauseInfo := none
  inner     : List VTag := []
  seqTag    : Option (Nat × Nat) := none
  mkpdu     : Bool := false
  fecCorr   : Nat := 0
  fecBad    : Nat := 0
  frags     : Nat := 1
  mergeErr  : Nat := 0
  raw       : List Word := []
  deriving DecidableEq, Repr


/-! ## Bond messages -/

/-- The content of a mirror record (Table 12.7): SC (0x01), SA install (0x02), SA state (0x03), ceilings (0x04 to 0x06),
learn (0x07), trunk and path elements (0x08), MKA (0x09). SC and MKA carry the entry's words as numbers; an installation carries the
key wrapped under K_wrap. -/
inductive MirrorBody where
  | sc (key : Nat) (present : Bool) (sci : Nat) (cfg : Word) (window : Nat) (link : Word) (thresh retire : Nat)
  | saInstall (entry : Nat) (rx : Bool) (an port sc gen : Nat) (iv : List Word) (initPn : Nat) (rewrite : Bool) (wrapped : List Word)
  | saState (entry st : Nat) (active : Option Nat)
  | txCeil (entry ceil : Nat)
  | rxCeil (entry ceil : Nat)
  | trunkCeil (port phase ceil : Nat)
  | learn (remove : Bool) (brick sc key : Nat)
  | path (elems : Body)
  | mka (ca : Nat) (present : Bool) (txSc rxSc cak : Nat) (ckn : Body) (server : Bool) (params : List Nat)
  deriving DecidableEq, Repr

/-- A mirror record (Table 12.7). -/
structure MirrorRec where
  seq  : Nat
  code : Nat
  body : MirrorBody
  deriving DecidableEq, Repr

/-! ## Operands of single rows -/

/-- The check of a kiln input that fails, as an operand (R410): none, a value out of range (ST_OPERAND), or a point that is
not valid (ST_POINT). Log entry 5. -/
inductive InputCheck where
  | ok | operand | point
  deriving DecidableEq, Repr

/-- A copy of a group policy at a replica (R438, R440): its group, whether it is still set, its type, TEK algorithm and LIFETIME, its TEKs
(value, activation, expiry), and the anchors and the service certificate where they changed. -/
structure PolicyCopy where
  group    : Nat
  present  : Bool := true
  typ      : Nat := 0
  alg      : Nat := 0
  lifetime : Nat := 0
  teks     : List (Nat × Nat × Nat) := []
  anchors  : Option Body := none
  cert     : Option Body := none
  deriving DecidableEq, Repr

/-- A distribution bundle, offer, reply, package or note at its target (R433, R435, R446): its sender, TXN, whether its
signatures verify, the attributes and the value of the key it carries, and for a copy of the pending domain keys their generation. The
spec gives no layout for the bundle; it is a typed operand (log entry 5). Packages and notes are read from their bytes (Table 15.3). -/
structure Bundle where
  sender   : Nat
  txn      : Nat := 0
  sigOk    : Bool := true
  typ      : Word := 0
  use      : Word := 0
  gen      : Nat := 0
  value    : Nat := 0            -- the key carried
  pair     : Option (Word × Nat) := none   -- kind 4: TYPE and value of the second key of a pending domain key pair
  stage    : Nat := 0            -- kind 3: 0 offer, 1 reply, 2 finish
  policy   : Option PolicyCopy := none     -- kind 4: a group policy
  deriving DecidableEq, Repr

/-- A window of the register map (Table 20.3). -/
inductive RegWin where
  | que | trk0 | trk1
  deriving DecidableEq, Repr

/-- What a received MKPDU says (R235 to R238): its sender, whether its integrity check passes, its key server priority,
whether the sender lists this device as live, the lowest acceptable PN it tells, a distributed SAK's AN, key number and wrapped key, and
whether its transmit PN has reached its threshold. -/
structure Mkpdu where
  sci     : Nat
  icvOk   : Bool := true
  prio    : Nat := 255
  live    : Bool := true
  lowPn   : Nat := 0
  sak     : Option (Nat × Nat × List Word) := none
  thresh  : Bool := false
  deriving DecidableEq, Repr

/-- A 257-bit block of the trunk (R274): its header bit and its 32 payload bytes. -/
structure TrunkBlock where
  header : Bool := true
  bytes  : List Nat
  deriving DecidableEq, Repr

/-- A course header as it arrives (R274, R278, R308): the two blocks at the place where it is expected or sought, the bit-interleaved parity over
the bytes of the course before it as received, and that over the slot bytes of the path of the course's number in the last trunk frame. -/
structure CourseRx where
  blocks : List TrunkBlock
  bip    : Nat := 0
  pbip   : Nat := 0
  deriving DecidableEq, Repr

/-- A trunk unit as it arrives (R287, R291, R297): the course and position of each of its slots, in order, their bytes on the wire, and the
fields of the clear frame that it holds, for what follows its decryption (log entry 5). -/
structure UnitInfo where
  at_   : List (Nat × Nat)
  bytes : List Nat
  frame : Frame
  deriving DecidableEq, Repr

/-- What arrives on a bond lane (R102 to R106): its bits in the order of the wire, stuffed bits among them, and the local block times
since what came before it. -/
structure BondBlock where
  bits    : List Bool := []
  reads   : Nat := 1
  deriving DecidableEq, Repr

/-- A bond message as received (Table 12.3, Table 12.4): the lane, its MAC bytes, its TYPE where that is none of its row's, header fields and body
bytes, records in place of a MIRROR's body bytes. -/
structure BondRx where
  lane    : Nat := 0
  mac     : MacField := .right
  typ     : Option Nat := none
  format  : Nat := 1
  bond    : Nat
  sender  : Nat
  number  : Nat := 0
  body    : List Nat := []
  recs    : List MirrorRec := []
  deriving DecidableEq, Repr

/-- The clock that an Announce tells of: priority1, clockClass, clockAccuracy, offsetScaledLogVariance, priority2, identity, and
stepsRemoved (IEEE 1588-2019). -/
structure PtpClock where
  prio1 : Nat := 128
  cls   : Nat := 248
  acc   : Nat := 254
  var   : Nat := 65535
  prio2 : Nat := 128
  id    : Nat := 0
  steps : Nat := 0
  deriving DecidableEq, Repr

/-- A PTP message (R151 to R154, R157), its fields read by IEEE 1588-2019 (log entry 5): kind 0 Sync, 1 Announce, 2 Follow_Up,
3 Delay_Req, 4 Delay_Resp, 5 Pdelay_Req, 6 Pdelay_Resp, 7 Pdelay_Resp_Follow_Up; domainNumber, twoStepFlag, source port identity,
sequence, correctionField (2^-16 ns), timestamp (2^-16 ns since the PTP epoch), requesting port identity, an Announce's clock, and
TLVs as type and bytes. -/
structure PtpMsg where
  kind      : Nat
  domain    : Nat := 0
  twoStep   : Bool := true
  source    : Nat := 0
  seq       : Nat := 0
  corr      : Int := 0
  time      : Nat := 0
  requester : Nat := 0
  clock     : PtpClock := {}
  tlvs      : List (Nat × List Nat) := []
  deriving DecidableEq, Repr

/-- A GDOI message (R437 to R440): phase 1 or a pull, the peer's key digest, the group, whether it verifies. -/
structure GdoiMsg where
  phase1  : Bool
  digest  : List Word
  group   : Nat := 0
  ok      : Bool := true
  chainTo : Nat := 0
  src     : Nat := 0
  deriving DecidableEq, Repr

/-- What a DDR access finds (R458 to R465): the line as it was stored, an error that the code corrects in one device or does not, a line that passes
the code with a tag that fails or with given bytes and tag, a node in error or failing, root copies that differ. -/
inductive MemFault where
  | none | correctable (dev : Nat) | uncorrectable | tag | line (bytes : List Nat) (tag : Nat) | nodeError | nodeTag | root (copy : Option Nat)
  deriving DecidableEq, Repr

/-- The commands: one constructor per row of the opcode table. A command row carries the header of its frame and its body's
elements; where the spec gives no layout for an element (02 for its own commands), the element is a typed operand beside the body,
which then holds the frame's other elements (log entry 8). An event row carries its instant `t` in ps (log entry 2). -/
inductive Instr where
  /-- SESSION_CHALLENGE (R43). -/
  | sessionChallenge (h : Hdr) (b : Body)
  /-- SESSION_OPEN (R393). -/
  | sessionOpen (h : Hdr) (b : Body) (cred : Cred) (challenge : Nat) (pub : Nat) (ek : List Word) (ok : Bool)
  /-- SESSION_CLOSE (R47). -/
  | sessionClose (h : Hdr) (b : Body)
  /-- NOP (R69). -/
  | nop (h : Hdr) (b : Body)
  /-- OP_STATUS (R54). -/
  | opStatus (h : Hdr) (b : Body) (op : Nat)
  /-- CMD_ABORT (R55). -/
  | cmdAbort (h : Hdr) (b : Body) (target : Nat)
  /-- EVENT_SUBSCRIBE (R59). -/
  | eventSubscribe (h : Hdr) (b : Body) (mailbox : Nat) (classes : List NotifyClass)
  /-- ID_READ (R558). -/
  | idRead (h : Hdr) (b : Body)
  /-- DEVICE_STATUS (R559). -/
  | deviceStatus (h : Hdr) (b : Body)
  /-- REG_READ (R66). -/
  | regRead (h : Hdr) (b : Body)
  /-- REG_WRITE (R67). -/
  | regWrite (h : Hdr) (b : Body)
  /-- DEVICE_RESET (R57). -/
  | deviceReset (h : Hdr) (b : Body)
  /-- IMAGE_WRITE (R83). -/
  | imageWrite (h : Hdr) (b : Body)
  /-- IMAGE_ACTIVATE (R84). -/
  | imageActivate (h : Hdr) (b : Body) (ok : Bool)
  /-- IMAGE_RESEAL_DONE (R84). -/
  | imageResealDone (t : Nat)
  /-- IMAGE_STATUS (R69). -/
  | imageStatus (h : Hdr) (b : Body)
  /-- TRIAL_COMMIT (R84). -/
  | trialCommit (t : Nat)
  /-- LANE_PRBS (R108). -/
  | lanePrbs (h : Hdr) (b : Body)
  /-- LANE_MARGIN (R109). -/
  | laneMargin (h : Hdr) (b : Body)
  /-- LANE_MARGIN_GROUP_DONE (R109). -/
  | laneMarginGroupDone (t : Nat)
  /-- CAPTURE_READ (R127). -/
  | captureRead (h : Hdr) (b : Body)
  /-- PORT_STATS_READ (R132). -/
  | portStatsRead (h : Hdr) (b : Body)
  /-- TIME_READ (R140). -/
  | timeRead (h : Hdr) (b : Body)
  /-- TIME_EPOCH_NEW (R164). -/
  | timeEpochNew (h : Hdr) (b : Body)
  /-- PTP_CONFIG (R155). -/
  | ptpConfig (h : Hdr) (b : Body)
  /-- TABLE_INSERT (R184). -/
  | tableInsert (h : Hdr) (b : Body)
  /-- TABLE_DELETE (R200). -/
  | tableDelete (h : Hdr) (b : Body)
  /-- TABLE_READ (R200). -/
  | tableRead (h : Hdr) (b : Body)
  /-- TABLE_REHASH (R190). -/
  | tableRehash (h : Hdr) (b : Body)
  /-- REHASH_SWAP (R190). -/
  | rehashSwap (t : Nat) (brick : Nat)
  /-- LPM_ADD (R193). -/
  | lpmAdd (h : Hdr) (b : Body)
  /-- LPM_DELETE (R194). -/
  | lpmDelete (h : Hdr) (b : Body)
  /-- SC_CREATE (R209). -/
  | scCreate (h : Hdr) (b : Body)
  /-- SC_DELETE (R210). -/
  | scDelete (h : Hdr) (b : Body)
  /-- SA_INSTALL (R232). -/
  | saInstall (h : Hdr) (b : Body)
  /-- KEY_BUS_TRANSFER_DONE (R27). -/
  | keyBusTransferDone (t : Nat)
  /-- SA_SWITCH_TX (R227). -/
  | saSwitchTx (h : Hdr) (b : Body)
  /-- SWITCH_COMMIT (R226). -/
  | switchCommit (t : Nat) (sc : Nat)
  /-- SA_ERASE (R231). -/
  | saErase (h : Hdr) (b : Body)
  /-- SA_ZEROISE (R231). -/
  | saZeroise (t : Nat) (entry : Nat)
  /-- SA_READ (R239). -/
  | saRead (h : Hdr) (b : Body)
  /-- MKA_CONFIG (R240). -/
  | mkaConfig (h : Hdr) (b : Body)
  /-- PATH_CONFIG (R312). -/
  | pathConfig (h : Hdr) (b : Body)
  /-- TRUNK_PM_READ (R311). -/
  | trunkPmRead (h : Hdr) (b : Body)
  /-- QUEUE_CONFIG (R341). -/
  | queueConfig (h : Hdr) (b : Body)
  /-- SHAPER_SET (R326). -/
  | shaperSet (h : Hdr) (b : Body)
  /-- GCL_WRITE (R341). -/
  | gclWrite (h : Hdr) (b : Body)
  /-- GCL_COMMIT (R331). -/
  | gclCommit (h : Hdr) (b : Body)
  /-- BOND_CONFIG_JOIN (R346). -/
  | bondConfigJoin (h : Hdr) (b : Body)
  /-- BOND_CONFIG_LEAVE (R370). -/
  | bondConfigLeave (h : Hdr) (b : Body)
  /-- BOND_FORCE (R363). -/
  | bondForce (h : Hdr) (b : Body)
  /-- BOND_RESIGN (R358). -/
  | bondResign (h : Hdr) (b : Body)
  /-- BOND_STATUS (R370). -/
  | bondStatus (h : Hdr) (b : Body)
  /-- KEY_GENERATE (R383). -/
  | keyGenerate (h : Hdr) (b : Body)
  /-- KEY_IMPORT_WRAPPED (R383). -/
  | keyImportWrapped (h : Hdr) (b : Body) (kwpOk : Bool) (valid : Bool) (typ : Word) (use : Word) (own : Word) (value : Nat)
  /-- KEY_EXPORT_WRAPPED (R383). -/
  | keyExportWrapped (h : Hdr) (b : Body)
  /-- KEY_ERASE (R384). -/
  | keyErase (h : Hdr) (b : Body)
  /-- KEY_ATTEST (R391). -/
  | keyAttest (h : Hdr) (b : Body)
  /-- LIFECYCLE_CHANGE (R387). -/
  | lifecycleChange (h : Hdr) (b : Body)
  /-- OFFICER_ENROL (R395). -/
  | officerEnrol (h : Hdr) (b : Body)
  /-- OFFICER_REVOKE (R395). -/
  | officerRevoke (h : Hdr) (b : Body)
  /-- DUAL_AUTHORISE (R396). -/
  | dualAuthorise (h : Hdr) (b : Body)
  /-- DEBUG_ENABLE (R398). -/
  | debugEnable (h : Hdr) (b : Body)
  /-- SIGN (R423). -/
  | sign (h : Hdr) (b : Body)
  /-- VERIFY (R425). -/
  | verify (h : Hdr) (b : Body) (verdict : Bool) (bad : InputCheck)
  /-- KEM_ENCAP (R424). -/
  | kemEncap (h : Hdr) (b : Body) (bad : InputCheck)
  /-- KEM_DECAP (R424). -/
  | kemDecap (h : Hdr) (b : Body)
  /-- KEY_AGREE (R424). -/
  | keyAgree (h : Hdr) (b : Body) (bad : InputCheck)
  /-- HASH (R419). -/
  | hash (h : Hdr) (b : Body)
  /-- DRBG_READ (R421). -/
  | drbgRead (h : Hdr) (b : Body)
  /-- VCI_PAGE_ASSIGN (R416). -/
  | vciPageAssign (h : Hdr) (b : Body)
  /-- DOMAIN_ENROL_CHALLENGE (R429). -/
  | domainEnrolChallenge (h : Hdr) (b : Body) (ok : Bool) (serial : Nat) (idDig : List Word)
  /-- DOMAIN_ENROL_PREPARE (R429). -/
  | domainEnrolPrepare (h : Hdr) (b : Body)
  /-- DOMAIN_ENROL_ADMIT (R430). -/
  | domainEnrolAdmit (h : Hdr) (b : Body) (sigOk : Bool)
  /-- DOMAIN_ENROL_ACCEPT (R429). -/
  | domainEnrolAccept (h : Hdr) (b : Body) (sigOk : Bool)
  /-- DOMAIN_ENROL_REVOKE (R431). -/
  | domainEnrolRevoke (h : Hdr) (b : Body)
  /-- DOMAIN_ENROL_ROSTER_DELTA (R426). -/
  | domainEnrolRosterDelta (h : Hdr) (b : Body) (sigOk : Bool)
  /-- DOMAIN_KEY_DISTRIBUTE (R432). -/
  | domainKeyDistribute (h : Hdr) (b : Body) (bundle : Option Bundle)
  /-- DOMAIN_ROLLOVER (R445). -/
  | domainRollover (h : Hdr) (b : Body)
  /-- ROLLOVER_DEADLINE (R445). -/
  | rolloverDeadline (t : Nat)
  /-- GROUP_POLICY_SET (R438). -/
  | groupPolicySet (h : Hdr) (b : Body)
  /-- GDOI_MEMBER_ADD (R438). -/
  | gdoiMemberAdd (h : Hdr) (b : Body)
  /-- GDOI_MEMBER_REMOVE (R438). -/
  | gdoiMemberRemove (h : Hdr) (b : Body)
  /-- TENANT_CREATE (R441). -/
  | tenantCreate (h : Hdr) (b : Body)
  /-- TENANT_RATE_SET (R442). -/
  | tenantRateSet (h : Hdr) (b : Body)
  /-- DOMAIN_SNAPSHOT (R448). -/
  | domainSnapshot (h : Hdr) (b : Body)
  /-- MEM_KEY_ROLL (R469). -/
  | memKeyRoll (h : Hdr) (b : Body)
  /-- MEM_STATUS (R472). -/
  | memStatus (h : Hdr) (b : Body)
  /-- TAMPER_CONFIG (R492). -/
  | tamperConfig (h : Hdr) (b : Body)
  /-- TAMPER_TEST (R488). -/
  | tamperTest (h : Hdr) (b : Body)
  /-- TAMPER_TEST_SOURCE_DONE (R488). -/
  | tamperTestSourceDone (t : Nat) (detected : Option Nat)
  /-- TAMPER_FUSE (R490). -/
  | tamperFuse (h : Hdr) (b : Body) (blown : Bool)
  /-- TAMPER_REARM (R491). -/
  | tamperRearm (h : Hdr) (b : Body)
  /-- POWER_STATE_SET (R499). -/
  | powerStateSet (h : Hdr) (b : Body)
  /-- DVFS_SET (R512). -/
  | dvfsSet (h : Hdr) (b : Body)
  /-- WAKE_CONFIG (R517). -/
  | wakeConfig (h : Hdr) (b : Body)
  /-- SNAP_ARM (R542). -/
  | snapArm (h : Hdr) (b : Body)
  /-- SNAP_READ (R542). -/
  | snapRead (h : Hdr) (b : Body)
  /-- PERF_CONFIG (R527). -/
  | perfConfig (h : Hdr) (b : Body)
  /-- PERF_READ (R527). -/
  | perfRead (h : Hdr) (b : Body)
  /-- RECORDER_READ (R537). -/
  | recorderRead (h : Hdr) (b : Body)
  /-- RECORDER_CLEAR (R536). -/
  | recorderClear (h : Hdr) (b : Body)
  /-- SELFTEST_RUN (R540). -/
  | selftestRun (h : Hdr) (b : Body)
  /-- DATAFLOW_APPLY (R17). -/
  | dataflowApply (h : Hdr) (value : Word)
  /-- DATAFLOW_REMAP (R17). -/
  | dataflowRemap (t : Nat)
  /-- RECOVERY_CLR (R86). -/
  | recoveryClr (h : Hdr)
  /-- TEST_REQ (R86). -/
  | testReq (h : Hdr) (on : Bool)
  /-- TMU_STEP_GO (R161). -/
  | tmuStepGo (h : Hdr)
  /-- MATCH_ARM (R145). -/
  | matchArm (h : Hdr) (n : Nat) (hi : Nat)
  /-- MATCH_DISARM (R145). -/
  | matchDisarm (h : Hdr) (n : Nat) (hi : Nat)
  /-- EXPRESS_EN_SET (R583). -/
  | expressEnSet (h : Hdr) (brick : Nat)
  /-- EXPRESS_EN_CLEAR (R583). -/
  | expressEnClear (h : Hdr) (brick : Nat)
  /-- EXPRESS_ROLE_SWITCH (R583). -/
  | expressRoleSwitch (t : Nat) (brick : Nat)
  /-- TX_FIR_WRITE (R99). -/
  | txFirWrite (h : Hdr) (lane : Nat) (value : Word)
  /-- RX_EQ_WRITE (R100). -/
  | rxEqWrite (h : Hdr) (lane : Nat) (value : Word)
  /-- LANE_MAP_WRITE (R101). -/
  | laneMapWrite (h : Hdr) (quad : Nat) (value : Word)
  /-- BOND_LANE_ENABLE (R110). -/
  | bondLaneEnable (h : Hdr) (value : Word)
  /-- PORT_ENABLE (R114). -/
  | portEnable (h : Hdr) (port : Nat)
  /-- PORT_DISABLE (R117). -/
  | portDisable (h : Hdr) (port : Nat)
  /-- EXPRESS_MASK_WRITE (R124). -/
  | expressMaskWrite (h : Hdr) (port : Nat) (value : Word)
  /-- MAX_RES_WRITE (R321). -/
  | maxResWrite (h : Hdr) (e : Nat) (value : Word)
  /-- ROLL_INTERVAL_WRITE (R468). -/
  | rollIntervalWrite (h : Hdr) (value : Word)
  /-- FROZEN_CLEAR (R481). -/
  | frozenClear (h : Hdr)
  /-- SNAP_TRIGGER_WRITE (R522). -/
  | snapTriggerWrite (h : Hdr)
  /-- SNAP_RELEASE (R519). -/
  | snapRelease (h : Hdr) (sel : Nat)
  /-- PERF_CLEAR (R527). -/
  | perfClear (h : Hdr)
  /-- PERF_RUN (R527). -/
  | perfRun (h : Hdr) (run : Bool)
  /-- PWR_DVFS_WRITE (R517). -/
  | pwrDvfsWrite (h : Hdr) (brick : Nat) (value : Word)
  /-- WIN_GO_READ (R554). -/
  | winGoRead (h : Hdr) (win : RegWin) (index : Nat) (tag : Nat)
  /-- WIN_GO_WRITE (R554). -/
  | winGoWrite (h : Hdr) (win : RegWin) (index : Nat) (tag : Nat) (data : List Word)
  /-- SLOW_BLOCK_WRITE (R37). -/
  | slowBlockWrite (t : Nat) (bytes : List Nat) (pecOk : Bool)
  /-- SLOW_SUBMIT (R37). -/
  | slowSubmit (t : Nat) (pecOk : Bool)
  /-- SLOW_BLOCK_READ (R38). -/
  | slowBlockRead (t : Nat)
  /-- SLOW_STATUS_READ (R37). -/
  | slowStatusRead (t : Nat)
  /-- SLOW_PORT_TIMEOUT (R572). -/
  | slowPortTimeout (t : Nat)
  /-- POWER_ON_RESET (R91). -/
  | powerOnReset (t : Nat)
  /-- BROWN_OUT_RESET (R91). -/
  | brownOutReset (t : Nat)
  /-- PIN_RESET (R73). -/
  | pinReset (t : Nat)
  /-- COMMAND_WARM_RESET (R57). -/
  | commandWarmReset (t : Nat)
  /-- WATCHDOG_RESET (R91). -/
  | watchdogReset (t : Nat) (vault : Bool)
  /-- TAMPER_RESET (R480). -/
  | tamperReset (t : Nat)
  /-- RESET_RELEASE (R72). -/
  | resetRelease (t : Nat) (balls : Nat)
  /-- IMAGE_BOOT (R80). -/
  | imageBoot (t : Nat) (okA : Bool) (okB : Bool)
  /-- VAULT_KAT_PASS (R77). -/
  | vaultKatPass (t : Nat)
  /-- DDR_TRAINING_DONE (R452). -/
  | ddrTrainingDone (t : Nat) (ch : Nat) (ok : Bool) (cap : Nat)
  /-- MEM_INIT_DONE (R455). -/
  | memInitDone (t : Nat)
  /-- EXPRESS_READY (R76). -/
  | expressReady (t : Nat)
  /-- FULL_READY (R76). -/
  | fullReady (t : Nat)
  /-- LINK_UP (R114). -/
  | linkUp (t : Nat) (sp : Nat)
  /-- LINK_DOWN (R114). -/
  | linkDown (t : Nat) (sp : Nat) (localFault : Bool)
  /-- REMOTE_FAULT_RX (R114). -/
  | remoteFaultRx (t : Nat) (sp : Nat)
  /-- REF_LOSS (R96). -/
  | refLoss (t : Nat) (quad : Nat)
  /-- MM_VERIFY_ATTEMPT (R128). -/
  | mmVerifyAttempt (t : Nat) (sp : Nat) (answered : Bool)
  /-- MAC_CONTROL_RX (R123). -/
  | macControlRx (t : Nat) (sp : Nat) (frame : Frame)
  /-- PAUSE_WATCHDOG_TRIP (R125). -/
  | pauseWatchdogTrip (t : Nat) (sp : Nat) (cls : Nat)
  /-- PAUSE_WATCHDOG_END (R125). -/
  | pauseWatchdogEnd (t : Nat) (sp : Nat) (cls : Nat)
  /-- COUNTER_POLL (R132). -/
  | counterPoll (t : Nat)
  /-- CLEAR_FRAME_RX (R242). -/
  | clearFrameRx (t : Nat) (sp : Nat) (frame : Frame)
  /-- LINE_FRAME_RX (R218). -/
  | lineFrameRx (t : Nat) (port : Nat) (frame : Frame)
  /-- STAGING_RELEASE (R582). -/
  | stagingRelease (t : Nat) (id : Nat)
  /-- CONTEXT_FETCH_DONE (R248). -/
  | contextFetchDone (t : Nat) (id : Nat)
  /-- BULK_DISPATCH (R246). -/
  | bulkDispatch (t : Nat) (id : Nat)
  /-- EXPRESS_LANE_START (R247). -/
  | expressLaneStart (t : Nat) (id : Nat)
  /-- PRIMING_DONE (R254). -/
  | primingDone (t : Nat) (brick : Nat) (bank : Nat)
  /-- TILE_FINISH (R247). -/
  | tileFinish (t : Nat) (id : Nat)
  /-- TAG_RESULT (R259). -/
  | tagResult (t : Nat) (id : Nat) (ok : Bool)
  /-- REORDER_RELEASE (R247). -/
  | reorderRelease (t : Nat) (id : Nat)
  /-- DUPLICATE_DISCARD (R267). -/
  | duplicateDiscard (t : Nat) (id : Nat)
  /-- HELD_COPY_RELEASE (R268). -/
  | heldCopyRelease (t : Nat) (stream : Nat)
  /-- LEARN_APPLY (R197). -/
  | learnApply (t : Nat) (brick : Nat)
  /-- TOMBSTONE_FREE (R185). -/
  | tombstoneFree (t : Nat) (brick : Nat)
  /-- AGER_VISIT (R187). -/
  | agerVisit (t : Nat) (brick : Nat) (way : Nat)
  /-- EXPRESS_HOLD_ENTER (R322). -/
  | expressHoldEnter (t : Nat) (id : Nat)
  /-- EGRESS_SELECT (R323). -/
  | egressSelect (t : Nat) (sp : Nat)
  /-- FRAME_TX_DONE (R319). -/
  | frameTxDone (t : Nat) (sp : Nat)
  /-- FRAME_AGED (R321). -/
  | frameAged (t : Nat) (id : Nat)
  /-- SHAPER_UPDATE (R325). -/
  | shaperUpdate (t : Nat)
  /-- GATE_ENTRY_CHANGE (R329). -/
  | gateEntryChange (t : Nat) (e : Nat)
  /-- GCL_CHANGE_INSTANT (R331). -/
  | gclChangeInstant (t : Nat) (e : Nat)
  /-- ONESTEP_DISPATCH (R157). -/
  | onestepDispatch (t : Nat) (n : Nat)
  /-- ONESTEP_RELEASE (R157). -/
  | onestepRelease (t : Nat) (n : Nat)
  /-- RETIRE_TIMER_EXPIRY (R229). -/
  | retireTimerExpiry (t : Nat) (entry : Nat)
  /-- TILE_TEST_START (R271). -/
  | tileTestStart (t : Nat) (brick : Nat) (tile : Nat)
  /-- TILE_TEST_DONE (R273). -/
  | tileTestDone (t : Nat) (brick : Nat) (tile : Nat) (ok : Bool)
  /-- EV_IST_OVERDUE (R273). -/
  | evIstOverdue (t : Nat) (unit : Nat)
  /-- MKPDU_RX (R235). -/
  | mkpduRx (t : Nat) (ca : Nat) (info : Mkpdu)
  /-- MKA_HELLO (R238). -/
  | mkaHello (t : Nat) (ca : Nat)
  /-- MKA_PEER_LOST (R238). -/
  | mkaPeerLost (t : Nat) (ca : Nat) (sci : Nat)
  /-- MKA_REKEY_INTERVAL (R237). -/
  | mkaRekeyInterval (t : Nat) (ca : Nat)
  /-- COURSE_HEADER_TX (R294). -/
  | courseHeaderTx (t : Nat) (port : Nat)
  /-- DIRECTORY_SLOT_BUILD (R337). -/
  | directorySlotBuild (t : Nat) (port : Nat)
  /-- RUN_START (R297). -/
  | runStart (t : Nat) (port : Nat) (path : Nat)
  /-- COURSE_HEADER_RX (R284). -/
  | courseHeaderRx (t : Nat) (port : Nat) (hdr : CourseRx)
  /-- TRUNK_KEY_ENGAGE (R286). -/
  | trunkKeyEngage (t : Nat) (port : Nat)
  /-- PHASE_SWITCH (R290). -/
  | phaseSwitch (t : Nat) (port : Nat)
  /-- PHASE_OLD_KEY_ERASE (R290). -/
  | phaseOldKeyErase (t : Nat) (port : Nat)
  /-- TRUNK_COUNT_CEILING (R288). -/
  | trunkCountCeiling (t : Nat) (port : Nat)
  /-- DIRECTORY_SLOT_RX (R289). -/
  | directorySlotRx (t : Nat) (port : Nat) (group : Nat) (bytes : List Nat)
  /-- UNIT_RX (R293). -/
  | unitRx (t : Nat) (port : Nat) (path : Nat) (unit : UnitInfo)
  /-- PASS_UNIT_RX (R300). -/
  | passUnitRx (t : Nat) (port : Nat) (path : Nat) (unit : UnitInfo)
  /-- LOF_DECLARE (R302). -/
  | lofDeclare (t : Nat) (port : Nat)
  /-- LOF_CLEAR (R302). -/
  | lofClear (t : Nat) (port : Nat)
  /-- PATH_AIS_TIMEOUT (R302). -/
  | pathAisTimeout (t : Nat) (port : Nat) (path : Nat)
  /-- AIS_INSERT (R303). -/
  | aisInsert (t : Nat) (port : Nat) (path : Nat)
  /-- PM_SECOND (R309). -/
  | pmSecond (t : Nat) (port : Nat)
  /-- BOND_BLOCK_RX (R106). -/
  | bondBlockRx (t : Nat) (lane : Nat) (blk : BondBlock)
  /-- BOND_LANE_IN_FRAME (R105). -/
  | bondLaneInFrame (t : Nat) (lane : Nat)
  /-- BOND_LANE_OUT_OF_FRAME (R105). -/
  | bondLaneOutOfFrame (t : Nat) (lane : Nat)
  /-- BOND_LINK_STATE_CHANGE (R107). -/
  | bondLinkStateChange (t : Nat)
  /-- HELLO_RX (R347). -/
  | helloRx (t : Nat) (m : BondRx)
  /-- LEASE_TX (R351). -/
  | leaseTx (t : Nat)
  /-- LEASE_RX (R351). -/
  | leaseRx (t : Nat) (m : BondRx)
  /-- LEASE_ACK_RX (R351). -/
  | leaseAckRx (t : Nat) (m : BondRx)
  /-- LEASE_FENCE (R352). -/
  | leaseFence (t : Nat)
  /-- LEASE_EXPIRY (R353). -/
  | leaseExpiry (t : Nat)
  /-- RESIGN_RX (R355). -/
  | resignRx (t : Nat) (m : BondRx)
  /-- FENCED_RX (R355). -/
  | fencedRx (t : Nat) (m : BondRx)
  /-- RESIGN_CONDITION (R356). -/
  | resignCondition (t : Nat) (cause : Nat)
  /-- MIRROR_RX (R362). -/
  | mirrorRx (t : Nat) (m : BondRx)
  /-- MIRROR_ACK_RX (R361). -/
  | mirrorAckRx (t : Nat) (m : BondRx)
  /-- MIRROR_RETRANSMIT (R362). -/
  | mirrorRetransmit (t : Nat)
  /-- MIRROR_GAP_TIMEOUT (R362). -/
  | mirrorGapTimeout (t : Nat)
  /-- SYNC_REQ_RX (R367). -/
  | syncReqRx (t : Nat) (m : BondRx)
  /-- SNAPSHOT_END_RX (R367). -/
  | snapshotEndRx (t : Nat) (m : BondRx)
  /-- SYNC_DONE_RX (R367). -/
  | syncDoneRx (t : Nat) (m : BondRx)
  /-- SYNC_ACK_RX (R367). -/
  | syncAckRx (t : Nat) (m : BondRx)
  /-- PTP_MESSAGE_RX (R152). -/
  | ptpMessageRx (t : Nat) (port : Nat) (msg : PtpMsg)
  /-- PTP_MESSAGE_TX (R154). -/
  | ptpMessageTx (t : Nat) (port : Nat) (kind : Nat) (dep : Nat)
  /-- SYNC_TIMEOUT (R163). -/
  | syncTimeout (t : Nat)
  /-- REF10M_FAULT (R169). -/
  | ref10mFault (t : Nat)
  /-- REF10M_RESTORE (R169). -/
  | ref10mRestore (t : Nat)
  /-- PPS_IN_EDGE (R173). -/
  | ppsInEdge (t : Nat)
  /-- PPS_IN_MISSING (R173). -/
  | ppsInMissing (t : Nat)
  /-- PPS_OUT_EDGE (R174). -/
  | ppsOutEdge (t : Nat)
  /-- PPS_OUT_WIDTH_END (R174). -/
  | ppsOutWidthEnd (t : Nat)
  /-- TIME_SAVE (R171). -/
  | timeSave (t : Nat)
  /-- MATCH_FIRE (R142). -/
  | matchFire (t : Nat) (n : Nat)
  /-- KILN_YIELD_POINT (R404). -/
  | kilnYieldPoint (t : Nat) (lane : Nat)
  /-- KILN_JOB_END (R409). -/
  | kilnJobEnd (t : Nat) (lane : Nat) (fault : Option Nat) (kat : Bool)
  /-- LATTICE_JOB_END (R411). -/
  | latticeJobEnd (t : Nat) (pipe : Nat) (fault : Option Nat) (kat : Bool)
  /-- KEY_RELOAD (R381). -/
  | keyReload (t : Nat) (handle : Nat) (ok : Bool)
  /-- DRBG_RESEED (R421). -/
  | drbgReseed (t : Nat) (inst : Nat)
  /-- RNG_HEALTH_FAIL (R422). -/
  | rngHealthFail (t : Nat) (test : Nat)
  /-- RNG_STARTUP_DONE (R420). -/
  | rngStartupDone (t : Nat)
  /-- IST_INTERVAL (R538). -/
  | istInterval (t : Nat) (unit : Nat) (ok : Bool)
  /-- TICKET_EXPIRY (R396). -/
  | ticketExpiry (t : Nat) (ticket : Nat)
  /-- SESSION_IDLE_TIMEOUT (R46). -/
  | sessionIdleTimeout (t : Nat) (session : Nat)
  /-- CHALLENGE_EXPIRY (R43). -/
  | challengeExpiry (t : Nat)
  /-- DKS_RETRY (R428). -/
  | dksRetry (t : Nat) (device : Nat)
  /-- EPHEMERAL_KEY_ROTATE (R433). -/
  | ephemeralKeyRotate (t : Nat)
  /-- TEK_NEXT_GENERATE (R440). -/
  | tekNextGenerate (t : Nat) (group : Nat)
  /-- TEK_EXPIRY (R440). -/
  | tekExpiry (t : Nat) (group : Nat)
  /-- GDOI_MESSAGE_RX (R439). -/
  | gdoiMessageRx (t : Nat) (msg : GdoiMsg)
  /-- ARP_REQUEST_RX (R437). -/
  | arpRequestRx (t : Nat) (ip : Nat) (mac : Nat)
  /-- MEM_READ (R459). -/
  | memRead (t : Nat) (master : Nat) (ch : Nat) (addr : Nat) (fault : MemFault)
  /-- MEM_WRITE (R461). -/
  | memWrite (t : Nat) (master : Nat) (ch : Nat) (addr : Nat) (words : List Word) (whole : Bool) (fault : MemFault)
  /-- HALT_RESET_TIMER (R467). -/
  | haltResetTimer (t : Nat)
  /-- KEY_ROLL_DUE (R468). -/
  | keyRollDue (t : Nat)
  /-- SWEEP_END (R469). -/
  | sweepEnd (t : Nat)
  /-- TAMPER_ALARM (R480). -/
  | tamperAlarm (t : Nat) (sources : Nat)
  /-- IDLE_ENTRY_DONE (R503). -/
  | idleEntryDone (t : Nat)
  /-- IDLE_RETURN_DONE (R503). -/
  | idleReturnDone (t : Nat)
  /-- STANDBY_ENTRY_DONE (R504). -/
  | standbyEntryDone (t : Nat)
  /-- STANDBY_RETURN_DONE (R504). -/
  | standbyReturnDone (t : Nat)
  /-- SLEEP_COMMIT_POINT (R505). -/
  | sleepCommitPoint (t : Nat)
  /-- SLEEP_REACHED (R505). -/
  | sleepReached (t : Nat)
  /-- WAKE_N_LOW (R515). -/
  | wakeNLow (t : Nat)
  /-- RTC_ALARM (R515). -/
  | rtcAlarm (t : Nat)
  /-- SLOW_PORT_WAKE (R516). -/
  | slowPortWake (t : Nat) (addr : Nat)
  /-- WAKE_DONE (R506). -/
  | wakeDone (t : Nat)
  /-- DVFS_VOUT_CONFIRM (R512). -/
  | dvfsVoutConfirm (t : Nat) (brick : Nat) (mv : Nat)
  /-- DVFS_FAULT (R512). -/
  | dvfsFault (t : Nat) (brick : Nat) (cause : Nat)
  /-- AON_BROWNOUT (R514). -/
  | aonBrownout (t : Nat)
  /-- SNAP_IN_EDGE (R522). -/
  | snapInEdge (t : Nat)
  /-- SNAPSHOT_TRIGGER (R524). -/
  | snapshotTrigger (t : Nat) (source : Nat)
  /-- PERF_SAMPLE (R528). -/
  | perfSample (t : Nat) (counter : Nat) (value : Nat)
  /-- RECORDER_COMMIT (R532). -/
  | recorderCommit (t : Nat)
  /-- TOKEN_REFILL (R535). -/
  | tokenRefill (t : Nat) (code : Nat)
  /-- SUPPRESSION_WINDOW_CLOSE (R535). -/
  | suppressionWindowClose (t : Nat) (code : Nat)
  /-- RECOVERY_WINDOW_EXPIRY (R86). -/
  | recoveryWindowExpiry (t : Nat)
  /-- SLEW_END (R162). -/
  | slewEnd (t : Nat)
  /-- DOMAIN_PEER_COMPLETION_RX (R428). -/
  | domainPeerCompletionRx (t : Nat) (device : Nat) (status : Nat) (handle : Nat) (words : List Word)
  /-- TAMPER_CONDITION_CLEAR (R477). -/
  | tamperConditionClear (t : Nat) (source : Nat)
  /-- PAUSE_TIME_EXPIRY (R123). -/
  | pauseTimeExpiry (t : Nat) (sp : Nat) (cls : Nat)
  /-- REMOTE_FAULT_CLEAR (R114). -/
  | remoteFaultClear (t : Nat) (sp : Nat)
  /-- REF_RESTORE (R96). -/
  | refRestore (t : Nat) (quad : Nat)
  /-- PLL_RAMP_DONE (R512). -/
  | pllRampDone (t : Nat) (brick : Nat)
  /-- VCI_JOB_END (R417). -/
  | vciJobEnd (t : Nat) (page : Nat)
  /-- MGMT_PORT_FRAME_RX (R136). -/
  | mgmtPortFrameRx (t : Nat) (mp : Nat) (frame : Frame)
  /-- UNKNOWN_OPCODE_FRAME (R70). -/
  | unknownOpcodeFrame (h : Hdr) (b : Body) (opcode : Nat)
  deriving DecidableEq, Repr

end Sys2Proof
end

