-- ==== Sys2Proof/Machine/Tables.lean ====
section
/-! DEFINITION. Sparse tables kept in one canonical form: keys strictly rising. -/
namespace Sys2Proof.Machine
open Sys2Proof

/-- The entry of a table under a key. -/
def look {α : Type} : KMap α → Nat → Option α
  | [], _ => none
  | (k, v) :: r, n => if n = k then some v else look r n

/-- The entry of a table under a key, or a default. -/
def get {α : Type} (m : KMap α) (k : Nat) (d : α) : α := (look m k).getD d

/-- Whether a table has an entry under a key. -/
def has {α : Type} (m : KMap α) (k : Nat) : Bool := (look m k).isSome

/-- A table with an entry set. -/
def put {α : Type} : KMap α → Nat → α → KMap α
  | [], n, v => [(n, v)]
  | (k, w) :: r, n, v =>
    if n < k then (n, v) :: (k, w) :: r
    else if n = k then (n, v) :: r
    else (k, w) :: put r n v

/-- A table with an entry removed. -/
def del {α : Type} : KMap α → Nat → KMap α
  | [], _ => []
  | (k, w) :: r, n => if n = k then r else (k, w) :: del r n

/-- A table with an entry changed, where it has one. -/
def upd {α : Type} (m : KMap α) (k : Nat) (f : α → α) : KMap α :=
  match look m k with
  | some v => put m k (f v)
  | none => m

/-- A table with an entry changed from its default where it has none. -/
def updD {α : Type} (m : KMap α) (k : Nat) (d : α) (f : α → α) : KMap α := put m k (f (get m k d))

/-- A table without the entries a test names. -/
def dropIf {α : Type} (m : KMap α) (p : Nat → α → Bool) : KMap α := m.filter fun e => !p e.1 e.2

/-- Whether the keys rise strictly, all above a bound. -/
def risingFrom {α : Type} : Option Nat → KMap α → Bool
  | _, [] => true
  | none, (k, _) :: r => risingFrom (some k) r
  | some b, (k, _) :: r => decide (b < k) && risingFrom (some k) r

/-- The canonical form of a table. -/
def wfTable {α : Type} (m : KMap α) : Bool := risingFrom none m

/-- The lowest number from `n` that a list does not hold, looking at `f` numbers more at most; with `f` the list's length it
is found. -/
def lowestFree (used : List Nat) : Nat → Nat → Nat
  | 0, n => n
  | f + 1, n => if used.contains n then lowestFree used f (n + 1) else n

/-- A counter of a table raised by `n`. -/
def bumpTable (m : KMap Nat) (k n : Nat) : KMap Nat := if n = 0 then m else put m k (get m k 0 + n)

end Sys2Proof.Machine
end

