-- ==== Sys2Proof/Machine/RegMap.lean ====
section
/-! DEFINITION. The register map (20): every register with a field the host writes or hardware stores, its fields, access
codes, reset classes, reset values and legal values. Fields that only show other state are computed in Flags. -/
namespace Sys2Proof.Machine
open Sys2Proof

/-- Access codes (Table 0.6). `act` is a field whose write is an action and whose value is not stored here. -/
inductive Acc where
  | rw | rws | ro | w1c | rc | act
  deriving DecidableEq, Repr

/-- Reset classes (Table 0.7). -/
inductive RClass where
  | w | s | p | b
  deriving DecidableEq, Repr

/-- The legal values of a field and what replaces others (R60, R61). -/
inductive Legal where
  | any
  | range (lo hi : Nat)                   -- nearest legal value
  | signed (lo hi : Int)                  -- two's complement, nearest legal value
  | steps (lo hi st : Nat)                -- nearest step, the lower when equally near
  | codes (set : List Nat) (dflt : Nat)   -- the default for a value outside the set
  | barred (bad dflt : Nat)              -- one value replaced by another
  | perm                                  -- a lane permutation, else 0xE4 (R101)
  | etherType                             -- Table 2.1
  deriving DecidableEq, Repr

/-- A field of a register. -/
structure Field where
  hi    : Nat
  lo    : Nat
  acc   : Acc
  cls   : RClass
  reset : Nat := 0
  legal : Legal := .any
  deriving DecidableEq, Repr

/-- A register or array of registers: at `base + stride · i` for `i < count`, `words` consecutive words of the same fields. -/
structure Reg where
  base   : Nat
  stride : Nat := 4
  count  : Nat := 1
  words  : Nat := 1
  fields : List Field
  deriving DecidableEq, Repr

/-- A value that `steps` allows: the nearest, the lower when equally near (R60). -/
def nearestStep (lo hi st v : Nat) : Nat :=
  if v ≤ lo then lo else if hi ≤ v then hi
  else
    let r := (v - lo) % st
    if 2 * r ≤ st then v - r else v - r + st

/-- Whether the four two-bit entries of a lane map are a permutation (R101). -/
def isPerm (v : Nat) : Bool :=
  let e := [v % 4, v / 4 % 4, v / 16 % 4, v / 64 % 4]
  [0, 1, 2, 3].all fun k => e.contains k

/-- The EtherTypes that `CMD_ETYPE` never takes (Table 2.1). -/
def barredEtherTypes : List Nat := [0x0800, 0x0806, 0x86DD, 0x8100, 0x8808, 0x888E, 0x88A8, 0x88E5, 0x88F7]

/-- The value applied for a value requested (R60). -/
def Legal.apply (l : Legal) (width v : Nat) : Nat :=
  match l with
  | .any => v
  | .range lo hi => if v < lo then lo else if hi < v then hi else v
  | .signed lo hi =>
    let x := signedOf width v
    unsignedOf width (if x < lo then lo else if hi < x then hi else x)
  | .steps lo hi st => nearestStep lo hi st v
  | .codes set d => if set.contains v then v else d
  | .barred bad d => if v = bad then d else v
  | .perm => if isPerm v then v else 0xE4
  | .etherType => if v < 0x0600 then 0x0600 else if barredEtherTypes.contains v then 0x88B5 else v

/-- A configuration field of class W. -/
def fW (hi lo reset : Nat) (legal : Legal := .any) : Field := ⟨hi, lo, .rw, .w, reset, legal⟩
/-- A field written only by safe writes, class S (RWS). -/
def fS (hi lo reset : Nat) (legal : Legal := .any) : Field := ⟨hi, lo, .rws, .s, reset, legal⟩
/-- A flag cleared by writing 1, class W. -/
def fFlag (hi lo : Nat) : Field := ⟨hi, lo, .w1c, .w, 0, .any⟩
/-- A clear-on-read counter, class W. -/
def fCount (hi lo : Nat) : Field := ⟨hi, lo, .rc, .w, 0, .any⟩
/-- An action bit. -/
def fAct (b : Nat) : Field := ⟨b, b, .act, .w, 0, .any⟩
/-- A status field that hardware stores, class W. -/
def fHw (hi lo : Nat) : Field := ⟨hi, lo, .ro, .w, 0, .any⟩

/-- The transmit FIR fields (Table 4.3) with their reset values. -/
def firFields (main pre : Nat) : List Field :=
  [fS 20 16 8 (.range 0 16), fS 14 8 main (.range 32 64), fS 4 0 pre (.range 0 16)]

/-- Global, command, lane and port registers (20.6, 02, 04, 05). -/
def regsA : List Reg :=
  [ ⟨0x000040, 4, 1, 1, [fAct 9, fHw 8 8, fHw 7 4, fW 3 3 0, fW 2 2 0, fW 1 1 0, fW 0 0 0]⟩,
    ⟨0x000048, 4, 1, 1, [fAct 17, fW 16 16 0, fS 15 8 30 (.range 1 255)]⟩,
    ⟨0x000050, 4, 1, 1, [⟨15, 12, .ro, .p, 0, .any⟩, ⟨7, 1, .w1c, .p, 0, .any⟩, ⟨0, 0, .w1c, .p, 1, .any⟩]⟩,
    ⟨0x000054, 4, 1, 1, [⟨2, 2, .w1c, .p, 0, .any⟩]⟩,
    ⟨0x000064, 4, 1, 1, [fS 14 0 0]⟩,
    ⟨0x1F0000, 4, 1, 1, [fS 15 0 0x88B5 .etherType]⟩,
    ⟨0x1F0004, 4, 1, 1, [fS 17 17 1, fS 16 16 1, fS 15 8 0, fS 7 0 0]⟩,
    ⟨0x1F0008, 4, 1, 1, [fS 11 0 899 (.range 0 3599)]⟩,
    ⟨0x010000, 4, 9, 1, [fS 15 8 0xE4 .perm, fS 7 0 0xE4 .perm]⟩,
    ⟨0x010200, 4, 1, 1, [fS 1 1 1, fS 0 0 1]⟩,
    ⟨0x010204, 4, 1, 1, [fCount 31 16, fFlag 1 1, fFlag 0 0]⟩,
    ⟨0x011000, 0x20, 36, 1, [fS 3 3 0, fS 2 2 0]⟩,
    ⟨0x011004, 0x20, 32, 1, firFields 52 4⟩,
    ⟨0x011404, 0x20, 4, 1, firFields 56 0⟩,
    ⟨0x011008, 0x20, 36, 1, [fS 16 16 1, fS 12 12 1, fS 11 8 8]⟩,
    ⟨0x020000, 0x10, 2, 1, [fW 29 16 9216 (.range 1518 9216), fW 5 4 0, fW 0 0 1]⟩,
    ⟨0x020020, 0x10, 4, 1, [fW 29 16 9216 (.range 1518 9216), fW 0 0 1]⟩,
    ⟨0x020008, 0x10, 4, 1, [fW 23 16 0xC0, fW 15 8 10 (.range 1 128), fW 2 2 0, fW 0 0 0]⟩,
    ⟨0x020080, 4, 2, 1, [fW 25 16 200 (.range 1 1000), fW 8 8 0, fW 7 0 0]⟩,
    ⟨0x020100, 4, 1, 1, [fCount 31 16]⟩,
    ⟨0x021000, 0x40, 18, 12, [fCount 31 0]⟩,
    ⟨0x024800, 8, 2, 2, [fFlag 24 0]⟩ ]

/-- Time unit, classification, SA store, brick and trunk registers (06 to 10). -/
def regsB : List Reg :=
  [ ⟨0x040000, 4, 1, 1, [fFlag 8 8]⟩,
    ⟨0x040030, 4, 1, 1, [fW 31 0 0 (.signed (-6553600) 6553600)]⟩,
    ⟨0x040034, 4, 1, 1, [fW 31 0 0]⟩,
    ⟨0x040038, 4, 1, 1, [fW 31 0 0 (.signed (-999999999) 999999999)]⟩,
    ⟨0x04003C, 4, 1, 1, [fAct 0]⟩,
    ⟨0x040040, 4, 1, 1, [fS 31 16 10 (.range 1 10000), fS 5 4 1 (.codes [0, 1] 1), fS 1 0 1]⟩,
    ⟨0x040050, 4, 1, 1, [fS 19 10 100 (.range 1 500), fS 9 8 2 (.codes [0, 1, 2] 2), fS 7 7 0]⟩,
    ⟨0x040060, 4, 1, 1, [fS 9 0 96 (.range 64 1023)]⟩,
    ⟨0x040100, 0x10, 4, 1, [fS 31 16 0, fS 15 0 0]⟩,
    ⟨0x040104, 0x10, 4, 1, [fHw 31 0]⟩,
    ⟨0x040108, 0x10, 4, 1, [fCount 31 16, fCount 15 8, fCount 7 0]⟩,
    ⟨0x040200, 8, 8, 1, [fW 31 0 0]⟩,
    ⟨0x040204, 8, 8, 1, [fW 31 31 0, fFlag 30 30, fHw 29 29, fHw 28 28, fW 7 0 0]⟩,
    ⟨0x050000, 0x100, 4, 1, [fW 31 20 300 (.range 1 3600), fW 16 16 1, fW 11 8 4 (.range 1 8), fW 0 0 0]⟩,
    ⟨0x050004, 0x100, 4, 1, [fFlag 24 24]⟩,
    ⟨0x050010, 0x100, 4, 5, [fCount 31 0]⟩,
    ⟨0x060000, 4, 2, 1, [fW 3 2 0 (.codes [0, 1, 2] 0)]⟩,
    ⟨0x060020, 4, 1, 4, [fCount 31 0]⟩,
    ⟨0x070000, 0x100, 4, 1, [fW 23 16 0xC0, fW 0 0 1]⟩,
    ⟨0x070008, 0x100, 4, 1, [fW 25 16 800 (.range 0 800)]⟩,
    ⟨0x070010, 0x100, 4, 8, [fCount 31 0]⟩,
    ⟨0x070400, 4, 1, 5, [fCount 31 0]⟩,
    ⟨0x090000, 0x100, 2, 1, [fW 15 8 20 (.range 1 255), fHw 4 4, fW 3 3 1, fW 2 2 1, fW 1 1 0]⟩,
    ⟨0x090010, 0x100, 2, 9, [fCount 31 0]⟩,
    ⟨0x097000, 0x100, 2, 16, [fW 31 0 0]⟩,
    ⟨0x097040, 0x100, 2, 1, [fAct 31, fW 30 28 0 (.codes [0, 1] 0), fW 27 24 0, fW 23 0 0]⟩,
    ⟨0x097044, 0x100, 2, 1, [fHw 31 0]⟩ ]

/-- Queue, bond, vault, kiln, lattice and memory registers (11 to 16). -/
def regsC : List Reg :=
  [ ⟨0x0A0000, 4, 1, 1, [fW 25 16 100 (.range 1 1000)]⟩,
    ⟨0x0A0010, 4, 4, 1, [fW 30 16 16384 (.range 4 16384), fW 14 0 256 (.range 4 4096)]⟩,
    ⟨0x0A0100, 0x20, 4, 8, [fW 30 16 8192 (.range 0 16384), fW 14 0 16 (.range 0 1024)]⟩,
    ⟨0x0A0200, 0x20, 4, 8, [fW 13 0 9216 (.range 64 9216)]⟩,
    ⟨0x0A0300, 0x20, 4, 5, [fCount 31 0]⟩,
    ⟨0x0A0400, 0x10, 4, 1, [fFlag 17 17]⟩,
    ⟨0x0A7000, 4, 1, 16, [fW 31 0 0]⟩,
    ⟨0x0A7040, 4, 1, 1, [fAct 31, fW 30 28 0 (.codes [0, 1] 0), fW 27 24 0, fW 23 0 0]⟩,
    ⟨0x0A7044, 4, 1, 1, [fHw 31 0]⟩,
    ⟨0x0B0000, 4, 1, 1, [fW 28 24 12 (.range 8 20), fW 20 16 4 (.range 4 20), fW 15 12 8 (.range 2 15),
      fW 11 11 1, fW 10 10 1, fW 9 9 1, fW 8 8 1, fW 7 0 105 (.range 70 110)]⟩,
    ⟨0x0B0004, 4, 1, 1, [fFlag 15 15]⟩,
    ⟨0x0B0010, 4, 1, 4, [fCount 31 0]⟩,
    ⟨0x0C0004, 4, 1, 1, [fS 0 0 0]⟩,
    ⟨0x0C0100, 4, 1, 1, [fS 29 29 0, fS 28 28 0, fS 27 27 0, fS 23 16 1 (.range 1 64), fS 14 12 0,
      fS 11 0 0 (.barred 4095 0)]⟩,
    ⟨0x0C0108, 4, 1, 1, [fS 31 0 0]⟩,
    ⟨0x0C0120, 4, 1, 4, [fCount 31 0]⟩,
    ⟨0x0D0000, 4, 1, 1, [fS 1 0 1 (.range 0 2)]⟩,
    ⟨0x0D0010, 4, 1, 4, [fCount 31 0]⟩,
    ⟨0x0E0010, 4, 1, 3, [fCount 31 0]⟩,
    ⟨0x100000, 4, 1, 1, [fS 13 8 0 (.range 0 60)]⟩,
    ⟨0x100008, 4, 1, 1, [fS 23 16 24 (.range 1 168), fS 6 0 8 (.range 1 64)]⟩,
    ⟨0x100020, 4, 1, 1, [⟨31, 0, .ro, .p, 0, .any⟩]⟩,
    ⟨0x100024, 4, 1, 1, [⟨2, 0, .ro, .p, 0, .any⟩]⟩,
    ⟨0x100028, 4, 1, 1, [⟨31, 31, .w1c, .p, 0, .any⟩, ⟨27, 24, .ro, .p, 0, .any⟩, ⟨23, 16, .ro, .p, 0, .any⟩,
      ⟨15, 8, .ro, .p, 0, .any⟩, ⟨0, 0, .ro, .p, 0, .any⟩]⟩,
    ⟨0x100030, 4, 1, 4, [fCount 31 0]⟩ ]

/-- A tamper source's configuration with its reset response (Table 17.1). -/
def tmpSrc (n resp : Nat) : Reg := ⟨0x110000 + 4 * n, 4, 1, 1, [⟨4, 4, .rw, .b, 1, .any⟩, ⟨2, 0, .rw, .b, resp, .any⟩]⟩

/-- Tamper, power and observability registers (17 to 19). -/
def regsD : List Reg :=
  [ tmpSrc 0 0, tmpSrc 1 0, tmpSrc 2 1, tmpSrc 3 1, tmpSrc 4 1, tmpSrc 5 1, tmpSrc 6 1, tmpSrc 7 2, tmpSrc 8 2,
    tmpSrc 9 0, tmpSrc 10 0, tmpSrc 11 6, tmpSrc 12 6, tmpSrc 13 6, tmpSrc 14 5, tmpSrc 15 0,
    ⟨0x110040, 4, 1, 1, [⟨12, 8, .rw, .b, 10, .range 0 20⟩, ⟨4, 0, .rw, .b, 10, .range 0 20⟩]⟩,
    ⟨0x110044, 4, 1, 1, [fAct 0]⟩,
    ⟨0x110100, 4, 16, 1, [⟨15, 0, .rc, .b, 0, .any⟩]⟩,
    ⟨0x120008, 4, 1, 1, [⟨2, 2, .rw, .p, 0, .any⟩, ⟨1, 1, .rw, .p, 1, .any⟩, ⟨0, 0, .rw, .p, 1, .any⟩]⟩,
    ⟨0x12000C, 4, 1, 1, [⟨31, 0, .rw, .p, 0, .any⟩]⟩,
    ⟨0x120010, 4, 1, 1, [⟨15, 0, .rw, .p, 0, .any⟩]⟩,
    ⟨0x120020, 4, 4, 1, [fW 10 0 1600 (.steps 800 1700 25)]⟩,
    ⟨0x120030, 4, 4, 1, [fFlag 31 31]⟩,
    ⟨0x130000, 4, 1, 1, [⟨6, 6, .rw, .s, 1, .any⟩, ⟨5, 5, .rw, .s, 1, .any⟩, ⟨3, 3, .rw, .s, 1, .any⟩,
      ⟨2, 2, .rw, .s, 0, .any⟩, ⟨1, 1, .rw, .s, 0, .any⟩, ⟨0, 0, .rw, .s, 0, .any⟩]⟩,
    ⟨0x130004, 4, 1, 1, [fAct 2, fAct 1, fW 0 0 0]⟩,
    ⟨0x130008, 4, 1, 1, [fCount 31 16]⟩,
    ⟨0x13000C, 4, 1, 1, [⟨15, 0, .rw, .s, 0x1004, .any⟩]⟩,
    ⟨0x130050, 4, 1, 1, [fAct 1, fW 0 0 0]⟩,
    ⟨0x130054, 4, 1, 1, [fCount 31 16, fFlag 5 0]⟩,
    ⟨0x130100, 4, 48, 1, [fW 31 31 0, fW 30 29 0 (.codes [0, 1, 2] 0), fW 23 16 0, fW 4 0 0]⟩,
    ⟨0x130400, 4, 1, 1, [fS 0 0 1]⟩,
    ⟨0x140000, 4, 1, 1, [fS 23 16 32 (.range 1 255), fS 6 0 10 (.range 1 100)]⟩,
    ⟨0x14000C, 4, 1, 2, [fCount 31 0]⟩ ]

/-- Whether an address is one of a row's registers. -/
def Reg.covers (r : Reg) (a : Nat) : Bool :=
  decide (r.base ≤ a) &&
    (let d := a - r.base
     if r.words = 1 then decide (d % r.stride = 0) && decide (d / r.stride < r.count)
     else if r.count = 1 then decide (d % 4 = 0) && decide (d / 4 < r.words)
     else decide (d / r.stride < r.count) && decide (d % r.stride % 4 = 0) && decide (d % r.stride / 4 < r.words))

/-- The fields stored at an address, none where it stores nothing. -/
def fieldsAt (a : Nat) : List Field :=
  let pick := fun (l : List Reg) => l.find? (·.covers a)
  let b := a / 0x10000
  let r := if b < 4 ∨ b = 0x1F then pick regsA else if b < 0x0A then pick regsB else if b < 0x11 then pick regsC else pick regsD
  match r with
  | some x => x.fields
  | none => []

/-- The word whose fields take the values a rule gives. -/
def wordOf (fs : List Field) (v : Field → Nat) : Word :=
  fs.foldl (fun w f => w.withBits f.hi f.lo (v f)) 0

/-- The reset word of an address (20, and every field map). -/
def resetWord (a : Nat) : Word := wordOf (fieldsAt a) (·.reset)

/-- The mask of the bits that writes compare and set: RW and RWS (R548). -/
def rwMask (a : Nat) : Word :=
  (fieldsAt a).foldl (fun m f => if f.acc = .rw ∨ f.acc = .rws then m ||| Word.mask f.hi f.lo else m) 0

/-- Whether the block of an address exists (R544). -/
def blockExists (a : Nat) : Bool := decide (a / 0x10000 ≤ 0x14) || decide (a / 0x10000 = 0x1F)

/-- The addresses of every register that stores a field. -/
def storedAddrs : List Nat :=
  (regsA ++ regsB ++ regsC ++ regsD).flatMap fun r =>
    (List.range r.count).flatMap fun i => (List.range r.words).map fun j => r.base + r.stride * i + 4 * j

end Sys2Proof.Machine
end

