-- ==== Sys2Proof/Machine/State.lean ====
section
/-! DEFINITION. The state of the block, unit by unit, its reset value, and the outcomes of a step other than a next state.
Every field's default is its value at reset; where the spec gives none, log entry 1 names the value. -/
namespace Sys2Proof.Machine
open Sys2Proof

/-! ## Codes -/

/-- Where a frame stands in a brick or beyond it (R242 to R247, R582, R323). -/
inductive Stage where
  | staging        -- bulk: waiting for its last byte (R582)
  | miss           -- waiting for a context fetch (R248)
  | dispatch       -- at the bulk dispatcher (R246)
  | laneWait       -- express, behind an earlier frame of its SC (R247)
  | tile           -- in a bulk tile or the express lane
  | done           -- finished, in the reorder buffer
  | queue          -- in the traffic manager or an express hold
  deriving DecidableEq, Repr

/-! ## 02: the command interface -/

/-- A completion or notification sent (Table 2.5, R36, R40, R50, R59): transport, VLAN tag, addresses, header fields, elements, and the
16 MAC bytes. -/
structure Completion where
  via      : Via
  vlan     : Option VTag
  dstMac   : Nat
  srcMac   : Nat
  world    : Nat
  mailbox  : Nat
  notify   : Bool
  tag      : Nat
  opcode   : Nat
  sequence : Nat
  session  : Nat
  status   : Nat
  detail   : Nat
  elems    : Body
  mac      : List Nat
  deriving DecidableEq, Repr

/-- An open session (R43 to R47): its credential and world, the highest SEQUENCE accepted, those accepted below it,
the notification counter, the instant it last accepted a command, whether a SESSION_CLOSE waits, its transport, and its 256-bit key. -/
structure Session where
  cred    : Cred
  world   : Nat
  high    : Nat := 0
  seen    : List Nat := []
  nextSeq : Nat := 1
  last    : Nat
  closing : Bool := false
  via     : Via
  key     : Nat := 0
  deriving DecidableEq, Repr

/-- What a started command waits for before it completes. -/
inductive Await where
  | start                                    -- not started: its mailbox's turn, FENCE or a command slot (R29, R52)
  | held                                     -- started: another command holds an object it names (R52)
  | close                                    -- SESSION_CLOSE: earlier commands of the session (R47)
  | keyBus (entry : Nat)                     -- SA_INSTALL: the key bus transfer (R27)
  | trunkKeys (port : Nat)                   -- PATH_CONFIG: the trunk key transfers (R288)
  | zeroised (entries : List Nat) (scKey : Option Nat)   -- SA_ERASE, SC_DELETE: zeroisation (R231, R210)
  | caDeleted (ca : Nat)                     -- MKA_CONFIG delete: the erasures of the CA's range (R240)
  | switch (scKey : Nat)                     -- SA_SWITCH_TX: the commit (R226)
  | job (id : Nat)                           -- a vault job (R401)
  | keyErase (handle : Nat)                  -- KEY_ERASE: jobs using the key (R384)
  | page (n : Nat)                           -- a vault-cipher page (R416)
  | svc (id : Nat)                           -- a service operation: its targets (R430, R432, R448)
  | tenant (n : Nat)                         -- TENANT_CREATE delete: the tenant's jobs (R441)
  | table (brick job : Nat)                  -- TABLE_INSERT, TABLE_DELETE: the write engine (R183, R200)
  | power                                    -- POWER_STATE_SET: the sequencer idle (R501)
  | dvfs (brick : Nat)                       -- DVFS_SET: the end of its sequence (R512)
  deriving DecidableEq, Repr

/-- A command admitted and not completed (R51): the identity its completion needs, its session's key, the objects it names (R52), the
reports that join its completion, and what it waits for. -/
structure Flight where
  via      : Via
  vlan     : Option VTag
  srcMac   : Nat
  world    : Nat
  mailbox  : Nat
  tag      : Nat
  opcode   : Nat
  sequence : Nat
  session  : Nat
  fence    : Bool
  key      : Nat := 0
  names    : List (Nat × Nat) := []
  report   : Body := []
  await    : Await
  deriving DecidableEq, Repr

/-- A long operation tracked (R54): opcode, whether it has ended, its status, its result elements and its opener. -/
structure LongOp where
  opcode  : Nat
  world   : Nat
  mailbox : Nat := 0
  tag     : Nat := 0
  done    : Bool := false
  status  : Nat := 1
  elems   : Body := []
  deriving DecidableEq, Repr

/-- A subscription (R59). -/
structure Subscription where
  mailbox : Nat
  session : Nat
  classes : List NotifyClass
  via     : Via
  deriving DecidableEq, Repr

/-- Chapter 02: challenges outstanding (value, issue instant), sessions by identifier, commands in flight, long
operations by OP_ID, subscriptions, the instants of unauthenticated completions of the last second by transport
(R50), the slow port's inbound bytes, the frame it has submitted, undelivered completions and read position (R37, R38), the commands
admitted that have not run, by 65,536 · mailbox + tag, the one of them whose turn is taken, and the mailbox last granted a start (R51). -/
structure CmdSt where
  challenges : List (Nat × Nat) := []
  sessions   : KMap Session := []
  flights    : List Flight := []
  ops        : KMap LongOp := []
  nextOp     : Nat := 1
  subs       : List Subscription := []
  unauth     : List (Via × Nat) := []
  slowIn     : List Nat := []
  slowFrame  : Option (List Nat) := none
  slowOut    : List (List Nat) := []
  slowPos    : Nat := 0
  parked     : KMap Instr := []
  turn       : Option (Nat × Nat) := none
  lastBox    : Nat := 255
  deriving DecidableEq, Repr

/-! ## 03: start-up, images, reset -/

/-- An image slot of the flash (R79, R83): the words IMAGE_WRITE has put in it since it was last erased (an unlisted one reads all ones),
whether IMAGE_WRITE has erased it, and the SVN and BUILD of what it holds. A slot not erased holds the image of manufacture, whose SVN
the model takes as 1 and whose BUILD as 0; it passes the header checks of R80 (log entry 24). -/
structure ImageSlot where
  words : KMap Word := []
  known : Bool := false
  svn   : Nat := 1
  build : Nat := 0
  deriving DecidableEq, Repr

/-- A bank: its two images, whether IMAGE_WRITE has marked it not bootable (R83), and its measurement M3 once booted (R81). -/
structure Bank where
  cmd     : ImageSlot := {}
  vlt     : ImageSlot := {}
  spoiled : Bool := false
  m3      : List Word := []
  deriving DecidableEq, Repr

/-- Chapter 03: the supplies and the reset line, the boot, the flash banks and selector journal, fuses, BBD secrets,
and resets scheduled. `step` counts Table 3.2 (0: in reset, 1 to 3 the boot ROM, 4, 5 the firmware, 6 the vault's
first tests passed, 8 EXPRESS_READY, 10 FULL_READY). -/
structure BootSt where
  supplyOk    : Bool := false
  supplyLost  : Nat := 0                    -- the last instant a supply group was below its threshold (R72)
  resetN      : Bool := false
  held        : Bool := true                -- the device holds itself in reset
  kind        : Option Nat := some 0        -- the kind of the reset or boot in progress, as `resetBy` numbers it (R89)
  releasedAt  : Nat := 0
  step        : Nat := 0
  slvAdr      : Nat := 0
  -- flash: boot control (the xSPI clock of octal DTR in MHz, the journal's entries, oldest first, in each of its two copies) and banks
  xspiClock   : Nat := 200
  journal0    : List (Bool × Bool) := []
  journal1    : List (Bool × Bool) := []
  bankA       : Bank := {}
  bankB       : Bank := {}
  committedB  : Bool := false
  trialPending : Bool := false
  trialBoot   : Bool := false
  runningB    : Bool := false
  romRecovery : Bool := false
  fullAt      : Option Nat := none          -- FULL_READY held since
  resealing   : Option Nat := none          -- OP_ID of an IMAGE_ACTIVATE re-sealing
  warmAt      : Option Nat := none          -- a command warm reset is scheduled
  recoveryUntil : Option Nat := none        -- RECOVERY by takeover
  recoveryFallback : Bool := false          -- RECOVERY by fallback until RECOVERY_CLR
  certsOk     : Bool := true                -- the certificates name the identity keys (R390)
  -- fuses
  grade       : Nat := 0
  serial      : Nat := 0
  idSeed      : Nat := 0                    -- the 256-bit identity seed (R372)
  mac         : Nat := 0
  minSvn      : Nat := 0
  decomFuse   : Bool := false
  debugFused  : Bool := false
  -- battery-backed domain
  rootSecret  : Option Nat := none
  bbdLost     : Bool := false               -- lost power or failed its check (R75)
  bbdCode     : Nat := 0
  bbdCount    : Nat := 0
  bbdInitBoot : Bool := false               -- initialised at the boot in progress
  flashCode   : Nat := 0
  flashCount  : Nat := 0
  flashRecOk  : Bool := true                -- the flash gives the lifecycle record as it was written (R388)
  flashMac    : Option (List Nat) := none   -- the MAC of the lifecycle record under K_record, none for the record of manufacture
  deriving DecidableEq, Repr

/-! ## 04: serial lanes -/

/-- A lane (0–31 main, 32–35 A0–A3): what LNE_LANE_STAT shows, and a pattern test in progress (R108). -/
structure Lane where
  powered   : Bool := false
  sigDet    : Bool := false
  cdrLock   : Bool := false
  adaptDone : Bool := false
  ctleLive  : Nat := 0
  dfe       : List Nat := []
  test      : Option (Nat × Nat) := none       -- (action, pattern)
  errored   : Nat := 0
  compared  : Nat := 0
  checkLock : Bool := false
  deriving DecidableEq, Repr

/-- A bond lane (R102 to R107). Receive: framing, the last frame count, the position in the frame, the fill of the elastic buffer, the
far end's remote defect; whether a marker has been found, destuffed bits not yet in a block, the run of identical bits and the last bit,
the descrambler's state. Transmit: remote defect, position and count of the frame, the scrambler's state, the run and the last bit, bond
layer bytes that wait. -/
structure BondLane where
  inFrame   : Bool := false
  good      : Nat := 0
  errored   : Nat := 0
  count     : Nat := 0
  pos       : Nat := 0
  fill      : Nat := 8
  farRdi    : Bool := false
  sendRdi   : Bool := true
  searching : Bool := true
  aligned   : Bool := false
  rxBuf     : List Bool := []
  rxRun     : Nat := 0
  rxLast    : Bool := false
  rxScr     : Nat := 32767
  txPos     : Nat := 0
  txCount   : Nat := 0
  txScr     : Nat := 32767
  txRun     : Nat := 0
  txLast    : Bool := false
  txData    : List Nat := []
  deriving DecidableEq, Repr

/-- A LANE_MARGIN in progress (R109): its OP_ID, lanes still to measure in order, target, results so far. -/
structure MarginOp where
  op      : Nat
  lanes   : List Nat
  target  : Nat
  results : Body := []
  deriving DecidableEq, Repr

/-- Chapter 04. -/
structure LaneSt where
  lanes   : KMap Lane := []
  refOk   : List Nat := []            -- quads whose reference is within limits
  a0      : BondLane := {}
  a1      : BondLane := {}
  margins : List MarginOp := []
  deriving DecidableEq, Repr

/-! ## 05: ports and MAC -/

/-- Pause of one class of a clear sub-port (R123, R125): paused by PAUSE until, paused by PFC until, honoured continuously since, ignored
until. -/
structure PauseSt where
  until_  : Nat := 0
  pfc     : Nat := 0
  since   : Option Nat := none
  ignore  : Nat := 0
  deriving DecidableEq, Repr

/-- The frame a MAC is sending (R129 to R131): the brick or queue frame, bytes of the current fragment sent, bytes of the
frame still to send, whether it is preemptable, and whether its FCS is to be inverted. -/
structure TxFrame where
  id       : Nat
  len      : Nat
  remain   : Nat
  preempt  : Bool
  stomp    : Bool := false
  cut      : Bool := false
  parts    : Nat := 0            -- fragments of it already sent (R133)
  started  : Nat := 0
  deriving DecidableEq, Repr

/-- A sub-port (key: 0–7 CP0.k, 8–15 CP1.k, 16 MP0, 17 MP1, 18 LP0, 19 LP1). -/
structure SubPort where
  link        : Bool := false
  localFault  : Bool := false
  remoteFault : Bool := false
  sendFault   : Bool := false               -- transmits local fault (R118)
  verify      : Nat := 0                     -- PRT_MM_STAT code
  attempts    : Nat := 0
  verifyAt    : Nat := 0                     -- when the last verify attempt began (R128)
  pause       : KMap PauseSt := []
  tx          : Option TxFrame := none
  suspended   : Option TxFrame := none       -- a preempted frame
  deriving DecidableEq, Repr

/-- A captured failed frame (Table 5.4). -/
structure Capture where
  port    : Nat
  sub     : Nat
  flags   : Nat
  origLen : Nat
  capLen  : Nat
  stamp   : Nat
  sc      : Nat
  seq     : Nat
  bytes   : List Word
  deriving DecidableEq, Repr

/-- Chapter 05: sub-ports, the breakout in force per clear port, the capture queue, the 64-bit totals
(key 16·s + counter), the line counters (key 64·(p−2) + 32·transmit + counter). -/
structure PortSt where
  subs     : KMap SubPort := []
  live     : KMap Nat := []
  capture  : List Capture := []
  capSeq   : Nat := 1
  totals   : KMap Nat := []
  line     : KMap Nat := []
  deriving DecidableEq, Repr

/-! ## 06: time -/

/-- A one-step frame between injection and release (R157): egress sub-port, transport, the message (its time and correction written by the
tile at dispatch), the SA entry and PN it takes there, the receive time that a Pdelay_Resp's turnaround counts from, departure and release instants (fast time in
quarter nanoseconds), whether dispatched and at the release stage, and whether a step or epoch fell after dispatch. -/
structure OneStep where
  port       : Nat
  transport  : Nat := 0
  msg        : PtpMsg
  sa         : Option (Nat × Nat) := none
  since      : Nat := 0
  tDep       : Nat
  tRel       : Nat
  dispatched : Bool := false
  atRelease  : Bool := false
  disturbed  : Bool := false
  deriving DecidableEq, Repr

/-- A PTP port as configured (Table 6.3), with its state of the best master clock algorithm, the instant it restarted, the best clock
announced to it with its source and the instant of that Announce, the sequence numbers last sent by kind, and the exchanges of IEEE 1588
in progress. Times are in 2^-16 ns. -/
structure PtpPort where
  port      : Nat
  sub       : Nat
  transport : Nat
  step      : Nat
  txSc      : Nat
  rxSc      : Nat
  logSync   : Int
  logPdelay : Int
  role      : Nat
  state     : Nat := 0              -- 0 listening, 1 slave, 2 master, 3 passive
  since     : Nat := 0
  best      : Option (PtpClock × Nat) := none
  bestAt    : Nat := 0
  seqs      : KMap Nat := []
  sentSync  : Option (Nat × Nat) := none           -- sequence and transmit timestamp of the last Sync
  rxSync    : Option (Nat × Nat × Int) := none     -- a two-step Sync: sequence, receive timestamp, correction
  syncDiff  : Option Int := none                   -- t2 − t1 of the last Sync
  sentReq   : Option (Nat × Nat) := none           -- Delay_Req sent: sequence, transmit timestamp
  reqDiff   : Option Int := none                   -- t4 − t3 of the last Delay_Req
  rxReq     : Option (Nat × Nat × Nat × Int) := none   -- Delay_Req received: requester, sequence, receive timestamp, correction
  sentPd    : Option (Nat × Nat) := none           -- Pdelay_Req sent
  rxPd      : Option (Nat × Nat × Nat × Int) := none   -- Pdelay_Req received
  pdResp    : Option (Nat × Nat × Nat) := none     -- Pdelay_Resp sent: requester, sequence, transmit timestamp
  pdGot     : Option (Nat × Nat × Nat × Int) := none   -- two-step Pdelay_Resp received: sequence, t4, t2, correction
  linkDelay : Int := 0
  deriving DecidableEq, Repr

/-- A comparator TMU_MATCH[n] (R142 to R145). -/
structure Match where
  armed   : Bool := false
  instant : Nat := 0
  deriving DecidableEq, Repr

/-- Chapter 06. Time of day is held as the value it had at `todAt`: `tod` counts 2^-16 ns since the PTP epoch;
it advances with the rate adjustment and the slew from there (R137, R162). -/
structure TimeSt where
  running   : Bool := false
  tod       : Nat := 0
  todAt     : Nat := 0
  epoch     : Nat := 1
  sync      : Bool := false
  stepAvail : Bool := false
  slewing   : Bool := false
  slewNeg   : Bool := false
  slewGoal  : Nat := 0               -- offset to remove, 2^-16 ns
  slewAt    : Nat := 0
  refSel    : Nat := 0
  ref10Ok   : Bool := false
  ppsInOk   : Bool := false
  ppsInEdge : Option Nat := none
  ppsFrom   : Nat := 0               -- the instant from which an edge is awaited where none has come
  ppsLost   : Bool := false          -- the fault of the missing edge has been raised
  ppsStamp  : Nat := 0
  ppsSec    : Nat := 0
  ppsOut    : Bool := false
  ppsLast   : Option Nat := none
  ppsFall   : Option Nat := none
  offset    : Int := 0
  syncRun   : Nat := 0
  lastMeas  : Option Nat := none
  latched   : Nat := 0               -- time of day latched by a read of SEC_HI
  matchs    : KMap Match := []
  ptpType   : Nat := 0
  ptpProfile : Nat := 2
  ptpDomain : Nat := 0
  ptpPrio1  : Nat := 0
  ptpPorts  : List PtpPort := []
  ptpDiscard : Nat := 0
  ptpIn     : List (Nat × Nat) := []  -- PTP frames consumed and verified that the firmware has not read: port, receive timestamp
  oneSteps  : KMap OneStep := []      -- by PTP port
  trunkDelta : KMap Int := []         -- remote delta to send, by line port
  trunkDin  : KMap Int := []
  trunkDout : KMap Int := []
  trunkMean : KMap Int := []          -- mean path delay of a slave trunk port (R166)
  lastTrunk : Nat := 0
  -- battery-backed domain
  rtc       : Nat := 0               -- counter value at `rtcAt`
  rtcAt     : Nat := 0
  savedTod  : Nat := 0
  savedRtc  : Nat := 0
  deriving DecidableEq, Repr

/-! ## 07: classification -/

/-- A flow table way (Table 7.6). A tombstone is not valid and keeps its key and ALT_BKT. -/
structure FlowEntry where
  key    : Nat
  sc     : Nat
  static : Bool
  hit    : Bool := false
  age    : Nat := 0
  clsOvr : Bool := false
  cls    : Nat := 0
  tomb   : Bool := false
  alt    : Nat := 0
  deriving DecidableEq, Repr

/-- A learn message (Table 7.8). -/
structure LearnMsg where
  remove : Bool
  brick  : Nat
  sc     : Nat
  key    : Nat
  mirrored : Bool := false
  deriving DecidableEq, Repr

/-- An insertion whose relocation chain is being performed (R184, R185): moves still to do, last first, as
(from way, to way), the way whose key has moved and the instant its tombstone is set, the new entry with its way, the host job it is
for, and whether its SC has been deleted meanwhile (R199). -/
structure Chain where
  moves  : List (Nat × Nat)
  held   : Option (Nat × Nat)
  entry  : FlowEntry
  way    : Nat
  origin : Option Nat := none
  void   : Bool := false
  deriving DecidableEq, Repr

/-- A change that waits for a brick's write engine (R183): a learn message, a host's flow insertion, flow removal or VLAN write by job
number, the ager's removal of a key. -/
inductive TabWork where
  | learn (m : LearnMsg)
  | insert (job : Nat) (e : FlowEntry)
  | remove (job key : Nat)
  | vlan (job index : Nat) (w : Word)
  | aged (key : Nat)
  deriving DecidableEq, Repr

/-- A rehash in progress (R190): OP_ID, new seeds, the instant it began, the way the copy has reached, the shadow bank, and whether an
entry has found no place in it (R191). -/
structure Rehash where
  op     : Nat
  seed0  : Nat
  seed1  : Nat
  start  : Nat
  pos    : Nat := 0
  shadow : KMap FlowEntry := []
  bad    : Bool := false
  deriving DecidableEq, Repr

/-- An LPM prefix and its result (Table 7.7, Table 7.9). -/
structure Lpm where
  family : Nat
  len    : Nat
  addr   : Nat
  action : Nat
  cls    : Nat
  deriving DecidableEq, Repr

/-- The tables of one brick. A flow way's key is ((table · 8192 + bucket) · 4 + way). `work` holds in arrival order what waits for the
write engine; the sweep of the ager has its start, its period P and the next way to visit (R187). -/
structure BrickTables where
  vlan    : KMap Word := []
  flow    : KMap FlowEntry := []
  seed0   : Nat := 0
  seed1   : Nat := 0
  bank    : Bool := false
  chain   : Option Chain := none
  rehash  : Option Rehash := none
  lpm     : List Lpm := []
  work    : List TabWork := []
  nextJob : Nat := 0
  sweepAt : Nat := 0
  sweepP  : Nat := 0
  visited : Nat := 0
  filter  : KMap (Nat × Nat × Nat) := []          -- learn filter: key, SC, instant
  deriving DecidableEq, Repr

/-- Chapter 07: the tables by brick. -/
structure ClsSt where
  bricks : KMap BrickTables := []
  deriving DecidableEq, Repr

/-! ## 08: secure channels -/

/-- A secure channel (Table 8.2, Table 8.3). `cfg` holds the writable fields; ENC_AN and ENC_VALID are `enc`. -/
structure Sc where
  sci      : Nat
  cfg      : Word
  window   : Nat := 0
  link     : Word := 0
  thresh   : Nat := 192
  retire   : Nat := 1000
  ans      : KMap Nat := []               -- AN to SA entry index
  enc      : Option Nat := none
  pending  : Option Nat := none           -- AN of a switch that waits for priming
  deleting : Bool := false
  counters : KMap Nat := []               -- by ScCounter code
  deriving DecidableEq, Repr

/-- An SA entry (Table 8.4, Table 8.5). `pn` is NEXT_PN or HIGH_PN, `lim` RES_CEIL or FLOOR_PN, `st` 0 INSTALLED,
1 ACTIVE, 2 RETIRING, 3 ERASING. `key` is the KEY field, masked under the store's mask (R211). `asked` is an advance of the
ceiling requested of the bond mirror and not yet in force. -/
structure Sa where
  rx       : Bool
  an       : Nat
  st       : Nat := 0
  banked   : Bool := false
  gen      : Nat := 0
  port     : Nat
  sc       : Nat
  ivBase   : List Word := []
  pn       : Nat
  lim      : Nat
  pnEvent  : Nat := 0
  bitmap   : Nat := 0
  handle   : Nat
  key      : Nat := 0
  retireAt : Option Nat := none
  exhRec   : Bool := false
  asked    : Option Nat := none
  counters : KMap Nat := []               -- by SaCounter code
  deriving DecidableEq, Repr

/-- A live MKA peer (R236, R238). -/
structure MkaPeer where
  sci   : Nat
  sc    : Nat
  last  : Nat
  prio  : Nat := 255
  deriving DecidableEq, Repr

/-- A connectivity association (R235 to R238). -/
structure MkaCa where
  ckn      : Body
  cak      : Nat
  prio     : Nat := 16
  suite    : Nat := 0
  offset   : Nat := 0
  hello    : Nat := 2000
  rekey    : Nat := 0
  txSc     : Nat
  rxSc     : Nat
  peers    : List MkaPeer := []
  server   : Bool := false
  keyNum   : Nat := 0
  an       : Nat := 0
  lastSak  : Nat := 0
  lastHello : Nat := 0
  deleting : Bool := false
  deriving DecidableEq, Repr

/-- A transfer on the key bus (R24 to R27): the SA entry and key handle, what it installs with the key masked. -/
structure KeyBus where
  entry  : Nat
  handle : Nat
  sa     : Sa
  scKey  : Nat
  rewrite : Bool
  trunk  : Option (Nat × Nat) := none     -- line port and phase, for a trunk key
  deriving DecidableEq, Repr

/-- Chapter 08: SCs (key ((port·2 + receive)·32768 + index)), SA entries, SecY counters (key port·16 + counter),
CAs (key port·128 + index), transfers on the key bus in arrival order, the SA store's mask of this boot (R211). -/
structure SasSt where
  scs   : KMap Sc := []
  sas   : KMap Sa := []
  secy  : KMap Nat := []
  cas   : KMap MkaCa := []
  bus   : List KeyBus := []
  mask  : Nat := 0
  deriving DecidableEq, Repr

/-! ## 09: bricks -/

/-- What a tile captures of an SC and its SA when a frame is dispatched (R230): the KEY field, IV_BASE, the SC's CFG and SCI, the AN. -/
structure Crypt where
  key : Nat
  iv  : List Word
  cfg : Word
  sci : Nat
  an  : Nat
  deriving DecidableEq, Repr

/-- A frame in a brick, the traffic manager or an egress (R242 to R247, R323). -/
structure Held where
  id      : Nat
  brick   : Nat
  port    : Nat                 -- ingress port code
  sub     : Nat
  frame   : Frame
  stamp   : Nat                 -- ingress timestamp, quarter nanoseconds of fast time
  drop    : Option Nat := none  -- drop decided at classification, applied at release (R582): 1 policy, 2 FLOW_MISS, 3 VID
  missed  : Bool := false       -- FLOW_MISS to count at release (R179 step 6)
  cls     : Nat := 0
  sc      : Option Nat := none  -- SC key
  express : Bool
  stage   : Stage
  sa      : Option Nat := none
  gen     : Nat := 0
  pn      : Nat := 0
  eport   : Nat := 0            -- egress port code
  esub    : Nat := 0
  chan    : Nat := 0
  outLen  : Nat := 0
  tile    : Option Nat := none
  tagRes  : Option Bool := none
  gone    : Bool := false       -- first word has left staging, or the frame has started
  stomp   : Bool := false
  seq     : Option (Nat × Nat) := none
  twin    : Bool := false
  queuedAt : Nat := 0
  eligible : Bool := true
  cellAt   : Nat := 0           -- when a bulk decrypt frame becomes eligible before its tag result (R262)
  wholeAt  : Nat := 0           -- when its last byte reaches the express hold (R333)
  unchecked : Bool := false     -- delivered without decryption (R224)
  secy     : Option Nat := none -- SecY counter of a drop decided at classification
  disp     : Nat := 0           -- place in the order of dispatch (R246)
  stalled  : Bool := false      -- counted in BRK_DISP_STALL
  clear    : Nat := 0           -- CLEAR_TAGS when it was parsed (Table 8.11)
  crypt    : Option Crypt := none
  due      : Bool := false      -- verified; its update of the SA waits for an earlier frame's tag result (R222)
  deriving DecidableEq, Repr

/-- A tile (R271 to R273): role 0 bulk, 1 express, 2 twin express, 3 none. -/
structure Tile where
  role     : Nat := 0
  failed   : Bool := false
  ok       : Bool := false
  testing  : Bool := false
  segments : Nat := 0
  testAt   : Nat := 0           -- when the test under way began
  since    : Nat := 0           -- last full pass
  overdue  : Bool := false
  deriving DecidableEq, Repr

/-- A keystream bank (R253, R254). -/
structure KsBank where
  sa     : Nat
  primed : Nat
  ready  : Bool := false
  freeAt : Nat := 0             -- the instant P of R254 at which the next priming starts
  deriving DecidableEq, Repr

/-- One brick. Banks: key 16 · (tile 0 or 1) + bank. -/
structure Brick where
  held    : List Held := []
  tiles   : KMap Tile := []
  last    : Nat := 5
  banks   : KMap KsBank := []
  cache   : List Nat := []               -- SC keys cached, least recently used first
  misses  : List Nat := []               -- SC keys being fetched
  change  : Option Bool := none          -- a change of EXPRESS_EN waiting for tile b.0
  dispNext : Nat := 0                    -- next place in the order of dispatch
  deriving DecidableEq, Repr

/-- The duplicate-discard state of a stream (R267). -/
structure Stream where
  high    : Nat := 0
  bitmap  : Nat := 0
  pending : Option (Nat × Nat) := none   -- SEQ and line of the pending copy
  heldSeq : Option Nat := none           -- frame id held
  deriving DecidableEq, Repr

/-- Chapter 09: bricks, sequence counters per stream (R264), the duplicate-discard stage, the next frame number, and GLB_DATAFLOW's fields
[3:0] as the application in progress took them (R16). -/
structure BrkSt where
  bricks  : KMap Brick := []
  seqs    : KMap Nat := []
  streams : KMap Stream := []
  nextId  : Nat := 1
  flow    : Nat := 0
  deriving DecidableEq, Repr

/-! ## 10: the trunk -/

/-- A trunk key phase (R286, R288): the SA entry, the key handle and the masked key, the frame count n and its mirrored ceiling, an
advance requested and waiting. -/
structure TrunkKey where
  entry   : Nat
  handle  : Nat
  key     : Nat := 0
  count   : Nat := 0
  ceiling : Nat := 0
  asked   : Option Nat := none
  deriving DecidableEq, Repr

/-- A path's configuration on a port (Table 10.9). -/
structure PathCfg where
  rxMode : Nat
  cls    : Nat
  sub    : Nat
  lfEn   : Bool
  txPer  : Nat
  txOfs  : Nat
  rxPer  : Nat
  rxOfs  : Nat
  deriving DecidableEq, Repr

/-- A unit waiting or being sent at the transmit framer: its path, the slots still to send, its bytes, whether it is passed or
AIS, its class, the frame it carries, the bytes still to send, whether it arrived in fixed slots, the instant at which it may start a run, and
whether its run has started (R297, R300, R303, R338). -/
structure TxUnit where
  path    : Nat
  slots   : Nat
  len     : Nat := 64
  passed  : Bool := false
  cls     : Nat := 0
  frame   : Option Nat := none
  ais     : Bool := false
  content : List Nat := []
  byRun   : Bool := false
  readyAt : Nat := 0
  begun   : Bool := false
  deriving DecidableEq, Repr

/-- A position of the course being sent that the directory has named and that has not left yet: the path it is named to or its run is of (256 none),
the content of the bulk slot or run slot in it, none for grout and an idle fixed slot, and whether a run has taken it (R297, R337). Position 256 is
the justification slot. -/
structure SlotOut where
  pos  : Nat
  path : Nat := 256
  data : Option (List Nat) := none
  run  : Bool := false
  deriving DecidableEq, Repr

/-- A unit being received: its path, its slots in all, the course and position of those still to arrive, and whether it travels in fixed slots
(R293, R297). -/
structure RxUnit where
  path  : Nat
  slots : Nat
  left  : List (Nat × Nat)
  run   : Bool
  deriving DecidableEq, Repr

/-- Performance counters of a second and of one bin (Table 10.8). -/
structure PmBin where
  start   : Nat := 0
  valid   : Bool := true
  suspect : Bool := false
  partl   : Bool := false
  counts  : List Nat := [0, 0, 0, 0, 0, 0, 0, 0]
  deriving DecidableEq, Repr

/-- One object (section or path) of the performance data: bins newest first, the runs of SES and non-SES seconds, the
unavailability, those of the far end, and the counts of the second in progress. -/
structure PmObj where
  q15     : List PmBin := [{}]
  day     : List PmBin := [{}]
  sesRun  : Nat := 0
  okRun   : Nat := 0
  unavail : Bool := false
  feSes   : Nat := 0
  feOk    : Nat := 0
  feUn    : Bool := false
  deriving DecidableEq, Repr

/-- One line port's trunk framer. -/
structure Trunk where
  started   : Bool := false
  -- receive
  inFrame   : Bool := false
  inSince   : Nat := 0
  good      : Nat := 0
  errWords  : Nat := 0
  next      : Nat := 0                -- course number expected
  courseErr : Bool := false           -- the course being received is errored
  outSince  : Option Nat := none
  lof       : Bool := false
  rxLabel   : Nat := 0
  badLabel  : Nat := 0
  okLabel   : Nat := 0
  labelFault : Bool := false
  rxPhase   : Nat := 0
  nextReadyRx : Bool := false
  dirConflict : Bool := false
  dirRun    : Nat := 0
  rdiRun    : Nat := 0
  noRdiRun  : Nat := 0
  rdiRx     : Bool := false
  ais       : List Nat := []          -- paths with AIS status
  aisLast   : KMap Nat := []
  rxUnits   : List RxUnit := []
  errCourses : Nat := 0               -- received errored in the trunk frame being received
  lastErr   : Nat := 0                -- in the last complete one
  sbipErr   : Nat := 0
  lastSbip  : Nat := 0                -- SBIP bits in error in the last complete trunk frame
  pbip      : KMap Nat := []          -- PREI to send, by path
  rxCount   : Nat := 0                -- FRAME_COUNT and DIR of the last good header
  rxDir     : Nat := 0
  badGroups : List Nat := []          -- directory groups of the course being received that are discarded
  -- transmit
  keys      : KMap TrunkKey := []
  phase     : Nat := 0
  keyed     : Bool := false
  wantPhase : Option Nat := none      -- PHASE_SWITCH waiting for course 0
  newRun    : Nat := 0                -- good headers with both phases new
  oldPhase  : Option Nat := none      -- phase whose key is still to be erased
  transient : Nat := 0                -- DRBG draw of the transient key
  course    : Nat := 0
  gridErr   : Int := 0                -- departure of the last header before its grid instant, ps
  lastDep   : Nat := 0                -- instant of the last header
  just      : Nat := 0                -- GROUT_J of the course being sent
  dirGroup  : Nat := 0                -- next directory slot of the course being sent
  rdiHist   : Nat := 0                -- the receive defect at each of the last three headers, the newest lowest (R304)
  maskKeyed : Bool := false           -- key, phase and count under which the course being sent is masked, a trunk key or the transient one
  maskKey   : Nat := 0
  maskPhase : Nat := 0
  maskCount : Nat := 0
  group     : List SlotOut := []      -- positions named and not yet sent
  spill     : List (Nat × List Nat) := []  -- bulk slots that a run displaced, by path (R297)
  bip       : Nat := 0                -- parity of the course being sent (R308)
  pathBip   : KMap Nat := []          -- parity of each path's slots in the trunk frame being sent
  lastPbip  : KMap Nat := []          -- and in the last one
  units     : List TxUnit := []       -- at the framer, in arrival order
  partial_  : Option TxUnit := none   -- part-assigned (R338)
  runTx     : Option TxUnit := none   -- run in progress
  expBytes  : Nat := 0
  passBytes : Nat := 0
  lastPath  : KMap Nat := []          -- round-robin by class
  -- configuration
  paths     : KMap PathCfg := []
  -- performance
  pm        : KMap PmObj := []        -- 0 section, 1 + n path n
  secCnt    : KMap Nat := []          -- counts of the second in progress (64·object + i)
  raw       : KMap Nat := []          -- cumulative counters (8·object + i)
  rawLatch  : KMap Nat := []
  rawSec    : Nat := 0
  deriving DecidableEq, Repr

/-- Chapter 10: the framers of LP0 and LP1. -/
structure TrkSt where
  p0 : Trunk := {}
  p1 : Trunk := {}
  deriving DecidableEq, Repr

/-! ## 11: queues -/

/-- A queue's entry and shaper (Table 11.3): `credit` counts 2^-16 of a unit of 1/256 packet, `rem` the truncated
remainder carried, in 10^-7 of that; `clampNext` after a change of RATE, HI or LO (R326). -/
structure Queue where
  limit : Nat := 262143
  rate  : Nat := 0
  hi    : Nat := 256
  lo    : Int := -256
  credit : Int := 0
  rem   : Nat := 0
  clampNext : Bool := false
  deriving DecidableEq, Repr

/-- A gate control list: entries (gate states, INTERVAL ns), CYCLE ns, BASE, ENABLE. -/
structure GateList where
  entries : List (Nat × Nat) := []
  cycle   : Nat := 1000000
  base    : Nat := 0
  enable  : Bool := false
  deriving DecidableEq, Repr

/-- One egress: the express holds' frames and the gate lists (R322, R331). Cells taken by a frame are in `cells`. -/
structure Egress where
  admin   : KMap (Nat × Nat) := []
  pending : Option GateList := none
  oper    : GateList := {}
  late    : Bool := false
  changeT : Nat := 0
  entry   : Nat := 0
  rrLast  : KMap Nat := []           -- (8·sub-port + class) to the channel last served
  deriving DecidableEq, Repr

/-- Cells a frame holds, by source (R317): class reserve, port reserve, shared. -/
structure Cells where
  frame  : Nat
  queue  : Nat
  cls    : Nat
  port   : Nat
  shared : Nat
  deriving DecidableEq, Repr

/-- Chapter 11: queue entries other than their reset values, frames waiting or in transmission (queue frames and express
holds, in arrival order), cells held, egresses 0 to 3. -/
structure QueSt where
  queues : KMap Queue := []
  frames : List Held := []
  hold   : List Held := []
  cells  : List Cells := []
  egress : KMap Egress := []
  deriving DecidableEq, Repr

/-! ## 12: the bond -/

/-- A mirror message not acknowledged: its last record sequence, its records, the instant it was last sent (R362). -/
structure MirrorMsg where
  last : Nat
  recs : List MirrorRec
  sent : Nat
  deriving DecidableEq, Repr

/-- A bond message as sent (Table 12.3). -/
structure BondMsg where
  typ    : Nat
  bond   : Nat
  sender : Nat
  number : Nat := 0
  body   : List Nat := []
  recs   : List MirrorRec := []
  mac    : List Nat := []
  lanes  : Nat := 3
  deriving DecidableEq, Repr

/-- Chapter 12. Roles as Table 12.1. -/
structure BndSt where
  role      : Nat := 0
  joined    : Bool := false
  bond      : Nat := 0
  peer      : Nat := 0
  secondary : Bool := false
  key       : Nat := 0
  -- session
  linkUp    : Bool := false
  nonce     : Option Nat := none
  peerNonce : Option Nat := none
  peerRole  : Nat := 0
  peerPref  : Nat := 0
  shaken    : Bool := false
  leaseNo   : Nat := 0               -- last lease number sent in the session
  ackNo     : Nat := 0               -- highest LEASE_ACK accepted
  leaseAt   : Option Nat := none     -- when the last LEASE was sent
  syncNo    : Nat := 0               -- last lease sent before the standby was recorded in sync
  leases    : List (Nat × Nat) := [] -- lease number and send time, unacknowledged
  tAck      : Nat := 0
  tRx       : Nat := 0
  lastLease : Nat := 0               -- highest LEASE accepted
  heard     : Option BondRx := none  -- a HELLO heard before the bond was configured
  dNow      : Nat := 8               -- LEASE in force (R352)
  slowRun   : Nat := 0
  acted     : List Nat := []          -- RESIGN or FENCED acted on in the session
  inSync    : Bool := false           -- active: records its standby in sync
  resync    : Bool := false
  activeAt  : Nat := 0
  blockErr  : KMap Nat := []          -- instant of the last block error, by lane
  -- mirror
  nextSeq   : Nat := 1
  acked     : Nat := 0
  unacked   : List MirrorMsg := []
  applied   : Nat := 0               -- highest record sequence applied
  based     : Bool := false          -- a record of the running resynchronisation has come
  gapSince  : Option Nat := none
  early     : List MirrorRec := []
  snapEnd   : Option Nat := none
  rxCeil    : KMap Nat := []          -- SA entry to C
  rxAsked   : KMap Nat := []
  waiting   : List (Nat × Nat × Nat) := []  -- record sequence, code·2^20 + entry, ceiling
  deriving DecidableEq, Repr

/-! ## 13: keys, lifecycle, officers -/

/-- A live key (R375 to R382). `attrs` are the TYPE, USE and OWNER words (Table 13.3); `place` is 0 in a slot, 1 in the DDR
cache, 2 persistent and not yet reloaded; `used` orders the least recently used. `value` is its material as a number, from which
`Config.material` gives the bytes (log entry 8). -/
structure Key where
  typ     : Word
  value   : Nat := 0
  use     : Word
  owner   : Nat
  place   : Nat := 0
  used    : Nat := 0
  erasing : Bool := false
  fresh   : Bool := false        -- brought back from the cache, its check outstanding (R381)
  deriving DecidableEq, Repr

/-- A record of a half of the persistent key area (R82, R382): a key and the value of K_persist that seals it. -/
structure SealedKey where
  key   : Key
  under : Nat
  deriving DecidableEq, Repr

/-- An enrolled officer (R393): role 0 crypto, 1 audit, 2 maintenance, the words of both public keys, and the MAC of its record under
K_record. -/
structure Officer where
  role : Nat
  cred : List Word := []
  mac  : List Nat := []
  deriving DecidableEq, Repr

/-- A ticket (R396): issuer, opcode, digest, issue instant on the AON oscillator. -/
structure Ticket where
  id     : Nat
  issuer : Nat
  opcode : Nat
  digest : List Word
  issued : Nat
  deriving DecidableEq, Repr

/-- Chapter 13: keys by handle, the last GEN of each persistent and volatile index, freed volatile indices in order,
the next unused volatile index, records appended to the current half of the persistent area, both halves of it, K_cache, the count of
evictions, the slot permutation key, mask and tag key of this boot, the lifecycle code, officers, tickets, debug access. -/
structure KeySt where
  keys      : KMap Key := []
  gens      : KMap Nat := []
  freed     : List Nat := []
  nextIdx   : Nat := 16384
  useCount  : Nat := 0
  halfRecs  : Nat := 0
  half      : KMap SealedKey := []
  spareHalf : KMap SealedKey := []
  cacheKey  : Nat := 0
  evicts    : Nat := 0
  permKey   : Nat := 0
  slotMask  : Nat := 0
  tagKey    : Nat := 0
  life      : Nat := 0
  changing  : Bool := false
  changeRec : Nat × Nat × Nat := (0, 0, 0)    -- old state, credential, ticket issuer of the change
  changePending : Bool := false
  officers  : KMap Officer := []
  tickets   : List Ticket := []
  debugOpen : Bool := false
  debugScope : Nat := 0
  inForce   : Bool := false
  katFailed : Bool := false
  deriving DecidableEq, Repr

/-! ## 14: vault engines -/

/-- What a vault job gives when it ends well: its result elements, or a key to store whose handle joins them. -/
inductive JobResult where
  | reply (elems : Body)
  | key (typ use : Word) (owner value : Nat) (elems : Body)
  deriving DecidableEq, Repr

/-- A vault job (R401): its engine (0 kiln, 1 lattice, 2 vault-cipher page, 3 other), class of work, key, priority,
world, the cycles it takes, and the state of its run. `bad` is the status its input check or its search ends with (R410). -/
structure Job where
  engine  : Nat
  work    : Nat := 0
  key     : Option Nat := none
  key2    : Option Nat := none
  prio    : Nat := 1
  world   : Nat := 0
  cycles  : Nat := 0
  lane    : Option Nat := none
  start   : Nat := 0
  done    : Nat := 0
  suspended : Bool := false
  displaced : Bool := false        -- it has suspended another (R404)
  page    : Nat := 0
  bad     : Nat := 0
  result  : JobResult
  deriving DecidableEq, Repr

/-- A kiln lane or a lattice pipe: withheld, and the instants of its check failures. -/
structure Lane14 where
  withheld : Bool := false
  faults   : List Nat := []
  deriving DecidableEq, Repr

/-- A DRBG instance (R421). -/
structure Drbg where
  ok       : Bool := false
  requests : Nat := 0
  last     : Nat := 0
  deriving DecidableEq, Repr

/-- Chapter 14: jobs by number, lanes, pipes, cipher pages (tenant), cores and hash units failed, entropy source. -/
structure EngSt where
  jobs     : KMap Job := []
  nextJob  : Nat := 1
  lanes    : KMap Lane14 := []
  pipes    : KMap Lane14 := []
  pages    : KMap Nat := []
  cores    : List Nat := []          -- cipher cores withheld
  hashes   : List Nat := []          -- hash units withheld
  srcOk    : Bool := false
  startup  : Bool := false
  failed   : Bool := false
  fails    : Nat := 0
  lastFail : Option Nat := none
  d0       : Drbg := {}
  d1       : Drbg := {}
  deriving DecidableEq, Repr

/-! ## 15: the domain key service -/

/-- A roster entry (Table 15.1). -/
structure Roster where
  role   : Nat := 0
  revoked : Bool := false
  stale  : Bool := false
  bond   : Nat := 0xFFFF
  svn    : Nat := 0
  serial : Nat := 0
  mac    : Nat := 0
  admitAt : Nat := 0
  idDig  : List Word := []
  distDig : List Word := []
  txnPub : List Word := []
  distPub : List Word := []            -- the distribution public keys of the ENROL_REQUEST, at the service that admitted it (log entry 27)
  deriving DecidableEq, Repr

/-- A membership (Table 15.3): own device ID, domain, generation, version and the service entries
(device ID, role, identity digest). -/
structure Membership where
  device  : Nat
  domain  : Nat
  gen     : Nat
  version : Nat
  services : List (Nat × Nat × List Word) := []
  deriving DecidableEq, Repr

/-- A pending package (R446): generation, digest of the pending keys, and the packet it would make committed. -/
structure PendingPkg where
  gen    : Nat
  digest : List Word
  member : Membership
  deriving DecidableEq, Repr

/-- A rollover at the service (R445): OP_ID, step reached (6 waiting, 8 sending commit notes), deadline, whether it promotes or
creates, the number of its deliveries, targets that have acknowledged kind 5, the generation before it, the credential and the
ticket issuer, the new pair. -/
structure Rollover where
  op       : Nat
  step     : Nat
  deadline : Nat
  promote  : Bool
  creation : Bool
  group    : Nat
  acked    : List Nat := []
  oldGen   : Nat
  cred     : Nat
  issuer   : Nat
  handles  : List Nat := []
  deriving DecidableEq, Repr

/-- An enrolment nonce issued (R429, R430). -/
structure EnrolNonce where
  nonce  : List Word
  serial : Nat
  idDig  : List Word
  at_    : Nat
  used   : Bool := false
  deriving DecidableEq, Repr

/-- A delivery of the service to a device (R428, R432): the target, what it carries (kinds 0 to 7 of Table 15.4, 8 a roster delta, 9 a
domain snapshot), the operation it is for (0 none), times sent, when last sent, the status and handle answered, the step of a
relayed agreement, the bytes it carries. -/
structure Delivery where
  target  : Nat
  kind    : Nat
  group   : Nat
  tries   : Nat := 0
  last    : Nat := 0
  status  : Option Nat := none
  handle  : Nat := 0
  stage   : Nat := 0
  words   : List Word := []
  deriving DecidableEq, Repr

/-- A service operation waiting for its targets: the completion it owes is in the flight. The key to erase at its end, the elements
it returns beside DIST_RESULT, the ends of an agreement, and the time of day it ends at (2^-16 ns). -/
structure SvcOp where
  id     : Nat
  kind   : Nat
  key    : Option Nat := none
  elems  : Body := []
  ends   : Nat × Nat := (0, 0)
  until_ : Nat := 0
  deriving DecidableEq, Repr

/-- A TEK of a group (R440): key handle, activation and expiry in ps of the run. -/
structure Tek where
  handle : Nat
  active : Nat
  expiry : Nat
  ready  : Bool := true
  deriving DecidableEq, Repr

/-- A group policy (R438). -/
structure Group where
  typ      : Nat
  alg      : Nat
  lifetime : Nat
  teks     : List Tek := []
  deriving DecidableEq, Repr

/-- A GDOI member (R438): key digest, its groups, the instant its chain result expires. -/
structure Member where
  digest : List Word
  groups : List Nat
  chain  : Option Nat := none
  phase1 : Option Nat := none
  deriving DecidableEq, Repr

/-- A tenant (R441, R442): credential words, job slots, rate, bucket. -/
structure Tenant where
  cred     : List Word := []
  reserved : Nat := 0
  limit    : Nat := 888
  rate     : Nat := 0
  tokens   : Nat := 1
  refilled : Nat := 0
  deriving DecidableEq, Repr

/-- Chapter 15. -/
structure DksSt where
  enrolled  : Bool := false
  replica   : Nat := 0                 -- own ROLE of Table 15.1
  device    : Nat := 0
  domain    : Nat := 0
  gen       : Nat := 0
  version   : Nat := 0
  roster    : KMap Roster := []
  services  : List (Nat × Nat × List Word) := []
  domainKeys : List Nat := []          -- handles of the committed pair, none at a member
  packages  : KMap (List Word) := []   -- packages signed for devices that have not acknowledged them (log entry 29)
  pendKeys  : List Nat := []           -- handles of the pending pair at a replica
  txnKey    : Nat := 0                 -- handle of the transaction key, 0 where none
  pendingPkg : Option PendingPkg := none
  rollover  : Option Rollover := none
  rolling   : Nat := 0                 -- VLT_DKS_STAT.ROLL at the service
  nonces    : List EnrolNonce := []
  distKeys  : List Nat := []           -- handles of the own distribution pair
  distDig   : List Word := []
  txn       : Nat := 0
  txnSeen   : KMap Nat := []           -- highest TXN accepted, by replica
  eph       : Nat := 0                 -- the ephemeral X25519 distribution key
  ephServed : Nat := 0
  ephSince  : Nat := 0
  clients   : List Nat := []           -- devices of the client sessions, least recently used first
  deliveries : List Delivery := []
  svcOps    : List SvcOp := []
  nextSvc   : Nat := 1
  trunkEph  : List (Nat × Nat × Nat) := []   -- agreements offered: TXN, ephemeral X25519 key, ML-KEM seed
  groups    : KMap Group := []
  anchors   : Body := []
  serviceCert : Body := []
  members   : List Member := []
  tenants   : KMap Tenant := []
  snapArmed : Bool := false
  deriving DecidableEq, Repr

/-! ## 16: external memory -/

/-- A channel: training attempts, its own capacity code, up, its content as bytes in canonical form (an unlisted byte reads 0, as
initialisation leaves it, R455), the leaf counters of lines of V, the counters of tree nodes (level · 2^22 + node), the root in
three copies, and when a line or node was last written to DDR (nodes above 2^30; R461). -/
structure Channel where
  tries    : Nat := 0
  cap      : Nat := 0
  up       : Bool := false
  data     : List Host.Cell := []
  leaf     : KMap Nat := []
  nodes    : KMap Nat := []
  root     : List (List Nat) := List.replicate 3 (List.replicate 8 0)
  written  : KMap Nat := []
  deriving DecidableEq, Repr

/-- Chapter 16. Initialisation is given by `trainedAt` and `initDone` (R455), the sweep by the bytes swept at an instant (R469). The
node cache holds channel · 2^26 + node with its changed flag, least recently used first (R463). -/
structure MemSt where
  c0        : Channel := {}
  c1        : Channel := {}
  cap       : Nat := 0
  memOff    : Bool := false
  initDone  : Bool := false
  keyed     : Bool := false
  key       : Nat := 0                -- the memory key of `kid`, and in a roll that of `kidOld` (R456, R469)
  keyOld    : Nat := 0
  trainedAt : Nat := 0
  kid       : Nat := 0
  kidOld    : Nat := 0
  rolling   : Bool := false
  rollOp    : Option Nat := none
  swept     : Nat := 0
  sweptAt   : Nat := 0
  rolls     : Nat := 0
  due       : Option Nat := none
  cache     : List (Nat × Bool) := []
  halt      : Bool := false
  tamperHalt : Bool := false
  haltAt    : Nat := 0
  deriving DecidableEq, Repr

/-! ## 17: tamper response -/

/-- A tamper alarm latch entry (Table 17.5). -/
structure Latch where
  source : Nat
  resp   : Nat
  onBatt : Bool
  rtc    : Nat
  deriving DecidableEq, Repr

/-- A TAMPER_TEST in progress (R488): OP_ID, sources still to test (the first is the one under test), all named, results. -/
structure TmpTest where
  op     : Nat
  left   : List Nat
  named  : Nat
  at_    : Nat
  results : Body := []
  deriving DecidableEq, Repr

/-- Chapter 17: conditions, those that have raised their alarm, fuses (bitmaps); the latch; frozen; the last tests; the tamper reset
scheduled, the sources that ask for it, and those of the last one; the alarm group: its instant, its sources, its strongest alarm
(16 · response + source), and when it was last notified. -/
structure TmpSt where
  cond      : Nat := 0
  alarmed   : Nat := 0
  fused     : Nat := 0
  latch     : List Latch := []
  overflow  : Nat := 0
  frozen    : Bool := false
  tested    : Nat := 0
  testFail  : Nat := 0
  test      : Option TmpTest := none
  resetAt   : Option Nat := none
  resetSrc  : Nat := 0
  resetBits : Nat := 0
  lastBits  : Nat := 0
  groupAt   : Nat := 0
  groupBits : Nat := 0
  groupBest : Nat := 127
  noteAt    : Option Nat := none
  deriving DecidableEq, Repr

/-! ## 18: power -/

/-- A POWER_STATE_SET accepted in the busy period (R501): the mailbox and tag of its flight, whether it is the one queued, and its
flags. -/
structure PwrReq where
  mailbox  : Nat
  tag      : Nat
  waits    : Bool := false
  replaced : Bool := false
  notApplied : Bool := false
  wakePending : Bool := false
  deriving DecidableEq, Repr

/-- A brick's DVFS sequence (R512): phase 0 idle, 1 the rail is being raised, 2 the PLL ramps. -/
structure Dvfs where
  live    : Nat := 1600
  vout    : Nat := 820
  phase   : Nat := 0
  goal    : Nat := 1600
  since   : Nat := 0
  stored  : Option Nat := none
  deriving DecidableEq, Repr

/-- Chapter 18. `state` codes: 0 RUN, 1 IDLE, 2 STANDBY, 3 SLEEP. -/
structure PwrSt where
  state     : Nat := 0
  target    : Option Nat := none
  queued    : Option Nat := none
  reqs      : List PwrReq := []
  pastCommit : Bool := false
  regLp     : Bool := false
  wakeCause : Nat := 0
  waking    : Bool := false
  wakeNext  : Bool := false
  dvfs      : KMap Dvfs := []
  deriving DecidableEq, Repr

/-! ## 19: observability -/

/-- A snapshot bank (R519): 0 EMPTY, 1 LATCHING, 2 FULL, its header fields (Table 19.3), the values of the shadows by
address, and the instant of its trigger. -/
structure SnapBank where
  state   : Nat := 0
  seq     : Nat := 0
  sources : Nat := 0
  sync    : Bool := false
  offAny  : Bool := false
  epoch   : Nat := 0
  sec     : Nat := 0
  ns      : Nat := 0
  frac    : Nat := 0
  off     : Nat := 0
  at_     : Nat := 0
  values  : KMap Word := []
  deriving DecidableEq, Repr

/-- A performance sample (R528). -/
structure Sample where
  counter : Nat
  proc    : Bool
  value   : Nat
  stamp   : Nat
  deriving DecidableEq, Repr

/-- A SELFTEST_RUN in progress: OP_ID, units left, results, FULL. -/
structure SelfTest where
  op      : Nat
  at_     : Nat
  units   : Nat
  left    : Nat
  results : KMap Nat := []
  full    : Bool
  deriving DecidableEq, Repr

/-- Chapter 19, snapshots, counters and in-service test. -/
structure ObsSt where
  bank0    : SnapBank := {}
  bank1    : SnapBank := {}
  nextSeq  : Nat := 1
  counters : KMap Nat := []
  cycAt    : Nat := 0
  hiLatch  : KMap Nat := []
  samples  : List Sample := []
  failed   : Nat := 0
  lastPass : KMap Nat := []
  overdue  : List Nat := []
  selftest : Option SelfTest := none
  deriving DecidableEq, Repr

/-- An event record (Table 19.5). -/
structure Rec where
  seq   : Nat
  code  : Nat
  flags : Nat
  epoch : Nat
  sec   : Nat
  ns    : Nat
  data  : List Nat
  mac   : Nat
  at_   : Nat
  deriving DecidableEq, Repr

/-- A suppression window (R535). -/
structure SupWindow where
  opened : Nat
  count  : Nat
  deriving DecidableEq, Repr

/-- A token bucket below its depth: tokens held and the instant the next token is due (R535). -/
structure Bucket where
  tokens : Nat
  due    : Nat
  deriving DecidableEq, Repr

/-- Chapter 19, the event recorder: records staged, records in the RS region, the keep area, the last 65,536 records of the circulating
area (newest last), the slots written in it, the next SEQ (BBD), the last SEQ staged, the chain value, buckets and windows by code. -/
structure EvrSt where
  staged   : List Rec := []
  ddr      : List Rec := []
  keep     : List Rec := []
  circ     : List Rec := []
  nextSeq  : Nat := 0
  lastMac  : Nat := 0
  lastSeq  : Nat := 0
  written  : Nat := 0
  buckets  : KMap Bucket := []
  windows  : KMap SupWindow := []
  lostPending : Nat := 0
  carried  : List (Nat × Nat × Nat) := []     -- windows closed by a reset: code, count, length
  deriving DecidableEq, Repr

/-! ## What leaves the block -/

/-- An output (log entry 4): a completion or notification, a bond message, a block of a bond lane as its bits, a frame that starts at a sub-port with its bytes up to the FCS, the
FCS it ends with, a PTP message,
an MKPDU, a command to a domain peer, a GDOI or ARP answer, the answer to a master of the DDR, a line and its 128 redundancy bits written to DDR, a course header, a trunk unit, a pulse of a pin. -/
inductive Sent where
  | done (c : Completion)
  | bond (m : BondMsg)
  | block (lane : Nat) (bits : List Bool)
  | frame (sp id len : Nat) (bytes : List Nat)
  | fcs (sp id : Nat) (bytes : List Nat)
  | ptp (sp transport : Nat) (msg : PtpMsg) (sa : Option (Nat × Nat)) (stamp : Option Nat)
  | mkpdu (ca : Nat) (sak : Option (Nat × Nat × List Word))
  | peer (mp device kind : Nat) (words : List Word)
  | gdoi (mac : Nat) (phase1 granted : Bool) (group : Nat) (teks : List (Nat × Nat))
  | arp (mac : Nat)
  | trunk (port : Nat) (blocks : List TrunkBlock)
  | slow (bytes : List Nat)
  | mem (master : Nat) (words : List Word) (err : Bool)
  | ddr (ch addr : Nat) (bytes : List Nat) (redundancy : Nat)
  | pulse (pin : Nat) (high : Bool)
  deriving DecidableEq, Repr

/-- The faults of a step. Raised by: nobody. No command of this block stops the machine (NOTES.md, Stops); the one
constructor keeps the type inhabited and names what would be a safe stop. -/
inductive Fault where
  | stuck
  deriving DecidableEq, Repr

/-- The refusals of a step. `notModelled`: raised only by an arm of `exec` whose meaning is not written; safe. -/
inductive Refusal where
  | notModelled (mnemonic : String)
  deriving DecidableEq, Repr

/-- The state of the block: the instant reached (ps, log entry 2), the counter of free values (log entry 3), the commands
waiting (first in, first out), the outputs, newest first (log entry 4), the register words other than their reset words
by address, and the state of each unit. -/
structure State where
  now       : Nat := 0
  freeCount : Nat := 0
  pending   : List Instr := []
  sent      : List Sent := []
  regs      : KMap Word := []
  cmd       : CmdSt := {}
  boot      : BootSt := {}
  lane      : LaneSt := {}
  port      : PortSt := {}
  time      : TimeSt := {}
  cls       : ClsSt := {}
  sas       : SasSt := {}
  brk       : BrkSt := {}
  trk       : TrkSt := {}
  que       : QueSt := {}
  bnd       : BndSt := {}
  keys      : KeySt := {}
  eng       : EngSt := {}
  dks       : DksSt := {}
  mem       : MemSt := {}
  tmp       : TmpSt := {}
  pwr       : PwrSt := {}
  obs       : ObsSt := {}
  evr       : EvrSt := {}
  deriving DecidableEq, Repr

/-- The machine right after a power-on reset asserted: every unit at its reset value, no register changed, no command waiting. -/
def State.reset : State := {}

end Sys2Proof.Machine
end

