-- ==== Sys2Proof/Machine/Ops.lean ====
section
/-! DEFINITION. The named operations over the state: registers, time, free values, outputs, the recorder's staging. -/
namespace Sys2Proof.Machine
open Sys2Proof

/-- The outcome of a step of this block. -/
abbrev Out := Host.Outcome State Fault Refusal

/-! ## Free values -/

/-- A free word (log entry 3). -/
def drawWord (s : State) : Word × State := (Config.freeWord s.freeCount, { s with freeCount := s.freeCount + 1 })

/-- A free number below `2 ^ n` (log entry 3). -/
def drawBits (n : Nat) (s : State) : Nat × State :=
  (Config.freeBits s.freeCount % 2 ^ n, { s with freeCount := s.freeCount + 1 })

/-- A run of free words, a constant of its own for each (log entry 3). -/
def drawWords (n : Nat) (s : State) : List Word × State :=
  ((List.range n).map fun i => Config.freeWord (s.freeCount + i), { s with freeCount := s.freeCount + n })

/-! ## Registers -/

/-- The stored word of a register, its reset word where it is not listed. -/
def regWord (s : State) (a : Nat) : Word := (look s.regs a).getD (resetWord a)

/-- A field of a stored word. -/
def fld (s : State) (a hi lo : Nat) : Nat := (regWord s a).bits hi lo

/-- A bit of a stored word. -/
def flag (s : State) (a i : Nat) : Bool := (regWord s a).bit i

/-- The register store with a word set, the entry removed where it is the reset word. -/
def putReg (m : KMap Word) (a : Nat) (w : Word) : KMap Word :=
  if w = resetWord a then del m a else put m a w

/-- A stored word replaced. -/
def setReg (a : Nat) (w : Word) (s : State) : State := { s with regs := putReg s.regs a w }

/-- A field of a stored word replaced. -/
def setFld (a hi lo v : Nat) (s : State) : State := setReg a ((regWord s a).withBits hi lo v) s

/-- A flag bit set. -/
def raise (a i : Nat) (s : State) : State := setFld a i i 1 s

/-- A counter field raised by `n`, saturating at its largest value. -/
def bumpFld (a hi lo n : Nat) (s : State) : State :=
  if n = 0 then s else
  let v := fld s a hi lo + n
  let m := 2 ^ (hi + 1 - lo) - 1
  setFld a hi lo (if v < m then v else m) s

/-- A 32-bit clear-on-read counter raised by `n`, saturating (R543, Table 20.2). -/
def bump (a n : Nat) (s : State) : State := bumpFld a 31 0 n s

/-! ## Performance counters (R526, R527) -/

/-- The block whose events a performance counter counts: 0 to 3 the bricks, 4 the traffic manager, 5 the vault, 6 the command
processor, 7 the memory controller. -/
def perfBlock (s : State) (n : Nat) : Nat := if n < 40 then n / 8 else 5 + fld s (0x130100 + 4 * n) 30 29

/-- Whether a counter is enabled for an event of a block. -/
def perfOn (s : State) (n blk ev : Nat) : Bool :=
  flag s (0x130100 + 4 * n) 31 && decide (fld s (0x130100 + 4 * n) 23 16 = ev) && decide (perfBlock s n = blk)

/-- `n` occurrences of an event of a block: the counters that run and select it add them, modulo 2^48 (Table 19.4). -/
def perf (blk ev n : Nat) (s : State) : State :=
  if n = 0 ∨ flag s 0x130050 0 = false then s
  else { s with obs := { s.obs with counters :=
    ((List.range 48).filter fun k => perfOn s k blk ev).foldl (fun m k => put m k ((get m k 0 + n) % 2 ^ 48)) s.obs.counters } }

/-! ## Time -/

/-- A second, a millisecond, a microsecond and a nanosecond in picoseconds. -/
def sec : Nat := 1000000000000
def ms : Nat := 1000000000
def us : Nat := 1000000
def ns : Nat := 1000

/-- The instant reached moves forward to `t`, never back (log entry 2). -/
def tick (t : Nat) (s : State) : State := if s.now < t then { s with now := t } else s

/-- The rate adjustment in use, in 2^-16 ppm: `TMU_RATE`, with 100 ppm added against the offset while slewing (R162). -/
def rateInUse (s : State) : Int :=
  signedOf 32 (regWord s 0x040030).toNat + (if s.time.slewing then (if s.time.slewNeg then -6553600 else 6553600) else 0)

/-- Time of day now, in 2^-16 ns since the PTP epoch (R137). -/
def tod (s : State) : Nat :=
  if s.time.running then
    s.time.tod + (((s.now - s.time.todAt : Nat) : Int) * (65536000000 + rateInUse s) / 1000000000).toNat
  else s.time.tod

/-- Time of day is counted on from now, so that a change of rate acts from here. -/
def rebase (s : State) : State := { s with time := { s.time with tod := tod s, todAt := s.now } }

/-- Seconds, nanoseconds and fraction of time of day (R137). -/
def todSec (s : State) : Nat := tod s / 65536 / 1000000000 % 2 ^ 48
def todNs (s : State) : Nat := tod s / 65536 % 1000000000
def todFrac (s : State) : Nat := tod s % 65536

/-- Fast time in ns (R141). -/
def fast (s : State) : Nat := tod s / 65536 % 2 ^ 40

/-- Fast time in quarter nanoseconds, as stamps carry it (R146). -/
def stamp (s : State) : Nat := tod s / 16384 % 2 ^ 42

/-- The quarter nanoseconds from now to a stamp, signed. -/
def stampDiff (s : State) (x : Nat) : Int := signedOf 42 ((x + 2 ^ 42 - stamp s) % 2 ^ 42)

/-- The time of day that a stamp names, in 2^-16 ns. -/
def stampTod (s : State) (x : Nat) : Nat := ((tod s / 16384 : Nat) + stampDiff s x).toNat * 16384

/-- The fast time at an instant `d` ps ahead. -/
def fastAhead (s : State) (d : Nat) : Nat := (fast s + d / 1000) % 2 ^ 40

/-- The signed difference of two fast times (R142). -/
def fastDiff (t n : Nat) : Int := signedOf 40 ((t + 2 ^ 40 - n % 2 ^ 40) % 2 ^ 40)

/-- Time of day `d` ps ago, at the rate in use. -/
def todAgo (s : State) (d : Nat) : Nat := tod s - ((d : Int) * (65536000000 + rateInUse s) / 1000000000).toNat

/-- The BBD real-time counter (R171). -/
def rtcNow (s : State) : Nat := (s.time.rtc + (s.now - s.time.rtcAt) * 32768 / sec) % 2 ^ 48

/-- How long ago, in ps, the counter's last edge was. -/
def rtcPast (s : State) : Nat :=
  let d := s.now - s.time.rtcAt
  d - (d * 32768 / sec * sec + 32767) / 32768

/-! ## Sub-ports, ports and bricks -/

/-- The port code of a sub-port key: 0 CP0, 1 CP1, 2 LP0, 3 LP1, 4 MP0, 5 MP1. -/
def spPort (sp : Nat) : Nat :=
  if sp < 8 then 0 else if sp < 16 then 1 else if sp = 16 then 4 else if sp = 17 then 5 else if sp = 18 then 2 else 3

/-- The sub-port index within its port. -/
def spIdx (sp : Nat) : Nat := if sp < 16 then sp % 8 else 0

/-- The sub-port key of a port code and index. -/
def spKey (port sub : Nat) : Nat :=
  match port with
  | 0 => sub % 8
  | 1 => 8 + sub % 8
  | 2 => 18
  | 3 => 19
  | 4 => 16
  | _ => 17

/-- The sub-port keys of a port. -/
def spsOf (port : Nat) : List Nat :=
  match port with
  | 0 => [0, 1, 2, 3, 4, 5, 6, 7]
  | 1 => [8, 9, 10, 11, 12, 13, 14, 15]
  | 2 => [18]
  | 3 => [19]
  | 4 => [16]
  | _ => [17]

def subPort (s : State) (sp : Nat) : SubPort := get s.port.subs sp {}
def setSub (sp : Nat) (x : SubPort) (s : State) : State := { s with port := { s.port with subs := put s.port.subs sp x } }

/-- The breakout in force of a clear port (Table 5.1): 0 one, 1 two, 2 four, 3 eight sub-ports. -/
def breakoutLive (s : State) (p : Nat) : Nat := get s.port.live p 0

/-- Whether a sub-port exists under the breakout in force. -/
def subExists (s : State) (sp : Nat) : Bool := if sp < 16 then decide (sp % 8 < 2 ^ breakoutLive s (spPort sp)) else decide (sp < 20)

/-- GDOI is applied as on: enabled, with an address (R437); the sub-port it is served on. -/
def gdoiServes (s : State) : Bool := flag s 0x0C0100 29 && decide (regWord s 0x0C0108 ≠ 0)
def gdoiSp (s : State) : Nat := spKey (fld s 0x0C0100 28 28) (fld s 0x0C0100 14 12)

/-- `PRT_PORT_CFG[p].ENABLE`. -/
def portEnabled (s : State) (p : Nat) : Bool := flag s (0x020000 + 0x10 * p) 0

def brick (s : State) (b : Nat) : Brick := get s.brk.bricks b {}
def setBrick (b : Nat) (x : Brick) (s : State) : State := { s with brk := { s.brk with bricks := put s.brk.bricks b x } }
def tile (s : State) (b k : Nat) : Tile := get (brick s b).tiles k {}
def setTile (b k : Nat) (x : Tile) (s : State) : State := setBrick b { brick s b with tiles := put (brick s b).tiles k x } s
def tables (s : State) (b : Nat) : BrickTables := get s.cls.bricks b {}
def setTables (b : Nat) (x : BrickTables) (s : State) : State := { s with cls := { s.cls with bricks := put s.cls.bricks b x } }

/-- The trunk framer of line port `p` (0 LP0, 1 LP1). -/
def trunk (s : State) (p : Nat) : Trunk := if p = 0 then s.trk.p0 else s.trk.p1
def setTrunk (p : Nat) (x : Trunk) (s : State) : State :=
  if p = 0 then { s with trk := { s.trk with p0 := x } } else { s with trk := { s.trk with p1 := x } }

/-- `GLB_DATAFLOW.APPLIED` bits (R16): LP0 trunk, LP1 trunk, protected-line mode, add-drop. -/
def lpTrunk (s : State) (p : Nat) : Bool := flag s 0x000040 (4 + p % 2)
def protLine (s : State) : Bool := flag s 0x000040 6
def addDrop (s : State) : Bool := flag s 0x000040 7

/-- `TRK_CFG[p]`, and whether the port runs T0400 compatibility mode. -/
def trkCfg (p : Nat) : Nat := 0x090000 + 0x100 * p
def trkCompat (s : State) (p : Nat) : Bool := flag s (trkCfg p) 1 && lpTrunk s p

/-- RX_CORR and TX_CORR of a port, in quarter nanoseconds (R148). -/
def rxCorr (s : State) (port : Nat) : Int := if port < 4 then signedOf 16 (fld s (0x040100 + 0x10 * port) 15 0) else 0
def txCorr (s : State) (port : Nat) : Int := if port < 4 then signedOf 16 (fld s (0x040100 + 0x10 * port) 31 16) else 0

/-- The fixed receive and transmit delays of a sub-port, in ps (Table 5.2). -/
def rxDelay (s : State) (sp : Nat) : Nat :=
  if sp < 16 then (match breakoutLive s (spPort sp) with | 0 => 108000 | 1 => 150000 | 2 => 232000 | _ => 396000)
  else if trkCompat s (sp - 18) then 150000 else 108000
def txDelay (s : State) (sp : Nat) : Nat :=
  if sp < 16 then (match breakoutLive s (spPort sp) with | 0 => 24000 | 1 => 30000 | 2 => 40000 | _ => 56000)
  else if trkCompat s (sp - 18) then 30000 else 24000

/-- The receive timestamp of a frame whose first word reaches the datapath from a sub-port now, as stamps carry it: its instant at the
medium boundary, less RX_CORR (R113, R146, R148). -/
def rxStamp (s : State) (sp : Nat) : Nat := unsignedOf 42 ((todAgo s (rxDelay s sp) / 16384 : Nat) - rxCorr s (spPort sp))

/-- The current bins of a trunk port's performance data are marked suspect (R310). -/
def suspectPm (x : Trunk) (only : Option Nat) : Trunk :=
  let mark := fun (l : List PmBin) => match l with | b :: r => { b with suspect := true } :: r | [] => []
  { x with pm := x.pm.map fun e => if only = none ∨ only = some e.1 then (e.1, { e.2 with q15 := mark e.2.q15, day := mark e.2.day }) else e }

/-- Every current bin is marked suspect. -/
def suspectAll (s : State) : State := { s with trk := { p0 := suspectPm s.trk.p0 none, p1 := suspectPm s.trk.p1 none } }

/-! ## Roles, halts and states of the whole device -/

/-- Lifecycle states that run the line role (Table 13.5): PROVISIONED, OPERATIONAL, MAINTENANCE. -/
def lifeRuns (s : State) : Bool := decide (1 ≤ s.keys.life) && decide (s.keys.life ≤ 3)

/-- An integrity halt or a tamper halt is in force. -/
def halted (s : State) : Bool := s.mem.halt || s.mem.tamperHalt

/-- Bond role 2 to 5: line transmitters muted (R344). -/
def bondMuted (s : State) : Bool := decide (2 ≤ s.bnd.role)

/-- The line transmitters drive electrical idle: in reset (Table 21.10), muted by the bond, held by the lifecycle, halted, frozen, or in STANDBY or
below or on the way there (R344, R385, Table 16.3, R480, Table 18.3). -/
def lineMuted (s : State) : Bool :=
  s.boot.held || bondMuted s || !lifeRuns s || halted s || s.tmp.frozen || decide (2 ≤ s.pwr.state) || decide (s.pwr.target = some 2) ||
    decide (s.pwr.target = some 3)

/-- The datapath carries no frame: not up, held, halted, frozen, or not in RUN (R385, Table 16.3, R480, R496). -/
def dataHeld (s : State) : Bool :=
  decide (s.boot.step < 8) || !lifeRuns s || halted s || s.tmp.frozen || decide (s.pwr.state ≠ 0)

/-- The service state (R86): 0 START-UP, 1 NORMAL, 2 TEST, 3 RECOVERY. -/
def svcState (s : State) : Nat :=
  if s.boot.step < 10 then 0
  else if flag s 0x000048 16 then 2
  else if s.boot.recoveryFallback || (match s.boot.recoveryUntil with | some u => decide (s.now < u) | none => false) then 3
  else 1

/-- Main lane of a port, or the quad of a lane. -/
def quadOf (lane : Nat) : Nat := if lane < 32 then lane / 4 else 8

/-! ## Outputs -/

/-- An output is added to those sent (log entry 4). -/
def send (x : Sent) (s : State) : State := { s with sent := x :: s.sent }

/-! ## Sub-port counters (Table 5.7) -/

/-- A sub-port or management port counter is raised (R132): 0 RX_FRAMES_OK, 1 RX_OCTETS_OK, 2 TX_FRAMES, 3 TX_OCTETS,
4 RX_FCS_ERR, 5 RX_RUNT, 6 RX_OVERSIZE, 7 RX_MAC_CTRL, 8 RX_DROP, 9 TX_DROP. -/
def subCount (sp i n : Nat) (s : State) : State := if sp < 18 then bump (0x021000 + 0x40 * sp + 4 * i) n s else s

/-- The sub-port key of a transport that is an Ethernet port. -/
def viaSp : Via → Option Nat
  | .mp k => some (16 + k % 2)
  | .cp p k => some (spKey (p % 2) k)
  | .slow => none

/-- The length on the wire of a frame that carries an Apfesia frame: addresses, EtherType, tags, header, body, MAC and FCS (R39). -/
def apfesiaLen (tags body : Nat) : Nat := 66 + 4 * tags + body

/-- An Apfesia frame received or sent is counted at its port. -/
def countApfesia (v : Via) (tags body i : Nat) (s : State) : State :=
  match viaSp v with
  | some sp => subCount sp (i + 1) (apfesiaLen tags body) (subCount sp i 1 s)
  | none => s

/-! ## Bytes and words -/

/-- Four bytes as a word, big-endian (R39). -/
def word4 (a b c d : Nat) : Word := BitVec.ofNat 32 ((a % 256) * 0x1000000 + (b % 256) * 0x10000 + (c % 256) * 256 + d % 256)

/-- The longest frame of a port (R119): FRAME_MAX, 32 bytes more on a line port. -/
def frameMax (s : State) (p : Nat) : Nat := fld s (0x020000 + 0x10 * p) 29 16 + (if p = 2 ∨ p = 3 then 32 else 0)

/-- A number as a word. -/
def w32 (n : Nat) : Word := BitVec.ofNat 32 n

/-- The bytes of a word, big-endian. -/
def wordBytes (w : Word) : List Nat := [w.bits 31 24, w.bits 23 16, w.bits 15 8, w.bits 7 0]

/-- A number as `n` big-endian bytes. -/
def beBytes : Nat → Nat → List Nat
  | 0, _ => []
  | n + 1, v => (v / 256 ^ n % 256) :: beBytes n v

/-- Bytes as words, the last padded with zeros (R41). -/
def packWords : List Nat → List Word
  | a :: b :: c :: d :: r => word4 a b c d :: packWords r
  | [] => []
  | [a] => [word4 a 0 0 0]
  | [a, b] => [word4 a b 0 0]
  | [a, b, c] => [word4 a b c 0]

/-- The bytes of words. -/
def unpack (ws : List Word) : List Nat := ws.flatMap wordBytes

/-- A run of big-endian bytes as a number. -/
def beNat (bs : List Nat) : Nat := bs.foldl (fun a b => a * 256 + b % 256) 0

/-- The word of a list at an index, 0 past its end. -/
def wordAt (ws : List Word) (i : Nat) : Word := ws.getD i 0

/-- The byte of words at an offset. -/
def byteAt (ws : List Word) (o : Nat) : Nat := (wordAt ws (o / 4)).bits (31 - 8 * (o % 4)) (24 - 8 * (o % 4))

/-- The `n` bytes of words from an offset, as a big-endian number. -/
def bytesNat (ws : List Word) (o n : Nat) : Nat := beNat ((List.range n).map fun i => byteAt ws (o + i))

/-! ## The recorder's staging (R530 to R535) -/

/-- Codes that are never suppressed (R535). -/
def exempt (code resp : Nat) : Bool :=
  [0x1301, 0x1302, 0x1303, 0x1304].contains code || decide (code / 256 = 0x0D) || (decide (code = 0x1101) && decide (resp ≤ 3))

/-- The sequence number after another (R530). -/
def seqAfter (n : Nat) : Nat := if n = 0xFFFFFFFF then 0x1000 else n + 1

/-- One record staged, in the staging SRAM, the RS region, or counted lost (R530, R531, R532, R585). -/
def stageOne (code flags : Nat) (data : List Nat) (s : State) : State :=
  let n := s.evr.nextSeq
  let fl := flags + bit s.time.sync + 2 * bit (!s.time.running)
  let (ts, tn) :=
    if s.time.running then (todSec s, todNs s)
    else
      let q := s.time.savedTod + (rtcNow s + 2 ^ 48 - s.time.savedRtc) % 2 ^ 48 * 65536000000000 / 32768
      (q / 65536 / 1000000000, q / 65536 % 1000000000)
  let bytes := (data ++ List.replicate 8 0).take 8
  let body := beBytes 4 n ++ beBytes 2 code ++ [fl, s.time.epoch % 256] ++ beBytes 4 ts ++ beBytes 4 tn ++ bytes
  let m := Config.recordMac s.evr.lastMac body
  let r : Rec := { seq := n, code := code, flags := fl, epoch := s.time.epoch % 256, sec := ts % 2 ^ 32, ns := tn,
                   data := bytes, mac := m, at_ := s.now }
  let e := { s.evr with nextSeq := seqAfter n, lastSeq := n, lastMac := m }
  if s.evr.staged.length < 8192 ∧ s.evr.ddr = [] then { s with evr := { e with staged := s.evr.staged ++ [r] } }
  else if s.evr.ddr.length < 3145728 ∧ s.mem.c0.up = true ∧ s.mem.memOff = false ∧ s.mem.halt = false then
    { s with evr := { e with ddr := s.evr.ddr ++ [r] } }
  else bump 0x14000C 1 { s with evr := { s.evr with lostPending := s.evr.lostPending + 1 } }

/-- The first `n` uncommitted records are written to flash in order: to the circulating area, of which the last 65,536 count, and those
of SEQ 0 to 4,095 also to the keep area (R532, R533). -/
def commit (n : Nat) (s : State) : State :=
  let all := s.evr.staged ++ s.evr.ddr
  let out := all.take n
  let circ := s.evr.circ ++ out
  { s with evr := { s.evr with
    staged := s.evr.staged.drop n, ddr := s.evr.ddr.drop (n - s.evr.staged.length),
    circ := circ.drop (circ.length - 65536), keep := s.evr.keep ++ out.filter (fun r => decide (r.seq < 4096)),
    written := s.evr.written + out.length } }

/-- Every uncommitted record is written to flash. -/
def commitAll (s : State) : State := commit (s.evr.staged.length + s.evr.ddr.length) s

/-- Whether a record would be staged now. -/
def roomToStage (s : State) : Bool :=
  (decide (s.evr.staged.length < 8192) && decide (s.evr.ddr = [])) ||
    (decide (s.evr.ddr.length < 3145728) && s.mem.c0.up && !s.mem.memOff && !s.mem.halt)

/-- Records of one event staged, an EV_EVR_LOST first where some were lost and there is room again (R532). -/
def stageRecords (code flags : Nat) (recs : List (List Nat)) (s : State) : State :=
  let s :=
    if s.evr.lostPending ≠ 0 ∧ roomToStage s = true then
      stageOne 0x1304 4 (beBytes 4 s.evr.lostPending) { s with evr := { s.evr with lostPending := 0 } }
    else s
  match recs with
  | [] => s
  | [a] => stageOne code flags a s
  | a :: b :: _ => stageOne code (flags + 8) b (stageOne code flags a s)

/-- The tokens of a code's bucket (R535). -/
def tokensOf (s : State) (code : Nat) : Nat :=
  match look s.evr.buckets code with
  | some b => min b.tokens (fld s 0x140000 23 16)
  | none => fld s 0x140000 23 16

/-- The interval between two tokens (R535). -/
def tokenGap (s : State) : Nat := sec / max 1 (fld s 0x140000 6 0)

/-- An event is staged when its code can take a token, else suppressed and counted (R535). -/
def stageEvent (code flags : Nat) (recs : List (List Nat)) (resp : Nat) (s : State) : State :=
  if exempt code resp = true then stageRecords code flags recs s
  else
    let t := tokensOf s code
    if t = 0 then
      let w := match look s.evr.windows code with
        | some w => { w with count := w.count + 1 }
        | none => { opened := s.now, count := 1 }
      bump 0x140010 1 { s with evr := { s.evr with windows := put s.evr.windows code w } }
    else
      let due := match look s.evr.buckets code with
        | some b => if b.tokens < fld s 0x140000 23 16 then b.due else s.now + tokenGap s
        | none => s.now + tokenGap s
      stageRecords code flags recs { s with evr := { s.evr with buckets := put s.evr.buckets code { tokens := t - 1, due := due } } }

end Sys2Proof.Machine
end

