-- ==== Sys2Proof/Machine/Crypto.lean ====
section
/-! DEFINITION. The cryptographic constructions the spec spells out, over the functions of other standards that Config leaves without a
body (log entry 5): HMAC-SHA-384, the SP 800-108 KDF, GHASH and GCM. -/
namespace Sys2Proof.Machine
open Sys2Proof

/-- The exclusive or of two byte strings, over the shorter. -/
def xorBytes (a b : List Nat) : List Nat := List.zipWith Nat.xor a b

/-- HMAC-SHA-384 of a message under a key of at most one 128-byte block (R40). -/
def hmac384 (key msg : List Nat) : List Nat :=
  let k := key ++ List.replicate (128 - key.length) 0
  Config.sha384 (k.map (Nat.xor 0x5C) ++ Config.sha384 (k.map (Nat.xor 0x36) ++ msg))

/-- The MAC of an Apfesia frame under a 256-bit session key: the leftmost 16 bytes of the HMAC (R40). -/
def frameMac (key : Nat) (bytes : List Nat) : List Nat := (hmac384 (beBytes 32 key) bytes).take 16

/-- The bytes of an ASCII label. -/
def ascii (s : String) : List Nat := s.toList.map Char.toNat

/-- The SP 800-108 counter-mode KDF with HMAC-SHA-384 and an output of `n` bits (R373, R424, R456): blocks of a 32-bit counter from 1, the label, a
zero byte, the context and the length (log entry 5). -/
def kdfBits (n : Nat) (key : List Nat) (label : String) (context : List Nat) : Nat :=
  beNat (((List.range ((n + 383) / 384)).flatMap fun i =>
    hmac384 key (beBytes 4 (i + 1) ++ ascii label ++ [0] ++ context ++ beBytes 4 n)).take (n / 8))

/-- The KDF of a 256-bit output (R373). -/
def kdf (key : List Nat) (label : String) (context : List Nat) : Nat := kdfBits 256 key label context

/-- Multiplication in the field of GHASH, whose elements have their first coefficient at the left: `n` steps over the bits of `x` from the
left, `v` the shifted factor, `z` the sum so far. -/
def gfMul : Nat → Nat → Nat → Nat → Nat
  | 0, _, _, z => z
  | n + 1, x, v, z =>
    gfMul n x (if v.testBit 0 then Nat.xor (v / 2) (0xE1 * 2 ^ 120) else v / 2) (if x.testBit n then Nat.xor z v else z)

/-- The doubling of AES-CMAC's subkeys. -/
def cmacDouble (x : Nat) : Nat := if x.testBit 127 then Nat.xor (2 * x % 2 ^ 128) 0x87 else 2 * x

/-- AES-CMAC of a message under a key of `bits` bits (SP 800-38B, R423). -/
def cmac (bits key : Nat) (msg : List Nat) : List Nat :=
  let k1 := cmacDouble (Config.aes bits key 0)
  let n := (msg.length - 1) / 16
  let last := msg.drop (16 * n)
  let end_ := if last.length = 16 then Nat.xor (beNat last) k1
    else Nat.xor (beNat (last ++ [0x80] ++ List.replicate (15 - last.length) 0)) (cmacDouble k1)
  let y := ((List.range n).map fun i => beNat ((msg.drop (16 * i)).take 16)).foldl (fun y b => Config.aes bits key (Nat.xor y b)) 0
  beBytes 16 (Config.aes bits key (Nat.xor y end_))

/-- GHASH of blocks under a hash key. -/
def ghash (h : Nat) (blocks : List Nat) : Nat := blocks.foldl (fun y b => gfMul 128 (Nat.xor y b) h 0) 0

/-- Bytes as 128-bit blocks, the last padded with zeros. -/
def blocks16 : Nat → List Nat → List Nat
  | 0, _ => []
  | n + 1, bs => if bs = [] then [] else beNat (bs.take 16 ++ List.replicate (16 - bs.length) 0) :: blocks16 n (bs.drop 16)

/-- The blocks of a byte string. -/
def blocksOf (bs : List Nat) : List Nat := blocks16 (bs.length / 16 + 1) bs

/-- The GCM keystream under a key of `bits` bits and a 96-bit IV: `n` bytes from the counter 2 on. -/
def gcmStream (bits key iv n : Nat) : List Nat :=
  ((List.range ((n + 15) / 16)).flatMap fun i => beBytes 16 (Config.aes bits key (iv * 2 ^ 32 + i + 2))).take n

/-- A GCM tag over additional data and ciphertext. -/
def gcmTag (bits key iv : Nat) (aad c : List Nat) : List Nat :=
  let h := Config.aes bits key 0
  let s := ghash h (blocksOf aad ++ blocksOf c ++ [8 * aad.length * 2 ^ 64 + 8 * c.length])
  beBytes 16 (Nat.xor s (Config.aes bits key (iv * 2 ^ 32 + 1)))

/-- The tweaks of the blocks of a data unit of AES-XTS, each the last one times the primitive element, its bytes read as a little-endian number
(IEEE 1619). -/
def xtsTweaks : Nat → Nat → List Nat
  | 0, _ => []
  | n + 1, x => x :: xtsTweaks n (cmacDouble x)

/-- Bytes as a little-endian number, and back. -/
def leNat (bs : List Nat) : Nat := beNat bs.reverse
def leBytes (n v : Nat) : List Nat := (beBytes n v).reverse

/-- A 64-byte data unit under AES-XTS-256: `f` is AES or its inverse, the key pair in 512 bits, the tweak value little-endian (R457). -/
def xtsUnit (f : Nat → Nat → Nat → Nat) (pair tweak : Nat) (bs : List Nat) : List Nat :=
  let t0 := leNat (beBytes 16 (Config.aes 256 (pair % 2 ^ 256) (beNat (leBytes 16 tweak))))
  (xtsTweaks 4 t0).zipIdx.flatMap fun e =>
    let t := leBytes 16 e.1
    let p := ((bs.drop (16 * e.2)) ++ List.replicate 16 0).take 16
    xorBytes (beBytes 16 (f 256 (pair / 2 ^ 256) (beNat (xorBytes p t)))) t

/-- The Ethernet FCS's CRC-32, one byte: `n` bits to go. -/
def fcsBits : Nat → Nat → Nat
  | 0, c => c
  | n + 1, c => fcsBits n (if c.testBit 0 then Nat.xor (c / 2) 0xEDB88320 else c / 2)

/-- The CRC-32 of bytes, with the polynomial, initial value and final exclusive or of the Ethernet FCS. -/
def crc32 (bs : List Nat) : Nat := Nat.xor 0xFFFFFFFF (bs.foldl (fun c b => fcsBits 8 (Nat.xor c (b % 256))) 0xFFFFFFFF)

/-- The four bytes of an FCS, in its byte order. -/
def fcsBytes (bs : List Nat) : List Nat := (beBytes 4 (crc32 bs)).reverse

/-- The bits of bytes, the lowest of each byte first, and back. -/
def bitsLsb (bs : List Nat) : List Bool := bs.flatMap fun b => (List.range 8).map fun i => b.testBit i
def bytesLsb : Nat → List Bool → List Nat
  | 0, _ => []
  | n + 1, l => ((List.range 8).foldl (fun a i => a + 2 ^ i * bit (l.getD i false)) 0) :: bytesLsb n (l.drop 8)

/-- The additive scrambler 1 + x^14 + x^15 over bits: the scrambled bits and the state after. Its state holds the last 15 bits of its
sequence, the newest lowest (R103, R279). -/
def scramble : Nat → List Bool → List Bool × Nat
  | st, [] => ([], st)
  | st, b :: r =>
    let k := st.testBit 13 != st.testBit 14
    let (o, n) := scramble ((2 * st + bit k) % 2 ^ 15) r
    ((b != k) :: o, n)

/-- The key that an SA of a suite uses: its length, and the number in the upper bytes of the 256-bit KEY field (Table 8.4). -/
def suiteKey (k256 : Bool) (field : Nat) : Nat × Nat := if k256 then (256, field) else (128, field / 2 ^ 128)

/-- A key of 128 or 256 bits as the KEY field holds it: a 128-bit key in the upper half. -/
def keyField (k256 : Bool) (value : Nat) : Nat := if k256 then value % 2 ^ 256 else value % 2 ^ 128 * 2 ^ 128

end Sys2Proof.Machine
end

