-- ==== Sys2Proof/Machine/Flags.lean ====
section
/-! DEFINITION. The words that hardware shows: every read-only field computed from the state, the approved-mode conditions,
the interrupt bits, and a register as a read returns it. -/
namespace Sys2Proof.Machine
open Sys2Proof

/-- The sum of the values of a list. -/
def total {α : Type} (l : List α) (f : α → Nat) : Nat := l.foldl (fun a x => a + f x) 0

/-- A bitmap of the indices below `n` that satisfy a test. -/
def bitmap (n : Nat) (p : Nat → Bool) : Nat := (List.range n).foldl (fun a i => if p i then a + 2 ^ i else a) 0

/-- A number capped. -/
def cap (m n : Nat) : Nat := if n < m then n else m

/-! ## Approved mode (13.8) -/

/-- Whether a tamper source meets condition 4 (Table 13.10): enabled, not fused, response zeroise keys or stronger. -/
def tamperGuards (s : State) (n : Nat) : Bool :=
  flag s (0x110000 + 4 * n) 4 && !s.tmp.fused.testBit n && decide (fld s (0x110000 + 4 * n) 2 0 ≤ 1)

/-- The UNMET bits `[5:1]` as they stand in `VLT_APPR` (Table 13.10). -/
def unmet (s : State) : Nat :=
  2 * bit (s.keys.life != 2) + 4 * bit (!flag s 0x130400 0) + 8 * bit (!s.boot.debugFused && s.keys.debugOpen) +
  16 * bit (!([2, 3, 5, 6].all (tamperGuards s))) + 32 * bit s.keys.katFailed

/-- Whether the approved mode can be in force (R399). -/
def approvable (s : State) : Bool := flag s 0x0C0004 0 && decide (unmet s = 0)

/-! ## Units -/

/-- A lane's LANE_STAT word (Table 4.5). -/
def laneStat (s : State) (n : Nat) : Nat :=
  let l := get s.lane.lanes n {}
  let live := if flag s (0x011008 + 0x20 * n) 16 then l.ctleLive else fld s (0x011008 + 0x20 * n) 11 8
  live * 2 ^ 12 + 8 * bit l.adaptDone + 4 * bit l.cdrLock + 2 * bit l.sigDet + bit l.powered

/-- A bond lane is usable: enabled and in frame (R107). -/
def bondLaneUp (s : State) (l : Nat) : Bool :=
  flag s 0x010200 l && (if l = 0 then s.lane.a0.inFrame else s.lane.a1.inFrame)

/-- The bond link mode: 0 down, 1 A0 only, 2 A1 only, 3 both (R107). -/
def bondMode (s : State) : Nat := bit (bondLaneUp s 0) + 2 * bit (bondLaneUp s 1)

/-- `PRT_PORT_STAT[p]` (Table 5.5). -/
def portStat (s : State) (p : Nat) : Nat :=
  let l := spsOf p
  (if p < 2 then breakoutLive s p * 2 ^ 16 else 0) +
  256 * bitmap l.length (fun k => let x := subPort s (l.getD k 0); x.localFault || x.remoteFault) +
  bitmap l.length (fun k => (subPort s (l.getD k 0)).link)

/-- `TIL_STAT[b.t]` (Table 9.10). -/
def tilStat (s : State) (b t : Nat) : Nat :=
  let x := tile s b t
  let used := if t < 2 then ((brick s b).banks.filter fun e => decide (e.1 / 16 = t)).length else 0
  cap 65535 ((s.now - x.since) / sec) * 2 ^ 16 + used * 256 + x.role % 4 * 64 + 4 * bit x.testing + 2 * bit x.failed +
    bit x.ok

/-- An express tile is in role and has not failed (Table 9.9). -/
def expressUp (s : State) (b : Nat) : Bool :=
  [0, 1].any fun t => let x := tile s b t; x.ok && (x.role == 1 || x.role == 2)

/-- A line port transmits under its trunk key: engaged, a key for the phase, its count below the ceiling (R286, R288). -/
def txKeyed (s : State) (p : Nat) : Bool :=
  let x := trunk s p
  x.keyed && (match look x.keys x.phase with | some k => decide (k.count < k.ceiling) | none => false)

/-- More than 16 paths of a trunk port have RX_MODE drop or pass (R309). -/
def rawMode (s : State) (p : Nat) : Bool := lpTrunk s p && decide (16 < ((trunk s p).paths.filter fun e => decide (e.2.rxMode ≠ 0)).length)

/-- `TRK_STAT[p]` (Table 10.10). -/
def trkStat (s : State) (p : Nat) : Nat :=
  let x := trunk s p
  x.rxLabel % 256 * 2 ^ 24 + 2048 * bit (txKeyed s p) + 1024 * bit x.nextReadyRx + 512 * (x.rxPhase % 2) + 256 * (x.phase % 2) +
  128 * bit (has x.keys 1) + 64 * bit (has x.keys 0) + 32 * bit x.dirConflict + 16 * bit x.labelFault + 8 * bit x.rdiRx +
  4 * bit x.lof + 2 * bit x.inFrame + bit (!(subPort s (18 + p)).link)

/-- Cells held of the buffer: of one egress, of one class of it, and from the shared pool (R317). -/
def cellsOf (c : Cells) : Nat := c.cls + c.port + c.shared
def portCells (s : State) (e : Nat) : Nat := total (s.que.cells.filter fun c => decide (c.queue / 4096 = e)) cellsOf
def sharedCells (s : State) : Nat := total s.que.cells (·.shared)

/-- Reserved cells in all (R320). -/
def reservedCells (s : State) : Nat :=
  total (List.range 4) fun e =>
    16 * fld s (0x0A0010 + 4 * e) 14 0 + total (List.range 8) fun c => 16 * fld s (0x0A0100 + 0x20 * e + 4 * c) 14 0

/-- Cells free in the shared pool (Table 11.4). -/
def sharedFree (s : State) : Nat := 262144 - reservedCells s - sharedCells s

/-- The lease is binding (R351). -/
def leaseBinding (s : State) : Bool := decide (s.bnd.role = 1) && s.bnd.inSync

/-- `BND_STAT` without DISCONT (Table 12.11). -/
def bndStat (s : State) : Nat :=
  2048 * bit (!lineMuted s) + 1024 * bit s.bnd.resync + 512 * bit (decide (s.bnd.role = 1) && s.bnd.inSync) +
  256 * bit (leaseBinding s) + s.bnd.role % 8

/-- `VLT_LC` (Table 13.11). -/
def vltLc (s : State) : Nat :=
  s.keys.officers.length * 2 ^ 16 + 256 * bit s.keys.debugOpen + 128 * bit s.boot.debugFused + 64 * bit s.boot.decomFuse +
  s.keys.life

/-- Slots a key takes (R379). -/
def keySlots (k : Key) : Nat := let a := k.typ.bits 31 24; if a = 0x21 ∨ a = 0x22 then 2 else 1

/-- Slots occupied (Table 13.11). -/
def slotsUsed (s : State) : Nat := total (s.keys.keys.filter fun e => decide (e.2.place = 0)) fun e => keySlots e.2

/-- Open sessions of an officer. -/
def officerSessions (s : State) (n : Nat) : Nat :=
  (s.cmd.sessions.filter fun e => decide (e.2.cred = .officer n)).length

/-- The jobs running on a lane or pipe of an engine. -/
def laneJobs (s : State) (engine lane : Nat) : List (Nat × Job) :=
  s.eng.jobs.filter fun e => decide (e.2.engine = engine) && decide (e.2.lane = some lane)

/-- `KLN_STAT` and `LAT_STAT` (Table 14.8). -/
def engStat (s : State) (engine n shift sshift : Nat) (lanes : KMap Lane14) : Nat :=
  bitmap n (fun k => (get lanes k {}).withheld) * 2 ^ shift +
  bitmap n (fun k => (laneJobs s engine k).any (·.2.suspended)) * 2 ^ sshift +
  bitmap n (fun k => (laneJobs s engine k).any (!·.2.suspended))

/-- `VLT_DKS_STAT` (Table 15.10). -/
def dksStat (s : State) : Nat :=
  let d := s.dks
  2 ^ 31 * bit d.enrolled + 2 ^ 26 * (if d.enrolled then d.replica else 3) +
  2 ^ 24 * (if d.rolling ≠ 0 then d.rolling else if d.pendingPkg.isSome then 3 else 0) +
  2 ^ 10 * (if d.enrolled then d.device % 1024 else 0) + d.gen % 256

/-- Minutes until the next automatic roll (Table 16.5). -/
def dueMin (s : State) : Nat :=
  if s.mem.rolling then 0 else match s.mem.due with
  | some d => cap 65535 ((d - s.now) / (60 * sec))
  | none => 0

/-- Bytes swept per channel by now in the running roll (R469). -/
def sweptBytes (s : State) : Nat :=
  s.mem.swept + (s.now - s.mem.sweptAt) * (fld s 0x100008 6 0 * 64 * 1048576) / sec

/-- Bytes of a channel: 16 or 32 GiB (R451). -/
def chanBytes (s : State) : Nat := if s.mem.cap = 2 then 2 ^ 35 else if s.mem.cap = 1 then 2 ^ 34 else 0

/-- MiB swept (Table 16.5): the last value stays. -/
def sweptMib (s : State) : Nat :=
  if s.mem.rolling then cap (chanBytes s) (sweptBytes s) / 1048576 else s.mem.swept / 1048576

/-- `MEM_STAT` (Table 16.5). -/
def memStat (s : State) : Nat :=
  s.mem.cap * 2 ^ 28 + s.mem.kid * 2 ^ 24 + s.mem.kidOld * 2 ^ 20 + 2 ^ 19 * bit s.mem.rolling + 2 ^ 18 * bit (s.mem.halt) +
  2 ^ 17 * bit s.mem.memOff + 2 ^ 16 * bit s.mem.initDone + 64 * (s.mem.c1.tries % 4) + 16 * (s.mem.c0.tries % 4) +
  2 * bit s.mem.c1.up + bit s.mem.c0.up

/-- `TMP_STAT` (Table 17.6). -/
def tmpStat (s : State) : Nat :=
  s.tmp.latch.length * 2 ^ 20 + cap 255 s.tmp.overflow * 2 ^ 12 + 4 * bit s.tmp.test.isSome + 2 * bit s.mem.tamperHalt +
  bit s.tmp.frozen

/-- A latch entry's two words (Table 17.5). -/
def latchWords (e : Latch) : Nat × Nat :=
  let b := beBytes 6 e.rtc
  (beNat ([e.source + 16 * e.resp + 128 * bit e.onBatt, 0] ++ b.take 2), beNat (b.drop 2))

/-- `PWR_STAT` (Table 18.8). -/
def pwrStat (s : State) : Nat :=
  s.pwr.wakeCause * 2 ^ 12 + 256 * bit s.pwr.queued.isSome + 128 * bit s.pwr.target.isSome +
  16 * (match s.pwr.target with | some t => t | none => s.pwr.state) + 8 * bit s.pwr.regLp + s.pwr.state

/-- The domains that are powered: on, gated or retained (Table 18.1). -/
def domains (s : State) : Nat :=
  if s.pwr.state = 3 then 3 * 2 ^ 32
  else if s.pwr.state = 2 then 2 ^ 34 - 1 - 0xF - (2 ^ 20 - 2 ^ 8)
  else 2 ^ 34 - 1

/-- A snapshot header's words (Table 19.3). -/
def snapHeader (k : Nat) (b : SnapBank) : List Word :=
  packWords (beBytes 4 b.seq ++ [k, b.sources, bit b.sync + 2 * bit b.offAny, 0] ++ beBytes 4 b.epoch ++ beBytes 6 b.sec ++
    beBytes 4 b.ns ++ beBytes 2 b.frac ++ beBytes 2 b.off ++ [0, 0, 0, 0, 0, 0])

def snapBank (s : State) (k : Nat) : SnapBank := if k = 0 then s.obs.bank0 else s.obs.bank1

/-- `TMU_STATUS` without FAULT (Table 6.5). -/
def tmuStat (s : State) : Nat :=
  128 * bit s.time.ppsInOk + 64 * bit s.time.ref10Ok + 16 * s.time.refSel + 8 * bit s.time.slewing +
  2 * bit s.time.stepAvail + bit s.time.sync

/-! ## Interrupts (Table 20.5) -/

/-- The level and flag sources of each row of Table 20.5. -/
def irqRow (s : State) (n : Nat) : Bool :=
  match n with
  | 0 => flag s 0x000054 2 || flag s 0x000050 6 || flag s 0x000050 7
  | 1 => flag s 0x010204 0 || flag s 0x010204 1 ||
      (List.range 9).any fun q => !s.lane.refOk.contains q &&
        (if q = 8 then portEnabled s 4 || portEnabled s 5 else portEnabled s (q / 2))
  | 2 => [0x024800, 0x024804, 0x024808, 0x02480C].any fun a => decide (fld s a 24 0 ≠ 0)
  | 3 => flag s 0x040000 8 || (List.range 8).any fun k => flag s (0x040204 + 8 * k) 30
  | 4 => (List.range 4).any fun b => flag s (0x050004 + 0x100 * b) 24
  | 5 => (List.range 4).any fun b =>
      ((List.range 6).any fun t => (tile s b t).failed) || (!expressUp s b && flag s (0x070000 + 0x100 * b) 0)
  | 6 => [0, 1].any fun p => let x := trunk s p; x.lof || x.labelFault || x.rdiRx || x.dirConflict
  | 7 => (List.range 4).any fun e => flag s (0x0A0400 + 0x10 * e) 17
  | 8 => flag s 0x0B0004 15
  | 9 => (flag s 0x0C0004 0 && !s.keys.inForce) || s.eng.lanes.any (·.2.withheld) || s.eng.pipes.any (·.2.withheld) ||
      s.eng.failed
  | 10 => flag s 0x100028 31
  | 11 => s.tmp.frozen || s.mem.tamperHalt || !s.tmp.latch.isEmpty
  | 12 => (List.range 4).any fun b => flag s (0x120030 + 4 * b) 31
  | 13 => decide (fld s 0x130054 5 0 ≠ 0) || decide (s.obs.bank0.state = 2) || decide (s.obs.bank1.state = 2)
  | 14 => !s.evr.ddr.isEmpty
  | _ => false

/-- `GLB_IRQ_STAT` (R556). -/
def irqStat (s : State) : Nat := bitmap 15 (irqRow s)

/-- INT_N is driven low (R556); it is released in reset, SLEEP and OFF (Table 21.10). -/
def intLow (s : State) : Bool := decide (Nat.land (irqStat s) (fld s 0x000064 14 0) ≠ 0) && decide (s.pwr.state ≠ 3) && !s.boot.held && s.boot.supplyOk

/-! ## The computed part of each register -/

/-- The running bank and its SVN (Table 3.5). -/
def runBank (s : State) : Bank := if s.boot.runningB then s.boot.bankB else s.boot.bankA

def roGlb (s : State) (o : Nat) : Nat :=
  match o with
  | 0x00 => 0x1600B001
  | 0x04 => s.boot.grade % 2 * 65536 + 0x418
  | 0x08 => s.boot.serial % 2 ^ 32
  | 0x0C => s.boot.serial / 2 ^ 32 % 2 ^ 32
  | 0x10 => s.boot.mac % 2 ^ 32
  | 0x14 => s.boot.mac / 2 ^ 32 % 2 ^ 16
  | 0x18 => (runBank s).cmd.build % 2 ^ 32
  | 0x1C => (runBank s).cmd.build / 2 ^ 32 % 2 ^ 32
  | 0x20 => (runBank s).vlt.build % 2 ^ 32
  | 0x24 => (runBank s).vlt.build / 2 ^ 32 % 2 ^ 32
  | 0x28 => 16 * bit (intLow s) + 8 * bit s.keys.inForce + 4 * bit s.time.sync + 2 * bit s.tmp.frozen + bit (halted s)
  | 0x2C => Config.junction (s.now / ms) % 65536
  | 0x48 => 8 * bit (decide (10 ≤ s.boot.step)) + 4 * bit (decide (8 ≤ s.boot.step)) + svcState s
  | 0x54 => (if s.boot.romRecovery then 0 else (runBank s).cmd.svn) * 65536 + s.boot.minSvn * 256 + 8 * bit s.boot.romRecovery +
      2 * bit s.boot.trialBoot + bit s.boot.runningB
  | 0x60 => irqStat s
  | _ => 0

def roLne (s : State) (o : Nat) : Nat :=
  if o < 0x24 then 65536 * bit (s.lane.refOk.contains (o / 4))
  else if o = 0x204 then
    256 * bondMode s + 128 * bit s.lane.a1.farRdi + 64 * bit s.lane.a0.farRdi + 32 * bit s.lane.a1.inFrame +
      16 * bit s.lane.a0.inFrame
  else if 0x1000 ≤ o ∧ o < 0x1000 + 0x20 * 36 ∧ o % 0x20 = 0x0C then laneStat s ((o - 0x1000) / 0x20)
  else 0

def roPrt (s : State) (o : Nat) : Nat :=
  if o < 0x60 ∧ o % 0x10 = 4 then portStat s (o / 0x10)
  else if o < 0x40 ∧ o % 0x10 = 0xC then
    let l := spsOf (o / 0x10)
    total (List.range l.length) fun k => (subPort s (l.getD k 0)).verify % 4 * 4 ^ k
  else if o = 0x100 then s.port.capture.length
  else if 0x4000 ≤ o ∧ o < 0x4800 then
    let p := (o - 0x4000) / 0x400
    let d := (o - 0x4000) % 0x400
    let tx := d / 0x200
    let i := d % 0x200 / 8
    if i < 25 ∧ o % 8 = 0 then get s.port.line (64 * p + 32 * tx + i) 0 % 2 ^ 32
    else if i < 25 ∧ o % 8 = 4 then get s.obs.hiLatch (0x020000 + o) 0
    else 0
  else 0

def roTmu (s : State) (o : Nat) : Nat :=
  match o with
  | 0x00 => tmuStat s
  | 0x04 => s.time.epoch
  | 0x10 => todSec s / 2 ^ 32 % 2 ^ 16
  | 0x14 => s.time.latched / 65536 / 1000000000 % 2 ^ 32
  | 0x18 => s.time.latched / 65536 % 1000000000
  | 0x1C => s.time.latched % 65536
  | 0x20 => fast s % 2 ^ 32
  | 0x24 => get s.obs.hiLatch 0x040024 0
  | 0x54 => s.time.ppsStamp % 2 ^ 32
  | 0x58 => s.time.ppsSec % 2 ^ 32
  | _ => 0

/-- Valid entries of the active bank (FLOW_VALID); a key that is being moved counts once. -/
def validFlow (x : BrickTables) : Nat :=
  (x.flow.filter fun e => !e.2.tomb && !(x.chain.any fun c => c.held.any fun h => h.1 == e.1)).length

def roCls (s : State) (o : Nat) : Nat :=
  let b := o / 0x100
  let t := tables s b
  if 4 ≤ b then 0 else
  match o % 0x100 with
  | 0x04 => 2 ^ 26 * bit t.bank + 2 ^ 25 * bit t.rehash.isSome + validFlow t
  | 0x08 => t.seed0 % 2 ^ 32
  | 0x0C => t.seed1 % 2 ^ 32
  | _ => 0

def roBrk (s : State) (o : Nat) : Nat :=
  let b := o / 0x100
  if b < 4 ∧ o % 0x100 = 4 then
    65536 * bit (expressUp s b) + 256 * bitmap 6 (fun t => (tile s b t).testing) + bitmap 6 (fun t => (tile s b t).ok)
  else 0

def roTrk (s : State) (o : Nat) : Nat :=
  let p := o / 0x100
  if 2 ≤ p then 0 else
  if o % 0x100 = 4 then
    trkStat s p + 4096 * bit (rawMode s p)
  else if 0x40 ≤ o % 0x100 ∧ o % 0x100 < 0x60 then
    let w := (o % 0x100 - 0x40) / 4
    bitmap 32 fun i => (trunk s p).ais.contains (32 * w + i)
  else 0

def roQue (s : State) (o : Nat) : Nat :=
  if o = 4 then sharedFree s
  else if 0x20 ≤ o ∧ o < 0x30 then portCells s ((o - 0x20) / 4)
  else if 0x400 ≤ o ∧ o < 0x440 then
    let g := get s.que.egress ((o - 0x400) / 0x10) {}
    let at_ := match g.pending with | some _ => g.changeT | none => 0
    match o % 0x10 with
    | 0 => 2 ^ 20 * bit g.oper.enable + 2 ^ 19 * bit g.pending.isSome + 2 ^ 18 * bit g.late + g.entry % 1024
    | 4 => at_ % 2 ^ 32
    | 8 => at_ / 2 ^ 32 % 256
    | _ => 0
  else 0

def roVlt (s : State) (o : Nat) : Nat :=
  if o = 0x00 then vltLc s
  else if o = 0x04 then 256 * bit s.keys.inForce + unmet s
  else if o = 0x08 then (s.keys.keys.filter fun e => e.2.use.bit 7).length * 65536 + slotsUsed s
  else if o = 0x0C then s.keys.keys.length
  else if 0x40 ≤ o ∧ o < 0x80 then
    let n := (o - 0x40) / 4
    match look s.keys.officers n with
    | some f => 2 ^ 31 + f.role * 2 ^ 29 + cap 255 (officerSessions s n)
    | none => 0
  else if o = 0x80 then
    cap 255 s.eng.fails * 65536 + 16 * bit s.eng.failed + 8 * bit s.eng.startup + 4 * bit s.eng.d1.ok + 2 * bit s.eng.d0.ok +
      bit s.eng.srcOk
  else if o = 0x104 then dksStat s
  else if o = 0x10C then (if s.dks.enrolled then s.dks.domain else 0)
  else if o = 0x110 then s.dks.version % 2 ^ 32
  else if o = 0x114 then s.dks.version / 2 ^ 32 % 2 ^ 32
  else 0

def roVci (s : State) (o : Nat) : Nat :=
  if o < 0x100 then
    match look s.eng.pages (o / 4) with
    | some t => 2 ^ 31 + 128 * bit (s.eng.jobs.any fun e => decide (e.2.engine = 2) && decide (e.2.page = o / 4)) + t % 64
    | none => 0
  else if o = 0x100 then s.eng.pages.length
  else 0

def roMem (s : State) (o : Nat) : Nat :=
  match o with
  | 0x04 => memStat s
  | 0x0C => cap 65535 s.mem.rolls * 65536 + dueMin s
  | 0x10 => sweptMib s
  | 0x14 => sweptMib s
  | _ => 0

def roTmp (s : State) (o : Nat) : Nat :=
  if o = 0x44 then tmpStat s
  else if o = 0x48 then bitmap 16 fun n => s.tmp.cond.testBit n && !s.tmp.fused.testBit n
  else if o = 0x4C then s.tmp.fused % 2 ^ 15
  else if o = 0x50 then s.tmp.tested % 65536 * 65536 + s.tmp.testFail % 65536
  else if 0x80 ≤ o ∧ o < 0xC0 then
    match s.tmp.latch[(o - 0x80) / 8]? with
    | some e => if o % 8 = 0 then (latchWords e).1 else (latchWords e).2
    | none => 0
  else 0

def roPwr (s : State) (o : Nat) : Nat :=
  if o = 0 then pwrStat s
  else if o = 0x14 then domains s % 2 ^ 32
  else if o = 0x18 then domains s / 2 ^ 32
  else if 0x30 ≤ o ∧ o < 0x40 then
    let d := get s.pwr.dvfs ((o - 0x30) / 4) {}
    2 ^ 30 * bit (decide (d.phase ≠ 0)) + d.live % 2048 * 65536 + d.vout % 1024
  else 0

def roObs (s : State) (o : Nat) : Nat :=
  if o = 0 then 16
  else if o = 8 then 4 * s.obs.bank1.state + s.obs.bank0.state
  else if 0x10 ≤ o ∧ o < 0x30 then (wordAt (snapHeader 0 s.obs.bank0) ((o - 0x10) / 4)).toNat
  else if 0x30 ≤ o ∧ o < 0x50 then (wordAt (snapHeader 1 s.obs.bank1) ((o - 0x30) / 4)).toNat
  else if 0x200 ≤ o ∧ o < 0x380 then
    if o % 8 = 0 then get s.obs.counters ((o - 0x200) / 8) 0 % 2 ^ 32 else get s.obs.hiLatch (0x130000 + o) 0
  else if o = 0x404 then 256 * bit s.obs.selftest.isSome + s.obs.failed % 64
  else 0

def roEvr (s : State) (o : Nat) : Nat :=
  if o = 4 then 2 ^ 17 * bit (!s.evr.ddr.isEmpty) + s.evr.staged.length
  else if o = 8 then s.evr.lastSeq
  else 0

/-- The read-only fields of the register at an address, as hardware and firmware set them. -/
def roWord (s : State) (a : Nat) : Word :=
  let o := a % 0x10000
  w32 (match a / 0x10000 with
  | 0x00 => roGlb s o
  | 0x01 => roLne s o
  | 0x02 => roPrt s o
  | 0x04 => roTmu s o
  | 0x05 => roCls s o
  | 0x06 => if o = 0x10 then s.sas.sas.length + s.trk.p0.keys.length + s.trk.p1.keys.length else 0
  | 0x07 => roBrk s o
  | 0x08 => if o < 0x80 ∧ o % 0x20 < 0x18 then tilStat s (o / 0x20) (o % 0x20 / 4) else 0
  | 0x09 => roTrk s o
  | 0x0A => roQue s o
  | 0x0B => if o = 4 then bndStat s else if o = 8 then s.bnd.peer % 1024 * 65536 + s.bnd.bond % 512 else 0
  | 0x0C => roVlt s o
  | 0x0D => if o = 4 then engStat s 0 8 16 8 s.eng.lanes else 0
  | 0x0E => if o = 4 then engStat s 1 2 4 8 s.eng.pipes % 64 else 0
  | 0x0F => roVci s o
  | 0x10 => roMem s o
  | 0x11 => roTmp s o
  | 0x12 => roPwr s o
  | 0x13 => roObs s o
  | 0x14 => roEvr s o
  | 0x1F => if o = 0x0C then 0x58 + s.boot.slvAdr % 8 else 0
  | _ => 0)

/-- The live value of a register: its stored fields and its computed ones (an address that maps none reads 0, R66). -/
def liveWord (s : State) (a : Nat) : Word := regWord s a ||| roWord s a

/-- Whether an address is a copy of a status register of BND, TMP or PWR in the CMD block, and of which (R551). -/
def cmdCopy (a : Nat) : Option Nat :=
  if 0x1FE000 ≤ a ∧ a < 0x1FE800 then some (0x0B0000 + (a - 0x1FE000))
  else if 0x1FE800 ≤ a ∧ a < 0x1FF000 then some (0x110000 + (a - 0x1FE800))
  else if 0x1FF000 ≤ a ∧ a < 0x1FF800 then some (0x120000 + (a - 0x1FF000))
  else none

/-- The live register that a shadow copies (R551). -/
def shadowed (a : Nat) : Nat := (cmdCopy a).getD (a - 0x8000)

/-- A word of a block's shadow map (R552). -/
def shadowMap (a : Nat) : Nat :=
  let w := (a % 0x10000 - 0xFC00) / 4
  if w < 248 then bitmap 32 fun i => Config.isShadow (a / 0x10000 * 0x10000 + 0x8000 + 4 * (32 * w + i)) else 0

/-- The word a read of an address returns, before any effect of the read (R545, R551, R552). -/
def readWord (s : State) (a : Nat) : Word :=
  let o := a % 0x10000
  if 0xFC00 ≤ o then w32 (shadowMap a)
  else if 0x8000 ≤ o then
    if Config.isShadow a then get (snapBank s (fld s 0x130004 0 0)).values a 0 else 0
  else liveWord s a

/-- The word after a read: the clear-on-read fields cleared (Table 0.6). -/
def clearRead (a : Nat) (w : Word) : Word :=
  (fieldsAt a).foldl (fun w f => if f.acc = .rc then w.withBits f.hi f.lo 0 else w) w

/-- The counter a sub-port or management port counter register is, as key 16 · s + index (Table 5.7). -/
def subCounter (a : Nat) : Option Nat :=
  let o := a - 0x021000
  if 0x021000 ≤ a ∧ o / 0x40 < 18 ∧ o % 0x40 / 4 < 12 ∧ o % 4 = 0 then some (16 * (o / 0x40) + o % 0x40 / 4) else none

/-- The effect of a read of one register: clear-on-read, a sub-port counter's value added to its total (R132), and the latches of counter pairs (R140, R546). -/
def readEffect (a : Nat) (s : State) : State :=
  let s := match subCounter a with
    | some k => { s with port := { s.port with totals := bumpTable s.port.totals k (regWord s a).toNat } }
    | none => s
  let s := if (fieldsAt a).any (fun f => decide (f.acc = .rc)) then setReg a (clearRead a (regWord s a)) s else s
  let o := a % 0x10000
  let latch := fun (v : Nat) => { s with obs := { s.obs with hiLatch := put s.obs.hiLatch (a + 4) v } }
  if a = 0x040010 then { s with time := { s.time with latched := tod s } }
  else if a = 0x040020 then latch (fast s / 2 ^ 32)
  else if a / 0x10000 = 2 ∧ 0x4000 ≤ o ∧ o < 0x4800 ∧ o % 8 = 0 ∧ o % 0x200 / 8 < 25 then
    latch (get s.port.line (64 * ((o - 0x4000) / 0x400) + 32 * ((o - 0x4000) % 0x400 / 0x200) + o % 0x200 / 8) 0 / 2 ^ 32 % 2 ^ 16)
  else if a / 0x10000 = 0x13 ∧ 0x200 ≤ o ∧ o < 0x380 ∧ o % 8 = 0 then
    latch (get s.obs.counters ((o - 0x200) / 8) 0 / 2 ^ 32 % 2 ^ 16)
  else s

/-- Whether an address lies in a power domain that is off or in retention (R549, Table 18.1). -/
def domainDown (s : State) (a : Nat) : Bool :=
  if s.pwr.state = 2 then
    let o := if 0x8000 ≤ a % 0x10000 ∧ a % 0x10000 < 0xFC00 then a % 0x10000 - 0x8000 else a % 0x10000
    match a / 0x10000 with
    | 0x01 => (decide (o < 0x20)) || (decide (0x1000 ≤ o) && decide (o < 0x1400))
    | 0x02 => !((decide (0x40 ≤ o) && decide (o < 0x60)) || (decide (0x1400 ≤ o) && decide (o < 0x1480)))
    | 0x05 => true
    | 0x07 => true
    | 0x08 => true
    | 0x09 => true
    | 0x0A => true
    | 0x03 => true
    | _ => false
  else decide (s.pwr.state = 3)

end Sys2Proof.Machine
end

