-- ==== Sys2Proof/Machine/Record.lean ====
section
/-! DEFINITION. Snapshots, event records, notifications and completions. -/
namespace Sys2Proof.Machine
open Sys2Proof

/-! ## Snapshots (19.1, 19.2) -/

/-- Addresses of registers all of whose fields are computed. -/
def shownAddrs : List Nat :=
  [0, 4, 8, 0xC, 0x10, 0x14, 0x18, 0x1C, 0x20, 0x24, 0x28, 0x2C, 0x60] ++
  (List.range 36).map (0x01100C + 0x20 * ·) ++ (List.range 6).map (0x020004 + 0x10 * ·) ++
  (List.range 4).map (0x02000C + 0x10 * ·) ++
  ([0, 1].flatMap fun p => [0, 1].flatMap fun x => (List.range 50).map fun i => 0x024000 + 0x400 * p + 0x200 * x + 4 * i) ++
  [0x040004, 0x040010, 0x040014, 0x040018, 0x04001C, 0x040020, 0x040024, 0x040054, 0x040058] ++
  ((List.range 4).flatMap fun b => [0x050008 + 0x100 * b, 0x05000C + 0x100 * b, 0x070004 + 0x100 * b]) ++ [0x060010] ++
  ((List.range 4).flatMap fun b => (List.range 6).map fun t => 0x080000 + 0x20 * b + 4 * t) ++
  ([0, 1].flatMap fun p => (0x090004 + 0x100 * p) :: (List.range 8).map fun w => 0x090040 + 0x100 * p + 4 * w) ++ [0x0A0004] ++
  ((List.range 4).flatMap fun e => [0x0A0020 + 4 * e, 0x0A0404 + 0x10 * e, 0x0A0408 + 0x10 * e]) ++ [0x0B0008] ++
  [0x0C0000, 0x0C0008, 0x0C000C, 0x0C0080, 0x0C0104, 0x0C010C, 0x0C0110, 0x0C0114] ++
  (List.range 16).map (0x0C0040 + 4 * ·) ++ [0x0D0004, 0x0E0004] ++ (List.range 65).map (0x0F0000 + 4 * ·) ++
  [0x100004, 0x10000C, 0x100010, 0x100014, 0x110048, 0x11004C, 0x110050] ++ (List.range 16).map (0x110080 + 4 * ·) ++
  [0x120000, 0x120014, 0x120018] ++ (List.range 16).map (0x130010 + 4 * ·) ++ (List.range 96).map (0x130200 + 4 * ·) ++
  [0x130404, 0x140004, 0x140008, 0x1F000C]

/-- The shadow addresses of a live register (R551). -/
def shadowsOf (a : Nat) : List Nat :=
  let o := a % 0x10000
  let copy := match a / 0x10000 with
    | 0x0B => [0x1FE000 + o]
    | 0x11 => [0x1FE800 + o]
    | 0x12 => [0x1FF000 + o]
    | _ => []
  ((a + 0x8000) :: copy).filter Config.isShadow

/-- The values a snapshot latches: every shadow of a register whose domain is powered (R518, R520). -/
def latchAll (s : State) : KMap Word :=
  (storedAddrs ++ shownAddrs).foldl (fun m a =>
    if domainDown s a then m else (shadowsOf a).foldl (fun m x => put m x (liveWord s a)) m) []

/-- The OFF bits of a snapshot: the rows of Table 19.1 whose domain is off or in retention. -/
def offRows (s : State) : Nat := if s.pwr.state = 2 then 0x7FF else if s.pwr.state = 3 then 0xFFFF else 0

def setBank (k : Nat) (b : SnapBank) (s : State) : State :=
  if k = 0 then { s with obs := { s.obs with bank0 := b } } else { s with obs := { s.obs with bank1 := b } }

/-- A bank takes a snapshot of source bit `src` at the instant stated, in 2^-16 ns of time of day (R523 to R525). -/
def takeSnap (k src at_ : Nat) (s : State) : State :=
  let b : SnapBank :=
    { state := 2, seq := s.obs.nextSeq, sources := 2 ^ src, sync := s.time.sync, offAny := decide (offRows s ≠ 0),
      epoch := s.time.epoch, sec := at_ / 65536 / 1000000000 % 2 ^ 48, ns := at_ / 65536 % 1000000000, frac := at_ % 65536,
      off := offRows s, at_ := s.now, values := latchAll s }
  setBank k b { s with obs := { s.obs with nextSeq := s.obs.nextSeq + 1 } }

/-- A bank latched at most 40 ns ago, whose snapshot a trigger joins (R524). -/
def joinable (s : State) (b : SnapBank) : Bool := decide (b.state ≠ 0) && decide (s.now ≤ b.at_ + 40 * ns)

/-- A trigger that is enabled reaches the banks (R524): it joins, takes an EMPTY bank, or is missed; an integrity halt
trigger overwrites the FULL bank with the lower SNAP_SEQ. -/
def fireSnap (src at_ : Nat) (s : State) : State :=
  let join := fun (k : Nat) => setBank k { snapBank s k with sources := Nat.lor (snapBank s k).sources (2 ^ src) } s
  if joinable s s.obs.bank0 ∧ (joinable s s.obs.bank1 = false ∨ s.obs.bank1.seq < s.obs.bank0.seq) then join 0
  else if joinable s s.obs.bank1 then join 1
  else if s.obs.bank0.state = 0 then takeSnap 0 src at_ s
  else if s.obs.bank1.state = 0 then takeSnap 1 src at_ s
  else
    let s := bumpFld 0x130008 31 16 1 s
    if src = 4 then takeSnap (if s.obs.bank0.seq ≤ s.obs.bank1.seq then 0 else 1) src at_ s
    else stageEvent 0x1305 0 [[2 ^ src, 0] ++ beBytes 2 (fld s 0x130008 31 16)] 7 s

/-- A trigger of source bit `src` at an instant (R522): nothing where it is not enabled or the device sleeps. -/
def snapTrigger (src at_ : Nat) (s : State) : State :=
  if (src = 4 ∨ flag s 0x130000 src = true) ∧ s.pwr.state ≠ 3 ∧ 4 ≤ s.boot.step then fireSnap src at_ s else s

/-! ## Event records -/

/-- An event occurs: its records are staged or suppressed, and it fires the event code trigger (R522, R535). `resp` is the
response of a tamper alarm, 7 elsewhere. -/
def recordResp (code flags : Nat) (recs : List (List Nat)) (resp : Nat) (s : State) : State :=
  let s := stageEvent code flags recs resp s
  if code = fld s 0x13000C 15 0 then snapTrigger 2 (tod s) s else s

/-- An event of one record occurs. -/
def record (code : Nat) (data : List Nat) (s : State) : State := recordResp code 0 [data] 7 s

/-- An event of two records occurs (R577). -/
def record2 (code : Nat) (a b : List Nat) (s : State) : State := recordResp code 0 [a, b] 7 s

/-! ## Completions (2.5) -/

/-- Whether a transport can send now (R36, R578). -/
def viaUp (s : State) : Via → Bool
  | .mp k => (subPort s (16 + k % 2)).link
  | .cp p k => let x := subPort s (spKey (p % 2) k); x.link && !x.sendFault
  | .slow => true

/-- The bytes of an element (R41). -/
def elemBytes (e : Elem) : List Nat := beBytes 2 e.typ ++ beBytes 2 e.len ++ unpack e.val

/-- The length of a body in bytes. -/
def bodyLen (b : Body) : Nat := total b fun e => 4 + 4 * e.val.length

/-- The bytes of a completion up to its MAC (Table 2.5). -/
def doneBytes (c : Completion) : List Nat :=
  beBytes 4 0x41504653 ++ [1, c.world, c.mailbox, if c.notify then 0xA0 else 0x80] ++ beBytes 2 c.tag ++ beBytes 2 c.opcode ++
  beBytes 4 c.sequence ++ beBytes 2 c.session ++ beBytes 2 (bodyLen c.elems) ++ beBytes 2 c.status ++ beBytes 2 c.detail ++
  List.replicate 8 0 ++ c.elems.flatMap elemBytes

/-- A completion is sent on its transport; on the slow port it joins the undelivered ones, the oldest discarded at a
ninth (R36, R38). -/
def sendDone (c : Completion) (s : State) : State :=
  let s := perf 6 (if c.notify then 4 else 3) 1 s
  match c.via with
  | .slow =>
    let q := s.cmd.slowOut ++ [doneBytes c ++ c.mac]
    let full := decide (8 < q.length)
    send (.done c) { s with cmd := { s.cmd with
      slowOut := if full then q.drop 1 else q, slowPos := if full then 0 else s.cmd.slowPos } }
  | v => if viaUp s v then send (.done c) (countApfesia v (bit c.vlan.isSome) (bodyLen c.elems) 2 s) else s

/-- The flight of a command: the identity its completion needs. -/
def flightOf (h : Hdr) (op : Nat) (a : Await) : Flight :=
  { via := h.via, vlan := h.tags.head?, srcMac := h.srcMac, world := h.world, mailbox := h.mailbox, tag := h.tag, opcode := op,
    sequence := h.sequence, session := h.session, fence := h.flags.testBit 6, await := a }

/-- A frame the device sends with its MAC: HMAC-SHA-384 under a session key, none on session 0 and where the frame is not authenticated
(R40, R50). -/
def withMac (key : Option Nat) (c : Completion) : Completion :=
  { c with mac := match key with | some k => frameMac k (doneBytes c) | none => List.replicate 16 0 }

/-- The completion of a flight, under a key or unauthenticated (R36, R40). -/
def doneOf (f : Flight) (status detail : Nat) (elems : Body) (key : Option Nat) (s : State) : Completion :=
  withMac key
    { via := f.via, vlan := f.vlan, dstMac := f.srcMac, srcMac := s.boot.mac, world := f.world, mailbox := f.mailbox, notify := false,
      tag := f.tag, opcode := f.opcode, sequence := f.sequence, session := f.session, status := status, detail := detail,
      elems := elems, mac := [] }

/-- The key of an open session, 0 where it is not open. -/
def sessionKey (s : State) (n : Nat) : Nat := match look s.cmd.sessions n with | some x => x.key | none => 0

/-- Whether two flights are the same command: transport aside, its mailbox and tag (R49 step 8). -/
def sameFlight (a b : Flight) : Bool := decide (a.mailbox = b.mailbox) && decide (a.tag = b.tag)

/-- The key a command's completion is sent under: none on session 0 (R40); that of the command in flight, which outlives its session
(R47); else its session's. -/
def flightKey (s : State) (f : Flight) : Option Nat :=
  if f.session = 0 then none
  else match s.cmd.flights.find? (sameFlight f ·) with
    | some g => some g.key
    | none => some (sessionKey s f.session)

/-- A flight's completion is sent. -/
def answer (f : Flight) (status detail : Nat) (elems : Body) (s : State) : State :=
  sendDone (doneOf f status detail elems (flightKey s f) s) s

/-- The key a waiting command is parked under. -/
def parkKey (f : Flight) : Nat := 65536 * f.mailbox + f.tag

/-- A flight leaves the commands in flight, and the commands parked. -/
def dropFlight (f : Flight) (s : State) : State :=
  { s with cmd := { s.cmd with flights := s.cmd.flights.filter (!sameFlight f ·), parked := del s.cmd.parked (parkKey f) } }

/-- A session ends: it leaves the open sessions and drops its subscriptions (R46, R59). -/
def endSession (n : Nat) (s : State) : State :=
  { s with cmd := { s.cmd with sessions := del s.cmd.sessions n, subs := s.cmd.subs.filter fun u => decide (u.session ≠ n) } }

/-- The flights of a session. -/
def flightsOf (s : State) (n : Nat) : List Flight := s.cmd.flights.filter fun f => decide (f.session = n)

/-- SESSION_CLOSE takes effect for every session whose other commands have all completed (R47): its completion is sent, the
session ends. -/
def settleCloses (s : State) : State :=
  (s.cmd.flights.filter fun f => decide (f.await = .close) && decide ((flightsOf s f.session).length = 1)).foldl (fun s f =>
    endSession f.session (dropFlight f (answer f 0 0 [] s))) s

/-- A flight ends: it leaves the commands in flight and its completion is sent, with the reports that waited for it, then a SESSION_CLOSE it held up. -/
def finish (f : Flight) (status detail : Nat) (elems : Body) (s : State) : State :=
  settleCloses (dropFlight f (answer f status detail (if status = 0 then elems ++ f.report else elems) s))

/-- Every flight that waits for something completes alike. -/
def finishWhere (p : Await → Bool) (status : Nat) (elems : Body) (s : State) : State :=
  (s.cmd.flights.filter fun f => p f.await).foldl (fun s f => finish f status 0 elems s) s

/-- The wait of a flight changes. -/
def setAwait (f : Flight) (a : Await) (s : State) : State :=
  { s with cmd := { s.cmd with flights := s.cmd.flights.map fun g => if sameFlight f g then { g with await := a } else g } }

/-- The reports that join a flight's completion. -/
def setReport (f : Flight) (rep : Body) (s : State) : State :=
  { s with cmd := { s.cmd with flights := s.cmd.flights.map fun g => if sameFlight f g then { g with report := rep } else g } }

/-! ## Notifications (2.6) -/

/-- A notification of a class is sent to each subscriber of it, under its session's counter and key (R59). The spec gives a notification no
destination address, no OPCODE and its body no element type: the model sends address 0, no VLAN tag, the OPCODE of EVENT_SUBSCRIBE and
one element of type 0x0001 (log entry 19). -/
def notify (c : NotifyClass) (body : List Nat) (s : State) : State :=
  (s.cmd.subs.filter fun u => u.classes.contains c).foldl (fun s u =>
    match look s.cmd.sessions u.session with
    | none => s
    | some x =>
      let d : Completion :=
        { via := u.via, vlan := none, dstMac := 0, srcMac := s.boot.mac, world := x.world, mailbox := u.mailbox, notify := true,
          tag := 0xFFFF, opcode := 7, sequence := x.nextSeq, session := u.session, status := 0, detail := 0,
          elems := [{ typ := 1, len := body.length, val := packWords body }], mac := [] }
      sendDone (withMac (some x.key) d)
        { s with cmd := { s.cmd with sessions := put s.cmd.sessions u.session { x with nextSeq := x.nextSeq + 1 } } }) s

/-! ## Long operations (R54) -/

/-- The OP_ID element (Table 2.10). -/
def opIdElem (n : Nat) : Elem := { typ := 0x7F00, len := 4, val := [w32 n] }

/-- Long operations tracked and not ended. -/
def opsRunning (s : State) : Nat := (s.cmd.ops.filter fun e => !e.2.done).length

/-- The identifier the next long operation takes. -/
def nextOp (s : State) : Nat := s.cmd.nextOp

/-- A long operation starts. The oldest ended one leaves the table when it is full; until then it is kept (log entry 23). -/
def startOp (opcode world mailbox tag : Nat) (s : State) : State :=
  let ops := if 32 ≤ s.cmd.ops.length then
      match s.cmd.ops.find? (·.2.done) with
      | some e => del s.cmd.ops e.1
      | none => s.cmd.ops
    else s.cmd.ops
  { s with cmd := { s.cmd with ops := put ops s.cmd.nextOp { opcode := opcode, world := world, mailbox := mailbox, tag := tag }, nextOp := s.cmd.nextOp + 1 } }

/-- A long operation ends with a status and result elements; its completion is notified (R54, R59). -/
def endOp (n status : Nat) (elems : Body) (s : State) : State :=
  match look s.cmd.ops n with
  | none => s
  | some o =>
    notify .longOp (beBytes 4 n ++ beBytes 2 status ++ [0, 0])
      { s with cmd := { s.cmd with ops := put s.cmd.ops n { o with done := true, status := status, elems := elems } } }

/-! ## Approved mode (R399, R400) -/

/-- The approved mode is entered or left after a change of its conditions or of its request (R399, R400). -/
def settleApproved (s : State) : State :=
  if approvable s = true ∧ s.keys.inForce = false then
    record 0x0D06 [unmet s] { s with keys := { s.keys with inForce := true } }
  else if approvable s = false ∧ s.keys.inForce = true then
    let s := record 0x0D07 [unmet s] { s with keys := { s.keys with inForce := false } }
    notify .tamperTime ([0x41, unmet s, 0, 0] ++ wordBytes (liveWord s 0x0C0004)) s
  else s

/-- A known-answer test has failed since reset (Table 13.10, condition 5). -/
def katFailure (s : State) : State := settleApproved { s with keys := { s.keys with katFailed := true } }

/-- A unit of a kind of `OBS_IST_STAT` has failed since reset: 0 tile, 1 kiln, 2 lattice, 3 cipher core, 4 hash, 5 entropy or DRBG
(Table 19.8). It counts under condition 5. -/
def kindFailed (n : Nat) (s : State) : State :=
  katFailure { s with obs := { s.obs with failed := Nat.lor s.obs.failed (2 ^ n) } }

end Sys2Proof.Machine
end

