-- ==== Sys2Proof/Machine/Operands.lean ====
section
/-! DEFINITION. The elements of a body (2.2): what each command takes, which are malformed, and how a field of an element is
read, clamped and reported as applied (2.5, 2.7). -/
namespace Sys2Proof.Machine
open Sys2Proof

/-! ## Status codes (Table 2.11) -/

def stOk : Nat := 0x0000
def stInProgress : Nat := 0x0001
def stDeferred : Nat := 0x0002
def stBadVersion : Nat := 0x0100
def stBadLength : Nat := 0x0101
def stNoSession : Nat := 0x0102
def stBadMac : Nat := 0x0103
def stReplay : Nat := 0x0104
def stWrongWorld : Nat := 0x0105
def stTagBusy : Nat := 0x0106
def stUnknownOpcode : Nat := 0x0107
def stBadElement : Nat := 0x0108
def stBusy : Nat := 0x0200
def stNoSpace : Nat := 0x0201
def stHalted : Nat := 0x0202
def stStandby : Nat := 0x0203
def stState : Nat := 0x0204
def stNotFound : Nat := 0x0205
def stAborted : Nat := 0x0206
def stKeyAttr : Nat := 0x0300
def stLifecycle : Nat := 0x0301
def stDualControl : Nat := 0x0302
def stAuth : Nat := 0x0303
def stNotApproved : Nat := 0x0304
def stOperand : Nat := 0x0400
def stPoint : Nat := 0x0401
def stEngineFault : Nat := 0x0402
def stSelftest : Nat := 0x0403

/-! ## What a command takes -/

/-- An element a command takes: its type, whether a value length is right, whether it may repeat, whether its identifier fields
lie in their spaces (R42, R63), and whether the command requires it. -/
structure ElemSpec where
  typ   : Nat
  len   : Nat → Bool
  multi : Bool := false
  ident : List Word → Bool := fun _ => true
  req   : Bool := false

/-- An element of a fixed length. -/
def el (typ len : Nat) (req : Bool := false) (ident : List Word → Bool := fun _ => true) : ElemSpec :=
  { typ := typ, len := fun n => n == len, req := req, ident := ident }

/-- An element that may repeat. -/
def els (typ len : Nat) (req : Bool := false) (ident : List Word → Bool := fun _ => true) : ElemSpec :=
  { typ := typ, len := fun n => n == len, req := req, ident := ident, multi := true }

/-- An element whose length lies in a range. -/
def elv (typ lo hi : Nat) (req : Bool := false) (ident : List Word → Bool := fun _ => true) : ElemSpec :=
  { typ := typ, len := fun n => decide (lo ≤ n) && decide (n ≤ hi), req := req, ident := ident }

/-- A common type that Table 2.10 defines: ignored in a command whatever its critical bit (R41). -/
def commonType (typ : Nat) : Bool := [0x7F00, 0x7F01, 0x7F02].contains (typ % 0x8000)

/-- Whether an element is malformed, given the types that stand before it (R42). -/
def badElem (specs : List ElemSpec) (before : List Nat) (e : Elem) : Bool :=
  decide (4 * e.val.length < e.len) || decide (e.typ % 0x8000 = 0) ||
  (!commonType e.typ &&
    match specs.find? (·.typ == e.typ) with
    | none => decide (0x8000 ≤ e.typ)
    | some p => !p.len e.len || (!p.multi && before.contains e.typ) || !p.ident e.val)

/-- The 1-based index of the first malformed element. -/
def firstBad (specs : List ElemSpec) (before : List Nat) (i : Nat) : Body → Option Nat
  | [] => none
  | e :: r => if badElem specs before e then some i else firstBad specs (e.typ :: before) (i + 1) r

/-- The first element of a type. -/
def elemOf (b : Body) (typ : Nat) : Option Elem := b.find? (·.typ == typ)

/-- The elements of a type, in order. -/
def elemsOf (b : Body) (typ : Nat) : List Elem := b.filter (·.typ == typ)

/-- The words of the first element of a type, none where it is absent. -/
def wordsOf (b : Body) (typ : Nat) : List Word := match elemOf b typ with | some e => e.val | none => []

/-- Whether a body has an element of a type. -/
def hasElem (b : Body) (typ : Nat) : Bool := (elemOf b typ).isSome

/-- The DETAIL of a body's structural failure, none where it is well formed: a malformed element's index, or 0 for a
required element that is missing (R42, R49 step 11; log entry 12). -/
def bodyFault (specs : List ElemSpec) (b : Body) : Option Nat :=
  match firstBad specs [] 1 b with
  | some i => some i
  | none => if specs.all (fun p => !p.req || hasElem b p.typ) then none else some 0

/-- The 1-based index of the first element of a type, 0 where none. -/
def elemIndex (b : Body) (typ : Nat) : Nat :=
  match b.findIdx? (·.typ == typ) with
  | some i => i + 1
  | none => 0

/-! ## As-applied reports (R58) -/

/-- An AS_APPLIED element. -/
def asApplied (locator requested applied : Word) : Elem := { typ := 0x7F01, len := 12, val := [locator, requested, applied] }

/-- The report of one word of an element: none where the value was applied unchanged. -/
def reportElem (typ idx : Nat) (requested applied : Word) : Body :=
  if requested = applied then [] else [asApplied (w32 (typ * 65536 + idx)) requested applied]

/-- The report of a register. -/
def reportReg (a : Nat) (requested applied : Word) : Body :=
  if requested = applied then [] else [asApplied (w32 (0xFF000000 + a % 0x1000000)) requested applied]

/-- An element of given words. -/
def elemW (typ : Nat) (ws : List Word) : Elem := { typ := typ, len := 4 * ws.length, val := ws }

/-- An element of given bytes. -/
def elemB (typ : Nat) (bs : List Nat) : Elem := { typ := typ, len := bs.length, val := packWords bs }

/-- A field of a word clamped. -/
def clampFld (w : Word) (hi lo : Nat) (l : Legal) : Word := w.withBits hi lo (l.apply (hi + 1 - lo) (w.bits hi lo))

end Sys2Proof.Machine
end

