-- ==== Sys2Proof/Machine/Admit.lean ====
section
/-! DEFINITION. The admission of a command frame and the life of a command (2.3, 2.4): transports, readiness, the order of
R49, sessions, lifecycle, halt, slots, FENCE, and the completion its meaning's answer gives. -/
namespace Sys2Proof.Machine
open Sys2Proof

/-- What the command catalogue says of an opcode (Table 2.13, R44, R56, R77, Table 13.9): its number, the classes of world
it is for (0 operator, 1 maintenance, 2 audit, 3 domain peer, 4 tenant), its row of Table 13.9, the readiness it awaits
(0 none, 1 EXPRESS_READY, 2 also FULL_READY), whether it runs in a halt, on session 0x0000, in ROM recovery, whether it is
long, whether it takes a vault job, whether it acts on acceptance without waiting its turn, its elements, and a check over several of them that gives the index of a malformed one; and the elements
of a frame that its row gives as typed operands, after those of its body (log entry 8); and whether it reaches a domain that STANDBY
switches off or retains (R15, Table 18.1). -/
structure Op where
  code   : Nat
  worlds : List Nat
  life   : Nat := 7
  ready  : Nat := 1
  halt   : Bool := false
  sess0  : Bool := false
  rom    : Bool := false
  long   : Bool := false
  vault  : Bool := false
  urgent : Bool := false
  specs  : List ElemSpec := []
  check  : Body → Option Nat := fun _ => none
  also   : Body := []
  far    : Body → Bool := fun _ => false

/-- What a command's meaning answers: a failure that changes nothing (R53), a failure
that has used up a challenge (R43), a deferral, a completion, a long operation
started, a completion that waits (`waits`: with reports that join it), or that the object it names is held by another command (R52). -/
inductive Ans where
  | fail (status detail : Nat)
  | spent (status : Nat) (s : State)
  | defer
  | done (elems : Body) (s : State)
  | prog (elems : Body) (s : State)
  | wait (a : Await) (s : State)
  | waits (a : Await) (rep : Body) (s : State)
  | hold

/-- The class of a WORLD code (Table 2.7), 5 for an illegal code. -/
def worldClass (w : Nat) : Nat := if w ≤ 3 then w else if 0x40 ≤ w ∧ w ≤ 0x7F then 4 else 5

/-- The world a mailbox belongs to (Table 2.8). -/
def mailboxWorld (m : Nat) : Nat :=
  if m < 32 then 0 else if m < 40 then 1 else if m < 48 then 2 else if m < 240 then 0x40 + (m - 48) / 3 else 3

/-- The header of a command frame as sent (Table 2.5). -/
def headBytes (h : Hdr) (code : Nat) : List Nat :=
  beBytes 4 h.magic ++ [h.version, h.world, h.mailbox, h.flags] ++ beBytes 2 h.tag ++ beBytes 2 code ++ beBytes 4 h.sequence ++
  beBytes 2 h.session ++ beBytes 2 h.length ++ beBytes 12 h.rest

/-- The frame the slow port has submitted is this row's: its header and the elements of its body, and its length (R37). -/
def slowGives (s : State) (h : Hdr) (code : Nat) (b : Body) : Bool :=
  match s.cmd.slowFrame with
  | none => false
  | some l =>
    let hd := headBytes h code ++ b.flatMap elemBytes
    decide (l.take hd.length = hd) && decide (l.length = 48 + h.bodyBytes)

/-- Whether the MAC of a port receives a frame at all: the port is enabled and its link is up (R114, R117). -/
def viaLive (s : State) (v : Via) : Bool :=
  match viaSp v with
  | some sp => portEnabled s (spPort sp) && (subPort s sp).link
  | none => true

/-- Whether a command frame is longer than its port's maximum (R119). -/
def viaOversize (s : State) (h : Hdr) : Bool :=
  match viaSp h.via with
  | some sp => decide (frameMax s (spPort sp) < apfesiaLen h.tags.length h.bodyBytes)
  | none => false

/-- Whether a frame reaches the command processor on its transport (R34, R35, R37, R85). -/
def viaTakes (s : State) (h : Hdr) (code : Nat) (b : Body) : Bool :=
  match h.via with
  | .slow => slowGives s h code b
  | .mp k => decide (h.etype = fld s 0x1F0000 15 0) && decide (h.tags.length ≤ 1) && flag s 0x1F0004 (16 + k % 2) &&
      (!s.boot.romRecovery || decide (k = 0))
  | .cp p k => decide (h.etype = fld s 0x1F0000 15 0) && decide (h.tags.length ≤ 1) && flag s 0x1F0004 (8 * (p % 2) + k % 8) &&
      subExists s (spKey (p % 2) k) && !s.boot.romRecovery

/-- Whether the device takes commands at all: from step 4 of the boot or in ROM recovery (R77, R85), not past the commit
point of a SLEEP entry (R505). -/
def takesCommands (s : State) : Bool :=
  (decide (4 ≤ s.boot.step) || s.boot.romRecovery) && !s.pwr.pastCommit

/-- Whether a session accepts a SEQUENCE (R45). -/
def seqOk (x : Session) (n : Nat) : Bool :=
  decide (n ≠ 0) && decide (x.high ≠ 0xFFFFFFFF) &&
    (decide (x.high < n) || (decide (n < x.high) && decide (x.high ≤ n + 64) && !x.seen.contains n))

/-- A session after it has accepted a SEQUENCE at an instant (R45, R46). -/
def seqTake (x : Session) (n t : Nat) : Session :=
  if x.high < n then { x with high := n, seen := ((if x.high = 0 then [] else [x.high]) ++ x.seen).filter (fun v => decide (n ≤ v + 64)), last := t }
  else { x with seen := n :: x.seen, last := t }

/-- A failure at steps 2 to 6: its event, and a completion of no session with a MAC of zeros, at most 100 in a second on a
transport (R50). -/
def rejectPlain (f : Flight) (status detail : Nat) (s : State) : State :=
  let s := record Config.unauthEvent [] s
  let mine := s.cmd.unauth.filter fun e => decide (s.now < e.2 + sec)
  let s : State := { s with cmd := { s.cmd with unauth := mine } }
  if 100 ≤ (mine.filter fun e => decide (e.1 = f.via)).length then s
  else
    let s : State := { s with cmd := { s.cmd with unauth := (f.via, s.now) :: mine } }
    sendDone (doneOf f status detail [] none s) s

/-- The completion of a command rejected after it is authenticated. -/
def reject (f : Flight) (status detail : Nat) (s : State) : State := answer f status detail [] s

/-- The opcodes of each row of Table 13.9 that a lifecycle state allows: row 0 session and reading commands, 1 officer
records, 2 dual control, 3 TAMPER_REARM, 4 key and vault commands, 5 datapath, trunk, bond, domain and tenant commands,
6 DEBUG_ENABLE, 7 every other. -/
def lifeAllows (row life : Nat) : Bool :=
  match row with
  | 0 => true
  | 1 => decide (life ≤ 3)
  | 2 => decide (life ≤ 3) || decide (life = 5)
  | 3 => decide (life = 5)
  | 4 => decide (1 ≤ life) && decide (life ≤ 3)
  | 5 => decide (1 ≤ life) && decide (life ≤ 3)
  | 6 => decide (life = 3)
  | _ => decide (life ≤ 3)

/-- The DEFERRED_UNTIL element (Table 2.10): the fast time of the bound of R76 awaited. -/
def deferredElem (s : State) (bound : Nat) : Elem :=
  let t := fastAhead s (s.boot.releasedAt + bound - s.now)
  { typ := 0x7F02, len := 8, val := [w32 (t / 2 ^ 32), w32 (t % 2 ^ 32)] }

/-- The bound of R76 a command awaits, none where it need not wait (R77). With MEM_OFF, FULL_READY never comes and the key commands
run without the DDR cache (R453). -/
def awaits (s : State) (op : Op) : Option Nat :=
  if s.boot.romRecovery then none
  else if s.boot.step < 6 then (if op.code = 0x0100 then none else some (1200 * ms))
  else if s.boot.step < 8 then (if 1 ≤ op.ready then some (1200 * ms) else none)
  else if s.boot.step < 10 ∧ s.mem.memOff = false then (if 2 ≤ op.ready then some (2800 * ms) else none)
  else none

/-- Flights that have started: they hold command slots (R29). -/
def started (s : State) : List Flight := s.cmd.flights.filter fun f => decide (f.await ≠ .start)

/-- Whether a command slot is free to a flight: its reserved share, else the shared slots (R29, Table 1.6). The shares of Table 1.6
overlap for a maintenance or audit command on the slow port; the model counts it under the slow port's share alone (log entry 20). -/
def slotFree (s : State) (f : Flight) : Bool :=
  let l := started s
  let slow := (l.filter fun g => decide (g.via = .slow)).length
  let mnt := (l.filter fun g => decide (g.via ≠ .slow) && (decide (g.world = 1) || decide (g.world = 2))).length
  let rest := l.length - slow - mnt
  let shared := rest + (slow - 8) + (mnt - 16)
  (decide (f.via = .slow) && decide (slow < 8)) || ((f.world == 1 || f.world == 2) && f.via != .slow && decide (mnt < 16)) ||
    decide (shared < 992)

/-- Whether a frame is admitted: 4,096 outstanding, eight of them kept for the slow port (R51). -/
def admits (s : State) (f : Flight) : Bool :=
  let n := s.cmd.flights.length
  let slow := (s.cmd.flights.filter fun g => decide (g.via = .slow)).length
  decide (n < 4096) && (decide (f.via = .slow) || decide (n - slow < 4088))

/-- Whether a FENCE command may start: no earlier command of its mailbox is in flight (Table 2.6). -/
def fenceClear (s : State) (f : Flight) : Bool :=
  !f.fence || (s.cmd.flights.takeWhile (!sameFlight f ·)).all fun g => decide (g.mailbox ≠ f.mailbox)

/-- Whether an earlier command of the mailbox has not started: commands of a mailbox start in arrival order (R52). -/
def turnCome (s : State) (f : Flight) : Bool :=
  (s.cmd.flights.takeWhile (!sameFlight f ·)).all fun g => decide (g.mailbox ≠ f.mailbox) || decide (g.await ≠ .start)

/-- A command that cannot start, or whose object is held, is parked until its turn is taken (R29, R52). -/
def park (i : Instr) (f : Flight) (s : State) : State := { s with cmd := { s.cmd with parked := put s.cmd.parked (parkKey f) i } }

/-- The objects that a body names (R52), each as a sort and a number: an SC, a key, a page, a tenant, the tables of a brick, a brick's
clock, a CA. -/
def namesOf (b : Body) : List (Nat × Nat) :=
  b.filterMap fun e =>
    let w := (wordAt e.val 0).toNat
    match e.typ with
    | 0x8601 => some (1, w)
    | 0x8A02 => some (2, w)
    | 0x8A04 => some (2, w)
    | 0x8B0A => some (2, w)
    | 0x8B14 => some (3, byteAt e.val 0)
    | 0x8C12 => some (4, byteAt e.val 0)
    | 0x8C13 => some (4, byteAt e.val 0)
    | 0x8501 => some (5, w)
    | 0x8F01 => some (6, byteAt e.val 0)
    | 0x8620 => some (7, w / 65536)
    | _ => none

/-- Whether an earlier command waits for an object that this one names too: it waits behind it (R52). -/
def behindHeld (f : Flight) (s : State) : Bool :=
  (s.cmd.flights.takeWhile (!sameFlight f ·)).any fun g => decide (g.await = .held) && f.names.any g.names.contains

/-- A command in flight starts, where its turn has come, and its answer completes it or makes it wait (R52, R53, R54). -/
def start (i : Instr) (op : Op) (b : Body) (f : Flight) (m : State → Ans) (s : State) : State :=
  if (op.urgent = true ∨ turnCome s f = true) ∧ fenceClear s f = true ∧ slotFree s f = true then
    if behindHeld f s = true ∨ (s.pwr.state = 2 ∧ op.far b = true) then setAwait f .held (park i f s)
    else if op.long = true ∧ 32 ≤ opsRunning s then finish f stBusy 0 [] s
    else if op.vault = true ∧ s.keys.changing = true then finish f stLifecycle 0 [] s
    else match m s with
      | .fail st d => finish f st d [] s
      | .spent st s' => finish f st 0 [] s'
      | .defer => finish f stDeferred 0 [deferredElem s (2800 * ms)] s
      | .done e s' => finish f stOk 0 e s'
      | .prog e s' => finish f stInProgress 0 e s'
      | .wait a s' => setAwait f a s'
      | .waits a rep s' => setReport f rep (setAwait f a s')
      | .hold => setAwait f .held (park i f s)
  else park i f s

/-- A flight joins the commands in flight, with its session's key. -/
def enlist (f : Flight) (s : State) : State :=
  perf 6 2 1 { s with cmd := { s.cmd with flights := s.cmd.flights ++ [{ f with key := sessionKey s f.session }] } }

/-- The checks after the session and SEQUENCE checks, steps 7 to 13 of R49, then lifecycle and readiness; the status and
DETAIL of the first that fails. -/
def postChecks (op : Op) (h : Hdr) (b : Body) (world : Option Nat) (boot : Bool) (s : State) : Option (Nat × Nat) :=
  if worldClass h.world = 5 ∨ mailboxWorld h.mailbox ≠ h.world ∨ world.getD h.world ≠ h.world then
    some (stWrongWorld, 0)
  else if h.tag = 0xFFFF ∨ s.cmd.flights.any (fun f => decide (f.mailbox = h.mailbox) && decide (f.tag = h.tag)) = true then
    some (stTagBusy, 0)
  else if op.worlds.contains (worldClass h.world) = false then some (stWrongWorld, 0)
  else if s.boot.romRecovery = true ∧ 2 ≤ worldClass h.world then some (stWrongWorld, 0)
  else if boot = true ∧ !([0x0100, 0x0A06].contains op.code) then some (stWrongWorld, 0)
  else match (bodyFault op.specs b).orElse fun _ => op.check b with
    | some d => some (stBadElement, d)
    | none =>
      if lifeAllows op.life s.keys.life = false then some (stLifecycle, 0)
      else if op.life = 4 ∧ s.keys.debugOpen = true then some (stLifecycle, 0)
      else if halted s = true ∧ op.halt = false then some (stHalted, 0)
      else if s.boot.romRecovery = true ∧ (op.rom = false ∨ (s.keys.officers = [] ∧ op.code ≠ 0x0100)) then some (stState, 0)
      else none

/-- Whether a session is the bootstrap session (R394). -/
def isBootstrap (s : State) (session : Nat) : Bool :=
  match look s.cmd.sessions session with
  | some x => decide (x.cred = .bootstrap)
  | none => false

/-- Whether the MAC of a frame is the one under a key (R40): over its header as sent and its body. -/
def macGood (key : Nat) (op : Op) (h : Hdr) (b : Body) : Bool :=
  match h.mac with
  | .right => true
  | .bytes m => decide (m = frameMac key (headBytes h op.code ++ (b ++ op.also).flatMap elemBytes))

/-- Steps 4 to 6 of R49: the session, its MAC and its SEQUENCE. The state once the session has accepted the SEQUENCE, with the
session's world, or the status of the step that fails. A session whose SESSION_CLOSE waits takes no further frame (log entry 21). -/
def identify (op : Op) (h : Hdr) (b : Body) (s : State) : (State × Option Nat) ⊕ Nat :=
  if h.session = 0 then (if op.sess0 then .inl (s, none) else .inr stNoSession)
  else match look s.cmd.sessions h.session with
    | none => .inr stNoSession
    | some x =>
      if x.closing then .inr stNoSession
      else if macGood x.key op h b = false then .inr stBadMac
      else if seqOk x h.sequence = false then .inr stReplay
      else .inl ({ s with cmd := { s.cmd with
        sessions := put s.cmd.sessions h.session (seqTake x h.sequence s.now) } }, some x.world)

/-- The steps of R49 for a frame that has reached the command processor: it is discarded, rejected, deferred, or admitted and
started. -/
def admitFrame (i : Instr) (op : Op) (h : Hdr) (b : Body) (f : Flight) (m : State → Ans) (s : State) : State :=
  if h.magic ≠ 0x41504653 ∨ h.flags.testBit 7 = true then s
  else if h.version ≠ 1 then rejectPlain f stBadVersion 1 s
  else if h.length % 4 ≠ 0 ∨ 8192 < h.length ∨ h.length ≠ h.bodyBytes then rejectPlain f stBadLength 0 s
  else
    match identify op h b s with
    | .inr st => rejectPlain f st 0 s
    | .inl (s, world) =>
      match postChecks op h b world (isBootstrap s h.session) s with
      | some (st, d) => reject f st d s
      | none =>
        match awaits s op with
        | some bound => answer f stDeferred 0 [deferredElem s bound] s
        | none => if admits s f = false then reject f stBusy 0 s else start i op b f m (enlist f s)

/-- A frame that its port does not take as a command: a management port discards and counts it (R35, R136), a clear sub-port
passes it on as data, which is a row of its own, and what the slow port has not submitted is no frame. -/
def untaken (h : Hdr) (s : State) : State :=
  match h.via with
  | .mp k => subCount (16 + k % 2) 8 1 (countApfesia h.via h.tags.length h.bodyBytes 0 s)
  | _ => s

/-- A frame longer than its port's maximum is counted and discarded (R120). -/
def oversize (h : Hdr) (s : State) : State :=
  match viaSp h.via with
  | some sp =>
    let s := subCount sp 6 1 s
    if 16 ≤ sp then subCount sp 8 1 s else s
  | none => s

/-- A command frame is taken from its transport: a port counts it, the slow port's frame is used up. -/
def takeFrame (h : Hdr) (s : State) : State :=
  match h.via with
  | .slow => { s with cmd := { s.cmd with slowFrame := none } }
  | v => countApfesia v h.tags.length h.bodyBytes 0 s

/-- The turn of a waiting command is taken: it is no longer parked. -/
def takeTurn (f : Flight) (s : State) : State := { s with cmd := { s.cmd with turn := none, parked := del s.cmd.parked (parkKey f) } }

/-- A command frame arrives (R49): not received, not taken, or checked and run; or the command is one that waits and whose turn is
taken. -/
def runCommand (i : Instr) (op : Op) (h : Hdr) (b : Body) (m : State → Ans) (s : State) : State :=
  let s := tick h.t s
  let f := { flightOf h op.code .start with names := namesOf b }
  if s.cmd.turn = some (h.mailbox, h.tag) then start i op b f m (takeTurn f s)
  else if takesCommands s = false ∨ viaLive s h.via = false then s
  else if viaOversize s h = true then oversize h s
  else if viaTakes s h op.code b = false then untaken h s
  else admitFrame i op h b f m (takeFrame h s)

/-- The outcome of a command row: the frame is run. -/
def run (i : Instr) (op : Op) (h : Hdr) (b : Body) (m : State → Ans) (s : State) : Out := .next (runCommand i op h b m s)

/-! ## Commands that wait -/

/-- The commands that wait, in the order their turns are tried: those that wait for an object, in arrival order (R52), then those not
started, from the mailbox after the one last granted (R51). -/
def turns (s : State) : List Flight :=
  (s.cmd.flights.filter fun f => decide (f.await = .held)) ++
  (List.range 256).flatMap fun k =>
    (s.cmd.flights.filter fun f => decide (f.await = .start) && decide (f.mailbox = (s.cmd.lastBox + 1 + k) % 256))

/-- The first waiting command that can go on does so (log entry 11): `go` runs a row. -/
def takeTurns (go : Instr → State → Out) : List Flight → State → Out
  | [], s => .next s
  | f :: r, s =>
    match look s.cmd.parked (parkKey f) with
    | none => takeTurns go r s
    | some i =>
      match go i { s with cmd := { s.cmd with turn := some (f.mailbox, f.tag) } } with
      | .next t =>
        if has t.cmd.parked (parkKey f) then takeTurns go r t
        else .next { t with cmd := { t.cmd with lastBox := if f.await = .start then f.mailbox else t.cmd.lastBox } }
      | o => o

/-- The block with no command at its queue's front: a waiting command's turn is taken, else it idles (log entries 11, 13). -/
def idle (go : Instr → State → Out) (s : State) : Out := takeTurns go (turns s) s

/-- The outcome of an event row: time reaches its instant and the event has its effect. -/
def ev (t : Nat) (f : State → State) (s : State) : Out := .next (f (tick t s))

end Sys2Proof.Machine
end

