-- ==== Sys2Proof/Machine/Session.lean ====
section
/-! DEFINITION. Sessions, long-operation status, abort, subscriptions, the slow port, and frames no opcode takes (02). -/
namespace Sys2Proof.Machine
open Sys2Proof

/-- Every class of world. -/
def allWorlds : List Nat := [0, 1, 2, 3, 4]

/-- The `n`-th result element of a command whose result layout the spec does not give, as words (log entry 8). -/
def rawElem (n : Nat) (ws : List Word) : Elem := elemW (0x0100 + n) ws

/-- The `n`-th element that a typed operand stands for (log entry 8). -/
def operandElem (n : Nat) (ws : List Word) : Elem := elemW (0x8100 + n) ws

/-- A 256-bit value as words. -/
def words8 (v : Nat) : List Word := (List.range 8).map fun i => w32 (v / 2 ^ (32 * (7 - i)))

/-- No lane of the kiln can take a job (R408). -/
def kilnOut (s : State) : Bool := (List.range 8).all fun k => (get s.eng.lanes k {}).withheld

/-- Both lattice pipes are withheld (R414). -/
def latticeOut (s : State) : Bool := (List.range 2).all fun k => (get s.eng.pipes k {}).withheld

/-- DRBG instance 0 cannot serve until reset (R422). -/
def drbgOut (s : State) : Bool := s.eng.failed

/-- A request is served by DRBG instance 0 (R421). -/
def drbgUse (s : State) : State :=
  perf 5 6 1 { s with eng := { s.eng with d0 := { s.eng.d0 with requests := s.eng.d0.requests + 1 } } }

/-! ## Sessions -/

def opSessionChallenge : Op :=
  { code := 0x0001, worlds := allWorlds, life := 0, ready := 0, halt := true, sess0 := true, rom := true }

/-- A challenge is drawn and stays outstanding (R43). -/
def ansSessionChallenge (s : State) : Ans :=
  if drbgOut s then .fail stSelftest 0
  else
    let (c, s) := drawBits 256 (drbgUse s)
    .done [rawElem 1 (words8 c)]
      { s with cmd := { s.cmd with challenges := s.cmd.challenges ++ [(c, s.now)] } }

def execSessionChallenge (h : Hdr) (b : Body) (s : State) : Out := run (.sessionChallenge h b) opSessionChallenge h b ansSessionChallenge s

/-- The world a credential opens, none where the credential does not exist or may not open a session (R393, R394, R427,
R441). -/
def credWorld (s : State) (via : Via) : Cred → Option Nat
  | .officer n => match look s.keys.officers n with
    | some f => some (if f.role = 0 then 0 else if f.role = 1 then 2 else 1)
    | none => none
  | .tenant n => if n < 64 ∧ has s.dks.tenants n = true then some (0x40 + n) else none
  | .device d =>
    if s.dks.enrolled = false then none
    else if s.dks.replica ≠ 0 then
      (match look s.dks.roster d with | some r => if r.revoked then none else some 3 | none => none)
    else if s.dks.services.any (fun x => decide (x.1 = d)) then some 3 else none
  | .bootstrap =>
    if s.keys.life = 0 ∧ via = .slow ∧ s.keys.officers.all (fun e => decide (e.2.role ≠ 0)) = true then some 0 else none

/-- The lowest session identifier not open. -/
def freeSession (m : KMap Session) : Nat := lowestFree (m.map (·.1)) m.length 1

def opSessionOpen : Op :=
  { code := 0x0002, worlds := allWorlds, life := 0, ready := 0, halt := true, sess0 := true, rom := true }

/-- The two identity private keys derived from the identity seed and the serial (R372, R373, Table 13.1). -/
def idKeys (s : State) : Nat × Nat :=
  (kdf (beBytes 32 s.boot.idSeed) "TIRIQUE ID EC" (beBytes 8 s.boot.serial), kdf (beBytes 32 s.boot.idSeed) "TIRIQUE ID PQ" (beBytes 8 s.boot.serial))

/-- The signature of bytes under the device's hybrid identity (R43, R391). -/
def idSign (s : State) (bytes : List Nat) : List Word := Config.hybridSign (idKeys s).1 (idKeys s).2 bytes

/-- The key agreement of a session (R43): from the host's X25519 public key and ML-KEM-768 encapsulation key and the challenge, the session
key and the device's X25519 public key, ciphertext and signature over the challenge and the four public values. -/
def sessionAgree (challenge pub : Nat) (ek : List Word) (s : State) : (Nat × Body) × State :=
  let (priv, s) := drawBits 256 s
  let (r, s) := drawBits 256 s
  let mine := Config.x25519 priv 9
  let (ct, shared) := Config.kemEncap ek r
  let open_ := beBytes 32 challenge ++ beBytes 32 pub ++ unpack ek ++ beBytes 32 mine ++ unpack ct
  let key := kdf (beBytes 32 (Config.x25519 priv pub) ++ beBytes 32 shared) "APFESIA SESSION" open_
  ((key, [rawElem 2 (words8 mine), rawElem 3 ct, rawElem 4 (idSign s open_)]), s)

/-- SESSION_OPEN (R43, R44, R393, R394, R427): the challenge is consumed by the first command that names it; the credential's
signature (`ok`) and existence are checked; the session opens in the credential's world under the key agreed. A credential of another
world than the header's WORLD is answered ST_AUTH (log entry 22). -/
def ansSessionOpen (h : Hdr) (cred : Cred) (challenge pub : Nat) (ek : List Word) (ok : Bool) (s : State) : Ans :=
  let live := s.cmd.challenges.any fun c => decide (c.1 = challenge) && decide (s.now ≤ c.2 + 30 * sec)
  let s1 : State := { s with cmd := { s.cmd with challenges := s.cmd.challenges.filter fun c => decide (c.1 ≠ challenge) } }
  if kilnOut s = true ∨ latticeOut s = true ∨ drbgOut s = true then .spent stSelftest s1
  else if live = false ∨ (ok = false ∧ cred ≠ .bootstrap) then .spent stAuth s1
  else match credWorld s h.via cred with
    | none => .spent stAuth s1
    | some w =>
      if w ≠ h.world then .spent stAuth s1
      else if 256 ≤ s.cmd.sessions.length then .spent stBusy s1
      else
        let n := freeSession s.cmd.sessions
        let ((key, elems), s1) := sessionAgree challenge pub ek (drbgUse s1)
        let s1 : State := { s1 with cmd := { s1.cmd with
          sessions := put s1.cmd.sessions n { cred := cred, world := w, last := s.now, via := h.via, key := key } } }
        let s1 := if cred = .bootstrap then record 0x0D09 [] s1 else s1
        .done (rawElem 1 [w32 n] :: elems) s1

def execSessionOpen (h : Hdr) (b : Body) (cred : Cred) (challenge pub : Nat) (ek : List Word) (ok : Bool) (s : State) : Out :=
  run (.sessionOpen h b cred challenge pub ek ok) opSessionOpen h b (ansSessionOpen h cred challenge pub ek ok) s

def opSessionClose : Op := { code := 0x0003, worlds := allWorlds, life := 0, ready := 0, halt := true, rom := true }

/-- SESSION_CLOSE (R47): it waits for the session's earlier commands; at once where there are none. -/
def ansSessionClose (h : Hdr) (s : State) : Ans :=
  match look s.cmd.sessions h.session with
  | none => .fail stNoSession 0
  | some x =>
    .wait .close { s with cmd := { s.cmd with sessions := put s.cmd.sessions h.session { x with closing := true } } }

def execSessionClose (h : Hdr) (b : Body) (s : State) : Out :=
  .next (settleCloses (runCommand (.sessionClose h b) opSessionClose h b (ansSessionClose h) s))

def opNop : Op := { code := 0x0004, worlds := allWorlds, life := 0 }

def ansNop (s : State) : Ans := .done [] s

/-- NOP (R69): it does nothing and completes. -/
def execNop (h : Hdr) (b : Body) (s : State) : Out := run (.nop h b) opNop h b ansNop s

/-! ## Long operations, abort, subscriptions -/

def opOpStatus : Op := { code := 0x0005, worlds := allWorlds, life := 0 }

/-- OP_STATUS (R54): running, or ended with its status and result elements. A tenant or domain peer sees its own world's alone, the
operator, maintenance and audit worlds every world's (log entry 23). -/
def ansOpStatus (h : Hdr) (op : Nat) (s : State) : Ans :=
  match look s.cmd.ops op with
  | none => .fail stNotFound 0
  | some o =>
    if 3 ≤ worldClass h.world ∧ o.world ≠ h.world then .fail stNotFound 0
    else .done (rawElem 1 [w32 op, w32 (bit o.done), w32 o.status] :: o.elems) s

def execOpStatus (h : Hdr) (b : Body) (op : Nat) (s : State) : Out :=
  run (.opStatus h b op) { opOpStatus with also := [operandElem 1 [w32 op]] } h b (ansOpStatus h op) s

/-- The client sessions of the service after a device is reached: at most 64, the least recently used closed (R428). -/
def touchClient (d : Nat) (l : List Nat) : List Nat :=
  let l := l.filter (fun x => decide (x ≠ d)) ++ [d]
  if 64 < l.length then l.drop 1 else l

/-- The deliveries of the service in order, each sent where it has not been and the target has no earlier one unanswered (R433);
with those sent. -/
def pumpList (now : Nat) (busy : List Nat) : List Delivery → List Delivery × List Delivery
  | [] => ([], [])
  | d :: r =>
    if d.status.isSome then let (l, o) := pumpList now busy r; (d :: l, o)
    else if d.tries = 0 ∧ busy.contains d.target = false then
      let (l, o) := pumpList now (d.target :: busy) r
      ({ d with tries := 1, last := now } :: l, d :: o)
    else let (l, o) := pumpList now (d.target :: busy) r; (d :: l, o)

/-- A delivery leaves at the service port (R428). -/
def sendDelivery (d : Delivery) (s : State) : State :=
  send (.peer (fld s 0x0C0100 27 27) d.target d.kind d.words) { s with dks := { s.dks with clients := touchClient d.target s.dks.clients } }

/-- The deliveries that can be sent are sent. -/
def pump (s : State) : State :=
  let (l, o) := pumpList s.now [] s.dks.deliveries
  o.foldl (fun s x => sendDelivery x s) { s with dks := { s.dks with deliveries := l } }

/-- Deliveries of a kind to devices, each with its bytes, join those to send. -/
def deliverTo (kind group : Nat) (words : Nat → List Word) (ds : List Nat) (s : State) : State :=
  { s with dks := { s.dks with
    deliveries := s.dks.deliveries ++ ds.map fun d => { target := d, kind := kind, group := group, words := words d } } }

/-- The value of a stored key, and its PUBLIC_KEY. -/
def keyValue (s : State) (handle : Nat) : Nat := ((look s.keys.keys handle).map (·.value)).getD 0
def keyPublic (s : State) (handle : Nat) : List Word :=
  match look s.keys.keys handle with
  | some k => Config.publicKey (k.typ.bits 31 24) k.value
  | none => []

/-- Bytes signed with a hybrid pair (15.1): both signatures, 4,723 bytes. -/
def pairSign (s : State) (pair : List Nat) (bytes : List Nat) : List Nat :=
  (unpack (Config.hybridSign (keyValue s (pair.getD 0 0)) (keyValue s (pair.getD 1 0)) bytes)).take 4723

/-- PUB_EC and PUB_PQ of a pair (Table 15.3). -/
def pubEc (s : State) (pair : List Nat) : List Nat := (unpack (keyPublic s (pair.getD 0 0))).take 97
def pubPq (s : State) (pair : List Nat) : List Nat := (unpack (keyPublic s (pair.getD 1 0))).take 2592

/-- The digest that names pending keys: the leftmost 16 bytes of SHA-384 over PUB_EC and PUB_PQ (R445). -/
def pairDigest (ec pq : List Nat) : List Nat := (Config.sha384 (ec ++ pq)).take 16

/-- A commit note or an abort note (R445): the fields in the order listed (log entry 28), signed with a pair. -/
def noteWords (magic gen : Nat) (pending signer : List Nat) (s : State) : List Word :=
  let body := beBytes 4 magic ++ beBytes 4 s.dks.domain ++ beBytes 4 gen ++ List.replicate 8 0 ++ pairDigest (pubEc s pending) (pubPq s pending)
  packWords (body ++ pairSign s signer body)

/-- A rollover is given up: an ABORT record, the new pair zeroised, kind 7 to every device that acknowledged kind 5 (R447). -/
def dropRollover (r : Rollover) (s : State) : State :=
  let note := noteWords 0x54444142 (s.dks.gen + 1) r.handles s.dks.domainKeys s
  pump (deliverTo 7 0 (fun _ => note) r.acked { s with
    dks := { s.dks with rollover := none, rolling := 0, deliveries := s.dks.deliveries.filter fun d => decide (d.group ≠ r.group) }
    keys := { s.keys with keys := r.handles.foldl del s.keys.keys } })

/-- An abort point of a long operation that CMD_ABORT reaches by its command's tag: TABLE_REHASH before its swap (R191),
DOMAIN_ROLLOVER before its COMMIT record (R447). The owning chapter's own path ends the operation. -/
def abortOp (n : Nat) (o : LongOp) (s : State) : Option State :=
  if o.done then none
  else if o.opcode = 0x0503 then
    match s.cls.bricks.find? (fun e => match e.2.rehash with | some r => decide (r.op = n) | none => false) with
    | some (b, t) => some (endOp n stAborted [] (setTables b { t with rehash := none } s))
    | none => none
  else if o.opcode = 0x0C02 then
    match s.dks.rollover with
    | some r =>
      if r.op = n ∧ r.step < 7 then some (endOp n stAborted [] (dropRollover r s))
      else none
    | none => none
  else none

def opCmdAbort : Op := { code := 0x0006, worlds := allWorlds, life := 0, urgent := true }

/-- CMD_ABORT (R55): a command of the mailbox that has not started completes with ST_ABORTED; for one that has started the
command reports ST_STATE; a long operation stops at the abort point its chapter defines. -/
def ansCmdAbort (h : Hdr) (target : Nat) (s : State) : Ans :=
  match s.cmd.flights.find? (fun f => decide (f.mailbox = h.mailbox) && decide (f.tag = target) && decide (f.tag ≠ h.tag)) with
  | some f => if f.await = .start then .done [] (finish f stAborted 0 [] s) else .fail stState 0
  | none =>
    match s.cmd.ops.find? (fun e => decide (e.2.mailbox = h.mailbox) && decide (e.2.tag = target) && !e.2.done) with
    | none => .fail stNotFound 0
    | some (n, o) => match abortOp n o s with
      | some s' => .done [] s'
      | none => .fail stState 0

def execCmdAbort (h : Hdr) (b : Body) (target : Nat) (s : State) : Out :=
  run (.cmdAbort h b target) { opCmdAbort with also := [operandElem 1 [w32 target]] } h b (ansCmdAbort h target) s

def opEventSubscribe : Op := { code := 0x0007, worlds := allWorlds, life := 0 }

/-- The bit of a notification class, in the order of R59's list. -/
def classBit : NotifyClass → Nat
  | .rehash => 0
  | .pnThreshold => 1
  | .longOp => 2
  | .portHalf => 3
  | .bondState => 4
  | .tamperTime => 5

/-- The elements of EVENT_SUBSCRIBE's mailbox and classes. -/
def subscribeElems (mailbox : Nat) (classes : List NotifyClass) : Body :=
  [operandElem 1 [w32 mailbox], operandElem 2 [w32 (classes.foldl (fun n c => Nat.lor n (2 ^ classBit c)) 0)]]

/-- EVENT_SUBSCRIBE (R59): the subscription of a mailbox of the calling world under the calling session. Its notifications leave on the
transport of this command, and a second subscription of the same mailbox and session replaces the first (log entry 19). -/
def ansEventSubscribe (h : Hdr) (mailbox : Nat) (classes : List NotifyClass) (s : State) : Ans :=
  if mailboxWorld mailbox ≠ h.world then .fail stWrongWorld 0
  else
    let rest := s.cmd.subs.filter fun u => decide (u.mailbox ≠ mailbox) || decide (u.session ≠ h.session)
    .done [] { s with cmd := { s.cmd with
      subs := rest ++ [{ mailbox := mailbox, session := h.session, classes := classes, via := h.via }] } }

def execEventSubscribe (h : Hdr) (b : Body) (mailbox : Nat) (classes : List NotifyClass) (s : State) : Out :=
  run (.eventSubscribe h b mailbox classes) { opEventSubscribe with also := subscribeElems mailbox classes } h b (ansEventSubscribe h mailbox classes) s

def opDeviceReset : Op := { code := 0x0104, worlds := [0, 1], life := 0, ready := 0, halt := true, rom := true }

/-- DEVICE_RESET (R57): the completion is sent, a command warm reset follows 1 ms later. -/
def ansDeviceReset (s : State) : Ans := .done [] { s with boot := { s.boot with warmAt := some (s.now + ms) } }

def execDeviceReset (h : Hdr) (b : Body) (s : State) : Out := run (.deviceReset h b) opDeviceReset h b ansDeviceReset s

/-! ## Timers -/

/-- A session that has accepted nothing for the idle time and has nothing in flight ends (R46). -/
def idleOut (n : Nat) (s : State) : State :=
  match look s.cmd.sessions n with
  | none => s
  | some x =>
    if x.last + (fld s 0x1F0008 11 0 + 1) * sec ≤ s.now ∧ flightsOf s n = [] then endSession n s else s

def execSessionIdleTimeout (t session : Nat) (s : State) : Out := ev t (idleOut session) s

/-- Challenges older than 30 s are no longer valid (R43). -/
def dropChallenges (s : State) : State :=
  { s with cmd := { s.cmd with challenges := s.cmd.challenges.filter fun c => decide (s.now < c.2 + 30 * sec) } }

def execChallengeExpiry (t : Nat) (s : State) : Out := ev t dropChallenges s

/-! ## The slow port (R37, R38, R572) -/

/-- The slow port runs: from step 4 of the boot, not in SLEEP past the commit point (R516). -/
def slowRuns (s : State) : Bool := takesCommands s && decide (s.pwr.state ≠ 3)

/-- A block write: its bytes join the inbound buffer, the frame abandoned past 8,240 bytes or on a failed PEC. -/
def slowAppend (bytes : List Nat) (pecOk : Bool) (s : State) : State :=
  if slowRuns s = false ∨ bytes.length = 0 ∨ 255 < bytes.length then s
  else if pecOk = false ∨ 8240 < s.cmd.slowIn.length + bytes.length then { s with cmd := { s.cmd with slowIn := [] } }
  else { s with cmd := { s.cmd with slowIn := s.cmd.slowIn ++ bytes } }

def execSlowBlockWrite (t : Nat) (bytes : List Nat) (pecOk : Bool) (s : State) : Out := ev t (slowAppend bytes pecOk) s

/-- The assembled frame is submitted and the buffer empties; a completion of which part has been read is discarded (R37, R38). The frame
submitted is then taken by the row of its opcode, whose header and body are its bytes (log entry 10). -/
def slowSubmit (pecOk : Bool) (s : State) : State :=
  if slowRuns s = false then s
  else if pecOk = false then { s with cmd := { s.cmd with slowIn := [] } }
  else
    let out := if s.cmd.slowPos ≠ 0 then s.cmd.slowOut.drop 1 else s.cmd.slowOut
    { s with cmd := { s.cmd with slowIn := [], slowFrame := some s.cmd.slowIn, slowOut := out, slowPos := 0 } }

def execSlowSubmit (t : Nat) (pecOk : Bool) (s : State) : Out := ev t (slowSubmit pecOk) s

/-- A block read returns up to 255 further bytes of the oldest undelivered completion (R37). -/
def slowRead (s : State) : State :=
  if slowRuns s = false then s
  else match s.cmd.slowOut with
    | [] => send (.slow []) s
    | c :: r =>
      let part := (c.drop s.cmd.slowPos).take 255
      let pos := s.cmd.slowPos + part.length
      let s := send (.slow part) s
      if c.length ≤ pos then { s with cmd := { s.cmd with slowOut := r, slowPos := 0 } }
      else { s with cmd := { s.cmd with slowPos := pos } }

def execSlowBlockRead (t : Nat) (s : State) : Out := ev t slowRead s

/-- The status byte: a completion is pending, the inbound buffer holds a partial frame (Table 2.4). -/
def slowStatus (s : State) : State :=
  if slowRuns s then send (.slow [bit (!s.cmd.slowOut.isEmpty) + 2 * bit (!s.cmd.slowIn.isEmpty)]) s else s

def execSlowStatusRead (t : Nat) (s : State) : Out := ev t slowStatus s

/-- SCL held low beyond the timeout: the partial inbound frame is discarded (R572). -/
def slowTimeout (s : State) : State := { s with cmd := { s.cmd with slowIn := [] } }

def execSlowPortTimeout (t : Nat) (s : State) : Out := ev t slowTimeout s

/-! ## Frames that no opcode takes -/

/-- The checks a frame of an undefined opcode meets before step 9 of R49. -/
def opUnknown (opcode : Nat) : Op := { code := opcode, worlds := allWorlds, life := 0, ready := 0, halt := true, rom := true }

/-- The opcodes of Table 2.13. -/
def opcodes : List Nat :=
  (List.range 7).map (0x0001 + ·) ++ (List.range 5).map (0x0100 + ·) ++ (List.range 3).map (0x0200 + ·) ++
  [0x0300, 0x0301, 0x0310, 0x0311] ++ (List.range 3).map (0x0400 + ·) ++ (List.range 6).map (0x0500 + ·) ++
  (List.range 7).map (0x0600 + ·) ++ [0x0700, 0x0701] ++ (List.range 4).map (0x0800 + ·) ++ (List.range 3).map (0x0900 + ·) ++
  (List.range 10).map (0x0A00 + ·) ++ (List.range 8).map (0x0B00 + ·) ++ (List.range 9).map (0x0C00 + ·) ++ [0x0D00, 0x0D01] ++
  (List.range 4).map (0x0E00 + ·) ++ (List.range 3).map (0x0F00 + ·) ++ (List.range 7).map (0x1000 + ·)

/-- The steps of R49 up to step 9 for a frame whose row is no command's (R70): discarded, or rejected with the status of the step that
fails, ST_UNKNOWN_OPCODE at step 9. A frame of a defined opcode that passes them is its opcode's own row, and this one does nothing. -/
def refuseFrame (h : Hdr) (b : Body) (opcode : Nat) (f : Flight) (s : State) : State :=
  if h.magic ≠ 0x41504653 ∨ h.flags.testBit 7 = true then s
  else if h.version ≠ 1 then rejectPlain f stBadVersion 1 s
  else if h.length % 4 ≠ 0 ∨ 8192 < h.length ∨ h.length ≠ h.bodyBytes then rejectPlain f stBadLength 0 s
  else match identify (opUnknown opcode) h b s with
    | .inr st => rejectPlain f st 0 s
    | .inl (u, world) =>
      if worldClass h.world = 5 ∨ mailboxWorld h.mailbox ≠ h.world ∨ world.getD h.world ≠ h.world then
        reject f stWrongWorld 0 u
      else if h.tag = 0xFFFF ∨ u.cmd.flights.any (fun g => decide (g.mailbox = h.mailbox) && decide (g.tag = h.tag)) = true then
        reject f stTagBusy 0 u
      else if opcodes.contains opcode then s
      else reject f stUnknownOpcode 0 u

/-- A frame that fails before its opcode is known, or whose opcode is not defined, arrives (R49, R70). -/
def unknownFrame (h : Hdr) (b : Body) (opcode : Nat) (s : State) : State :=
  let s := tick h.t s
  if takesCommands s = false ∨ viaLive s h.via = false then s
  else if viaOversize s h = true then oversize h s
  else if viaTakes s h opcode b = false then untaken h s
  else refuseFrame h b opcode (flightOf h opcode .start) (takeFrame h s)

def execUnknownOpcodeFrame (h : Hdr) (b : Body) (opcode : Nat) (s : State) : Out := .next (unknownFrame h b opcode s)

end Sys2Proof.Machine
end

