-- ==== Sys2Proof/Machine/Port.lean ====
section
/-! DEFINITION. Ports and MAC (05): counters, capture, link state, MAC merge verification, pause. -/
namespace Sys2Proof.Machine
open Sys2Proof

/-! ## Counters -/

/-- The body of the half-range notification of a line port (R134): the port code, then both bitmaps. -/
def halfBody (p : Nat) (s : State) : List Nat :=
  beBytes 4 (2 + p) ++ wordBytes (regWord s (0x024800 + 8 * p)) ++ wordBytes (regWord s (0x024804 + 8 * p))

/-- A line counter advances, wrapping at 2^48; where its bit 47 becomes 1 its half-range bit is set, and notified where that
was 0 (R133, R134). In trunk mode it holds. -/
def lineCount (p tx i n : Nat) (s : State) : State :=
  if lpTrunk s p = true ∨ n = 0 then s
  else
    let k := 64 * p + 32 * tx + i
    let old := get s.port.line k 0
    let new := (old + n) % 2 ^ 48
    let s : State := { s with port := { s.port with line := put s.port.line k new } }
    let a := 0x024800 + 8 * p + 4 * tx
    if old.testBit 47 = false ∧ new.testBit 47 = true ∧ flag s a i = false then
      let s := raise a i s
      notify .portHalf (halfBody p s) s
    else s

/-- The size bin of a length (Table 5.8), none above 9,248 bytes or below 64. -/
def sizeBin (len : Nat) : Option Nat :=
  if len < 64 then none else if len = 64 then some 10 else if len ≤ 127 then some 11 else if len ≤ 255 then some 12
  else if len ≤ 511 then some 13 else if len ≤ 1023 then some 14 else if len ≤ 1518 then some 15
  else if len ≤ 2047 then some 16 else if len ≤ 4095 then some 17 else if len ≤ 9248 then some 18 else none

/-- Whether an address is broadcast, or else multicast. -/
def isBroadcast (dst : Nat) : Bool := decide (dst = 2 ^ 48 - 1)
def isMulticast (dst : Nat) : Bool := dst.testBit 40 && !isBroadcast dst

/-- A frame received is counted at its sub-port (Table 5.7) or line port (Table 5.8). -/
def countRx (sp : Nat) (f : Frame) (s : State) : State :=
  let p := spPort sp
  let tooLong := decide (frameMax s p < f.len)
  if sp < 18 then
    let s := if sp < 16 then subCount sp 11 f.fecBad (subCount sp 10 f.fecCorr s) else s
    if f.len < 64 then subCount sp 5 1 (subCount sp 4 1 s)
    else if tooLong then subCount sp 4 (bit (!f.fcsOk)) (subCount sp 6 1 s)
    else if f.fcsOk = false then subCount sp 4 1 s
    else subCount sp 1 f.len (subCount sp 0 1 s)
  else
    let q := p - 2
    let s := lineCount q 0 1 1 (lineCount q 0 0 f.len s)
    let s := lineCount q 0 23 f.mergeErr (lineCount q 0 21 f.fecBad (lineCount q 0 20 f.fecCorr s))
    let s := if 2 ≤ f.frags then lineCount q 0 24 1 (lineCount q 0 22 f.frags s) else s
    let s := match sizeBin f.len with | some b => lineCount q 0 b 1 s | none => s
    if f.len < 64 then lineCount q 0 (if f.fcsOk then 5 else 7) 1 s
    else if tooLong then lineCount q 0 (if f.fcsOk then 6 else 8) 1 s
    else if f.fcsOk = false then lineCount q 0 4 1 s
    else if isBroadcast f.dst then lineCount q 0 2 1 s
    else if isMulticast f.dst then lineCount q 0 3 1 s
    else s

/-- A frame of a length leaves a MAC, its FCS stomped or not. -/
def countTx (sp len dst : Nat) (stomp : Bool) (s : State) : State :=
  if sp < 18 then subCount sp 3 len (subCount sp 2 1 s)
  else
    let q := spPort sp - 2
    let s := lineCount q 1 1 1 (lineCount q 1 0 len s)
    let s := match sizeBin len with | some b => lineCount q 1 b 1 s | none => s
    let s := if isBroadcast dst then lineCount q 1 2 1 s else if isMulticast dst then lineCount q 1 3 1 s else s
    lineCount q 1 4 (bit stomp) s

/-- A frame is dropped at ingress: RX_DROP, or receive DropEvents on a line port (R318). -/
def rxDrop (sp : Nat) (s : State) : State := if sp < 18 then subCount sp 8 1 s else lineCount (spPort sp - 2) 0 9 1 s

/-- A frame is discarded at egress: TX_DROP, or transmit DropEvents on a line port (R17, R116). -/
def txDrop (sp : Nat) (s : State) : State := if sp < 18 then subCount sp 9 1 s else lineCount (spPort sp - 2) 1 9 1 s

/-! ## Capture (5.4) -/

/-- A failed frame is offered to the capture queue in START-UP, TEST and RECOVERY (R87, R122, R126): captured, or counted in
OVERFLOW when 256 entries are held. It takes a capture sequence number either way. -/
def offerCapture (sp flags len sc st : Nat) (raw : List Word) (s : State) : State :=
  if svcState s = 1 ∨ 16 = sp ∨ 17 = sp then s
  else
    let n := s.port.capSeq
    let s : State := { s with port := { s.port with capSeq := n + 1 } }
    if 256 ≤ s.port.capture.length then bumpFld 0x020100 31 16 1 s
    else
      let c : Capture :=
        { port := spPort sp, sub := spIdx sp,
          flags := flags + 8 * bit (decide (2048 < len)) + 256 * svcState s, origLen := len,
          capLen := if len < 2048 then len else 2048, stamp := st, sc := sc, seq := n,
          bytes := raw.take 512 }
      { s with port := { s.port with capture := s.port.capture ++ [c] } }

/-- A frame as received is failed: a runt, oversize or of bad FCS. It is counted, captured where it may be, and goes no
further (R120, R122); none for a frame that is sound. -/
def failedRx (sp : Nat) (f : Frame) (st : Nat) (s : State) : Option State :=
  if f.len < 64 then some (offerCapture sp (1 + 2 * bit (!f.fcsOk)) f.len 0xFFFFFFFF st f.raw s)
  else if frameMax s (spPort sp) < f.len then some s
  else if f.fcsOk = false then some (offerCapture sp 2 f.len 0xFFFFFFFF st f.raw s)
  else none

/-- A captured entry as its CAPTURE element (Table 5.4). -/
def captureElem (c : Capture) : Elem :=
  let hd := [c.port, c.sub] ++ beBytes 2 c.flags ++ beBytes 2 c.origLen ++ beBytes 2 c.capLen ++ beBytes 8 c.stamp ++
    beBytes 4 c.sc ++ beBytes 4 c.seq ++ List.replicate 8 0
  let ws := packWords hd ++ (c.bytes ++ List.replicate ((c.capLen + 3) / 4 - c.bytes.length) 0)
  { typ := 0x0313, len := 4 * ws.length, val := ws }

def opCaptureRead : Op := { code := 0x0310, worlds := [0, 1], specs := [el 0x0312 4] }

/-- CAPTURE_READ (R127): up to COUNT entries leave the head of the queue; OVERFLOW is returned and cleared. -/
def ansCaptureRead (b : Body) (s : State) : Ans :=
  let req := match elemOf b 0x0312 with | some e => wordAt e.val 0 | none => 1
  let n := Legal.apply (.range 1 3) 32 req.toNat
  let took := s.port.capture.take n
  let left := s.port.capture.drop n
  let rem := elemW 0x0314 [w32 left.length, w32 (fld s 0x020100 31 16)]
  .done (took.map captureElem ++ [rem] ++ reportElem 0x0312 0 req (w32 n))
    (setFld 0x020100 31 16 0 { s with port := { s.port with capture := left } })

def execCaptureRead (h : Hdr) (b : Body) (s : State) : Out := run (.captureRead h b) opCaptureRead h b (ansCaptureRead b) s

/-- The sub-port a PORT element names (Table 5.3), none where it is malformed. -/
def portElem (s : State) (ws : List Word) : Option Nat :=
  let p := byteAt ws 0
  let k := byteAt ws 1
  if p < 2 then (if k < 8 ∧ subExists s (spKey p k) = true then some (spKey p k) else none)
  else if p < 6 then some (spKey p 0) else none

def opPortStatsRead (s : State) : Op :=
  { code := 0x0311, worlds := [0, 1, 2], specs := [el 0x8311 4 true fun ws => (portElem s ws).isSome],
    far := fun b => decide (byteAt (wordsOf b 0x8311) 0 < 4) }

/-- A counter as eight bytes. -/
def count8 (n : Nat) : List Word := [w32 (n / 2 ^ 32), w32 (n % 2 ^ 32)]

/-- PORT_STATS_READ (R132, R135): the totals of a sub-port, or both sets of a line port. -/
def ansPortStatsRead (b : Body) (s : State) : Ans :=
  match portElem s (wordsOf b 0x8311) with
  | none => .fail stBadElement (elemIndex b 0x8311)
  | some sp =>
    if sp < 18 then .done [elemW 0x0315 ((List.range 12).flatMap fun i => count8 (get s.port.totals (16 * sp + i) 0))] s
    else
      let q := sp - 18
      .done [elemW 0x0315 ([0, 1].flatMap fun tx => (List.range 25).flatMap fun i =>
        count8 (get s.port.line (64 * q + 32 * tx + i) 0))] s

def execPortStatsRead (h : Hdr) (b : Body) (s : State) : Out := run (.portStatsRead h b) (opPortStatsRead s) h b (ansPortStatsRead b) s

/-- Every sub-port counter is read into its total (R132). -/
def pollCounters (s : State) : State :=
  (List.range 18).foldl (fun s p => (List.range 12).foldl (fun s i =>
    let a := 0x021000 + 0x40 * p + 4 * i
    setReg a 0 { s with port := { s.port with totals := bumpTable s.port.totals (16 * p + i) (regWord s a).toNat } }) s) s

def execCounterPoll (t : Nat) (s : State) : Out :=
  ev t (fun s => if 5 ≤ s.boot.step ∧ s.pwr.state < 3 then pollCounters s else s) s

/-! ## Frames in the block -/

/-- A frame by its number: in a brick, in a queue, or in an express hold. -/
def frameOf (s : State) (id : Nat) : Option Held :=
  let at_ := fun (l : List Held) => l.find? fun h => decide (h.id = id)
  match [0, 1, 2, 3].findSome? fun b => at_ (brick s b).held with
  | some h => some h
  | none => (at_ s.que.frames).orElse fun _ => at_ s.que.hold

/-- A frame's record changed wherever it stands. -/
def updFrame (id : Nat) (f : Held → Held) (s : State) : State :=
  let g := fun (l : List Held) => l.map fun h => if h.id = id then f h else h
  { s with
    brk := { s.brk with bricks := s.brk.bricks.map fun e => (e.1, { e.2 with held := g e.2.held }) }
    que := { s.que with frames := g s.que.frames, hold := g s.que.hold } }

/-- A frame leaves its brick. -/
def leaveBrick (id : Nat) (s : State) : State :=
  { s with brk := { s.brk with bricks := s.brk.bricks.map fun e => (e.1, { e.2 with held := e.2.held.filter fun h => decide (h.id ≠ id) }) } }

/-- A frame leaves the queues and holds, and its cells are free (R319). -/
def leaveQueues (id : Nat) (s : State) : State :=
  let n := total (s.que.cells.filter fun c => decide (c.frame = id)) cellsOf
  perf 4 2 n { s with que := { s.que with
    frames := s.que.frames.filter (fun h => decide (h.id ≠ id)), hold := s.que.hold.filter (fun h => decide (h.id ≠ id)),
    cells := s.que.cells.filter fun c => decide (c.frame ≠ id) } }

/-- A frame is gone from the block. -/
def dropFrame (id : Nat) (s : State) : State := leaveBrick id (leaveQueues id s)

/-! ## Links (5.2) -/

/-- The lanes of a sub-port (R111): logical lanes of its port, by physical number 8 per main port; 34, 35 for MP0, MP1. -/
def lanesOf (s : State) (sp : Nat) : List Nat :=
  if sp < 16 then
    let w := 8 / 2 ^ breakoutLive s (spPort sp)
    (List.range w).map fun i => 8 * spPort sp + sp % 8 * w + i
  else if sp = 16 then [34]
  else if sp = 17 then [35]
  else (List.range (if trkCompat s (sp - 18) then 4 else 8)).map fun i => 8 * (sp - 16) + i

/-- The physical lane on which a logical lane of its quad is received (R101). -/
def physRx (s : State) (n : Nat) : Nat :=
  let q := if n < 32 then n / 4 else 8
  4 * q + fld s (0x010000 + 4 * q) (9 + 2 * (n % 4)) (8 + 2 * (n % 4))

/-- The quads whose reference a sub-port depends on: those of its lanes, and the lower quad of its port, whose clock the port follows
(R96). -/
def quadsOf (s : State) (sp : Nat) : List Nat :=
  ((lanesOf s sp).flatMap fun l => if l < 32 then [l / 4, l / 8 * 2] else [8]).eraseDups

/-- A lane's state changed. -/
def setLane (n : Nat) (f : Lane → Lane) (s : State) : State :=
  { s with lane := { s.lane with lanes := updD s.lane.lanes n {} f } }

/-- A lane adapts its CTLE, and its DFE where that is enabled; the values it adapts to are free (R100). -/
def adaptLane (n : Nat) (s : State) : State :=
  let (c, s) := drawBits 4 s
  let (d, s) := drawWords (if n < 32 then 12 else 3) s
  let dfe := flag s (0x011008 + 0x20 * n) 12
  setLane n (fun l => { l with adaptDone := true, ctleLive := c, dfe := if dfe then d.map (·.toNat) else l.dfe }) s

/-- A lane locks to its signal, and adapts with ADAPT_EN = 1; else its CTLE is as written and its taps stay (R100). -/
def lockLane (n : Nat) (s : State) : State :=
  let eq := 0x011008 + 0x20 * n
  let s := setLane n (fun l => { l with powered := true, sigDet := true, cdrLock := true, ctleLive := fld s eq 11 8 }) s
  if flag s eq 16 then adaptLane n s else s

/-- A lane that its port's mode uses: a main lane of a sub-port that exists, a bond lane that is enabled, a management lane (R95). -/
def laneUsed (s : State) (n : Nat) : Bool :=
  if n < 32 then (spsOf (n / 8)).any fun sp => subExists s sp && (lanesOf s sp).contains n
  else if n < 34 then flag s 0x010200 (n - 32) else true

/-- Every lane is powered where it is used or tested, and else powered down (R95). -/
def powerLanes (s : State) : State :=
  (List.range 36).foldl (fun s n => setLane n (fun l => if laneUsed s n || l.test.isSome then { l with powered := true } else {}) s) s

/-- What waits at a trunk framer is discarded and counted, but for path AIS: its passed units, and its frames that no discard has met yet. A unit or run
of which slots have gone ends as it stands (R17, R116). -/
def dropUnits (p : Nat) (s : State) : State :=
  let x := trunk s p
  let s := (x.units.filter fun u => !u.ais).foldl (fun s u => match u.frame with
    | some id =>
      if s.que.hold.any (fun h => decide (h.id = id) && !h.gone) then txDrop (18 + p) (leaveQueues id (updFrame id (fun h => { h with gone := true }) s))
      else s
    | none => txDrop (18 + p) s) s
  let x := trunk s p
  let live := (x.partial_.toList ++ x.runTx.toList)
  setTrunk p { x with
    units := x.units.filter (·.ais),
    expBytes := total (live.filter fun u => u.frame.isSome && (s.que.hold.any fun h => decide (some h.id = u.frame))) (·.len),
    passBytes := total (live.filter fun u => u.passed && !u.ais) fun u => 64 * ((u.len + 63) / 64) } s

/-- A link goes down (R114 to R116): its lanes unlock, verification and pause start anew, a watchdog's ignoring of pause lasts on, and the
frames that it was sending or held preempted are discarded. -/
def takeDown (sp : Nat) (s : State) : State :=
  let x := subPort s sp
  let s := (x.tx.toList ++ x.suspended.toList).foldl (fun s f => txDrop sp (leaveQueues f.id s)) s
  let s := if 18 ≤ sp ∧ lpTrunk s (sp - 18) = true then dropUnits (sp - 18) s else s
  let s := setSub sp { x with link := false, verify := 0, attempts := 0, tx := none, suspended := none,
                              pause := x.pause.map (fun e => (e.1, { ignore := e.2.ignore })), remoteFault := false } s
  (lanesOf s sp).foldl (fun s l => setLane (physRx s l) (fun y => { y with cdrLock := false, adaptDone := false }) s) s

/-- A trunk port loses its signal: out of frame, with the events of LOS (R302). -/
def trunkLos (p : Nat) (s : State) : State :=
  let x := trunk s p
  if lpTrunk s p then
    record 0x0A02 [2 + p, 0, 0] (setTrunk p { x with
      inFrame := false, good := 0, errWords := 0, dirRun := 0, secCnt := put x.secCnt 1 1,
      outSince := if x.outSince.isSome then x.outSince else some s.now } s)
  else s

/-- Whether a sub-port's port may have a link: enabled, out of reset, powered, its sub-port present. -/
def linkMay (s : State) (sp : Nat) : Bool :=
  portEnabled s (spPort sp) && subExists s sp && decide (5 ≤ s.boot.step) && decide (s.pwr.state < 2 ∨ (16 ≤ sp ∧ sp < 18 ∧ s.pwr.state < 3)) &&
    (quadsOf s sp).all fun q => s.lane.refOk.contains q

/-- Verification of a sub-port starts where preemption is enabled and not excused (R128). -/
def startVerify (sp : Nat) (s : State) : State :=
  let a := 0x020008 + 0x10 * spPort sp
  if spPort sp < 4 then
    let x := subPort s sp
    setSub sp { x with attempts := 0, verifyAt := s.now, verify := if flag s a 0 then (if flag s a 2 then 2 else 1) else 0 } s
  else s

/-- A sub-port's link comes up (R114). -/
def linkUp (sp : Nat) (s : State) : State :=
  if linkMay s sp = true ∧ (subPort s sp).link = false then
    let s := setSub sp { subPort s sp with link := true, localFault := false } s
    startVerify sp ((lanesOf s sp).foldl (fun s l => lockLane (physRx s l) s) s)
  else s

def execLinkUp (t sp : Nat) (s : State) : Out := ev t (linkUp sp) s

/-- A sub-port's link goes down (R114), with local fault received or not. -/
def linkDown (sp : Nat) (fault : Bool) (s : State) : State :=
  if sp < 20 then
    let s := if 18 ≤ sp ∧ (subPort s sp).link = true then trunkLos (sp - 18) s else s
    let s := takeDown sp s
    setSub sp { subPort s sp with localFault := fault } s
  else s

/-- A sub-port receives remote fault: the link stays up and sends idles (R114). -/
def remoteFault (sp : Nat) (on : Bool) (s : State) : State :=
  if sp < 20 ∧ ((subPort s sp).link = true ∨ on = false) then setSub sp { subPort s sp with remoteFault := on } s else s

def execRemoteFaultRx (t sp : Nat) (s : State) : Out := ev t (remoteFault sp true) s

def execRemoteFaultClear (t sp : Nat) (s : State) : Out := ev t (remoteFault sp false) s

/-- A sub-port can start a frame: link up, no remote fault received, no local fault ordered (R114, R118), its transmitters not
muted. -/
def canSend (s : State) (sp : Nat) : Bool :=
  let x := subPort s sp
  x.link && !x.remoteFault && !x.sendFault && !(decide (18 ≤ sp) && lineMuted s)

/-- Preemption is used on a sub-port (R128). -/
def preemptive (s : State) (sp : Nat) : Bool :=
  let p := spPort sp
  let a := 0x020008 + 0x10 * p
  decide (p < 4) && flag s a 0 && (flag s a 2 || decide ((subPort s sp).verify = 2)) && !(decide (2 ≤ p) && lpTrunk s (p - 2))

/-- A verify attempt ends (R128): answered, or one of three, each VERIFY_TIME after the one before. -/
def verifyAttempt (sp : Nat) (answered : Bool) (s : State) : State :=
  let x := subPort s sp
  let a := 0x020008 + 0x10 * spPort sp
  if sp < 20 ∧ spPort sp < 4 ∧ x.link = true ∧ x.verify = 1 ∧ flag s a 0 = true ∧ flag s a 2 = false then
    if answered then setSub sp { x with verify := 2 } s
    else if s.now < x.verifyAt + fld s a 15 8 * ms then s
    else setSub sp { x with attempts := x.attempts + 1, verifyAt := s.now, verify := if 2 ≤ x.attempts then 3 else 1 } s
  else s

def execMmVerifyAttempt (t sp : Nat) (answered : Bool) (s : State) : Out := ev t (verifyAttempt sp answered) s

/-! ## Pause (R123 to R125) -/

/-- A class of a sub-port is paused now: by PAUSE, or by PFC where the class is not express (R124). -/
def paused (s : State) (sp c : Nat) : Bool :=
  let p := get (subPort s sp).pause c {}
  decide (s.now < p.until_) || (decide (s.now < p.pfc) && !(fld s (0x020008 + 0x10 * spPort sp) 23 16).testBit c)

/-- Pause of a class is taken, from PFC or from PAUSE: not while ignored after a watchdog trip; a time of 0 ends it. -/
def pauseClass (sp c d : Nat) (pfc : Bool) (s : State) : State :=
  let x := subPort s sp
  let p := get x.pause c {}
  if s.now < p.ignore then s
  else
    let was := paused s sp c
    let q := if pfc then { p with pfc := s.now + d } else { p with until_ := s.now + d }
    let s := setSub sp { x with pause := put x.pause c q } s
    let since := if paused s sp c = false then none else if was then p.since else some s.now
    setSub sp { x with pause := put x.pause c { q with since := since } } s

/-- A received MAC control frame (R123): consumed and counted; PAUSE and PFC honoured on a clear port where enabled; on a management port it
is also one of the frames discarded (R136). -/
def macControl (sp : Nat) (f : Frame) (s : State) : State :=
  if 20 ≤ sp ∨ (subPort s sp).link = false then s
  else
    let s := countRx sp f s
    let s := if sp = 16 ∨ sp = 17 then rxDrop sp s else s
    match failedRx sp f (rxStamp s sp) s with
    | some s => s
    | none =>
      let s := if sp < 18 then subCount sp 7 1 s else lineCount (sp - 18) 0 19 1 s
      let a := 0x020080 + 4 * spPort sp
      match f.pause with
      | none => s
      | some i =>
        if 2 ≤ spPort sp then s
        else if i.pfc then
          i.times.foldl (fun s e => if e.1 < 8 ∧ flag s a e.1 = true then pauseClass sp e.1 e.2 true s else s) s
        else if flag s a 8 then
          (match i.times with
           | [] => s
           | e :: _ => (List.range 8).foldl (fun s c => pauseClass sp c e.2 false s) s)
        else s

def execMacControlRx (t sp : Nat) (frame : Frame) (s : State) : Out := ev t (macControl sp frame) s

/-- The pause time of a class runs out (R123). -/
def pauseExpire (sp c : Nat) (s : State) : State :=
  let x := subPort s sp
  let p := get x.pause c {}
  if paused s sp c = false ∧ p.since.isSome = true then setSub sp { x with pause := put x.pause c { p with since := none } } s else s

def execPauseTimeExpiry (t sp cls : Nat) (s : State) : Out := ev t (pauseExpire sp cls) s

/-- The watchdog time of a clear port. -/
def wdTime (s : State) (sp : Nat) : Nat := fld s (0x020080 + 4 * spPort sp) 25 16 * ms

/-- The pause watchdog of a class trips after WD_TIME of continuous pause (R125). -/
def watchdogTrip (sp c : Nat) (s : State) : State :=
  let x := subPort s sp
  let p := get x.pause c {}
  match p.since with
  | none => s
  | some t0 =>
    if sp < 16 ∧ paused s sp c = true ∧ t0 + wdTime s sp ≤ s.now then
      record Config.pauseTripEvent [spPort sp, spIdx sp, c]
        (setSub sp { x with pause := put x.pause c { ignore := s.now + 10 * wdTime s sp } } s)
    else s

def execPauseWatchdogTrip (t sp cls : Nat) (s : State) : Out := ev t (watchdogTrip sp cls) s

/-- After ten times WD_TIME pause is honoured again (R125). -/
def watchdogEnd (sp c : Nat) (s : State) : State :=
  let x := subPort s sp
  let p := get x.pause c {}
  if p.ignore ≠ 0 ∧ p.ignore ≤ s.now then setSub sp { x with pause := put x.pause c { p with ignore := 0 } } s else s

def execPauseWatchdogEnd (t sp cls : Nat) (s : State) : Out := ev t (watchdogEnd sp cls) s

/-! ## Management ports (R136) -/

/-- A frame arrives at a management port: consumed where it is a MAC control frame, left to the command's own row where it is a
command frame of a legal length on a port enabled for commands, else discarded and counted in RX_DROP (R35, R122, R123, R136). -/
def mgmtIn (sp : Nat) (f : Frame) (s : State) : State :=
  if (subPort s sp).link = false ∨ portEnabled s (spPort sp) = false then s
  else if f.etype = 0x8808 then macControl sp f s
  else if f.etype = fld s 0x1F0000 15 0 ∧ f.tags.length ≤ 1 ∧ flag s 0x1F0004 sp = true ∧ f.fcsOk = true ∧ 64 ≤ f.len ∧
      f.len ≤ frameMax s (spPort sp) then s
  else rxDrop sp (countRx sp f s)

def mgmtFrame (k : Nat) (f : Frame) (s : State) : State := mgmtIn (16 + k % 2) f s

def execMgmtPortFrameRx (t mp : Nat) (frame : Frame) (s : State) : Out := ev t (mgmtFrame mp frame) s

end Sys2Proof.Machine
end

