-- ==== Sys2Proof/Machine/Lane.lean ====
section
/-! DEFINITION. Serial lanes and the bond link lane protocol (04). -/
namespace Sys2Proof.Machine
open Sys2Proof

/-! ## References (R96) -/

/-- The sub-ports of a port. -/
def takePortDown (p : Nat) (s : State) : State := (spsOf p).foldl (fun s sp => takeDown sp s) s

/-- A bond lane leaves frame (R105): it sends remote defect and searches again. -/
def laneOut (l : Nat) (s : State) : State :=
  let f := fun (x : BondLane) => { x with inFrame := false, good := 0, errored := 0, sendRdi := true, searching := true, aligned := false, fill := 8 }
  if l = 0 then { s with lane := { s.lane with a0 := f s.lane.a0 } } else { s with lane := { s.lane with a1 := f s.lane.a1 } }

def bondLane (s : State) (l : Nat) : BondLane := if l = 0 then s.lane.a0 else s.lane.a1
def setBondLane (l : Nat) (x : BondLane) (s : State) : State :=
  if l = 0 then { s with lane := { s.lane with a0 := x } } else { s with lane := { s.lane with a1 := x } }

/-- A quad's reference is lost: REF_OK clears, its lanes lose lock, the links that depend on it go down, a trunk port losing its signal (R96). -/
def refLoss (q : Nat) (s : State) : State :=
  if 9 ≤ q then s
  else
    let s : State := { s with lane := { s.lane with refOk := s.lane.refOk.filter fun x => decide (x ≠ q) } }
    let lanes := (List.range 4).map fun i => if q = 8 then 32 + i else 4 * q + i
    let s := lanes.foldl (fun s l => setLane l (fun y => { y with cdrLock := false, adaptDone := false }) s) s
    if q = 8 then takePortDown 5 (takePortDown 4 (laneOut 1 (laneOut 0 s)))
    else (spsOf (q / 2)).foldl (fun s sp => if (quadsOf s sp).contains q then linkDown sp (subPort s sp).localFault s else s) s

/-- A quad's reference is within limits again (R96). -/
def refRestore (q : Nat) (s : State) : State :=
  if q < 9 ∧ s.lane.refOk.contains q = false then { s with lane := { s.lane with refOk := q :: s.lane.refOk } } else s

def execRefRestore (t quad : Nat) (s : State) : Out := ev t (refRestore quad) s

/-! ## Bond lanes (R102 to R107) -/

/-- A bond lane can be in frame: enabled and its quad's reference within limits. -/
def bondLaneMay (s : State) (l : Nat) : Bool := flag s 0x010200 l && s.lane.refOk.contains 8

/-- A bond lane is in frame after three consecutive markers (R105). -/
def laneIn (l : Nat) (s : State) : State :=
  if bondLaneMay s l then
    setBondLane l { bondLane s l with inFrame := true, good := 0, errored := 0, sendRdi := false, searching := false }
      (lockLane (physRx s (32 + l)) s)
  else s

def execBondLaneInFrame (t lane : Nat) (s : State) : Out := ev t (fun s => if lane < 2 then laneIn lane s else s) s

def execBondLaneOutOfFrame (t lane : Nat) (s : State) : Out := ev t (fun s => if lane < 2 then laneOut lane s else s) s

/-- The bits after destuffing: the bit that follows 31 identical bits is deleted. With the run of identical bits, the last bit, and
whether a deleted bit was not the opposite value, a lane error (R104). -/
def destuff : Nat → Bool → List Bool → List Bool × Nat × Bool × Bool
  | run, last, [] => ([], run, last, false)
  | run, last, b :: r =>
    if run = 31 then
      let (o, n, l, e) := destuff 1 b r
      (o, n, l, e || (b == last))
    else
      let (o, n, l, e) := destuff (if b == last then run + 1 else 1) b r
      (b :: o, n, l, e)

/-- The bits with a bit of the opposite value inserted after 31 identical ones (R104). -/
def stuff : Nat → Bool → List Bool → List Bool × Nat × Bool
  | run, last, [] => ([], run, last)
  | run, last, b :: r =>
    let n := if b == last then run + 1 else 1
    if n = 31 then
      let (o, m, l) := stuff 1 (!b) r
      (b :: (!b) :: o, m, l)
    else
      let (o, m, l) := stuff n b r
      (b :: o, m, l)

/-- What a 66-bit block is as a marker: its remote defect and frame count (Table 4.2). The header is sent as written, first bit first, and
each byte with its lowest bit first (log entry 37). -/
def markerOf (blk : List Bool) : Option (Bool × Nat) :=
  let bs := bytesLsb 8 (blk.drop 2)
  if blk.take 2 = [true, false] ∧ bs.getD 0 0 = 0xB1 ∧ bs.drop 4 = [0x5A, 0x3C, 0xC3, 0xA5] then
    some ((bs.getD 1 0).testBit 1, bs.getD 2 0 * 256 + bs.getD 3 0)
  else none

/-- Bits from the first marker on, or the last bits that could begin one (R105). -/
def findMarker : List Bool → List Bool
  | [] => []
  | b :: r => if 66 ≤ (b :: r).length ∧ (markerOf ((b :: r).take 66)).isNone = true then findMarker r else b :: r

/-- A block error is counted (R102). -/
def blockError (l : Nat) (s : State) : State := bumpFld 0x010204 31 16 1 { s with bnd := { s.bnd with blockErr := put s.bnd.blockErr l s.now } }

/-- A block enters the elastic buffer of a lane in frame: grout is deleted at a fill of 10 or more, a fill of 16 takes the lane out of
frame (R106). -/
def enterBuffer (l : Nat) (grout : Bool) (s : State) : State :=
  let x := bondLane s l
  if x.inFrame = false ∨ (grout = true ∧ 10 ≤ x.fill) then s
  else
    let s := setBondLane l { x with fill := x.fill + 1 } s
    if 16 ≤ x.fill + 1 then laneOut l (raise 0x010204 l s) else s

/-- The block at a marker's place: three good in a row put a lane in frame, four errored ones take it out (R105). -/
def markerBlock (l : Nat) (blk : List Bool) (s : State) : State :=
  let x := bondLane s l
  let want := (x.count + 1) % 65536
  let got := (markerOf blk).filter fun m => decide (m.2 = want)
  let y := { x with count := want, rxScr := 32767 }
  match got with
  | some m =>
    if x.inFrame then enterBuffer l false (setBondLane l { y with errored := 0, farRdi := m.1 } s)
    else
      let s := setBondLane l { y with good := x.good + 1, farRdi := m.1 } s
      if 2 ≤ x.good then laneIn l s else s
  | none =>
    if x.inFrame then
      let s := if blk.getD 0 false = blk.getD 1 false then blockError l s else s
      if 3 ≤ x.errored then laneOut l (setBondLane l y s) else setBondLane l { y with errored := x.errored + 1 } s
    else setBondLane l { y with good := 0, aligned := false } s

/-- Any other block: descrambled, then delivered or discarded as a block error (R102, R103). -/
def plainBlock (l : Nat) (blk : List Bool) (s : State) : State :=
  let x := bondLane s l
  let (bits, scr) := scramble x.rxScr (blk.drop 2)
  let s := setBondLane l { x with rxScr := scr } s
  let typ := (bytesLsb 1 bits).getD 0 0
  match blk.take 2 with
  | [false, true] => enterBuffer l false s
  | [true, false] => if typ = 0x1E then enterBuffer l true s else if typ = 0xB1 then enterBuffer l false s else if x.inFrame then blockError l s else s
  | _ => if x.inFrame then blockError l s else s

/-- The destuffed bits of a lane are taken block by block, a marker being searched for first; at most `n` blocks. -/
def takeBlocks (l : Nat) : Nat → State → State
  | 0, s => s
  | n + 1, s =>
    let x := bondLane s l
    let buf := if x.aligned then x.rxBuf else findMarker x.rxBuf
    let blk := buf.take 66
    if buf.length < 66 then setBondLane l { x with rxBuf := buf } s
    else
      let y := { x with rxBuf := buf.drop 66 }
      if x.aligned then
        let z := { y with pos := (x.pos + 1) % 1024 }
        takeBlocks l n ((if z.pos = 0 then markerBlock l blk else plainBlock l blk) (setBondLane l z s))
      else
        let c := match markerOf blk with | some m => m.2 | none => 0
        takeBlocks l n (setBondLane l { y with aligned := true, pos := 0, count := c, good := 1, rxScr := 32767 } s)

/-- The block that a lane sends next, header and payload before scrambling: the marker, grout at its places and where no data is ready, else
data (R102). Grout takes its bytes of the DRBG, which are free. -/
def nextBlock (l : Nat) (s : State) : (List Bool × List Nat) × State :=
  let x := bondLane s l
  if x.txPos = 0 then
    (([true, false], [0xB1, 2 * bit x.sendRdi + l, x.txCount / 256 % 256, x.txCount % 256, 0x5A, 0x3C, 0xC3, 0xA5]), s)
  else if x.txPos % 256 = 0 ∨ x.txData = [] then
    let (r, s) := drawBits 56 s
    (([true, false], 0x1E :: beBytes 7 r), s)
  else
    (([false, true], x.txData.take 8 ++ List.replicate (8 - x.txData.length) 0), setBondLane l { x with txData := x.txData.drop 8 } s)

/-- A lane sends one block: scrambled but for the marker, and stuffed (R102 to R104). -/
def sendBlock (l : Nat) (s : State) : State :=
  let marker := decide ((bondLane s l).txPos = 0)
  let ((hd, bs), s) := nextBlock l s
  let x := bondLane s l
  let (bits, scr) := if marker then (bitsLsb bs, 32767) else scramble x.txScr (bitsLsb bs)
  let (out, run, last) := stuff x.txRun x.txLast (hd ++ bits)
  send (.block l out) (setBondLane l
    { x with txScr := scr, txRun := run, txLast := last, txPos := (x.txPos + 1) % 1024, txCount := (x.txCount + bit marker) % 65536 } s)

/-- Bits reach a bond lane (R102 to R106). In each local block time since the bits before, the buffer is read, with grout inserted at a
fill of 4 or less, and the lane sends a block (log entry 38); then the bits are destuffed and their blocks taken. A lane
error in frame counts as a block error (log entry 39). -/
def bondBlock (l : Nat) (b : BondBlock) (s : State) : State :=
  if 2 ≤ l ∨ bondLaneMay s l = false then s
  else
    let s := (List.range b.reads).foldl (fun s _ => sendBlock l s) s
    let x := bondLane s l
    let (bits, run, last, err) := destuff x.rxRun x.rxLast b.bits
    let fill := if x.inFrame then x.fill - min (x.fill - 4) b.reads else x.fill
    let s := setBondLane l { x with fill := fill, rxBuf := x.rxBuf ++ bits, rxRun := run, rxLast := last } s
    let s := if err = true ∧ x.inFrame = true then blockError l s else s
    takeBlocks l (b.bits.length / 66 + 2) s

def execBondBlockRx (t lane : Nat) (blk : BondBlock) (s : State) : Out := ev t (bondBlock lane blk) s

/-! ## Test patterns and margin (4.5) -/

/-- The lanes a LANE_MASK names. -/
def maskLanes (ws : List Word) : List Nat :=
  (List.range 36).filter fun n => if n < 32 then (wordAt ws 1).bit n else (wordAt ws 0).bit (n - 32)

/-- A lane is free to be tested (R108). -/
def laneFree (s : State) (n : Nat) : Bool :=
  if n < 32 then !portEnabled s (n / 8)
  else if n < 34 then !s.bnd.joined
  else !flag s 0x1F0004 (16 + (n - 34))

def laneMask : ElemSpec := el 0x8304 8 true fun ws => !(maskLanes ws).isEmpty

/-- A body names a main lane. -/
def mainLanes (b : Body) : Bool := (maskLanes (wordsOf b 0x8304)).any fun n => decide (n < 32)

def opLanePrbs : Op := { code := 0x0300, worlds := [1], specs := [laneMask, el 0x0302 4, el 0x0303 4], far := mainLanes }

/-- The pattern applied to a lane (Table 4.8). -/
def patternFor (n v : Nat) : Nat := if n < 32 then (if v ≤ 2 then v else 0) else if 3 ≤ v ∧ v ≤ 5 then v else 3

/-- A RESULT element. -/
def resultElem (n : Nat) (l : Lane) : Elem :=
  elemB 0x0305 ([n, bit l.checkLock] ++ beBytes 6 l.errored ++ beBytes 8 l.compared)

/-- One lane of LANE_PRBS: counts restart at a generate or check, and end at free values at a stop of a check; whether a checking lane locks
to what it receives is free (R108). -/
def prbsLane (n action pattern : Nat) (s : State) : State × Elem :=
  let l := get s.lane.lanes n {}
  if action = 0 then
    let checking := match l.test with | some (a, _) => decide (2 ≤ a) | none => false
    let (e, s) := if checking then drawBits 48 s else (l.errored, s)
    let (c, s) := if checking then drawBits 64 s else (l.compared, s)
    let (k, s) := if checking then drawBits 1 s else (bit l.checkLock, s)
    let l := { l with test := none, errored := e, compared := c, checkLock := decide (k = 1) }
    (setLane n (fun _ => { l with powered := laneUsed s n, cdrLock := false, adaptDone := false, errored := 0, compared := 0, checkLock := false }) s,
      resultElem n l)
  else
    let l := { l with test := some (action, pattern), errored := 0, compared := 0, checkLock := false, powered := true, cdrLock := false, adaptDone := false }
    let s := setLane n (fun _ => l) s
    let (k, s) := if 2 ≤ action then drawBits 1 s else (0, s)
    (if k = 1 then lockLane n s else s, resultElem n l)

/-- LANE_PRBS (R108): on free lanes alone; one RESULT per lane. -/
def ansLanePrbs (b : Body) (s : State) : Ans :=
  let lanes := maskLanes (wordsOf b 0x8304)
  let act := wordAt (wordsOf b 0x0303) 0
  let pat := wordAt (wordsOf b 0x0302) 0
  let a := if act.toNat ≤ 3 then act.toNat else 0
  if lanes.all (laneFree s) then
    let (s, es) := lanes.foldl (fun acc n =>
      let (s, e) := prbsLane n a (patternFor n pat.toNat) acc.1
      (s, acc.2 ++ [e])) (s, [])
    let bad := (lanes.find? fun n => decide (patternFor n pat.toNat ≠ pat.toNat)).map fun n => patternFor n pat.toNat
    let rep := if hasElem b 0x0302 then (match bad with | some v => reportElem 0x0302 0 pat (w32 v) | none => []) else []
    .done (es ++ rep ++ reportElem 0x0303 0 act (w32 a)) s
  else .fail stState 0

def execLanePrbs (h : Hdr) (b : Body) (s : State) : Out := run (.lanePrbs h b) opLanePrbs h b (ansLanePrbs b) s

def opLaneMargin : Op := { code := 0x0301, worlds := [1], long := true, specs := [laneMask, el 0x0306 4], far := mainLanes }

/-- LANE_MARGIN (R109): a long operation over lanes none of which is being margined. -/
def ansLaneMargin (h : Hdr) (b : Body) (s : State) : Ans :=
  let lanes := maskLanes (wordsOf b 0x8304)
  let req := match elemOf b 0x0306 with | some e => wordAt e.val 0 | none => 6
  let n := Legal.apply (.range 4 12) 32 req.toNat
  if s.lane.margins.any fun m => lanes.any fun l => m.lanes.contains l then .fail stBusy 0
  else
    let op := nextOp s
    let s := startOp 0x0301 h.world h.mailbox h.tag s
    .prog (opIdElem op :: reportElem 0x0306 0 req (w32 n))
      { s with lane := { s.lane with margins := s.lane.margins ++ [{ op := op, lanes := lanes, target := n }] } }

def execLaneMargin (h : Hdr) (b : Body) (s : State) : Out := run (.laneMargin h b) opLaneMargin h b (ansLaneMargin h b) s

/-- The MARGIN element of a lane: margins are free values, or the no-lock flag and zeros (R109). -/
def marginElem (n : Nat) (s : State) : State × Elem :=
  let eyes := if n < 32 then 3 else 1
  if (get s.lane.lanes n {}).cdrLock then
    let (ws, s) := drawWords eyes s
    (s, { typ := 0x0307, len := 4 + 4 * eyes, val := word4 n 0 eyes 0 :: ws })
  else (s, { typ := 0x0307, len := 4 + 4 * eyes, val := word4 n 1 eyes 0 :: List.replicate eyes 0 })

/-- A group of four lanes of the oldest margin operation is measured; the operation ends with its last group (R109). -/
def marginGroup (s : State) : State :=
  match s.lane.margins with
  | [] => s
  | m :: r =>
    let (s, es) := (m.lanes.take 4).foldl (fun acc n =>
      let (s, e) := marginElem n acc.1
      (s, acc.2 ++ [e])) (s, [])
    let m : MarginOp := { m with lanes := m.lanes.drop 4, results := m.results ++ es }
    if m.lanes = [] then endOp m.op stOk m.results { s with lane := { s.lane with margins := r } }
    else { s with lane := { s.lane with margins := m :: r } }

def execLaneMarginGroupDone (t : Nat) (s : State) : Out := ev t marginGroup s

end Sys2Proof.Machine
end

