-- ==== Sys2Proof/Machine/Time.lean ====
section
/-! DEFINITION. Time (06) without PTP: epochs, steps, the slew, the servo's measurements, comparators, references, pins; and the
position of a gate list in fast time (11), which a step of time moves. -/
namespace Sys2Proof.Machine
open Sys2Proof

/-! ## Gate lists in fast time (R329, R331) -/

/-- The index of the entry that a point within the cycle falls in, counted from `i`; the last entry holds to the end of the
cycle. -/
def entryFrom : List (Nat × Nat) → Nat → Nat → Nat
  | [], i, _ => i - 1
  | [_], i, _ => i
  | (_, d) :: r, i, x => if x < d then i else entryFrom r (i + 1) (x - d)

/-- The point within the cycle at a fast time: (fast time − BASE) mod CYCLE. -/
def gatePoint (g : GateList) (ft : Nat) : Nat := (ft + 2 ^ 40 - g.base % 2 ^ 40) % 2 ^ 40 % max 1 g.cycle

/-- The entry running at a fast time. -/
def gateEntry (g : GateList) (ft : Nat) : Nat := if g.entries = [] then 0 else entryFrom g.entries 0 (gatePoint g ft)

/-- The gate states at a fast time: all open where the list is not enabled. -/
def gatesAt (g : GateList) (ft : Nat) : Nat :=
  if g.enable then (match g.entries[gateEntry g ft]? with | some e => e.1 % 256 | none => 255) else 255

def egress (s : State) (e : Nat) : Egress := get s.que.egress e {}
def setEgress (e : Nat) (x : Egress) (s : State) : State := { s with que := { s.que with egress := put s.que.egress e x } }

/-- A pending list becomes operational (R331). -/
def changeList (e : Nat) (s : State) : State :=
  let x := egress s e
  match x.pending with
  | none => s
  | some g => setEgress e { x with pending := none, oper := g, entry := gateEntry g (fast s) } s

/-! ## Comparators (R142 to R145) -/

def matchOf (s : State) (n : Nat) : Match := get s.time.matchs n {}
def setMatch (n : Nat) (x : Match) (s : State) : State := { s with time := { s.time with matchs := put s.time.matchs n x } }

/-- The address of `TMU_MATCH_HI[n]`. -/
def matchHi (n : Nat) : Nat := 0x040204 + 8 * n

/-- A comparator is disarmed: ARM reads 0. -/
def disarm (n : Nat) (s : State) : State := setFld (matchHi n) 31 31 0 (setMatch n { matchOf s n with armed := false } s)

/-- The time of day of an armed instant, in 2^-16 ns. -/
def instantTod (s : State) (i : Nat) : Nat := (((tod s / 65536 : Nat) : Int) + fastDiff i (fast s)).toNat * 65536

/-- A comparator fires, flagged LATE or STEPPED; comparators 6 and 7 trigger a snapshot (R142, R144, R522, R523). -/
def fireMatch (n : Nat) (late stepped : Bool) (s : State) : State :=
  let i := (matchOf s n).instant
  let s := raise (matchHi n) 30 (disarm n s)
  let s := if late then raise (matchHi n) 29 s else s
  let s := if stepped then raise (matchHi n) 28 s else s
  if n = 6 then snapTrigger 1 (instantTod s i) s
  else if n = 7 ∧ s.dks.snapArmed = true then
    snapTrigger 6 (instantTod s i) { s with dks := { s.dks with snapArmed := false } }
  else s

/-- A comparator is armed with an instant: it fires at once, flagged LATE, when that is already reached (R143, R145). -/
def armMatch (n i : Nat) (s : State) : State :=
  let s := setFld (matchHi n) 29 28 0 s
  let s := setFld (matchHi n) 31 31 1 (setMatch n { armed := true, instant := i } s)
  if fastDiff i (fast s) ≤ 0 then fireMatch n true false s else s

/-- The lead of a comparator: those that trigger snapshots fire 30 ns before the armed instant (R523). -/
def matchLead (n : Nat) : Int := if 6 ≤ n then 30 else 0

/-- A comparator's instant is reached (R142). -/
def matchReached (n : Nat) (s : State) : State :=
  if (matchOf s n).armed = true ∧ fastDiff (matchOf s n).instant (fast s) ≤ matchLead n then fireMatch n false false s else s

def execMatchFire (t n : Nat) (s : State) : Out := ev t (fun s => if n < 8 then matchReached n s else s) s

/-! ## Epochs and steps (R138, R139, R144, R161) -/

/-- A signed number as `n` big-endian bytes, saturating. -/
def signedBytes (n : Nat) (v : Int) : List Nat :=
  let m : Int := 2 ^ (8 * n - 1)
  beBytes n (unsignedOf (8 * n) (if v < -m then -m else if m ≤ v then m - 1 else v))

/-- A number of 2^-16 ns rounded to ns. -/
def roundNs (v : Int) : Int := (v + 32768) / 65536

/-- The epoch after another (R138). -/
def epochAfter (n : Nat) : Nat := if 0xFFFFFFFF ≤ n then 1 else n + 1

/-- A new epoch begins, for a cause with its credential and REASON (R138, R139, R164). -/
def newEpoch (old new cause cred : Nat) (reason : Word) (s : State) : State :=
  let s := suspectAll s
  let s : State := { s with time := { s.time with epoch := new, stepAvail := true, sync := false, syncRun := 0, offset := 0 } }
  let s : State := { s with time := { s.time with oneSteps := s.time.oneSteps.map fun e => (e.1, { e.2 with disturbed := e.2.disturbed || e.2.dispatched }) } }
  record2 0x0602 (beBytes 4 old ++ beBytes 4 new) ([cause, cred, 0, 0] ++ wordBytes reason) s

/-- `TMU_SERVO_CFG.SRC`. -/
def servoSrc (s : State) : Nat := fld s 0x040040 1 0

/-- The comparators armed with an instant after fast time `ft` and by at most `d` ns, nearest first. -/
def dueBy (s : State) (ft : Nat) (d : Int) : List Nat :=
  let l := (List.range 8).filter fun n =>
    (matchOf s n).armed && decide (0 < fastDiff (matchOf s n).instant ft) && decide (fastDiff (matchOf s n).instant ft ≤ d)
  l.mergeSort fun a b => decide (fastDiff (matchOf s a).instant ft ≤ fastDiff (matchOf s b).instant ft)

/-- What a step of `d` ns does to the gate lists of one egress, the fast time before it being `ft` (R332). -/
def stepGates (ft : Nat) (d : Int) (s : State) (e : Nat) : State :=
  let x := egress s e
  let left := fastDiff x.changeT ft
  let fires := x.pending.isSome && decide (0 < left) && decide (left ≤ d)
  let drops := x.pending.isSome && decide (d < 0) && decide ((2 : Int) ^ 39 ≤ left - d)
  let s := if fires then changeList e s else if drops then setEgress e { x with pending := none } s else s
  let x := egress s e
  if fires || drops || x.oper.enable then raise (0x0A0400 + 0x10 * e) 17 (setEgress e { x with entry := gateEntry x.oper (fast s) } s) else s

/-- Time of day steps by a signed amount: instants stepped over fire, those moved out of the window are disarmed, gate lists
move, one-step frames dispatched are disturbed (R144, R159, R161, R332). A slew ends, since no offset remains to remove. -/
def stepTod (delta : Int) (s : State) : State :=
  let ft := fast s
  let was := tod s / 65536
  let now := ((tod s : Int) + delta).toNat % (2 ^ 48 * 1000000000 * 65536)
  let s : State := { s with time := { s.time with
    tod := now, todAt := s.now, stepAvail := false, slewing := false, slewGoal := 0,
    oneSteps := s.time.oneSteps.map fun e => (e.1, { e.2 with disturbed := e.2.disturbed || e.2.dispatched }) } }
  let d : Int := ((now / 65536 : Nat) : Int) - ((was : Nat) : Int)
  let s := (dueBy s ft d).foldl (fun s n => fireMatch n false true s) s
  let s := if d < 0 then
      ((List.range 8).filter fun n => (matchOf s n).armed && decide ((2 : Int) ^ 39 ≤ fastDiff (matchOf s n).instant ft - d)).foldl
        (fun s n => raise (matchHi n) 28 (disarm n s)) s
    else s
  let s := suspectAll ((List.range 4).foldl (stepGates ft d) s)
  record2 0x0604 (signedBytes 8 (roundNs delta)) (beBytes 4 s.time.epoch ++ [servoSrc s]) s

/-! ## The servo (R160 to R163, R579) -/

/-- A time fault of a cause (R162, R173, R584). -/
def timeFault (cause : Nat) (off : Int) (s : State) : State :=
  let s := record 0x0601 (signedBytes 6 (roundNs off) ++ [cause, servoSrc s]) (raise 0x040000 8 s)
  notify .tamperTime ([0x74, cause, 0, 0] ++ wordBytes (liveWord s 0x040000)) s

/-- Time of day slews until an offset is removed (R162). -/
def slew (off : Int) (s : State) : State :=
  let s := rebase s
  { s with time := { s.time with sync := false, syncRun := 0, slewing := true, slewNeg := decide (0 < off), slewGoal := off.natAbs, slewAt := s.now } }

/-- FAULT_THR in 2^-16 ns. -/
def faultThr (s : State) : Nat := fld s 0x040040 31 16 * 100 * 65536

/-- The rate that the servo's control law gives, a free value within ±100 ppm (R579, log entry 3). -/
def servoRate (s : State) : State :=
  let s := rebase s
  let (v, s) := drawBits 32 s
  setReg 0x040030 (w32 (unsignedOf 32 ((v % 13107201 : Nat) - 6553600))) s

/-- A measured offset reaches the servo (R161 to R163). -/
def measure (off : Int) (s : State) : State :=
  let s : State := { s with time := { s.time with offset := off, lastMeas := some s.now } }
  if faultThr s < off.natAbs then
    let s : State := { s with time := { s.time with sync := false, syncRun := 0 } }
    if s.time.stepAvail then stepTod (-off) s else timeFault 0 off (slew off s)
  else
    let run := if off.natAbs ≤ 100 * 65536 then s.time.syncRun + 1 else 0
    let s : State := { s with time := { s.time with syncRun := run, sync := s.time.sync || decide (16 ≤ run) } }
    servoRate s

/-- A host step (R160 to R162): applied once in an epoch; otherwise its offset is slewed and the request reported as not
applied, which the second component says. -/
def hostStep (s : State) : State × Bool :=
  if servoSrc s ≠ 0 then (s, false)
  else
    let d : Int := (signedOf 32 (regWord s 0x040034).toNat * 1000000000 + signedOf 32 (regWord s 0x040038).toNat) * 65536
    if s.time.stepAvail then (stepTod d s, true) else (timeFault 1 (-d) (slew (-d) s), false)

/-- No valid measurement for 10 s (R163). -/
def syncTimeout (s : State) : State :=
  if s.time.sync = true ∧ (match s.time.lastMeas with | some t => decide (t + 10 * sec ≤ s.now) | none => true) = true then
    { s with time := { s.time with sync := false } }
  else s

def execSyncTimeout (t : Nat) (s : State) : Out := ev t syncTimeout s

/-- The offset left in a slew has reached zero: 100 ppm of the time since it began (R162). -/
def slewDone (s : State) : Bool := decide (s.time.slewGoal * 10000000 ≤ (s.now - s.time.slewAt) * 65536)

/-- The slew ends (R162). -/
def slewEnd (s : State) : State :=
  if s.time.slewing = true ∧ slewDone s = true then
    let s := rebase s
    { s with time := { s.time with slewing := false, slewGoal := 0 } }
  else s

def execSlewEnd (t : Nat) (s : State) : Out := ev t slewEnd s

/-! ## TIME_READ and TIME_EPOCH_NEW -/

/-- The time as six bytes of seconds, four of nanoseconds, two of fraction. -/
def todBytes (s : State) : List Nat := beBytes 6 (todSec s) ++ beBytes 4 (todNs s) ++ beBytes 2 (todFrac s)

def opTimeRead : Op := { code := 0x0400, worlds := [0, 1, 2] }

/-- TIME_READ (R140). -/
def ansTimeRead (s : State) : Ans :=
  .done [elemB 0x0401 (todBytes s), elemW 0x0402 [w32 s.time.epoch], elemW 0x0403 [liveWord s 0x040000],
    elemB 0x0404 (signedBytes 8 s.time.offset), elemW 0x0405 [regWord s 0x040030]] s

def execTimeRead (h : Hdr) (b : Body) (s : State) : Out := run (.timeRead h b) opTimeRead h b ansTimeRead s

/-- The officer ID of a session's credential, 0xFF for none (R577). -/
def credOf (s : State) (session : Nat) : Nat :=
  match look s.cmd.sessions session with
  | some x => (match x.cred with | .officer n => n | _ => 0xFF)
  | none => 0xFF

def opTimeEpochNew : Op := { code := 0x0401, worlds := [0], specs := [el 0x8406 4 true] }

/-- TIME_EPOCH_NEW (R164). -/
def ansTimeEpochNew (h : Hdr) (b : Body) (s : State) : Ans :=
  let new := epochAfter s.time.epoch
  .done [elemW 0x0402 [w32 new]] (newEpoch s.time.epoch new 0 (credOf s h.session) (wordAt (wordsOf b 0x8406) 0) s)

def execTimeEpochNew (h : Hdr) (b : Body) (s : State) : Out := run (.timeEpochNew h b) opTimeEpochNew h b (ansTimeEpochNew h b) s

/-! ## References (R169, R170) -/

/-- The time unit switches its clock (R170). -/
def refSwitch (sel cause : Nat) (s : State) : State :=
  if s.time.refSel = sel then s
  else record 0x0603 [sel, cause] { s with time := { s.time with refSel := sel } }

/-- The clock that REF_MODE gives (R169). -/
def refChoose (s : State) : State :=
  if fld s 0x040040 5 4 = 1 ∧ s.time.ref10Ok = true then refSwitch 1 1 s else refSwitch 0 0 s

/-- The 10 MHz input becomes not good (R169). -/
def ref10Fault (s : State) : State := refSwitch 0 0 { s with time := { s.time with ref10Ok := false } }

def execRef10mFault (t : Nat) (s : State) : Out := ev t ref10Fault s

/-- The 10 MHz input has stayed good for 10 s (R169). -/
def ref10Restore (s : State) : State := refChoose { s with time := { s.time with ref10Ok := true } }

def execRef10mRestore (t : Nat) (s : State) : Out := ev t ref10Restore s

/-! ## Pins (R173, R174) and the save (R171) -/

/-- PPS_IN becomes not good: a time fault where it is the servo's source (R173). -/
def ppsBad (off : Int) (s : State) : State :=
  let s : State := { s with time := { s.time with ppsInOk := false } }
  if servoSrc s = 2 then timeFault 2 off s else s

/-- A PPS_IN edge: its stamp, its verdict, and a measurement against the nearest whole second where it is the source (R160,
R173). -/
def ppsEdge (s : State) : State :=
  let frac := tod s % (1000000000 * 65536)
  let off : Int := if 2 * frac < 1000000000 * 65536 then (frac : Int) else (frac : Int) - 1000000000 * 65536
  let s : State := { s with time := { s.time with ppsInEdge := some s.now, ppsLost := false } }
  let s := if flag s 0x040050 7 then
      { s with time := { s.time with ppsStamp := todNs s * 4 + todFrac s / 16384, ppsSec := todSec s % 2 ^ 32 } }
    else s
  if s.time.stepAvail = false ∧ 1000000 * 65536 < off.natAbs then ppsBad off s
  else
    let s : State := { s with time := { s.time with ppsInOk := true } }
    if servoSrc s = 2 then measure off s else s

def execPpsInEdge (t : Nat) (s : State) : Out := ev t ppsEdge s

/-- An edge of PPS_IN is missing for 1.5 s, from the last edge or from the start of the time unit (R173). -/
def ppsMissing (s : State) : State :=
  if s.time.running = true ∧ s.time.ppsLost = false ∧ s.time.ppsInEdge.getD s.time.ppsFrom + 1500 * ms ≤ s.now then
    ppsBad s.time.offset { s with time := { s.time with ppsLost := true } }
  else s

def execPpsInMissing (t : Nat) (s : State) : Out := ev t ppsMissing s

/-- Time of day stands at a whole second, within the accuracy of PPS_OUT (R174). -/
def wholeSecond (s : State) : Bool :=
  let f := tod s % (1000000000 * 65536)
  s.time.running && (decide (f ≤ 2 * 65536) || decide (999999998 * 65536 ≤ f))

/-- PPS_OUT rises at a whole second of time of day, unless OUT_MODE forbids it or an edge fell less than 500 ms ago (R174). -/
def ppsRise (s : State) : State :=
  let mode := fld s 0x040050 9 8
  let near := match s.time.ppsLast with | some e => decide (s.now < e + 500 * ms) | none => false
  if wholeSecond s = true ∧ (mode = 1 ∨ (mode = 2 ∧ s.time.sync = true)) ∧ near = false then
    send (.pulse 0 true) { s with time := { s.time with
      ppsOut := true, ppsLast := some s.now, ppsFall := some (s.now + fld s 0x040050 19 10 * ms) } }
  else s

def execPpsOutEdge (t : Nat) (s : State) : Out := ev t ppsRise s

/-- PPS_OUT falls after WIDTH ms (R174). -/
def ppsFalls (s : State) : State :=
  match s.time.ppsFall with
  | some f =>
    if s.time.ppsOut = true ∧ f ≤ s.now then
      send (.pulse 0 false) { s with time := { s.time with ppsOut := false, ppsFall := none } }
    else s
  | none => s

def execPpsOutWidthEnd (t : Nat) (s : State) : Out := ev t ppsFalls s

/-- Time of day and the real-time counter are saved to the BBD, both as they were at the counter's last edge (R171). -/
def saveTime (s : State) : State :=
  if s.time.running then { s with time := { s.time with savedTod := todAgo s (rtcPast s), savedRtc := rtcNow s } } else s

/-- The save at a counter edge that begins a whole second of the counter (R171). -/
def timeSave (s : State) : State := if rtcNow s % 32768 = 0 then saveTime s else s

def execTimeSave (t : Nat) (s : State) : Out := ev t timeSave s

/-- Time of day restarts from the save, advanced by the real-time counter's delta (R172). -/
def restoreTime (s : State) : State :=
  { s with time := { s.time with
    running := true, todAt := s.now, slewing := false, ppsFrom := s.now, ppsLost := false, ppsInEdge := none,
    tod := s.time.savedTod + (rtcNow s + 2 ^ 48 - s.time.savedRtc) % 2 ^ 48 * 65536000000000 / 32768 } }

end Sys2Proof.Machine
end

