-- ==== Sys2Proof/Machine/Vault.lean ====
section
/-! DEFINITION. The key store as its users see it (13.2, 13.3): which keys a world reaches, the check of each use, slots and the
cache, new handles; and the vault job slots (R27, R30, R442). -/
namespace Sys2Proof.Machine
open Sys2Proof

/-! ## Reaching and checking a key -/

/-- Whether a world reaches a key: its owner, or a world whose WORLDS bit is set (R375). -/
def reaches (world : Nat) (k : Key) : Bool := decide (k.owner = world) || (decide (world ≤ 3) && k.use.bit (16 + world))

/-- The verdict on a key named by an operation. -/
inductive KeyRes where
  | ok (k : Key)
  | bad (status : Nat)
  | later                 -- a persistent key not yet reloaded (R382)
  | held                  -- being erased (R384)
  deriving DecidableEq, Repr

/-- The LIFECYCLES bit of a lifecycle state. -/
def lifeBit (life : Nat) : Nat := 11 + life

/-- The usage bits of Table 13.3. -/
def uEncrypt : Nat := 24
def uDecrypt : Nat := 25
def uSign : Nat := 26
def uVerify : Nat := 27
def uWrap : Nat := 28
def uUnwrap : Nat := 29
def uDerive : Nat := 30
def uMac : Nat := 31

/-- The masters of Table 13.3. -/
def mCmd : Nat := 20
def mBus : Nat := 21
def mCore : Nat := 22
def mPage : Nat := 23

/-- A key named by a world, reached or reported as one that does not exist (R48, R375). -/
def keyNamed (s : State) (world handle : Nat) : KeyRes :=
  match look s.keys.keys handle with
  | none => .bad stNotFound
  | some k =>
    if reaches world k = false then .bad stNotFound else if k.erasing then .held else if k.place = 2 then .later else .ok k

/-- The conditions of R378 on a key: usage bits, the requesting master, the lifecycle state. -/
def keyAllows (s : State) (uses : List Nat) (master : Nat) (k : Key) : Bool :=
  uses.all (fun u => k.use.bit u) && k.use.bit master && decide (1 ≤ s.keys.life) && decide (s.keys.life ≤ 3) &&
    k.use.bit (lifeBit s.keys.life)

/-- A key named for an operation, checked under R378. -/
def keyFor (s : State) (world handle : Nat) (uses : List Nat) (master : Nat) : KeyRes :=
  match keyNamed s world handle with
  | .ok k => if keyAllows s uses master k then .ok k else .bad stKeyAttr
  | r => r

/-- The algorithm of a key (Table 13.3). -/
def Key.alg (k : Key) : Nat := k.typ.bits 31 24

/-- Whether a key is the persistent kind. -/
def Key.persistent (k : Key) : Bool := k.use.bit 7

def setKey (handle : Nat) (k : Key) (s : State) : State := { s with keys := { s.keys with keys := put s.keys.keys handle k } }

/-! ## Slots and the cache (R379, R381) -/

/-- A key no job is using. -/
def keyIdle (s : State) (handle : Nat) : Bool :=
  s.eng.jobs.all (fun j => decide (j.2.key ≠ some handle) && decide (j.2.key2 ≠ some handle)) && s.sas.bus.all fun b => decide (b.handle ≠ handle)

/-- The least recently used key in a slot that no job is using. -/
def lruKey (s : State) : Option (Nat × Key) :=
  (s.keys.keys.filter fun e => decide (e.2.place = 0) && keyIdle s e.1).foldl (fun best e =>
    match best with
    | none => some e
    | some b => if e.2.used < b.2.used then some e else best) none

/-- The DDR cache can be used. -/
def cacheUp (s : State) : Bool := (s.mem.c0.up || s.mem.c1.up) && !s.mem.memOff && !halted s

/-- The least recently used key is evicted to the cache where `n` slots are not free, sealed under K_cache with its handle and the count
of evictions as IV (R381). -/
def evictOne (n : Nat) (s : State) : State :=
  if slotsUsed s + n ≤ 8192 then s
  else match lruKey s with
    | some (h, k) => if cacheUp s then setKey h { k with place := 1 } { s with keys := { s.keys with evicts := s.keys.evicts + 1 } } else s
    | none => s

/-- Slots are freed, by eviction of the least recently used keys, until `n` are free; whether they could be (R381). -/
def makeRoom (n : Nat) (s : State) : State × Bool :=
  (evictOne n (evictOne n s), decide (slotsUsed (evictOne n (evictOne n s)) + n ≤ 8192))

/-- A key named by a job: brought back into a slot where it is cached, and the most recently used (R381). -/
def touchKey (handle : Nat) (s : State) : State :=
  match look s.keys.keys handle with
  | none => s
  | some k =>
    let s := if k.place = 1 then perf 5 7 1 (makeRoom (keySlots k) s).1 else s
    setKey handle { k with place := if k.place = 1 then 0 else k.place, fresh := k.fresh || decide (k.place = 1), used := s.keys.useCount }
      { s with keys := { s.keys with useCount := s.keys.useCount + 1 } }

/-- A key leaves the store: its slot is free, and a volatile index waits for reuse (R375). -/
def dropKey (handle : Nat) (s : State) : State :=
  match look s.keys.keys handle with
  | none => s
  | some k =>
    let idx := handle % 1048576
    { s with keys := { s.keys with
      keys := del s.keys.keys handle,
      freed := if k.persistent then s.keys.freed else s.keys.freed ++ [idx] } }

/-- The generation after another (Table 13.2). -/
def genAfter (g : Nat) : Nat := if 15 ≤ g then 1 else g + 1

/-- The lowest persistent index that holds no key. -/
def freePersistent (s : State) : Option Nat :=
  let used := (s.keys.keys.filter fun e => decide (e.1 % 1048576 < 16384)).map fun e => e.1 % 1048576
  let i := lowestFree used used.length 0
  if i < 16384 then some i else none

/-- K_persist (Table 13.1): derived from the root secret, M3 and the lifecycle code; none without a root secret. -/
def kPersist (s : State) (m3 : List Word) : Option Nat :=
  s.boot.rootSecret.map fun r => kdf (beBytes 32 r) "TIRIQUE PERSIST" (unpack m3 ++ [s.keys.life])

/-- The half of the persistent key area that the firmware running reads and appends to: the re-sealed one in a trial (R84, R85). -/
def halfInUse (s : State) : KMap SealedKey := if s.boot.trialBoot then s.keys.spareHalf else s.keys.half
def setHalf (m : KMap SealedKey) (s : State) : State :=
  if s.boot.trialBoot then { s with keys := { s.keys with spareHalf := m } } else { s with keys := { s.keys with half := m } }

/-- A persistent key's record joins the half in use, sealed (R382). -/
def sealKey (handle : Nat) (k : Key) (s : State) : State :=
  match kPersist s (runBank s).m3 with
  | some u => setHalf (put (halfInUse s) handle { key := k, under := u }) s
  | none => s

/-- A record is appended to the current half, which is compacted into the spare one first where it is full; none where the live
records fill it (R382). -/
def appendRecord (s : State) : Option State :=
  let live := (s.keys.keys.filter fun e => e.2.persistent).length
  if s.keys.halfRecs < Config.keyRecords then some { s with keys := { s.keys with halfRecs := s.keys.halfRecs + 1 } }
  else if live < Config.keyRecords then some { s with keys := { s.keys with halfRecs := live + 1 } }
  else none

/-- A key takes an index of the handle space, with the next generation of that index (R375); the state and the handle. -/
def nameKey (k : Key) (idx : Nat) (s : State) : State × Nat :=
  let g := genAfter (get s.keys.gens idx 0)
  let handle := k.owner * 16777216 + g * 1048576 + idx
  (setKey handle k { s with keys := { s.keys with gens := put s.keys.gens idx g, useCount := s.keys.useCount + 1 } }, handle)

/-- A new key of a value with the handle it takes, none where a limit is met (ST_NO_SPACE; R375, R381, R382). -/
def storeValue (typ use : Word) (owner value : Nat) (s : State) : Option (State × Nat) :=
  let k : Key := { typ := typ, value := value, use := use, owner := owner, used := s.keys.useCount }
  if 1048576 ≤ s.keys.keys.length then none
  else
    let (s1, fits) := makeRoom (keySlots k) s
    if fits = false then none
    else
      if use.bit 7 then
        match freePersistent s1, appendRecord s1 with
        | some idx, some t => let (u, h) := nameKey k idx t; some (sealKey h k u, h)
        | _, _ => none
      else match s1.keys.freed with
        | idx :: r => some (nameKey k idx { s1 with keys := { s1.keys with freed := r } })
        | [] =>
          if s1.keys.nextIdx < 1048576 then
            some (nameKey k s1.keys.nextIdx { s1 with keys := { s1.keys with nextIdx := s1.keys.nextIdx + 1 } })
          else none

/-- A new key drawn from the DRBG, of the size its TYPE gives. -/
def storeKey (typ use : Word) (owner : Nat) (s : State) : Option (State × Nat) :=
  let (v, s) := drawBits (typ.bits 15 0) s
  storeValue typ use owner v s

/-- A key is erased: zeroised, with an erasure record where it is persistent (R384). -/
def eraseKey (handle : Nat) (s : State) : State :=
  match look s.keys.keys handle with
  | none => s
  | some k =>
    let s := dropKey handle s
    if k.persistent then setHalf (del (halfInUse s) handle) ((appendRecord s).getD s) else s

/-- Each KEY_ERASE whose key no job uses any more completes (R384). -/
def settleKeyErase (s : State) : State :=
  s.cmd.flights.foldl (fun s f =>
    match f.await with
    | .keyErase h => if keyIdle s h then finish f stOk 0 [] (eraseKey h s) else s
    | _ => s) s

/-! ## Deletion of a tenant (R441) -/

/-- Keys of a world. -/
def ownedKeys (s : State) (world : Nat) : List Nat := (s.keys.keys.filter fun e => decide (e.2.owner = world)).map (·.1)

/-- A tenant whose jobs have ended goes: its keys, its page, its record (R441). -/
def removeTenant (n : Nat) (s : State) : State :=
  let s := (ownedKeys s (0x40 + n)).foldl (fun s k => eraseKey k s) s
  let s := (s.eng.pages.filter fun e => decide (e.2 = n)).foldl (fun s e =>
    record 0x0B07 [e.1, 0xFF] { s with eng := { s.eng with pages := del s.eng.pages e.1 } }) s
  { s with dks := { s.dks with tenants := del s.dks.tenants n } }

/-- Nothing runs for a tenant or with its keys. -/
def tenantIdle (s : State) (n : Nat) : Bool :=
  s.eng.jobs.all (fun j => decide (j.2.world ≠ 0x40 + n)) && (ownedKeys s (0x40 + n)).all (keyIdle s)

/-- Each deletion of a tenant for which nothing runs any more completes. -/
def settleTenants (s : State) : State :=
  s.cmd.flights.foldl (fun s f =>
    match f.await with
    | .tenant n => if tenantIdle s n then finish f stOk 0 [] (removeTenant n s) else s
    | _ => s) s

/-! ## Vault job slots (Table 1.6, R27, R30, R442) -/

/-- Jobs held by a world: the operator's count the key bus transfers. -/
def slotsOf (s : State) (world : Nat) : Nat :=
  (s.eng.jobs.filter fun j => decide (j.2.world = world)).length + if world = 0 then s.sas.bus.length else 0

/-- Slots reserved for tenants. -/
def tenantReserve (s : State) : Nat := total s.dks.tenants fun t => t.2.reserved

/-- Shared slots in use: what each holder has beyond its own share. -/
def sharedUsed (s : State) : Nat :=
  (slotsOf s 0 - 128) + slotsOf s 1 + slotsOf s 2 + slotsOf s 3 +
    total s.dks.tenants fun t => slotsOf s (0x40 + t.1) - t.2.reserved

/-- An unreserved shared slot is free. -/
def sharedSlot (s : State) : Bool := decide (sharedUsed s + tenantReserve s < 888)

/-- The depth of a tenant's bucket (R442). -/
def bucketDepth (rate : Nat) : Nat := (rate + 99) / 100 + 1

/-- A tenant's bucket brought up to now. -/
def refill (now : Nat) (x : Tenant) : Tenant :=
  if x.rate = 0 then x
  else
    let gain := (now - x.refilled) * x.rate / sec
    let depth := bucketDepth x.rate
    if depth ≤ x.tokens + gain then { x with tokens := depth, refilled := now }
    else if gain = 0 then x
    else { x with tokens := x.tokens + gain, refilled := x.refilled + gain * sec / x.rate }

/-- A job slot is taken by a world, with a token of a tenant that has a rate; none where there is none (R30, R442). -/
def takeSlot (world : Nat) (s : State) : Option State :=
  if worldClass world = 4 then
    let n := world - 0x40
    match look s.dks.tenants n with
    | none => none
    | some x =>
      let x := refill s.now x
      let own := slotsOf s world
      if (own < x.reserved ∨ (own < x.limit ∧ sharedSlot s = true)) ∧ (x.rate = 0 ∨ 0 < x.tokens) then
        some { s with dks := { s.dks with tenants := put s.dks.tenants n (if x.rate = 0 then x else { x with tokens := x.tokens - 1 }) } }
      else none
  else if (world = 0 ∧ slotsOf s 0 < 128) ∨ sharedSlot s = true then some s
  else none

end Sys2Proof.Machine
end

