-- ==== Sys2Proof/Machine/Mirror.lean ====
section
/-! DEFINITION. What a bond member sends and mirrors (12.2, 12.5), its role, and the ceilings that wait for the mirror (R361). -/
namespace Sys2Proof.Machine
open Sys2Proof

/-- The brick clock period in ps: 625 ps at 1.6 GHz (R7). -/
def bc (s : State) (b : Nat) : Nat := 1000000 / max 1 (get s.pwr.dvfs b {}).live

/-- The mirror lane: A0 while in frame, else A1 (R350), as a lane set. -/
def mirrorLane (s : State) : Nat := if bondLaneUp s 0 then 1 else 2

/-! ## Keys and messages (12.1, 12.2) -/

/-- The bond key's value (R346). -/
def bondKey (s : State) : Nat := match look s.keys.keys s.bnd.key with | some k => k.value | none => 0

/-- K_wrap, which seals mirrored SA keys: the KDF of the bond key with the bond ID as context (R346). -/
def bondWrapKey (s : State) : Nat := kdf (beBytes 32 (bondKey s)) "TIRIQUE BOND WRAP" (beBytes 2 s.bnd.bond)

/-- K_hello, which authenticates HELLO (R349). -/
def bondHelloKey (s : State) : Nat := kdf (beBytes 32 (bondKey s)) "TIRIQUE BOND HELLO" []

/-- K_mac: its context is the nonce of the device with the lower device ID, then that of the other (R346). -/
def bondMacKey (s : State) : Nat :=
  let own := beBytes 32 (s.bnd.nonce.getD 0)
  let far := beBytes 32 (s.bnd.peerNonce.getD 0)
  kdf (beBytes 32 (bondKey s)) "TIRIQUE BOND MAC" (if s.dks.device < s.bnd.peer then own ++ far else far ++ own)

/-- The content of a mirror record (Table 12.7): an SC's entry as Table 8.2 has it without its SA words, an SA's CTRL with its port, AN, generation
and SC, a learn message of Table 7.8; widths the table does not give are log entry 8. -/
def recContent : MirrorBody → List Nat
  | .sc key present sci cfg window link thresh retire =>
    [2 + key / 65536 % 2, key / 32768 % 2] ++ beBytes 2 (key % 32768) ++
      (if present then beBytes 8 sci ++ wordBytes cfg ++ beBytes 4 window ++ wordBytes link ++ beBytes 4 (thresh * 2 ^ 24 + retire) ++ List.replicate 40 0
       else List.replicate 64 0)
  | .saInstall entry rx an port sc gen iv init _ wrapped =>
    beBytes 4 entry ++ beBytes 4 (2 ^ 31 + 2 ^ 30 * bit rx + 2 ^ 28 * (an % 4) + 2 ^ 20 * (gen % 16) + 2 ^ 17 * (port % 2) + sc % 32768) ++ unpack iv ++
      beBytes 8 init ++ unpack wrapped
  | .saState entry st active => beBytes 4 entry ++ [st, active.getD 0xFF]
  | .txCeil entry c => beBytes 4 entry ++ beBytes 8 c
  | .rxCeil entry c => beBytes 4 entry ++ beBytes 8 c
  | .trunkCeil p ph c => [2 + p, ph] ++ beBytes 8 c
  | .learn remove b sc key => [1 + bit remove, b] ++ beBytes 2 sc ++ beBytes 8 key ++ [0, 0, 0, 0]
  | .path b => b.flatMap elemBytes
  | .mka ca present txSc rxSc cak ckn server ps =>
    [2 + ca / 128, ca % 128, bit present, bit server] ++ beBytes 4 cak ++ beBytes 2 txSc ++ beBytes 2 rxSc ++ ps.flatMap (beBytes 4) ++ ckn.flatMap elemBytes

/-- A mirror record: sequence, code and length ahead of its content (R359). -/
def mirrorBytes (r : MirrorRec) : List Nat :=
  let c := recContent r.body
  beBytes 8 r.seq ++ [r.code] ++ beBytes 2 c.length ++ c

/-- A bond message up to its MAC (Table 12.3). -/
def bondBytes (typ format bond sender number : Nat) (body : List Nat) (recs : List MirrorRec) : List Nat :=
  let b := body ++ recs.flatMap mirrorBytes
  [typ, format] ++ beBytes 2 b.length ++ beBytes 2 bond ++ beBytes 2 sender ++ beBytes 8 number ++ b

/-- The MAC of a bond message: AES-CMAC, under K_hello for HELLO and K_mac else (R349). -/
def bondMac (s : State) (typ : Nat) (msg : List Nat) : List Nat := cmac 256 (if typ = 1 then bondHelloKey s else bondMacKey s) msg

/-- A bond message's MAC verifies. -/
def bondMacOk (s : State) (typ : Nat) (m : BondRx) : Bool :=
  match m.mac with
  | .right => true
  | .bytes b => decide (b = bondMac s typ (bondBytes typ m.format m.bond m.sender m.number m.body m.recs))

/-- A bond message is sent on a set of lanes, where a bond is configured and a lane is up: its bytes, padded to a multiple of 8, wait for the data
blocks of each (R349). -/
def sendBond (typ number : Nat) (body : List Nat) (recs : List MirrorRec) (lanes : Nat) (s : State) : State :=
  let on := Nat.land lanes (bondMode s)
  if s.bnd.joined = true ∧ on ≠ 0 then
    let msg := bondBytes typ 1 s.bnd.bond s.dks.device number body recs
    let mac := bondMac s typ msg
    let wire := msg ++ mac ++ List.replicate ((8 - msg.length % 8) % 8) 0
    let s := [0, 1].foldl (fun s l => if on.testBit l then setBondLane l { bondLane s l with txData := (bondLane s l).txData ++ wire } s else s) s
    send (.bond { typ := typ, bond := s.bnd.bond, sender := s.dks.device, number := number, body := body, recs := recs, mac := mac, lanes := on }) s
  else s

/-- Records are mirrored: the active records its standby in sync, or a resynchronisation runs (R359, R361). -/
def mirrorOn (s : State) : Bool := decide (s.bnd.role = 1) && (s.bnd.inSync || s.bnd.resync)

/-- A mirror record takes the next sequence and is sent in a message of its own (R359, R362). -/
def mirror (code : Nat) (body : MirrorBody) (s : State) : State :=
  if mirrorOn s then
    let r : MirrorRec := { seq := s.bnd.nextSeq, code := code, body := body }
    sendBond 4 r.seq [] [r] (mirrorLane s)
      { s with bnd := { s.bnd with nextSeq := r.seq + 1, unacked := s.bnd.unacked ++ [{ last := r.seq, recs := [r], sent := s.now }] } }
  else s

/-! ## Ceilings (R216, R288, R360, R361) -/

/-- A transmit ceiling comes into force; an SA_INSTALL that waits for it completes (R216). -/
def applyTxCeil (entry c : Nat) (s : State) : State :=
  match look s.sas.sas entry with
  | none => s
  | some a =>
    let s : State := { s with sas := { s.sas with sas := put s.sas.sas entry { a with lim := if a.lim < c then c else a.lim, asked := none } } }
    finishWhere (fun w => decide (w = .keyBus entry)) stOk [elemW 0x060C [w32 entry]] s

/-- A receive ceiling comes into force (R360). -/
def applyRxCeil (entry c : Nat) (s : State) : State :=
  { s with bnd := { s.bnd with
    rxCeil := put s.bnd.rxCeil entry (max c (get s.bnd.rxCeil entry 0)), rxAsked := del s.bnd.rxAsked entry } }

/-- A trunk count ceiling comes into force (R288). -/
def applyTrunkCeil (port phase c : Nat) (s : State) : State :=
  let x := trunk s port
  setTrunk port { x with keys := upd x.keys phase fun k => { k with ceiling := max k.ceiling c, asked := none } } s

/-- A waiting ceiling comes into force: code 4 to 6, and the entry, or for a trunk 2 · port + phase. -/
def applyCeil (code entry c : Nat) (s : State) : State :=
  match code with
  | 4 => applyTxCeil entry c s
  | 5 => applyRxCeil entry c s
  | _ => applyTrunkCeil (entry / 2) (entry % 2) c s

/-- A ceiling is requested: in force at once, or once its record is acknowledged (R361). -/
def requestCeil (code entry c : Nat) (body : MirrorBody) (s : State) : State :=
  if mirrorOn s then
    let n := s.bnd.nextSeq
    let s := mirror code body s
    { s with bnd := { s.bnd with waiting := s.bnd.waiting ++ [(n, code * 2 ^ 20 + entry, c)] } }
  else applyCeil code entry c s

/-- Every waiting ceiling whose record is covered comes into force. -/
def releaseCeils (upTo : Nat) (s : State) : State :=
  let due := s.bnd.waiting.filter fun w => decide (w.1 ≤ upTo)
  let s : State := { s with bnd := { s.bnd with waiting := s.bnd.waiting.filter fun w => decide (upTo < w.1) } }
  due.foldl (fun s w => applyCeil (w.2.1 / 2 ^ 20) (w.2.1 % 2 ^ 20) w.2.2 s) s

/-- Ceilings that wait where nothing is mirrored any more apply at once (R361). -/
def lapseCeils (s : State) : State := if mirrorOn s then s else releaseCeils s.bnd.nextSeq s

/-! ## Roles (R343, R370) -/

/-- The role changes, with the notification of the bond state class (Table 12.10). -/
def setRole (new cause : Nat) (s : State) : State :=
  let old := s.bnd.role
  if old = new then s
  else
    let s : State := { s with bnd := { s.bnd with role := new } }
    notify .bondState ([old, new, cause, 0] ++ wordBytes (liveWord s 0x0B0004)) s

end Sys2Proof.Machine
end

