-- ==== Sys2Proof/Machine/Sa.lean ====
section
/-! DEFINITION. Secure channels and security associations (08) as the datapath, the key bus and the bond use them: fields,
keystream banks (R253 to R257), packet numbers, the switch, retirement, erasure, installation, and MKA's keys. -/
namespace Sys2Proof.Machine
open Sys2Proof

/-! ## Names and fields -/

/-- The key of an SC: line port 0 or 1, direction, index (R206). -/
def scKey (port : Nat) (rx : Bool) (idx : Nat) : Nat := (port * 2 + bit rx) * 32768 + idx
def scPort (key : Nat) : Nat := key / 65536 % 2
def scRx (key : Nat) : Bool := decide (key / 32768 % 2 = 1)
def scIdx (key : Nat) : Nat := key % 32768

/-- The brick that serves an SC (R206). -/
def scBrick (key : Nat) : Nat := scPort key + 2 * bit (scRx key)

/-- The SC an SA belongs to. -/
def Sa.scKey (a : Sa) : Nat := Machine.scKey a.port a.rx a.sc

def Sc.path (c : Sc) : Bool := c.cfg.bit 29
def Sc.suite (c : Sc) : Nat := c.cfg.bits 28 27
def Sc.xpn (c : Sc) : Bool := c.cfg.bit 28
def Sc.integrityOnly (c : Sc) : Bool := c.cfg.bit 26
def Sc.sciExplicit (c : Sc) : Bool := c.cfg.bit 21
def Sc.validate (c : Sc) : Nat := c.cfg.bits 19 18
def Sc.replay (c : Sc) : Bool := c.cfg.bit 17
def Sc.express (c : Sc) : Bool := c.cfg.bit 14
def Sc.autoSwitch (c : Sc) : Bool := c.cfg.bit 13
def Sc.subport (c : Sc) : Nat := c.cfg.bits 2 0

/-- The last packet number of an SC's suite (8.4). -/
def Sc.pnEnd (c : Sc) : Nat := if c.xpn then 2 ^ 64 - 1 else 2 ^ 32 - 1

def scOf (s : State) (key : Nat) : Option Sc := look s.sas.scs key
def saOf (s : State) (entry : Nat) : Option Sa := look s.sas.sas entry
def setSc (key : Nat) (c : Sc) (s : State) : State := { s with sas := { s.sas with scs := put s.sas.scs key c } }
def setSa (entry : Nat) (a : Sa) (s : State) : State := { s with sas := { s.sas with sas := put s.sas.sas entry a } }

/-- The paired transmit SC of a receive SC (R208). -/
def pairOf (key : Nat) (c : Sc) : Option Nat :=
  if scRx key = true ∧ c.link.bit 15 = true then some (scKey (if c.link.bit 16 then 0 else scPort key) false (c.link.bits 14 0))
  else none

/-- A protected stream's SC and its twin (R263), in protected-line mode. -/
def twinOf (s : State) (key : Nat) : Option Nat :=
  if protLine s = true ∧ key < 256 then
    match scOf s key with
    | some c => if c.express = true ∧ c.link.bit 15 = true then some (scKey 1 false (c.link.bits 14 0)) else none
    | none => none
  else none

/-- Whether an SC is the twin of a protected stream. -/
def isTwin (s : State) (key : Nat) : Bool := s.sas.scs.any fun e => decide (twinOf s e.1 = some key)

/-- The SCs that PTP_CONFIG names (R153). -/
def ptpTxSc (s : State) (key : Nat) : Bool :=
  s.time.ptpPorts.any fun q => decide (2 ≤ q.port) && !lpTrunk s (q.port - 2) && decide (scKey (q.port - 2) false q.txSc = key)
def ptpRxSc (s : State) (key : Nat) : Bool :=
  s.time.ptpPorts.any fun q => decide (2 ≤ q.port) && !lpTrunk s (q.port - 2) && decide (scKey (q.port - 2) true q.rxSc = key)

/-- Verify-before-release of a receive SC (Table 8.3, R153). -/
def vbrOn (s : State) (key : Nat) (c : Sc) : Bool :=
  ptpRxSc s key || (match c.cfg.bits 16 15 with | 0 => !c.express | 2 => false | _ => true)

/-- The device stands by in its bond: roles 3 to 5 (Table 12.1). -/
def standby (s : State) : Bool := decide (3 ≤ s.bnd.role) && decide (s.bnd.role ≤ 5)

/-- The CTRL word of an entry (Table 8.5). -/
def Sa.ctrl (a : Sa) : Word :=
  w32 (2 ^ 31 + 2 ^ 30 * bit a.rx + 2 ^ 28 * (a.an % 4) + 2 ^ 26 * (a.st % 4) + 2 ^ 25 * bit a.banked + 2 ^ 20 * (a.gen % 16) +
    2 ^ 17 * (a.port % 2) + a.sc % 32768)

/-- The CFG word as it reads (Table 8.3). -/
def cfgWord (key : Nat) (c : Sc) : Word :=
  let w := ((c.cfg.withBits 31 31 1).withBits 30 30 (bit (scRx key))).withBits 9 9 (bit c.enc.isSome)
  w.withBits 11 10 (c.enc.getD 0)

/-- The entry on an AN. -/
def entryOn (c : Sc) (an : Nat) : Option Nat := look c.ans an

/-- The ACTIVE SA of a transmit SC. -/
def activeTx (s : State) (c : Sc) : Option (Nat × Sa) :=
  match c.enc.bind (entryOn c) with
  | some e => (saOf s e).map fun a => (e, a)
  | none => none

/-- The SAs of an SC in a state. -/
def saIn (s : State) (c : Sc) (st : Nat) : Option (Nat × Sa) :=
  c.ans.findSome? fun e => match saOf s e.2 with
    | some a => if a.st = st then some (e.2, a) else none
    | none => none

/-! ## Counters (Table 8.8) -/

/-- An SC counter: transmit 0 OutOctetsProtected, 1 OutOctetsEncrypted, 2 TX_PN_EXHAUSTED, 3 TX_RES_WAIT, 4 TX_NO_SA; receive
0 InPktsNotUsingSA, 1 InPktsUnusedSA, 2 InPktsUnchecked, 3 InPktsDelayed, 4 InPktsLate, 5 InOctetsValidated,
6 InOctetsDecrypted, 7 REPLAY_DUP, 8 BEYOND_BITMAP. -/
def scCount (key i n : Nat) (s : State) : State :=
  { s with sas := { s.sas with scs := upd s.sas.scs key fun c => { c with counters := put c.counters i ((get c.counters i 0 + n) % 2 ^ 64) } } }

/-- An SA counter: transmit 0 OutPktsProtected, 1 OutPktsEncrypted; receive 0 InPktsOK, 1 InPktsInvalid, 2 InPktsNotValid. -/
def saCount (entry i : Nat) (s : State) : State :=
  { s with sas := { s.sas with sas := upd s.sas.sas entry fun a => { a with counters := put a.counters i ((get a.counters i 0 + 1) % 2 ^ 64) } } }

/-- A SecY counter of a line port: 0 InPktsUntagged, 1 InPktsNoTag, 2 InPktsBadTag, 3 OutPktsTooLong, 4 InPktsUnknownSCI,
5 InPktsNoSCI. -/
def secyCount (port i : Nat) (s : State) : State :=
  { s with sas := { s.sas with secy := put s.sas.secy (port * 16 + i) ((get s.sas.secy (port * 16 + i) 0 + 1) % 2 ^ 64) } }

/-- The bytes that name an SA in an event (Table 19.9). -/
def saEvent (entry : Nat) (a : Sa) : List Nat := [2 + a.port, a.an + 128 * bit a.rx] ++ beBytes 2 a.sc ++ beBytes 4 entry

/-! ## Keystream banks (R253, R254, R257) -/

/-- The brick and tile whose banks serve an SA: a twin's lie on tile 0.1 (R263). -/
def bankHome (s : State) (a : Sa) : Nat × Nat :=
  if protLine s = true ∧ a.rx = false ∧ a.port = 1 ∧ isTwin s a.scKey = true then (0, 1) else (scBrick a.scKey, 0)

/-- A tile is in an express role and works. -/
def bankable (s : State) (b t : Nat) : Bool :=
  let x := tile s b t
  flag s (0x070000 + 0x100 * b) 0 && (x.role == 1 || x.role == 2) && !x.failed

/-- The bank reserved on a tile for the SC that PTP_CONFIG names (R253). -/
def bankReserved (s : State) (b t : Nat) : Bool :=
  decide (t = 0) && decide (b < 2) && s.time.ptpPorts.any fun q => decide (q.port = b + 2) && !lpTrunk s b

/-- The bank an SA may take: bank 15 first for the SC that PTP_CONFIG names, else the lowest free one not reserved, for an SC
with EXPRESS. -/
def freeBank (s : State) (b t : Nat) (a : Sa) (c : Sc) : Option Nat :=
  let free := fun (k : Nat) => !has (brick s b).banks (16 * t + k)
  let own := bankReserved s b t && ptpTxSc s a.scKey
  if own = true ∧ free 15 = true then some 15
  else if c.express then (List.range (if bankReserved s b t then 15 else 16)).find? free
  else none

/-- The PN a bank is primed for (R254). -/
def primePn (a : Sa) : Nat := if a.rx then a.pn + 1 else a.pn

/-- An SA takes a free bank, which is then primed (R253, R254). -/
def giveBank (entry : Nat) (s : State) : State :=
  match saOf s entry with
  | none => s
  | some a =>
    let (b, t) := bankHome s a
    if a.banked = true ∨ 1 < a.st ∨ bankable s b t = false then s
    else match scOf s a.scKey with
      | none => s
      | some c =>
        match freeBank s b t a c with
        | none => s
        | some k =>
          let x := brick s b
          setSa entry { a with banked := true }
            (setBrick b { x with banks := put x.banks (16 * t + k) { sa := entry, primed := primePn a, freeAt := s.now } } s)

/-- The bank of an SA: its brick and its key there. -/
def bankOf (s : State) (entry : Nat) : Option (Nat × Nat) :=
  [0, 1, 2, 3].findSome? fun b => ((brick s b).banks.find? fun e => decide (e.2.sa = entry)).map fun e => (b, e.1)

/-- The unbanked ACTIVE and INSTALLED SAs of a tile, in ascending entry index, take the banks that are free. -/
def fillBanks (b t : Nat) (s : State) : State :=
  (s.sas.sas.filter fun e => !e.2.banked && decide (e.2.st ≤ 1) && decide (bankHome s e.2 = (b, t))).foldl (fun s e => giveBank e.1 s) s

/-- A bank is released and given on (R253). -/
def releaseBank (entry : Nat) (s : State) : State :=
  let s : State := { s with sas := { s.sas with sas := upd s.sas.sas entry fun a => { a with banked := false } } }
  match bankOf s entry with
  | none => s
  | some (b, k) => fillBanks b (k / 16) (setBrick b { brick s b with banks := del (brick s b).banks k } s)

/-- A banked SA's bank is discarded and primed anew (R258). -/
def reprime (entry : Nat) (s : State) : State :=
  match bankOf s entry, saOf s entry with
  | some (b, k), some a =>
    setBrick b { brick s b with banks := put (brick s b).banks k { sa := entry, primed := primePn a, freeAt := s.now } } s
  | _, _ => s

/-- Every bank of a brick is released and zeroised (R583). -/
def dropBanks (b : Nat) (s : State) : State :=
  let l := (brick s b).banks.map fun e => e.2.sa
  let s := setBrick b { brick s b with banks := [] } s
  { s with sas := { s.sas with sas := s.sas.sas.map fun e => if l.contains e.1 then (e.1, { e.2 with banked := false }) else e } }

/-! ## States of an SA (R225 to R231) -/

/-- The state of an SA changes and is mirrored (Table 12.7). -/
def setSaState (entry st : Nat) (active : Option Nat) (s : State) : State :=
  mirror 3 (.saState entry st active) { s with sas := { s.sas with sas := upd s.sas.sas entry fun a => { a with st := st } } }

/-- An SA becomes ERASING (R231 step 1): its bank is released, and a transmit SC that sent under it sends under none. -/
def beginErase (entry : Nat) (s : State) : State :=
  match saOf s entry with
  | none => s
  | some a =>
    if a.st = 3 then s
    else
      let s := setSaState entry 3 none (setSa entry { a with retireAt := none } s)
      let s := releaseBank entry s
      { s with sas := { s.sas with scs := upd s.sas.scs a.scKey fun c =>
        { c with enc := if a.st = 1 ∧ a.rx = false then none else c.enc,
                 pending := if c.pending = some a.an then none else c.pending } } }

/-- An SA leaves ACTIVE (R229): an earlier RETIRING SA of its SC is erased at once, its bank is released and its timer starts. -/
def retire (entry : Nat) (s : State) : State :=
  match saOf s entry with
  | none => s
  | some a =>
    match scOf s a.scKey with
    | none => s
    | some c =>
      let s := match saIn s c 2 with
        | some (e, _) => if e = entry then s else beginErase e s
        | none => s
      let s := setSaState entry 2 none (setSa entry { a with retireAt := some (s.now + c.retire * ms) } s)
      releaseBank entry s

/-- The transmit switch of an SC to an AN commits (R226): an SA_SWITCH_TX that waits for it completes. -/
def commitSwitch (key an : Nat) (s : State) : State :=
  match scOf s key with
  | none => s
  | some c =>
    match entryOn c an with
    | none => s
    | some e =>
      match saOf s e with
      | none => s
      | some a =>
        if a.st ≠ 0 then s
        else
          let old := activeTx s c
          let s := match old with | some (o, _) => retire o s | none => s
          let s : State := { s with sas := { s.sas with scs := upd s.sas.scs key fun c => { c with enc := some an, pending := none } } }
          let s := setSaState e 1 (some an) s
          let last := match old with | some (_, o) => o.pn - 1 | none => 0
          finishWhere (fun w => decide (w = .switch key)) stOk
            [elemW 0x060D [w32 (last / 2 ^ 32), w32 last, w32 (a.pn / 2 ^ 32), w32 a.pn]] s

/-- A switch is asked for: it commits at once where the new SA is not banked or its bank is primed, else it waits (R226,
R257). -/
def beginSwitch (key an : Nat) (s : State) : State :=
  match (scOf s key).bind fun c => entryOn c an with
  | none => s
  | some e =>
    let ready := match bankOf s e with
      | some (b, k) => (get (brick s b).banks k { sa := e, primed := 0 }).ready
      | none => true
    if ready then commitSwitch key an s
    else { s with sas := { s.sas with scs := upd s.sas.scs key fun c => { c with pending := some an } } }

/-- Whether an SA's installation has completed: its first ceiling is in force (R216). -/
def installed (s : State) (entry : Nat) : Bool :=
  s.bnd.waiting.all (fun w => decide (w.2.1 ≠ 4 * 2 ^ 20 + entry)) ||
    (match saOf s entry with | some a => decide (a.pn < a.lim) | none => false)

/-- The automatic switch is considered at a frame boundary (R228). -/
def considerAuto (key : Nat) (s : State) : State :=
  match scOf s key with
  | none => s
  | some c =>
    if c.autoSwitch = false ∨ c.pending.isSome = true then s
    else match activeTx s c with
      | none => s
      | some (_, a) =>
        let an := (a.an + 1) % 4
        match entryOn c an with
        | some e =>
          (match saOf s e with
           | some n => if n.st = 0 ∧ a.pnEvent ≤ a.pn ∧ installed s e = true then beginSwitch key an s else s
           | none => s)
        | none => s

/-! ## Tables and SCs leave (R199, R210, R231) -/

/-- The SC key that an index names in a brick (R206). -/
def brickSc (b i : Nat) : Nat := scKey (b % 2) (decide (2 ≤ b)) i

/-- Whether a host's table job that waits or runs names an SC (R52). -/
def tableNames (s : State) (key : Nat) : Bool :=
  let b := scBrick key
  let x := tables s b
  (match x.chain with | some c => c.origin.isSome && decide (brickSc b c.entry.sc = key) | none => false) ||
    x.work.any fun w => match w with
      | .insert _ e => decide (brickSc b e.sc = key)
      | .vlan _ _ v => decide (brickSc b (v.bits 14 0) = key)
      | _ => false

/-- Every flow entry that names an SC leaves its brick's tables, and every DEFAULT_SC that names it becomes 0x7FFF (R199). -/
def unlearn (key : Nat) (s : State) : State :=
  let b := scBrick key
  let i := scIdx key
  let x := tables s b
  let gone := fun (m : KMap FlowEntry) => dropIf m fun _ e => !e.tomb && decide (e.sc = i)
  setTables b { x with
    flow := gone x.flow
    chain := x.chain.map fun c => if c.entry.sc = i then { c with void := true } else c
    rehash := x.rehash.map fun r => { r with shadow := gone r.shadow }
    vlan := x.vlan.map fun e => if e.2.bits 14 0 = i then (e.1, e.2.withBits 14 0 0x7FFF) else e } s

/-- The SC's mirror record. -/
def mirrorSc (key : Nat) (present : Bool) (s : State) : State :=
  match scOf s key with
  | some c => mirror 1 (.sc key present c.sci (cfgWord key c) c.window c.link c.thresh c.retire) s
  | none => mirror 1 (.sc key present 0 0 0 0 0 0) s

/-- An SC entry is cleared. -/
def removeSc (key : Nat) (s : State) : State := mirrorSc key false { s with sas := { s.sas with scs := del s.sas.scs key } }

/-- A CA's SCs: its transmit SC and its sixteen receive SCs (R236). -/
def caScs (ca : Nat) (x : MkaCa) : List Nat :=
  scKey (ca / 128) false x.txSc :: (List.range 16).map fun i => scKey (ca / 128) true (x.rxSc + i)

/-- A CA whose deletion waits leaves once no SC of its range is left (R240). -/
def settleCas (s : State) : State :=
  (s.sas.cas.filter fun e => e.2.deleting && (caScs e.1 e.2).all fun k => !has s.sas.scs k).foldl (fun s e =>
    finishWhere (fun w => decide (w = .caDeleted e.1)) stOk [] { s with sas := { s.sas with cas := del s.sas.cas e.1 } }) s

/-- The commands that wait for erasures complete where nothing is left to wait for. -/
def settleErasures (entry : Nat) (s : State) : State :=
  let strip := fun (w : Await) => match w with
    | .zeroised l k => Await.zeroised (l.filter (· ≠ entry)) k
    | w => w
  let s : State := { s with cmd := { s.cmd with flights := s.cmd.flights.map fun f => { f with await := strip f.await } } }
  settleCas (finishWhere (fun w => match w with | .zeroised [] _ => true | _ => false) stOk [] s)

/-- Frames held in a brick under an SA (R221, R230). -/
def refCount (s : State) (entry : Nat) : Nat :=
  total [0, 1, 2, 3] fun b => ((brick s b).held.filter fun h => decide (h.sa = some entry)).length

/-- Zeroisation of an ERASING SA no frame holds (R231 steps 3 to 5). -/
def zeroise (entry : Nat) (s : State) : State :=
  match saOf s entry with
  | none => s
  | some a =>
    if a.st ≠ 3 ∨ refCount s entry ≠ 0 then s
    else
      let k := a.scKey
      let s : State := { s with sas := { s.sas with
        sas := del s.sas.sas entry,
        scs := upd s.sas.scs k fun c => if entryOn c a.an = some entry then { c with ans := del c.ans a.an } else c } }
      let s : State := { s with bnd := { s.bnd with rxCeil := del s.bnd.rxCeil entry, rxAsked := del s.bnd.rxAsked entry } }
      let s := match scOf s k with
        | some c => if c.deleting = true ∧ c.ans = [] then removeSc k s else s
        | none => s
      settleErasures entry s

/-- Deletion of an SC begins (R210): it leaves the tables and its SAs are erased. -/
def beginDelete (key : Nat) (s : State) : State :=
  match scOf s key with
  | none => s
  | some c =>
    let s := unlearn key s
    let s : State := { s with sas := { s.sas with scs := upd s.sas.scs key fun c => { c with deleting := true } } }
    let s := c.ans.foldl (fun s e => beginErase e.2 s) s
    if c.ans = [] then removeSc key s else s

/-! ## Installation (R24 to R27, R211, R212, R216, R217, R223, R232, R360) -/

/-- The lowest entry that no SA and no transfer holds (R211). -/
def freeEntry (s : State) : Option Nat :=
  let used := s.sas.sas.map (·.1) ++ s.sas.bus.map (·.entry) ++
    [s.trk.p0, s.trk.p1].flatMap fun p => p.keys.map fun k => k.2.entry
  let n := lowestFree used used.length 0
  if n < 131072 then some n else none

/-- IV_BASE of an SA (R212). -/
def ivBase (c : Sc) (ssci : Word) (salt : List Word) : List Word :=
  if c.xpn then [ssci ^^^ wordAt salt 0, wordAt salt 1, wordAt salt 2] else [w32 (c.sci / 2 ^ 32), w32 c.sci, 0]

/-- A key's value as an SA's KEY field holds it under the store's mask (Table 8.4, R24, R211). -/
def maskedKey (s : State) (k256 : Bool) (value : Nat) : Nat := Nat.xor (keyField k256 value) s.sas.mask

/-- The SA that an installation gives: PN fields as R217 and R223 set them. -/
def newSa (key an handle masked init : Nat) (c : Sc) (iv : List Word) (old : Option Sa) : Sa :=
  { rx := scRx key, an := an, port := scPort key, sc := scIdx key, ivBase := iv, handle := handle, key := masked,
    st := (old.map (·.st)).getD 0, gen := ((old.map fun a => (a.gen + 1) % 16)).getD 0,
    banked := (old.map (·.banked)).getD false, retireAt := (old.map (·.retireAt)).getD none,
    pn := if scRx key then init - 1 else init, lim := init,
    pnEvent := if scRx key then 0 else max init (c.thresh * (c.pnEnd + 1) / 256) }

/-- B of R360. -/
def rxStep (s : State) (c : Sc) : Nat := 2 ^ (if c.express then fld s 0x0B0000 20 16 else fld s 0x0B0000 28 24)

/-- Receive ceilings are in use (R360). -/
def rxLimited (s : State) : Bool := leaseBinding s || (decide (s.bnd.role = 1) && s.bnd.resync)

/-- A receive ceiling is asked for, never past the end of the PN space plus 1 (R360). -/
def askRx (entry c : Nat) (sc : Sc) (s : State) : State :=
  let c := min c (sc.pnEnd + 1)
  if has s.bnd.rxAsked entry = true ∨ c ≤ get s.bnd.rxCeil entry 0 then s
  else requestCeil 5 entry c (.rxCeil entry c) { s with bnd := { s.bnd with rxAsked := put s.bnd.rxAsked entry c } }

/-- The event bytes of a SAK (Table 19.9). -/
def sakEvent (ca : Nat) (x : MkaCa) (how : Nat) : List Nat := [2 + ca / 128, ca % 128, x.an, how] ++ beBytes 4 x.keyNum

/-- A rewrite may commit in the state its SA has come to (R232). -/
def rewriteOk (x : KeyBus) (s : State) : Bool :=
  !x.rewrite || (match saOf s x.entry with | some o => if x.sa.rx then decide (o.st ≠ 3) else decide (o.st = 0) | none => false)

/-- A transfer reaches the SA store (R24 step 4): the SA is installed, or rewritten in place where its state still allows it (R232), its
record mirrored, its bank assigned or primed anew, its first ceiling asked for. A SAK's installation is recorded, and the first SAK of a CA is
switched to at once, there being no ACTIVE SA that R228 could follow. -/
def commitInstall (x : KeyBus) (s : State) : State :=
  match scOf s x.scKey with
  | none => finishWhere (fun w => decide (w = .keyBus x.entry)) stNotFound [] s
  | some c =>
    if rewriteOk x s = false then finishWhere (fun w => decide (w = .keyBus x.entry)) stState [] s else
    let old := if x.rewrite then saOf s x.entry else none
    let a : Sa := match old with
      | some o => { x.sa with st := o.st, banked := o.banked, gen := (o.gen + 1) % 16, retireAt := o.retireAt }
      | none => x.sa
    let init := a.lim
    let s := setSc x.scKey { c with ans := put c.ans a.an x.entry } (setSa x.entry a s)
    let s : State := { s with bnd := { s.bnd with rxCeil := del s.bnd.rxCeil x.entry, rxAsked := del s.bnd.rxAsked x.entry } }
    let s := bump 0x06002C 1 s
    let s := mirror 2 (.saInstall x.entry a.rx a.an a.port a.sc a.gen a.ivBase init x.rewrite
      (Config.keyWrap (bondWrapKey s) (beBytes 32 (Nat.xor a.key s.sas.mask)))) s
    let s := if a.banked then reprime x.entry s else giveBank x.entry s
    let ca := s.sas.cas.find? fun e => decide ((caScs e.1 e.2).head? = some x.scKey)
    let s := match ca with
      | some (n, m) => record 0x0805 (sakEvent n m 1) s
      | none => s
    if a.rx then
      let s := if rxLimited s then askRx x.entry (init + rxStep s c) c s else s
      finishWhere (fun w => decide (w = .keyBus x.entry)) stOk [elemW 0x060C [w32 x.entry]] s
    else
      let top := min (init + 2 ^ 20) (c.pnEnd + 1)
      let s := requestCeil 4 x.entry top (.txCeil x.entry top) s
      if ca.isSome = true ∧ c.enc = none then beginSwitch x.scKey a.an s else considerAuto x.scKey s

/-! ## MKA's keys (R235 to R237) -/

/-- This device's SCI on a line port: its MAC address and the port's number (log entry 15). -/
def ownSci (s : State) (port : Nat) : Nat := s.boot.mac * 65536 + port + 1

/-- The key server of a CA: the least priority, then the least SCI; none of 0xFF serves (R237). -/
def isServer (s : State) (ca : Nat) (x : MkaCa) : Bool :=
  decide (x.prio ≠ 255) && x.peers.all fun p =>
    decide (p.prio = 255) || decide (x.prio < p.prio) || (decide (x.prio = p.prio) && decide (ownSci s (ca / 128) < p.sci))

/-- MKA runs on a port: Ethernet mode, no standby (R235). -/
def mkaRuns (s : State) (port : Nat) : Bool := !lpTrunk s port && !standby s && !dataHeld s

/-- A SAK of a value is queued on the key bus for one SC of a CA, on an AN, where R232 allows it. The SSCI and salt of an XPN suite are
free values (log entry 3). -/
def queueSak (key an handle value : Nat) (s : State) : State :=
  match scOf s key with
  | none => s
  | some c =>
    let (ws, s) := drawWords 3 s
    let iv := if c.xpn then ws else ivBase c 0 []
    match entryOn c an with
    | some e =>
      (match saOf s e with
       | some a =>
         if (a.rx = false ∧ a.st ≠ 0) ∨ a.st = 3 then s
         else { s with sas := { s.sas with bus := s.sas.bus ++
           [{ entry := e, handle := handle, sa := newSa key an handle (maskedKey s (c.suite % 2 = 1) value) 1 c iv (some a), scKey := key, rewrite := true }] } }
       | none => s)
    | none =>
      match freeEntry s with
      | none => s
      | some e => { s with sas := { s.sas with bus := s.sas.bus ++
          [{ entry := e, handle := handle, sa := newSa key an handle (maskedKey s (c.suite % 2 = 1) value) 1 c iv none, scKey := key, rewrite := false }] } }

/-- The length of a CA's SAK, as its suite has it. -/
def sakBits (x : MkaCa) : Nat := if x.suite % 2 = 1 then 256 else 128

/-- The KEK of a CA, derived from its CAK (R237). -/
def kekOf (s : State) (x : MkaCa) : Nat :=
  Config.mkaKek (match look s.keys.keys x.cak with | some k => k.value | none => 0) (x.ckn.flatMap (·.val))

/-- A SAK of a value is installed for a CA: a key slot that allows the SA key bus, then the receive SAs and the transmit SA on its AN. -/
def installSak (ca : Nat) (x : MkaCa) (value : Nat) (s : State) : State :=
  let alg := if x.suite % 2 = 1 then 2 else 1
  let use := w32 (2 ^ 24 + 2 ^ 25 + 2 ^ 21 + 2 ^ (lifeBit s.keys.life) + 2 ^ 5 + 2 ^ 4)
  match storeValue (w32 (alg * 2 ^ 24 + 128 * alg)) use 0 value s with
  | none => s
  | some (s, h) =>
    let s : State := { s with sas := { s.sas with cas := put s.sas.cas ca x } }
    let s := x.peers.foldl (fun s p => queueSak (scKey (ca / 128) true p.sc) x.an h value s) s
    queueSak (scKey (ca / 128) false x.txSc) x.an h value s

/-- The CA's key number and AN after another SAK: AN 0 first, then the next. -/
def nextSak (s : State) (x : MkaCa) : MkaCa :=
  { x with keyNum := x.keyNum + 1, an := if x.keyNum = 0 then 0 else (x.an + 1) % 4, lastSak := s.now }

/-- The length on the wire of an MKPDU of a CA with a wrapped SAK or none (IEEE 802.1X-2020, log entry 5): addresses, EtherType and EAPOL
header, the basic parameter set, the live peer list, the distributed SAK, the ICV and the FCS. -/
def mkpduLen (x : MkaCa) (sak : Option (Nat × Nat × List Word)) : Nat :=
  70 + bodyLen x.ckn - 4 * x.ckn.length + (if x.peers = [] then 0 else 4 + 16 * x.peers.length) +
    (match sak with | some k => 8 + 4 * k.2.2.length | none => 0)

/-- An MKPDU leaves on the line port of its CA and is counted (R133, R235). -/
def sendMkpdu (ca : Nat) (x : MkaCa) (sak : Option (Nat × Nat × List Word)) (s : State) : State :=
  send (.mkpdu ca sak) (countTx (18 + ca / 128) (mkpduLen x sak) 0x0180C2000003 false s)

/-- The key server draws a new SAK and distributes it wrapped under the KEK (R237, R238). -/
def distributeSak (ca : Nat) (s : State) : State :=
  match look s.sas.cas ca with
  | none => s
  | some x =>
    if x.deleting = true ∨ x.peers = [] ∨ isServer s ca x = false ∨ mkaRuns s (ca / 128) = false ∨ s.eng.failed = true then s
    else
      let x := nextSak s x
      let (v, s) := drawBits (sakBits x) s
      sendMkpdu ca x (some (x.an, x.keyNum, Config.keyWrap (kekOf s x) (beBytes (sakBits x / 8) v)))
        (installSak ca x v (record 0x0805 (sakEvent ca x 0) s))

/-- The CA whose transmit SC is named. -/
def caOfTx (s : State) (key : Nat) : Option Nat := (s.sas.cas.find? fun e => decide ((caScs e.1 e.2).head? = some key)).map (·.1)

/-- Whether an SC lies in the range of a CA. -/
def inCa (s : State) (key : Nat) : Bool := s.sas.cas.any fun e => (caScs e.1 e.2).contains key

/-! ## Packet numbers on transmit (R214 to R217, R581) -/

/-- The threshold of a transmit SA is reached (R217). -/
def threshold (entry : Nat) (a : Sa) (c : Sc) (s : State) : State :=
  let s := notify .pnThreshold ([2 + a.port, a.an] ++ beBytes 2 a.sc ++ beBytes 4 entry ++ beBytes 8 a.pnEvent ++ beBytes 8 c.pnEnd) s
  let s := record 0x0801 (saEvent entry a) s
  match caOfTx s a.scKey with
  | some ca => distributeSak ca s
  | none => s

/-- An advance of the transmit ceiling is asked for at 2^19 before it (R216). -/
def advanceTx (entry : Nat) (c : Sc) (s : State) : State :=
  match saOf s entry with
  | none => s
  | some a =>
    if a.asked = none ∧ a.lim ≤ c.pnEnd ∧ a.lim ≤ a.pn + 2 ^ 19 then
      let top := min (a.lim + 2 ^ 20) (c.pnEnd + 1)
      requestCeil 4 entry top (.txCeil entry top) (setSa entry { a with asked := some top } s)
    else s

/-- A packet number is assigned to a frame of a transmit SC: the entry, its generation and the number; or the frame is dropped
and counted. -/
def assignPn (key : Nat) (s : State) : Option (Nat × Nat × Nat) × State :=
  let s := considerAuto key s
  match scOf s key with
  | none => (none, s)
  | some c =>
    match activeTx s c with
    | none => (none, scCount key 4 1 s)
    | some (e, a) =>
      if c.pnEnd < a.pn then
        let s := bump 0x060020 1 (scCount key 2 1 s)
        (none, if a.exhRec then s else record 0x0802 (saEvent e a) (setSa e { a with exhRec := true } s))
      else if a.lim ≤ a.pn then (none, bump 0x060024 1 (scCount key 3 1 s))
      else
        let s := setSa e { a with pn := a.pn + 1 } s
        let s := if a.pn = a.pnEvent then threshold e a c s else s
        (some (e, a.gen, a.pn), considerAuto key (advanceTx e c s))

/-! ## Receive checks (R218 to R222) -/

/-- The effective lowest acceptable PN (R220). -/
def lowestPn (a : Sa) (c : Sc) : Nat := max a.lim (a.pn + 1 - c.window)

/-- The packet number of a received frame (R219). -/
def recoverPn (a : Sa) (c : Sc) (p : Nat) : Nat :=
  if c.xpn then
    let l := lowestPn a c
    (l / 2 ^ 32 + if p < l % 2 ^ 32 then 1 else 0) * 2 ^ 32 + p
  else p

/-- A frame of the same SA and PN is held in a brick (R221). -/
def pnHeld (s : State) (b entry pn : Nat) : Bool :=
  (brick s b).held.any fun h => decide (h.sa = some entry) && decide (h.pn = pn)

/-- A tag of an SA's frame has verified (R222, R229): the replay state moves, the first frame on an INSTALLED SA makes it
ACTIVE, a receive ceiling is asked for (R360). -/
def rxVerified (entry gen pn : Nat) (s : State) : State :=
  match saOf s entry with
  | none => s
  | some a =>
    if a.gen ≠ gen ∨ a.rx = false then s
    else
      let a' : Sa :=
        if a.pn < pn then
          { a with pn := pn, bitmap := if pn - a.pn < 1024 then (a.bitmap * 2 ^ (pn - a.pn) + 1) % 2 ^ 1024 else 1 }
        else if a.pn - pn < 1024 then { a with bitmap := Nat.lor a.bitmap (2 ^ (a.pn - pn)) }
        else a
      let s := setSa entry a' s
      match scOf s a.scKey with
      | none => s
      | some c =>
        let s := if a.st = 0 then
            let s := match saIn s c 1 with
              | some (o, _) => retire o s
              | none => s
            setSaState entry 1 (some a.an) s
          else s
        let b := rxStep s c
        let lim := get s.bnd.rxCeil entry 0
        if rxLimited s = true ∧ lim ≠ 0 ∧ lim ≤ a'.pn + b / 2 then askRx entry (lim + b) c s else s

end Sys2Proof.Machine
end

