-- ==== Sys2Proof/Machine/Channels.lean ====
section
/-! DEFINITION. The SC and SA commands (8.10), the timers of an SA (8.6, 8.7), and MKA (8.9). -/
namespace Sys2Proof.Machine
open Sys2Proof

/-! ## Elements (Table 8.9) -/

/-- SC_REF names an SC (R239). -/
def goodRef (ws : List Word) : Bool :=
  let p := byteAt ws 0
  (p == 2 || p == 3) && decide (byteAt ws 1 ≤ 1) && decide (bytesNat ws 2 2 ≤ 32767)

def elRef : ElemSpec := el 0x8601 4 true goodRef
def elAn (req : Bool) : ElemSpec := el 0x8607 4 req fun ws => decide ((wordAt ws 0).toNat ≤ 3)

/-- The SC key that an SC_REF names. -/
def refKey (b : Body) : Nat :=
  let ws := wordsOf b 0x8601
  scKey (byteAt ws 0 - 2) (byteAt ws 1 == 1) (bytesNat ws 2 2)

def anOf (b : Body) : Nat := (wordAt (wordsOf b 0x8607) 0).toNat

/-- Another command that names the SC, or an SA of it, has started and not completed (R52, R210). -/
def scBusy (s : State) (key : Nat) : Bool :=
  let mine := fun (e : Nat) => match saOf s e with
    | some a => decide (a.scKey = key)
    | none => s.sas.bus.any fun x => decide (x.entry = e) && decide (x.scKey = key) && x.trunk.isNone
  tableNames s key || s.cmd.flights.any fun f => match f.await with
    | .keyBus e => mine e
    | .zeroised l k => decide (k = some key) || l.any mine
    | .switch k => decide (k = key)
    | _ => false

/-! ## SC_CREATE and SC_DELETE -/

def opScCreate : Op :=
  { code := 0x0600, worlds := [0], life := 5,
    specs := [elRef, el 0x8602 4 true, el 0x8603 8, el 0x0604 4, el 0x0605 4, el 0x0606 4],
    check := fun b =>
      if (wordAt (wordsOf b 0x8602) 0).bit 29 then (if 255 < scIdx (refKey b) then some (elemIndex b 0x8601) else none)
      else if hasElem b 0x8603 then none else some 0 }

/-- The writable fields of CFG (Table 8.3). -/
def cfgMask : Word := 0x3F3FE007

/-- CFG as applied (Table 8.3, R207, R291). -/
def cfgApplied (rx : Bool) (w : Word) : Word :=
  let w := w &&& cfgMask
  let w := clampFld (clampFld (clampFld w 25 24 (.barred 3 0)) 19 18 (.barred 3 0)) 16 15 (.barred 3 1)
  let w := if w.bit 29 then ((w.withBits 28 27 3).withBits 26 26 0).withBits 25 24 0 else w
  if rx = false ∧ w.bit 21 = true then w.withBits 20 20 0 else w

/-- SC_CREATE (R207 to R209). -/
def ansScCreate (b : Body) (s : State) : Ans :=
  let key := refKey b
  let rx := scRx key
  let w := wordAt (wordsOf b 0x8602) 0
  let cfg := cfgApplied rx w
  let sci := if cfg.bit 29 then 0 else bytesNat (wordsOf b 0x8603) 0 8
  let win := (wordAt (wordsOf b 0x0604) 0)
  let window := min win.toNat (2 ^ 30)
  let lnk := wordAt (wordsOf b 0x0605) 0
  let link := (if rx = true ∧ scPort key = 1 then lnk else lnk.withBits 16 16 0) &&& 0x1FFFF
  let tim := match elemOf b 0x0606 with | some e => wordAt e.val 0 | none => 0xC00003E8
  let timing := clampFld (clampFld (tim &&& 0xFF00FFFF) 31 24 (.range 1 255)) 15 0 (.range 1 60000)
  if standby s then .fail stStandby 0
  else if scBusy s key then .hold
  else if inCa s key then .fail stState 0
  else
    let rest := reportElem 0x0604 0 win (w32 window) ++
      (if lnk &&& 0x1FFFF = link then [] else reportElem 0x0605 0 lnk link) ++
      (if tim &&& 0xFF00FFFF = timing then [] else reportElem 0x0606 0 tim timing)
    let fill := fun (c : Sc) =>
      { c with sci := sci, cfg := cfg, window := window, link := link, thresh := timing.bits 31 24, retire := timing.bits 15 0 }
    let put := fun (c : Sc) =>
      let out := (if w &&& cfgMask = cfg then [] else reportElem 0x8602 0 w (cfgWord key c)) ++ rest
      Ans.done out (considerAuto key (mirrorSc key true (setSc key c s)))
    match scOf s key with
    | none => put (fill { sci := 0, cfg := 0 })
    | some c => if c.cfg.bits 29 27 = cfg.bits 29 27 then put (fill c) else .fail stState 0

def execScCreate (h : Hdr) (b : Body) (s : State) : Out := run (.scCreate h b) opScCreate h b (ansScCreate b) s

def opScDelete : Op := { code := 0x0601, worlds := [0], life := 5, specs := [elRef], far := fun _ => true }

/-- SC_DELETE (R210): it waits for the erasures of the SC's SAs. -/
def ansScDelete (b : Body) (s : State) : Ans :=
  let key := refKey b
  if standby s then .fail stStandby 0
  else if scBusy s key then .hold
  else match scOf s key with
    | none => .fail stNotFound 0
    | some c =>
      if ptpTxSc s key = true ∨ ptpRxSc s key = true ∨ inCa s key = true then .fail stState 0
      else if c.deleting then .hold
      else
        let s := beginDelete key s
        if c.ans = [] then .done [] s else .wait (.zeroised (c.ans.map (·.2)) (some key)) s

def execScDelete (h : Hdr) (b : Body) (s : State) : Out := run (.scDelete h b) opScDelete h b (ansScDelete b) s

/-! ## SA_INSTALL -/

def opSaInstall : Op :=
  { code := 0x0602, worlds := [0], life := 5, vault := true,
    specs := [elRef, elAn true, el 0x8608 4 true, el 0x8609 8 false fun ws => decide (bytesNat ws 0 8 ≠ 0), el 0x860A 4,
      el 0x860B 12] }

/-- SA_INSTALL (R24 to R27, R211, R232, R233): the checks, the job slot, the transfer queued. -/
def ansSaInstall (h : Hdr) (b : Body) (s : State) : Ans :=
  let key := refKey b
  let rx := scRx key
  let an := anOf b
  let handle := (wordAt (wordsOf b 0x8608) 0).toNat
  let init := if hasElem b 0x8609 then bytesNat (wordsOf b 0x8609) 0 8 else 1
  if standby s then .fail stStandby 0
  else if scBusy s key then .hold
  else match scOf s key with
    | none => .fail stNotFound 0
    | some c =>
      if c.deleting then .hold
      else if c.pnEnd < init then .fail stBadElement (elemIndex b 0x8609)
      else if c.xpn = true ∧ (hasElem b 0x860A = false ∨ hasElem b 0x860B = false) then .fail stBadElement 0
      else if inCa s key then .fail stState 0
      else
        let old := entryOn c an
        let bad := match old.bind (saOf s) with
          | some a => if rx then decide (a.st = 3) else decide (a.st ≠ 0)
          | none => false
        if bad then .fail stState 0
        else match keyFor s h.world handle [if rx then uDecrypt else uEncrypt] mBus with
          | .bad st => .fail st 0
          | .later => .defer
          | .held => .hold
          | .ok k =>
            if k.alg ≠ c.suite % 2 + 1 ∨ (rx = false ∧ k.use.bit 4 = true) then .fail stKeyAttr 0
            else match (match old with | some e => some e | none => freeEntry s) with
              | none => .fail stNoSpace 0
              | some e =>
                match takeSlot 0 s with
                | none => .fail stBusy 0
                | some s =>
                  let iv := ivBase c (wordAt (wordsOf b 0x860A) 0) (wordsOf b 0x860B)
                  let s := if rx then s else setKey handle { k with use := k.use.withBits 4 4 1 } s
                  let x : KeyBus :=
                    { entry := e, handle := handle, sa := newSa key an handle (maskedKey s (c.suite % 2 = 1) k.value) init c iv (old.bind (saOf s)), scKey := key,
                      rewrite := old.isSome }
                  .wait (.keyBus e) (touchKey handle { s with sas := { s.sas with bus := s.sas.bus ++ [x] } })

def execSaInstall (h : Hdr) (b : Body) (s : State) : Out := run (.saInstall h b) opSaInstall h b (ansSaInstall h b) s

/-! ## SA_SWITCH_TX, SA_ERASE, SA_READ -/

def opSaSwitchTx : Op := { code := 0x0603, worlds := [0], life := 5, specs := [elRef, elAn true] }

/-- SA_SWITCH_TX (R226, R227, R257): it waits where the new SA's bank is not primed. -/
def ansSaSwitchTx (b : Body) (s : State) : Ans :=
  let key := refKey b
  let an := anOf b
  if standby s then .fail stStandby 0
  else if scBusy s key then .hold
  else match scOf s key with
    | none => .fail stNotFound 0
    | some c =>
      if c.deleting then .hold
      else if inCa s key = true ∨ scRx key = true then .fail stState 0
      else match entryOn c an with
        | none => .fail stState 0
        | some e =>
          match saOf s e with
          | none => .fail stState 0
          | some a =>
            if a.st = 1 then .done [] s
            else if a.st ≠ 0 then .fail stState 0
            else
              let t := beginSwitch key an s
              if (match saOf t e with | some x => x.st == 1 | none => false) then
                let last := match activeTx s c with | some (_, o) => o.pn - 1 | none => 0
                .done [elemW 0x060D [w32 (last / 2 ^ 32), w32 last, w32 (a.pn / 2 ^ 32), w32 a.pn]] t
              else .wait (.switch key) t

def execSaSwitchTx (h : Hdr) (b : Body) (s : State) : Out := run (.saSwitchTx h b) opSaSwitchTx h b (ansSaSwitchTx b) s

def opSaErase : Op := { code := 0x0604, worlds := [0], life := 5, specs := [elRef, elAn true] }

/-- SA_ERASE (R231): one already erasing completes when the first erasure does. -/
def ansSaErase (b : Body) (s : State) : Ans :=
  let key := refKey b
  if standby s then .fail stStandby 0
  else match scOf s key with
    | none => if scBusy s key then .hold else .fail stNotFound 0
    | some c =>
      match (entryOn c (anOf b)).bind fun e => (saOf s e).map fun a => (e, a) with
      | none => if scBusy s key = true ∨ c.deleting = true then .hold else .fail stNotFound 0
      | some (e, a) =>
        if c.deleting then .hold
        else if a.st = 3 ∧ inCa s key = false then .wait (.zeroised [e] none) s
        else if scBusy s key then .hold
        else if inCa s key = true ∨ (a.rx = false ∧ a.st = 1) then .fail stState 0
        else .wait (.zeroised [e] none) (beginErase e s)

def execSaErase (h : Hdr) (b : Body) (s : State) : Out := run (.saErase h b) opSaErase h b (ansSaErase b) s

def opSaRead : Op := { code := 0x0605, worlds := [0, 1, 2], life := 5, specs := [elRef, elAn false] }

/-- The two words of a 64-bit number. -/
def words64 (n : Nat) : List Word := [w32 (n / 2 ^ 32), w32 n]

/-- SA_STATE (Table 8.9). -/
def saState (e : Nat) (a : Sa) : Elem :=
  elemW 0x060F (w32 e :: a.ctrl :: (a.ivBase ++ words64 a.pn ++ words64 a.lim ++ words64 (if a.rx then 0 else a.pnEvent) ++ [w32 a.handle]))

/-- The replay bitmap's bytes: bit i stands for HIGH_PN − i (Table 8.4). -/
def bitmapBytes (n : Nat) : List Nat := (List.range 128).map fun i => n / 256 ^ i % 256

/-- Counters in the order of Table 8.8. -/
def counterElem (n base : Nat) (m : KMap Nat) : Elem := elemW 0x0611 ((List.range n).flatMap fun i => words64 (get m (base + i) 0))

/-- SC_STATE (Table 8.2). -/
def scState (key : Nat) (c : Sc) : Elem :=
  elemW 0x060E (words64 c.sci ++ [cfgWord key c, w32 c.window, c.link, w32 (c.thresh * 2 ^ 24 + c.retire)] ++
    ((List.range 4).map fun an => match entryOn c an with | some e => w32 (2 ^ 31 + e) | none => 0) ++ List.replicate 6 0)

/-- SA_READ (R213, R234). -/
def ansSaRead (b : Body) (s : State) : Ans :=
  let key := refKey b
  let rx := scRx key
  if scBusy s key then .hold
  else match scOf s key with
    | none => .fail stNotFound 0
    | some c =>
      if hasElem b 0x8607 then
        match (entryOn c (anOf b)).bind fun e => (saOf s e).map fun a => (e, a) with
        | none => .fail stNotFound 0
        | some (e, a) =>
          .done ([saState e a, counterElem (if rx then 3 else 2) 0 a.counters] ++ (if rx then [elemB 0x0610 (bitmapBytes a.bitmap)] else [])) s
      else
        .done [scState key c, counterElem (if rx then 9 else 5) 0 c.counters, counterElem 6 (16 * scPort key) s.sas.secy] s

def execSaRead (h : Hdr) (b : Body) (s : State) : Out := run (.saRead h b) opSaRead h b (ansSaRead b) s

/-! ## Time-driven steps of an SA -/

/-- A switch that waits for priming commits once its bank is primed (R226, R257). -/
def switchDue (key : Nat) (s : State) : State :=
  match (scOf s key).bind fun c => c.pending with
  | some an => beginSwitch key an s
  | none => s

def execSwitchCommit (t sc : Nat) (s : State) : Out := ev t (switchDue sc) s

/-- A retire timer expires: the SA is erased and recorded (R229). -/
def retireExpire (entry : Nat) (s : State) : State :=
  match saOf s entry with
  | none => s
  | some a =>
    match a.retireAt with
    | some d => if a.st = 2 ∧ d ≤ s.now then beginErase entry (record 0x0803 (saEvent entry a) s) else s
    | none => s

def execRetireTimerExpiry (t entry : Nat) (s : State) : Out := ev t (retireExpire entry) s

/-- Zeroisation completes (R231). -/
def execSaZeroise (t entry : Nat) (s : State) : Out := ev t (zeroise entry) s

/-- A bank's first blocks are ready (R254). -/
def primed (b k : Nat) (s : State) : State :=
  setBrick b { brick s b with banks := upd (brick s b).banks k fun x => { x with ready := true } } s

def execPrimingDone (t brick bank : Nat) (s : State) : Out := ev t (primed brick bank) s

/-! ## MKA (8.9) -/

/-- The CA that MKA_CA names: line port · 128 + index. -/
def caRef (b : Body) : Nat := let ws := wordsOf b 0x8620; (byteAt ws 0 - 2) * 128 + byteAt ws 1

def mkaAction (b : Body) : Nat := byteAt (wordsOf b 0x8620) 2

def opMkaConfig : Op :=
  { code := 0x0606, worlds := [0], life := 5,
    specs := [
      el 0x8620 4 true (fun ws => (byteAt ws 0 == 2 || byteAt ws 0 == 3) && decide (byteAt ws 1 < 128) && decide (byteAt ws 2 ≤ 1)),
      elv 0x8621 1 32, el 0x8622 4, el 0x0623 8, el 0x8624 4 false (fun ws => decide (bytesNat ws 0 2 ≤ 32767) && decide (bytesNat ws 2 2 ≤ 32752))],
    check := fun b =>
      if mkaAction b = 1 ∧ (hasElem b 0x8621 = false ∨ hasElem b 0x8622 = false ∨ hasElem b 0x8624 = false) then some 0 else none }

/-- A CA changes and is mirrored (Table 12.7). -/
def setCa (ca : Nat) (x : MkaCa) (s : State) : State :=
  mirror 9 (.mka ca true x.txSc x.rxSc x.cak x.ckn x.server [x.prio, x.suite, x.offset, x.hello, x.rekey, x.keyNum, x.an])
    { s with sas := { s.sas with cas := put s.sas.cas ca x } }

/-- The CFG word of an SC that MKA creates: its CA's suite and offset, AUTO_SWITCH forced to 1, the other fields at their reset
value (R236, R237). -/
def mkaCfg (x : MkaCa) : Word := w32 (x.suite % 4 * 2 ^ 27 + x.offset % 4 * 2 ^ 24 + 2 ^ 13)

/-- MKA creates an SC of a CA (R236). -/
def mkaSc (ca : Nat) (x : MkaCa) (rx : Bool) (idx sci : Nat) (s : State) : State :=
  let key := scKey (ca / 128) rx idx
  if has s.sas.scs key then s
  else mirrorSc key true (setSc key { sci := sci, cfg := mkaCfg x, link := if rx then w32 (2 ^ 15 + x.txSc) else 0 } s)

/-- MKA_PARAMS as applied (Table 8.9, R238). -/
def mkaParams (ws : List Word) : List Word :=
  let w := wordAt ws 0
  let suite := if w.bits 23 16 ≤ 3 then w.bits 23 16 else 0
  let off := if w.bits 15 8 ≤ 2 then w.bits 15 8 else 0
  let w0 := ((w.withBits 23 16 suite).withBits 15 8 off).withBits 7 0 0
  let w1 := wordAt ws 1
  let hello := nearestStep 500 2000 100 (w1.bits 31 16)
  let rekey := let r := w1.bits 15 0; if r = 0 then 0 else if r < 60 then 60 else r
  [w0, (w1.withBits 31 16 hello).withBits 15 0 rekey]

/-- MKA_CONFIG (R235, R236, R240). -/
def ansMkaConfig (h : Hdr) (b : Body) (s : State) : Ans :=
  let ca := caRef b
  let port := ca / 128
  let cak := (wordAt (wordsOf b 0x8622) 0).toNat
  let rng := wordsOf b 0x8624
  let old := look s.sas.cas ca
  if standby s then .fail stStandby 0
  else if s.cmd.flights.any (fun f => decide (f.await = .caDeleted ca)) then .hold
  else if mkaAction b = 0 then
    match old with
    | none => .fail stNotFound 0
    | some x =>
      let scs := (caScs ca x).filter fun k => has s.sas.scs k
      let s : State := { s with sas := { s.sas with cas := put s.sas.cas ca { x with deleting := true } } }
      let s := scs.foldl (fun s k => beginDelete k s) s
      let s := mirror 9 (.mka ca false x.txSc x.rxSc x.cak [] false []) s
      if (caScs ca x).all (fun k => !has s.sas.scs k) then .done [] { s with sas := { s.sas with cas := del s.sas.cas ca } }
      else .wait (.caDeleted ca) s
  else
    let x : MkaCa := old.getD { ckn := [], cak := cak, txSc := bytesNat rng 0 2, rxSc := bytesNat rng 2 2 }
    let x := { x with ckn := (elemOf b 0x8621).toList, cak := cak }
    let req := wordsOf b 0x0623
    let app := mkaParams req
    let x := if hasElem b 0x0623 then
        { x with prio := byteAt app 0, suite := byteAt app 1, offset := byteAt app 2, hello := bytesNat app 4 2, rekey := bytesNat app 6 2 }
      else x
    let out := if hasElem b 0x0623 then
        reportElem 0x0623 0 (wordAt req 0 &&& 0xFFFFFF00) (wordAt app 0) ++ reportElem 0x0623 1 (wordAt req 1) (wordAt app 1)
      else []
    let moved := decide (x.txSc ≠ bytesNat rng 0 2) || decide (x.rxSc ≠ bytesNat rng 2 2)
    let taken := (caScs ca x).any fun k =>
      (old.isNone && has s.sas.scs k) || s.sas.cas.any fun e => decide (e.1 ≠ ca) && (caScs e.1 e.2).contains k
    if moved = true ∨ taken = true then .fail stState 0
    else match keyFor s h.world cak [uDerive] mCore with
      | .bad st => .fail st 0
      | .later => .defer
      | .held => .hold
      | .ok k =>
        if k.alg ≠ 1 ∧ k.alg ≠ 2 then .fail stKeyAttr 0
        else .done out (mkaSc ca x false x.txSc (ownSci s port) (setCa ca { x with peers := [], lastHello := s.now, lastSak := s.now } s))

def execMkaConfig (h : Hdr) (b : Body) (s : State) : Out := run (.mkaConfig h b) opMkaConfig h b (ansMkaConfig h b) s

/-- The place in a CA's receive range that a joining peer takes: that of the SC that carries its SCI already (a CA taken over in
a bond, R364), else the lowest that no peer and no SC holds (R236). -/
def peerPlace (s : State) (ca : Nat) (x : MkaCa) (sci : Nat) : Nat :=
  let at_ := fun (i : Nat) => scOf s (scKey (ca / 128) true (x.rxSc + i))
  match (List.range 16).find? (fun i => match at_ i with | some c => decide (c.sci = sci) | none => false) with
  | some i => i
  | none =>
    let used := (List.range 16).filter fun i => (at_ i).isSome || x.peers.any fun p => decide (p.sc = x.rxSc + i)
    lowestFree used used.length 0

/-- A peer joins a CA: it takes a receive SC of the range (R236); the key server distributes a SAK. -/
def joinPeer (ca : Nat) (x : MkaCa) (m : Mkpdu) (s : State) : State :=
  let i := peerPlace s ca x m.sci
  let p : MkaPeer := { sci := m.sci, sc := x.rxSc + i, last := s.now, prio := m.prio }
  let x := { x with peers := x.peers ++ [p] }
  let x := { x with server := isServer s ca x }
  distributeSak ca (mkaSc ca x true p.sc m.sci (setCa ca x s))

/-- The floor of each receive SA of an SC is raised (R223, R237). -/
def raiseFloors (key lowPn : Nat) (s : State) : State :=
  match scOf s key with
  | none => s
  | some c => c.ans.foldl (fun s e => { s with sas := { s.sas with sas := upd s.sas.sas e.2 fun a => { a with lim := max a.lim lowPn } } }) s

/-- Whether a peer is the key server a member follows. -/
def serverPeer (s : State) (ca : Nat) (x : MkaCa) (p : MkaPeer) : Bool :=
  decide (p.prio ≠ 255) && !isServer s ca x && x.peers.all fun q =>
    decide (q.prio = 255) || decide (p.prio < q.prio) || (decide (p.prio = q.prio) && decide (p.sci ≤ q.sci))

/-- An MKPDU arrives (R235 to R238). -/
def mkpduRx (ca : Nat) (m : Mkpdu) (s : State) : State :=
  match look s.sas.cas ca with
  | none => s
  | some x =>
    if x.deleting = true ∨ mkaRuns s (ca / 128) = false ∨ m.icvOk = false then s
    else match x.peers.find? fun p => decide (p.sci = m.sci) with
      | none => if m.live = true ∧ x.peers.length < 16 then joinPeer ca x m s else s
      | some p =>
        let q := { p with last := s.now, prio := m.prio }
        let x := { x with peers := x.peers.map fun (r : MkaPeer) => if r.sci = m.sci then q else r }
        let x := { x with server := isServer s ca x }
        let s : State := { s with sas := { s.sas with cas := put s.sas.cas ca x } }
        let s := raiseFloors (scKey (ca / 128) true q.sc) m.lowPn s
        let s := if m.thresh then distributeSak ca s else s
        match m.sak with
        | some (an, kn, wrapped) =>
          if serverPeer s ca x q = true ∧ kn ≠ x.keyNum then installSak ca { x with an := an % 4, keyNum := kn, lastSak := s.now } (Config.keyUnwrap (kekOf s x) wrapped % 2 ^ sakBits x) s
          else s
        | none => s

def execMkpduRx (t ca : Nat) (info : Mkpdu) (s : State) : Out := ev t (mkpduRx ca info) s

/-- The hello time of a CA has passed (R238): an MKPDU is sent. -/
def mkaHello (ca : Nat) (s : State) : State :=
  match look s.sas.cas ca with
  | none => s
  | some x =>
    if x.lastHello + x.hello * ms ≤ s.now ∧ mkaRuns s (ca / 128) = true ∧ x.deleting = false then
      sendMkpdu ca x none { s with sas := { s.sas with cas := put s.sas.cas ca { x with lastHello := s.now } } }
    else s

def execMkaHello (t ca : Nat) (s : State) : Out := ev t (mkaHello ca) s

/-- A peer not heard for one life time is removed, its receive SC deleted, and recorded (R237, R238). -/
def mkaPeerLost (ca sci : Nat) (s : State) : State :=
  match look s.sas.cas ca with
  | none => s
  | some x =>
    match x.peers.find? fun p => decide (p.sci = sci) with
    | none => s
    | some p =>
      if p.last + 3 * x.hello * ms ≤ s.now ∧ mkaRuns s (ca / 128) = true ∧ x.deleting = false then
        let x := { x with peers := x.peers.filter fun q => decide (q.sci ≠ sci) }
        let x := { x with server := isServer s ca x }
        let s := record 0x0804 ([2 + ca / 128, ca % 128] ++ beBytes 2 p.sc) (setCa ca x s)
        distributeSak ca (beginDelete (scKey (ca / 128) true p.sc) s)
      else s

def execMkaPeerLost (t ca sci : Nat) (s : State) : Out := ev t (mkaPeerLost ca sci) s

/-- REKEY_INTERVAL has elapsed at the key server (R237). -/
def mkaRekey (ca : Nat) (s : State) : State :=
  match look s.sas.cas ca with
  | none => s
  | some x => if x.rekey ≠ 0 ∧ x.lastSak + x.rekey * sec ≤ s.now then distributeSak ca s else s

def execMkaRekeyInterval (t ca : Nat) (s : State) : Out := ev t (mkaRekey ca) s

end Sys2Proof.Machine
end

