-- ==== Sys2Proof/Machine/Classify.lean ====
section
/-! DEFINITION. Classification tables and learning (07): the flow table and its relocation, the ager, rehash, the LPM trie, the
table commands, and the resolution of a frame. -/
namespace Sys2Proof.Machine
open Sys2Proof

/-! ## Flow hashes and ways (R181, R182) -/

/-- CRC-32C, one bit and one byte. -/
def crcBit (c : Nat) : Nat := if c % 2 = 1 then Nat.xor (c / 2) 0x82F63B78 else c / 2
def crcByte (c b : Nat) : Nat := crcBit (crcBit (crcBit (crcBit (crcBit (crcBit (crcBit (crcBit (Nat.xor c (b % 256)))))))))

/-- CRC-32C over bytes. -/
def crc32c (bs : List Nat) : Nat := Nat.xor (bs.foldl crcByte 0xFFFFFFFF) 0xFFFFFFFF

/-- The hash of a key under a seed. -/
def flowHash (seed key : Nat) : Nat := crc32c (beBytes 4 seed ++ beBytes 8 key)

/-- The bucket of a key in sub-table 0 or 1, buckets of T1 numbered from 8,192. -/
def bucket (x : BrickTables) (t key : Nat) : Nat := t * 8192 + flowHash (if t = 0 then x.seed0 else x.seed1) key % 8192

/-- The four ways of a bucket. -/
def ways (b : Nat) : List Nat := [4 * b, 4 * b + 1, 4 * b + 2, 4 * b + 3]

/-- The ways a key can stand in, h0 before h1. -/
def keyWays (x : BrickTables) (key : Nat) : List Nat := ways (bucket x 0 key) ++ ways (bucket x 1 key)

/-- The way where a key stands. -/
def findFlow (x : BrickTables) (key : Nat) : Option (Nat × FlowEntry) :=
  (keyWays x key).findSome? fun w => match look x.flow w with
    | some e => if e.tomb = false ∧ e.key = key then some (w, e) else none
    | none => none

/-- The first free way of a list. -/
def freeWay (x : BrickTables) (l : List Nat) : Option Nat := l.find? fun w => !has x.flow w

/-! ## Insertion and relocation (R184 to R186) -/

/-- The other bucket of the key that stands in a way. -/
def otherBucket (x : BrickTables) (w key : Nat) : Nat := bucket x (if w / 32768 = 0 then 1 else 0) key

/-- The breadth-first search for a chain: paths are ways from the newest back to the first, `seen` the buckets read. The answer is
the path and the free way at its end. -/
def chainSearch (x : BrickTables) (depth : Nat) : Nat → List (List Nat) → List Nat → Option (List Nat × Nat)
  | 0, _, _ => none
  | _, [], _ => none
  | f + 1, path :: rest, seen =>
    match path.head?.bind fun w => (look x.flow w).map fun e => (w, e) with
    | none => chainSearch x depth f rest seen
    | some (w, e) =>
      let b := otherBucket x w e.key
      if e.tomb = true ∨ seen.contains b = true then chainSearch x depth f rest seen
      else if 128 ≤ seen.length then none
      else match freeWay x (ways b) with
        | some v => some (path, v)
        | none =>
          let more := if path.length < depth then (ways b).map fun v => v :: path else []
          chainSearch x depth f (rest ++ more) (b :: seen)

/-- The moves of a chain, last first, as (from, to), and the way that the first move frees. -/
def chainMoves : List Nat → Nat → List (Nat × Nat)
  | [], _ => []
  | w :: r, v => (w, v) :: chainMoves r w

/-- Where a new key goes: a free way, after the moves of a chain. -/
def placeFor (x : BrickTables) (depth key : Nat) : Option (List (Nat × Nat) × Nat) :=
  match freeWay x (keyWays x key) with
  | some w => some ([], w)
  | none =>
    let b0 := bucket x 0 key
    let b1 := bucket x 1 key
    match chainSearch x depth 1024 ((keyWays x key).map fun w => [w]) [b1, b0] with
    | some (path, v) => some (chainMoves path v, path.getLastD 0)
    | none => none

/-- CUCKOO_DEPTH. -/
def cuckooDepth (s : State) (b : Nat) : Nat := fld s (0x050000 + 0x100 * b) 11 8

/-! ## The two banks (R190) -/

/-- Every move of a chain at once. -/
def runMoves : List (Nat × Nat) → KMap FlowEntry → KMap FlowEntry
  | [], m => m
  | (a, b) :: r, m => runMoves r (match look m a with | some e => del (put m b e) a | none => m)

/-- The shadow bank as a table of its own. -/
def shadowBank (r : Rehash) : BrickTables := { flow := r.shadow, seed0 := r.seed0, seed1 := r.seed1 }

/-- An entry put into the shadow bank: in place where its key stands there, else inserted. No lookup reads the shadow bank, so the moves
of a chain leave no tombstone in it. -/
def shadowPut (depth : Nat) (e : FlowEntry) (r : Rehash) : Rehash :=
  match findFlow (shadowBank r) e.key with
  | some (w, _) => { r with shadow := put r.shadow w e }
  | none => match placeFor (shadowBank r) depth e.key with
    | some (ms, w) => { r with shadow := put (runMoves ms r.shadow) w e }
    | none => { r with bad := true }

/-- A change to a way of the active bank is made to the shadow bank too, where the copy has passed the way or holds its key (R190
step 3). -/
def shadowSet (depth w : Nat) (e : FlowEntry) (r : Rehash) : Rehash :=
  if w < r.pos ∨ (findFlow (shadowBank r) e.key).isSome = true then shadowPut depth e r else r

/-- A key leaves the shadow bank. -/
def shadowDrop (key : Nat) (r : Rehash) : Rehash :=
  match findFlow (shadowBank r) key with
  | some (w, _) => { r with shadow := del r.shadow w }
  | none => r

/-- The write engine writes an entry into a way of the active bank. -/
def flowPut (depth w : Nat) (e : FlowEntry) (x : BrickTables) : BrickTables :=
  { x with flow := put x.flow w e, rehash := x.rehash.map (shadowSet depth w e) }

/-- The write engine removes the entry of a way. -/
def flowDel (w : Nat) (x : BrickTables) : BrickTables :=
  match look x.flow w with
  | some e => { x with flow := del x.flow w, rehash := x.rehash.map (shadowDrop e.key) }
  | none => x

/-- The copy reaches a way: the valid entries up to it are copied in their present form (R190 steps 2, 3). -/
def copyTo (depth p : Nat) (x : BrickTables) (r : Rehash) : Rehash :=
  { (x.flow.filter fun e => decide (r.pos ≤ e.1) && decide (e.1 < p) && !e.2.tomb).foldl (fun r e => shadowPut depth e.2 r) r with pos := p }

/-- The way that a rehash copy has reached at an instant. The spec gives the whole copy at most 5 ms; the model paces it evenly over them
(log entry 34). -/
def copyPos (r : Rehash) (now : Nat) : Nat := min 65536 (65536 * (now - r.start) / (5 * ms))

/-- The tables of a brick as they stand now: a tombstone whose instant has come is set (R185), and a rehash has copied what it has reached. -/
def tabs (s : State) (b : Nat) : BrickTables :=
  let x := tables s b
  let x := match x.chain.bind (·.held) with
    | some (w, t) => if t ≤ s.now then
        { x with flow := upd x.flow w fun o => { o with tomb := true, alt := otherBucket x w o.key % 8192 } } else x
    | none => x
  match x.rehash with
  | some r => if r.pos < copyPos r s.now then { x with rehash := some (copyTo (cuckooDepth s b) (copyPos r s.now) x r) } else x
  | none => x

/-- One move of a chain: the key is written into its new way; its tombstone is set 1 bc later and held 8 bc (R185). -/
def moveEntry (s : State) (b : Nat) (x : BrickTables) (m : Nat × Nat) (rest : List (Nat × Nat)) (c : Chain) : BrickTables :=
  let x := match look x.flow m.1 with
    | some o => flowPut (cuckooDepth s b) m.2 o x
    | none => x
  { x with chain := some { c with moves := rest, held := some (m.1, s.now + bc s b) } }

/-- A new key is inserted for a job: at once, or as the first move of a chain; none where no chain is found (R184). -/
def insertNew (s : State) (b : Nat) (x : BrickTables) (e : FlowEntry) (origin : Option Nat) : Option BrickTables :=
  match placeFor x (cuckooDepth s b) e.key with
  | none => none
  | some ([], w) => some (flowPut (cuckooDepth s b) w e x)
  | some (m :: r, w) => some (moveEntry s b x m r { moves := [], held := none, entry := e, way := w, origin := origin })

/-- An insertion has failed for lack of room (R189). -/
def insertFailed (b : Nat) (s : State) : State :=
  let a := 0x050000 + 0x100 * b
  let s := bump (a + 0x14) 1 s
  if flag s (a + 4) 24 then s
  else notify .rehash ([b, 1, 0, 0] ++ beBytes 4 (validFlow (tables s b))) (raise (a + 4) 24 s)

/-- A VLAN entry replaced, kept only where it is not the reset value. -/
def setVlan (b i : Nat) (w : Word) (s : State) : State :=
  let x := tables s b
  setTables b { x with vlan := if w = 0 then del x.vlan i else put x.vlan i w } s

/-! ## Learning (R195 to R198) -/

/-- AGE_TIME / 16. -/
def agePeriod (s : State) (b : Nat) : Nat := fld s (0x050000 + 0x100 * b) 31 20 * sec / 16

/-- LEARN_DROP counts. -/
def learnDrop (b : Nat) (s : State) : State := bump (0x050018 + 0x100 * b) 1 s

/-- A message that did not come from the mirror is mirrored (R364). -/
def learnSent (m : LearnMsg) (s : State) : State := if m.mirrored then s else mirror 7 (.learn m.remove m.brick m.sc m.key) s

/-- The write engine applies a learn or remove message (R197, R198). -/
def applyLearn (m : LearnMsg) (s : State) : State :=
  let b := m.brick
  let x := tabs s b
  let gone := (scOf s (scKey b false m.sc)).all fun c => c.deleting
  match findFlow x m.key with
  | some (w, e) =>
    if m.remove then (if e.static then s else learnSent m (setTables b (flowDel w x) s))
    else if gone = true ∨ e.static = true then learnDrop b s
    else learnSent m (setTables b (flowPut (cuckooDepth s b) w { e with sc := m.sc, clsOvr := false, hit := true, age := 0 } x) s)
  | none =>
    if m.remove then s
    else if gone then learnDrop b s
    else match insertNew s b x { key := m.key, sc := m.sc, static := false, hit := true } none with
      | some x => learnSent m (setTables b x s)
      | none => insertFailed b s

/-- The ager's removal of a key commits (R188): a learned entry, not hit meanwhile. -/
def agedOut (b key : Nat) (s : State) : State :=
  let x := tabs s b
  match findFlow x key with
  | some (w, e) =>
    if e.static = true ∨ e.hit = true ∨ e.age < 15 then s
    else
      let s := bump (0x05001C + 0x100 * b) 1 (setTables b (flowDel w x) s)
      if b < 2 then mirror 7 (.learn true b e.sc e.key) s else s
  | none => s

/-! ## The write engine (R183) -/

/-- A host's insertion under a job: the state and the status it ends with, none where a chain has begun. -/
def hostInsert (b job : Nat) (e : FlowEntry) (s : State) : State × Option Nat :=
  let x := tabs s b
  match findFlow x e.key with
  | some (w, _) => (setTables b (flowPut (cuckooDepth s b) w e x) s, some stOk)
  | none =>
    match insertNew s b x e (some job) with
    | some y => (setTables b y s, if y.chain.isSome then none else some stOk)
    | none => (insertFailed b s, some stNoSpace)

/-- A host's removal: the state and its status. -/
def hostRemove (b key : Nat) (s : State) : State × Nat :=
  let x := tabs s b
  match findFlow x key with
  | some (w, _) => (setTables b (flowDel w x) s, stOk)
  | none => (s, stNotFound)

/-- The command of a job completes. -/
def jobDone (b job status : Nat) (s : State) : State := finishWhere (fun w => decide (w = .table b job)) status [] s

/-- The write engine does one change. -/
def doWork (b : Nat) (w : TabWork) (s : State) : State :=
  match w with
  | .learn m => applyLearn m s
  | .insert n e =>
    match hostInsert b n e s with
    | (s, some st) => jobDone b n st s
    | (s, none) => s
  | .remove n k => let r := hostRemove b k s; jobDone b n r.2 r.1
  | .vlan n i v => jobDone b n stOk (setVlan b i v s)
  | .aged k => agedOut b k s

/-- The write engine is free: no relocation chain is under way. -/
def engineFree (s : State) (b : Nat) : Bool := (tables s b).chain.isNone

/-- A learn message of the device's own waits for its LEARN_APPLY; every other change is done as soon as the engine is free. -/
def selfServed (w : TabWork) : Bool := match w with | .learn m => m.mirrored | _ => true

/-- The write engine goes through the changes that wait, in arrival order, `n` of them at most. -/
def serve (b : Nat) : Nat → State → State
  | 0, s => s
  | n + 1, s =>
    match (tables s b).work with
    | [] => s
    | w :: r =>
      if engineFree s b = true ∧ selfServed w = true then serve b n (doWork b w (setTables b { tables s b with work := r } s)) else s

/-- The write engine goes through all that waits. -/
def serveAll (b : Nat) (s : State) : State := serve b (tables s b).work.length s

/-- A change joins those that wait for the write engine. -/
def addWork (b : Nat) (w : TabWork) (s : State) : State :=
  serveAll b (setTables b { tables s b with work := (tables s b).work ++ [w] } s)

/-- A tombstone held 8 bc is freed and the chain goes on; at its end the new key is written, its command completes, and the engine takes up
what waits (R185). -/
def tombstoneFree (b : Nat) (s : State) : State :=
  let x := tabs s b
  match x.chain with
  | none => s
  | some c =>
    match c.held with
    | none => s
    | some (w, t) =>
      if s.now < t + 8 * bc s b then s
      else
        let x := { x with flow := del x.flow w }
        match c.moves with
        | m :: r => setTables b (moveEntry s b x m r c) s
        | [] =>
          let s := setTables b { (if c.void then x else flowPut (cuckooDepth s b) c.way c.entry x) with chain := none } s
          serveAll b (match c.origin with | some n => jobDone b n stOk s | none => s)

def execTombstoneFree (t brick : Nat) (s : State) : Out := ev t (tombstoneFree brick) s

/-- Learn messages of the device's own in a brick's FIFO (R197). -/
def learnFifo (x : BrickTables) : Nat := (x.work.filter fun w => !selfServed w).length

/-- A learn message joins the FIFO of its brick, or is dropped where it is full (R197). -/
def pushLearn (m : LearnMsg) (s : State) : State :=
  let x := tables s m.brick
  if 256 ≤ learnFifo x then learnDrop m.brick s else setTables m.brick { x with work := x.work ++ [.learn m] } s

/-- The write engine starts on the learn message whose turn it is. -/
def learnApply (b : Nat) (s : State) : State :=
  match (tables s b).work with
  | .learn m :: r =>
    if engineFree s b then serveAll b (applyLearn m (setTables b { tables s b with work := r } s)) else s
  | _ => serveAll b s

def execLearnApply (t brick : Nat) (s : State) : Out := ev t (fun s => if brick < 2 ∧ s.pwr.state < 2 then learnApply brick s else s) s

/-- A decrypt brick learns from a frame whose tag has verified, of a receive SC, leaving from a clear sub-port (R195, R196). -/
def learnFrom (b key sp vid src : Nat) (s : State) : State :=
  match scOf s key with
  | none => s
  | some c =>
    match pairOf key c with
    | none => s
    | some pair =>
      let e := spPort sp
      if 2 ≤ e ∨ flag s (0x050000 + 0x100 * e) 0 = false ∨ standby s = true then s
      else if scPort pair ≠ e then learnDrop b s
      else
        let lk := sp % 8 * 2 ^ 60 + vid % 4096 * 2 ^ 48 + src % 2 ^ 48
        let x := tables s b
        let i := flowHash x.seed0 lk % 4096
        let fresh := match look x.filter i with
          | some (k, q, t) => decide (k = lk) && decide (q = scIdx pair) && decide (s.now ≤ t + agePeriod s b)
          | none => false
        if fresh then s
        else pushLearn { remove := false, brick := e, sc := scIdx pair, key := lk }
          (setTables b { x with filter := put x.filter i (lk, scIdx pair, s.now) } s)

/-! ## The ager (R187, R188) -/

/-- The sweep in progress at an instant: a new one begins every period, with the AGE_TIME of its start (R187). -/
def sweepOn (s : State) (b : Nat) : BrickTables :=
  let x := tables s b
  if s.now < x.sweepAt + x.sweepP then x
  else { x with sweepAt := x.sweepAt + (s.now - x.sweepAt) / max 1 x.sweepP * x.sweepP, sweepP := agePeriod s b, visited := 0 }

/-- A way is due for its visit in the sweep in progress: the visits of a sweep go through the ways in order, evenly over the period (log
entry 35). -/
def visitDue (s : State) (x : BrickTables) (way : Nat) : Bool :=
  decide (x.visited ≤ way) && decide (way < 65536) && decide (x.sweepAt + x.sweepP * way / 65536 ≤ s.now)

/-- What a visit does to the entry of a way. -/
def agerAct (b way : Nat) (s : State) : State :=
  let x := tabs s b
  match look x.flow way with
  | none => s
  | some e =>
    if e.static = true ∨ e.tomb = true ∨ flag s (0x050000 + 0x100 * b) 16 = false ∨ standby s = true ∨ 2 ≤ s.pwr.state then s
    else if e.hit then setTables b (flowPut (cuckooDepth s b) way { e with hit := false, age := 0 } x) s
    else if e.age < 15 then setTables b (flowPut (cuckooDepth s b) way { e with age := e.age + 1 } x) s
    else addWork b (.aged e.key) s

/-- The ager visits one way. -/
def agerVisit (b way : Nat) (s : State) : State :=
  let x := sweepOn s b
  if visitDue s x way then agerAct b way (setTables b { x with visited := way + 1 } s) else setTables b x s

def execAgerVisit (t brick way : Nat) (s : State) : Out := ev t (fun s => if brick < 4 then agerVisit brick way s else s) s

/-- At a takeover the ager starts with every learned entry as just hit (R198). -/
def restartAger (s : State) : State :=
  let fresh := fun (m : KMap FlowEntry) => m.map fun f => if f.2.static then f else (f.1, { f.2 with hit := true, age := 0 })
  { s with cls := { s.cls with bricks := s.cls.bricks.map fun e =>
    (e.1, { e.2 with flow := fresh e.2.flow, rehash := e.2.rehash.map fun r => { r with shadow := fresh r.shadow } }) } }

/-! ## Rehash (R190, R191) -/

/-- The copy ends: the banks are swapped, or the shadow bank is discarded. -/
def rehashSwap (b : Nat) (s : State) : State :=
  let x := tabs s b
  match x.rehash with
  | none => s
  | some r =>
    if x.chain.isSome then s
    else
      let y := copyTo (cuckooDepth s b) 65536 x r
      if y.bad then endOp r.op stNoSpace [] (setTables b { x with rehash := none } s)
      else endOp r.op stOk [] (setFld (0x050004 + 0x100 * b) 24 24 0 (setTables b
        { x with flow := y.shadow, seed0 := r.seed0, seed1 := r.seed1, rehash := none, bank := !x.bank } s))

def execRehashSwap (t brick : Nat) (s : State) : Out := ev t (fun s => if brick < 4 then rehashSwap brick s else s) s

/-! ## The table commands (R200, Table 7.9) -/

/-- TABLE's brick and table. -/
def tabBrick (b : Body) : Nat := byteAt (wordsOf b 0x8501) 0
def tabTable (b : Body) : Nat := byteAt (wordsOf b 0x8501) 1

/-- TABLE names a table of a set, the LPM trie of an encrypt brick alone. -/
def elTable (set : List Nat) : ElemSpec :=
  el 0x8501 4 true fun ws => decide (byteAt ws 0 < 4) && set.contains (byteAt ws 1) && decide (bytesNat ws 2 2 = 0) &&
    (decide (byteAt ws 1 ≠ 2) || decide (byteAt ws 0 < 2))

/-- The identifiers of INDEX and KEY in a brick, and the elements that a table's write (or else read) needs. -/
def tabCheck (write : Bool) (b : Body) : Option Nat :=
  let low := decide (tabBrick b < 2)
  let vlan := decide (tabTable b = 0)
  if hasElem b 0x8502 = true ∧ (if low then 32767 else 4095) < (wordAt (wordsOf b 0x8502) 0).toNat then some (elemIndex b 0x8502)
  else if hasElem b 0x8503 = true ∧ low = true ∧ (wordAt (wordsOf b 0x8503) 0).bit 31 = true then some (elemIndex b 0x8503)
  else if hasElem b (if vlan then 0x8502 else 0x8503) = false ∨ (write = true ∧ hasElem b (if vlan then 0x8504 else 0x8505) = false) then some 0
  else none

def tabIndex (b : Body) : Nat := (wordAt (wordsOf b 0x8502) 0).toNat
def tabKey (b : Body) : Nat := bytesNat (wordsOf b 0x8503) 0 8

/-- The write engine can do a host's change at once: it is free and nothing waits for it. -/
def engineIdle (s : State) (b : Nat) : Bool := engineFree s b && (tables s b).work.isEmpty

/-- A host's change joins those that wait, under the next job number; its command waits for it (R183). -/
def queueJob (b : Nat) (w : Nat → TabWork) (rep : Body) (s : State) : Ans :=
  let x := tables s b
  .waits (.table b x.nextJob) rep (setTables b { x with nextJob := x.nextJob + 1, work := x.work ++ [w x.nextJob] } s)

/-- An SC that a table entry names: absent, under deletion (R199, R210), or to be named. -/
def scStanding (s : State) (key : Nat) : Option Bool := (scOf s key).map fun c => c.deleting

def opTableInsert : Op :=
  { code := 0x0500, worlds := [0], life := 5,
    specs := [elTable [0, 1], el 0x8502 4, el 0x8503 8, el 0x8504 4, el 0x8505 4], check := tabCheck true, far := fun _ => true }

/-- The VLAN entry as applied (Table 7.3). -/
def vlanApplied (w : Word) : Word := clampFld (w &&& 0xFF03FFFF) 30 29 (.barred 3 0)

/-- The static flow entry of TABLE_INSERT. -/
def staticEntry (b : Body) : FlowEntry :=
  let w := wordAt (wordsOf b 0x8505) 0
  { key := tabKey b, sc := w.bits 14 0, static := true, clsOvr := w.bit 19, cls := w.bits 18 16 }

/-- The SC that a VLAN entry's word names; SC_ID 0x7FFF names none. -/
def vlanStanding (s : State) (k : Nat) (v : Word) : Option Bool :=
  if v.bits 14 0 = 32767 then some false else scStanding s (brickSc k (v.bits 14 0))

/-- A change that names an SC goes on where the SC stands, and is held while the SC is under deletion (R210). -/
def onSc (standing : Option Bool) (go : Ans) : Ans :=
  match standing with
  | none => .fail stNotFound 0
  | some true => .hold
  | some false => go

/-- A VLAN entry is written at once, or in its turn behind the write engine's work (R183). -/
def putVlan (k i : Nat) (v : Word) (rep : Body) (s : State) : Ans :=
  if engineIdle s k then .done rep (setVlan k i v s) else queueJob k (fun n => .vlan n i v) rep s

/-- TABLE_INSERT of a VLAN entry (R178). -/
def insertVlan (b : Body) (s : State) : Ans :=
  let w := wordAt (wordsOf b 0x8504) 0
  let v := vlanApplied w
  let rep := if v = w &&& 0xFF03FFFF then [] else reportElem 0x8504 0 w v
  onSc (vlanStanding s (tabBrick b) v) (putVlan (tabBrick b) (tabIndex b) v rep s)

/-- A flow entry is placed at once, in its turn behind the write engine's work, or at the end of its chain. -/
def putFlow (k : Nat) (e : FlowEntry) (s : State) : Ans :=
  if engineIdle s k = false then queueJob k (fun n => .insert n e) [] s
  else match hostInsert k (tables s k).nextJob e s with
    | (s', some st) => if st = stOk then .done [] s' else .spent st s'
    | (s', none) => .waits (.table k (tables s k).nextJob) [] (setTables k { tables s' k with nextJob := (tables s k).nextJob + 1 } s')

/-- TABLE_INSERT of a flow entry (R184, R189). -/
def insertFlow (b : Body) (s : State) : Ans :=
  let k := tabBrick b
  let e := staticEntry b
  onSc (scStanding s (brickSc k e.sc)) (putFlow k e s)

/-- TABLE_INSERT (R200). -/
def ansTableInsert (b : Body) (s : State) : Ans := if tabTable b = 0 then insertVlan b s else insertFlow b s

def execTableInsert (h : Hdr) (b : Body) (s : State) : Out := run (.tableInsert h b) opTableInsert h b (ansTableInsert b) s

def opTableDelete : Op :=
  { code := 0x0501, worlds := [0], life := 5, specs := [elTable [0, 1], el 0x8502 4, el 0x8503 8], check := tabCheck false, far := fun _ => true }

/-- TABLE_DELETE (R200). -/
def ansTableDelete (b : Body) (s : State) : Ans :=
  let k := tabBrick b
  if tabTable b = 0 then
    (if engineIdle s k then .done [] (setVlan k (tabIndex b) 0 s) else queueJob k (fun n => .vlan n (tabIndex b) 0) [] s)
  else if engineIdle s k = false then queueJob k (fun n => .remove n (tabKey b)) [] s
  else match hostRemove k (tabKey b) s with
    | (s', st) => if st = stOk then .done [] s' else .fail st 0

def execTableDelete (h : Hdr) (b : Body) (s : State) : Out := run (.tableDelete h b) opTableDelete h b (ansTableDelete b) s

/-- The 16 bytes of a flow entry (Table 7.6). -/
def flowElem (e : FlowEntry) : Elem :=
  elemW 0x0506
    [w32 (2 ^ 31 + 2 ^ 30 * bit e.tomb + 2 ^ 29 * bit e.static + 2 ^ 28 * bit e.hit + 2 ^ 24 * (e.age % 16) + 2 ^ 23 * bit e.clsOvr +
        2 ^ 20 * (e.cls % 8) + 2 ^ 5 * (e.sc % 32768)),
     w32 (e.alt % 8192), w32 (e.key / 2 ^ 32), w32 e.key]

def opTableRead : Op :=
  { code := 0x0502, worlds := [0, 1, 2], life := 5, specs := [elTable [0, 1], el 0x8502 4, el 0x8503 8], check := tabCheck false, far := fun _ => true }

/-- A host's change of an entry that waits or runs holds a later command that names the entry (R52). -/
def entryHeld (x : BrickTables) (vlan : Bool) (n : Nat) : Bool :=
  (!vlan && (match x.chain with | some c => c.origin.isSome && decide (c.entry.key = n) | none => false)) ||
    x.work.any fun w => match w with
      | .insert _ e => !vlan && decide (e.key = n)
      | .remove _ k => !vlan && decide (k = n)
      | .vlan _ i _ => vlan && decide (i = n)
      | _ => false

/-- TABLE_READ (R200). -/
def ansTableRead (b : Body) (s : State) : Ans :=
  let x := tabs s (tabBrick b)
  if tabTable b = 0 then
    (if entryHeld x true (tabIndex b) then .hold else .done [elemW 0x8504 [get x.vlan (tabIndex b) 0]] s)
  else if entryHeld x false (tabKey b) then .hold
  else match findFlow x (tabKey b) with
    | some (_, e) => .done [flowElem e] s
    | none => .fail stNotFound 0

def execTableRead (h : Hdr) (b : Body) (s : State) : Out := run (.tableRead h b) opTableRead h b (ansTableRead b) s

def opTableRehash : Op :=
  { code := 0x0503, worlds := [0], life := 5, long := true, specs := [elTable [1], el 0x8507 8 true], far := fun _ => true }

/-- TABLE_REHASH (R182, R190, R191): the shadow bank is clear and the copy starts. -/
def ansTableRehash (h : Hdr) (b : Body) (s : State) : Ans :=
  let k := tabBrick b
  let x := tables s k
  let ws := wordsOf b 0x8507
  let s0 := wordAt ws 0
  let s1 := wordAt ws 1
  let a1 := if s0 = s1 then s0 ^^^ 1 else s1
  if x.rehash.isSome then .fail stBusy 0
  else
    let n := nextOp s
    .prog (opIdElem n :: reportElem 0x8507 1 s1 a1)
      (setTables k { x with rehash := some { op := n, seed0 := s0.toNat, seed1 := a1.toNat, start := s.now } }
        (startOp 0x0503 h.world h.mailbox h.tag s))

def execTableRehash (h : Hdr) (b : Body) (s : State) : Out := run (.tableRehash h b) opTableRehash h b (ansTableRehash h b) s

/-! ## The LPM trie (R192 to R194) -/

/-- Bits of an address family. -/
def famBits (f : Nat) : Nat := if f = 4 then 32 else 128

/-- A prefix's address, the bits past its length cleared. -/
def prefixBits (f len addr : Nat) : Nat := addr % 2 ^ famBits f / 2 ^ (famBits f - len) * 2 ^ (famBits f - len)

/-- The first `n` bits of a 128-bit address. -/
def topBits (n addr : Nat) : Nat := addr / 2 ^ (128 - n)

/-- How far the addresses of a list agree, from bit `q` on, within `f` bits more. -/
def agreeTo (l : List (Nat × Nat)) : Nat → Nat → Nat
  | 0, q => q
  | f + 1, q => if (l.map fun e => topBits (q + 1) e.2).eraseDups.length ≤ 1 then agreeTo l f (q + 1) else q

/-- Node reads below the first stride for prefixes (length, address) longer than `q` bits that agree so far: a node skips the run
in which the trie has a single branch and no prefix ends, then indexes 8 bits (R193). -/
def nodeReads : Nat → List (Nat × Nat) → Nat → Nat
  | 0, _, _ => 0
  | f + 1, l, q =>
    match l with
    | [] => 0
    | _ =>
      let short := l.foldl (fun m e => min m e.1) 128
      let at_ := min (agreeTo l (min short 121 - 1 - q) q) 120
      let deep := l.filter fun e => decide (at_ + 8 < e.1)
      1 + ((deep.map fun e => topBits (at_ + 8) e.2).eraseDups.foldl (fun m v =>
        max m (nodeReads f (deep.filter fun e => decide (topBits (at_ + 8) e.2 = v)) (at_ + 8))) 0)

/-- The longest lookup path of the IPv6 trie, in node reads. -/
def trieReads (l : List Lpm) : Nat :=
  let six := (l.filter fun e => decide (e.family = 6) && decide (16 < e.len)).map fun e => (e.len, e.addr)
  1 + (six.map fun e => topBits 16 e.2).eraseDups.foldl (fun m v =>
    max m (nodeReads 14 (six.filter fun e => decide (topBits 16 e.2 = v)) 16)) 0

/-- Whether a list of prefixes fits the trie (R193). -/
def lpmFits (l : List Lpm) : Bool :=
  decide ((l.filter fun e => decide (e.family = 4)).length ≤ 65536) && decide ((l.filter fun e => decide (e.family = 6)).length ≤ 32768) &&
    decide (trieReads l ≤ 6) && Config.lpmFits (l.map fun e => (e.family, e.len, e.addr))

/-- PREFIX: family, length, address. -/
def prefixOf (b : Body) : Nat × Nat × Nat :=
  let ws := wordsOf b 0x8508
  let f := byteAt ws 0
  let len := byteAt ws 1
  (f, len, prefixBits f len (if f = 4 then bytesNat ws 4 4 else bytesNat ws 4 16))

def elPrefix : ElemSpec :=
  el 0x8508 20 true fun ws => (byteAt ws 0 == 4 && decide (byteAt ws 1 ≤ 32)) || (byteAt ws 0 == 6 && decide (byteAt ws 1 ≤ 128))

def opLpmAdd : Op := { code := 0x0504, worlds := [0], life := 5, specs := [elTable [2], elPrefix, el 0x8509 4 true], far := fun _ => true }

/-- LPM_ADD (R193, R194). -/
def ansLpmAdd (b : Body) (s : State) : Ans :=
  let k := tabBrick b
  let (f, len, addr) := prefixOf b
  let w := wordAt (wordsOf b 0x8509) 0
  let e : Lpm := { family := f, len := len, addr := addr, action := w.bits 3 2, cls := w.bits 18 16 }
  let x := tables s k
  let same := fun (o : Lpm) => decide (o.family = f) && decide (o.len = len) && decide (o.addr = addr)
  if x.lpm.any same then .done [] (setTables k { x with lpm := x.lpm.map fun o => if same o then e else o } s)
  else if lpmFits (x.lpm ++ [e]) then .done [] (setTables k { x with lpm := x.lpm ++ [e] } s)
  else .fail stNoSpace 0

def execLpmAdd (h : Hdr) (b : Body) (s : State) : Out := run (.lpmAdd h b) opLpmAdd h b (ansLpmAdd b) s

def opLpmDelete : Op := { code := 0x0505, worlds := [0], life := 5, specs := [elTable [2], elPrefix], far := fun _ => true }

/-- LPM_DELETE (R194). -/
def ansLpmDelete (b : Body) (s : State) : Ans :=
  let k := tabBrick b
  let (f, len, addr) := prefixOf b
  let x := tables s k
  let same := fun (o : Lpm) => decide (o.family = f) && decide (o.len = len) && decide (o.addr = addr)
  if x.lpm.any same then .done [] (setTables k { x with lpm := x.lpm.filter fun o => !same o } s) else .fail stNotFound 0

def execLpmDelete (h : Hdr) (b : Body) (s : State) : Out := run (.lpmDelete h b) opLpmDelete h b (ansLpmDelete b) s

/-- The longest prefix that matches a destination. -/
def lpmMatch (l : List Lpm) (ip : Nat × Nat) : Option Lpm :=
  (l.filter fun e => decide (e.family = ip.1) && decide (prefixBits e.family e.len ip.2 = e.addr)).foldl (fun best e =>
    match best with
    | none => some e
    | some o => if o.len < e.len then some e else best) none

/-! ## Resolution (R179, R180) -/

/-- What classification gives a frame: drop (1 policy, 2 FLOW_MISS, 3 VID_DROP), whether FLOW_MISS counts as well, the class, the
SC's key where it is protected, the sub-port of the VLAN entry, and the SecY counter of a drop. -/
structure Resolved where
  drop   : Option Nat := none
  missed : Bool := false
  cls    : Nat := 0
  sc     : Option Nat := none
  sub    : Nat := 0
  secy   : Option Nat := none
  deriving DecidableEq, Repr

/-- The outer VID, 0 for an untagged frame (R178). -/
def outerVid (f : Frame) : Nat := match f.tags with | t :: _ => t.vid % 4096 | [] => 0

/-- A frame's SecTAG is found behind at most CLEAR_TAGS tags (R203). -/
def hasSecTag (s : State) (port : Nat) (f : Frame) : Bool := f.sec.isSome && decide (f.tags.length ≤ fld s (0x060000 + 4 * port) 3 2)

/-- The class of a frame that matches no other source (R179). -/
def vlanClass (v : Word) (f : Frame) : Nat :=
  match f.tags with
  | t :: _ => if v.bit 27 then t.pcp % 8 else v.bits 26 24
  | [] => v.bits 26 24

/-- A lookup that matches an entry sets HIT (Table 7.6). -/
def hitFlow (b key : Nat) (s : State) : Option FlowEntry × State :=
  let x := tabs s b
  match findFlow x key with
  | some (w, e) => (some e, setTables b (flowPut (cuckooDepth s b) w { e with hit := true } x) s)
  | none => (none, s)

/-- A frame protected under an SC: one of the kind that the port's mode carries, and no twin used by B1 (R179, R207, R265). -/
def underSc (s : State) (b key cls : Nat) (missed : Bool) : Resolved :=
  match scOf s key with
  | some c =>
    if c.path = lpTrunk s (b % 2) ∧ (b = 1 ∧ isTwin s key = true) = false then { missed := missed, cls := cls, sc := some key }
    else { drop := some 2, cls := cls }
  | none => { drop := some 2, cls := cls }

/-- Resolution in B0 and B1 (Table 7.4). -/
def resolveTx (b sub : Nat) (f : Frame) (s : State) : Resolved × State :=
  let vid := outerVid f
  if vid = 0xFFF then ({ drop := some 3 }, s)
  else
    let x := tables s b
    let v := get x.vlan (sub % 8 * 4096 + vid) 0
    let (hit, s) := hitFlow b (sub % 8 * 2 ^ 60 + vid * 2 ^ 48 + f.dst % 2 ^ 48) s
    let lpm := if v.bit 28 = true ∧ f.tags.length ≤ 2 then f.ip.bind (lpmMatch x.lpm) else none
    let base := vlanClass v f
    let cls := match hit with | some e => if e.clsOvr then e.cls % 8 else base | none => base
    let cls := match lpm with | some p => if p.action = 1 then p.cls % 8 else cls | none => cls
    let act := match lpm with | some p => p.action | none => 0
    if v.bit 31 = false ∨ v.bits 30 29 = 0 then ({ drop := some 1, cls := cls }, s)
    else if act = 3 then ({ drop := some 1, cls := cls }, s)
    else if act = 2 ∨ v.bits 30 29 = 2 then ({ cls := cls }, s)
    else match hit with
      | some e => (underSc s b (brickSc b e.sc) cls false, s)
      | none =>
        if v.bits 14 0 = 0x7FFF then ({ drop := some 2, cls := cls }, s)
        else (underSc s b (brickSc b (v.bits 14 0)) cls true, s)

/-- Resolution in B2 and B3 in Ethernet mode (Table 7.5). -/
def resolveRx (b : Nat) (f : Frame) (s : State) : Resolved × State :=
  let vid := outerVid f
  if vid = 0xFFF then ({ drop := some 3 }, s)
  else
    let v := get (tables s b).vlan vid 0
    let cls := vlanClass v f
    let sub := v.bits 17 15
    let tagged := hasSecTag s (b % 2) f
    let dflt := decide (v.bits 30 29 = 1) && decide (v.bits 14 0 ≠ 0x7FFF)
    if v.bit 31 = false ∨ v.bits 30 29 = 0 then ({ drop := some 1, cls := cls, sub := sub }, s)
    else match (if tagged then f.sec else none) with
      | some g =>
        if g.sc then
          match hitFlow b g.sci s with
          | (some e, s) => ({ underSc s b (brickSc b e.sc) (if e.clsOvr then e.cls % 8 else cls) false with sub := sub }, s)
          | (none, s) => ({ drop := some 2, cls := cls, sub := sub, secy := some 4 }, s)
        else if dflt then ({ underSc s b (brickSc b (v.bits 14 0)) cls false with sub := sub }, s)
        else ({ drop := some 2, cls := cls, sub := sub, secy := some 5 }, s)
      | none =>
        if v.bits 30 29 = 2 then ({ cls := cls, sub := sub }, s)
        else if dflt then ({ underSc s b (brickSc b (v.bits 14 0)) cls false with sub := sub }, s)
        else ({ drop := some 2, cls := cls, sub := sub, secy := some 5 }, s)

/-- The seeds of every brick are drawn at EXPRESS_READY, and its ager's first sweep begins (R182, R187). -/
def drawSeeds (s : State) : State :=
  [0, 1, 2, 3].foldl (fun s b =>
    let (a, s) := drawBits 32 s
    let (c, s) := drawBits 32 s
    setTables b { tables s b with seed0 := a, seed1 := c, sweepAt := s.now, sweepP := agePeriod s b, visited := 0 } s) s

end Sys2Proof.Machine
end

