-- ==== Sys2Proof/Machine/Protect.lean ====
section
/-! DEFINITION. A frame's bytes under protection (R201 to R203, R212, R256, R264, R291): the SecTAG, the unit header, the sequence tag, the
initialisation vector, the confidentiality offset, and what leaves a brick for a frame that entered it. -/
namespace Sys2Proof.Machine
open Sys2Proof

/-- The bytes of a frame as received, from the destination address to the FCS. -/
def octets (f : Frame) : List Nat :=
  let b := unpack f.raw
  (b ++ List.replicate (f.len - b.length) 0).take f.len

def Crypt.path (c : Crypt) : Bool := c.cfg.bit 29
def Crypt.xpn (c : Crypt) : Bool := c.cfg.bit 28
def Crypt.k256 (c : Crypt) : Bool := c.cfg.bit 27
def Crypt.integrityOnly (c : Crypt) : Bool := c.cfg.bit 26
def Crypt.sciExplicit (c : Crypt) : Bool := c.cfg.bit 21

/-- The confidentiality offset in bytes (Table 8.3, R256). -/
def Crypt.offset (c : Crypt) : Nat := match c.cfg.bits 25 24 with | 1 => 30 | 2 => 50 | _ => 0

/-- The initialisation vector of a packet number (R212). -/
def Crypt.ivOf (c : Crypt) (pn : Nat) : Nat :=
  let base := beNat (unpack c.iv)
  if c.xpn then Nat.xor base (pn % 2 ^ 64) else base / 2 ^ 32 * 2 ^ 32 + pn % 2 ^ 32

/-- Bytes exclusive-ored with the keystream of a packet number, from their first confidential byte (R256). -/
def Crypt.cipher (c : Crypt) (pn : Nat) (bs : List Nat) : List Nat :=
  let (n, k) := suiteKey c.k256 c.key
  xorBytes bs (gcmStream n k (c.ivOf pn) bs.length)

/-- The ICV over additional data and ciphertext. -/
def Crypt.icv (c : Crypt) (pn : Nat) (aad ct : List Nat) : List Nat :=
  let (n, k) := suiteKey c.k256 c.key
  gcmTag n k (c.ivOf pn) aad ct

/-- The sequence tag of a protected stream's frame (Table 9.6). -/
def seqTagBytes (seq : Option (Nat × Nat)) : List Nat :=
  match seq with
  | some (n, q) => [0, n % 256] ++ beBytes 4 q ++ [0, 0]
  | none => []

/-- The SecTAG that a transmit SC builds (R202). -/
def Crypt.secTag (c : Crypt) (pn secure : Nat) : List Nat :=
  let tci := 64 * bit (c.cfg.bit 20) + 32 * bit c.sciExplicit + (if c.integrityOnly then 0 else 12) + c.an % 4
  [0x88, 0xE5, tci, if secure < 48 then secure else 0] ++ beBytes 4 pn ++ (if c.sciExplicit then beBytes 8 c.sci else [])

/-- Secure data under an SA: what passes in clear, what is enciphered, and the ICV over `head` and them (R201, R256). -/
def Crypt.protect (c : Crypt) (pn : Nat) (head secure : List Nat) : List Nat :=
  if c.integrityOnly then secure ++ c.icv pn (head ++ secure) []
  else
    let open_ := secure.take c.offset
    let ct := c.cipher pn (secure.drop c.offset)
    open_ ++ ct ++ c.icv pn (head ++ open_) ct

/-- A clear frame protected under a MACsec SC, up to the FCS (R202, R203, R264). -/
def Crypt.macsec (c : Crypt) (pn clear : Nat) (seq : Option (Nat × Nat)) (f : Frame) : List Nat :=
  let body := (octets f).take (f.len - 4)
  let n := 12 + 4 * min f.tags.length clear
  let secure := seqTagBytes seq ++ body.drop n
  let tag := c.secTag pn secure.length
  body.take n ++ tag ++ c.protect pn (body.take 12 ++ tag) secure

/-- The header of a unit (Table 10.6). -/
def unitHeader (len an pn : Nat) : List Nat := beBytes 2 len ++ [an % 4, 0] ++ beBytes 4 pn

/-- A clear frame as a unit of a path (R291). -/
def Crypt.unit (c : Crypt) (pn : Nat) (seq : Option (Nat × Nat)) (f : Frame) : List Nat :=
  let body := seqTagBytes seq ++ (octets f).take (f.len - 4)
  let hd := unitHeader body.length c.an pn
  hd ++ c.protect pn hd body

/-- A received frame's secure data in clear: what lies under its SecTAG, or for a path its unit, without the ICV, deciphered from its
offset on where its E bit is set, and without a sequence tag (R256, R266, R291). -/
def opened (crypt : Option Crypt) (pn : Nat) (seq : Bool) (f : Frame) : List Nat :=
  let b := octets f
  let data := match crypt with
    | some c =>
      if c.path then c.cipher pn (b.take (f.len - 4))
      else
        let n := 20 + 4 * f.tags.length + (match f.sec with | some g => 8 * bit g.sc | none => 0)
        let secure := (b.drop n).take (f.len - n - 20)
        if (match f.sec with | some g => g.e | none => false) then secure.take c.offset ++ c.cipher pn (secure.drop c.offset) else secure
    | none =>
      let n := 20 + 4 * f.tags.length + (match f.sec with | some g => 8 * bit g.sc | none => 0)
      (b.drop n).take (f.len - n - 20)
  if seq then data.drop 8 else data

/-- A frame that carried a SecTAG where its parser looked for one (R203). -/
def Held.tagged (h : Held) : Bool := h.frame.sec.isSome && decide (h.frame.tags.length ≤ h.clear)

/-- The ICV that ends a unit, inverted where the frame's ingress FCS has failed after it started (R292). -/
def badIcv (stomp : Bool) (bs : List Nat) : List Nat :=
  if stomp then bs.take (bs.length - 16) ++ (bs.drop (bs.length - 16)).map fun b => 255 - b else bs

/-- What leaves for a frame, up to its FCS: protected, passed, or opened (R202, R224, R256, R291). -/
def Held.out (h : Held) : List Nat :=
  let f := h.frame
  if h.brick < 2 then
    match h.crypt with
    | some c => if c.path then badIcv h.stomp (c.unit h.pn h.seq f) else c.macsec h.pn h.clear h.seq f
    | none => (octets f).take (f.len - 4)
  else match h.crypt with
    | some c =>
      if c.path then opened (some c) h.pn h.seq.isSome f
      else (octets f).take (12 + 4 * f.tags.length) ++ opened (some c) h.pn h.seq.isSome f
    | none =>
      if h.unchecked = true ∧ h.tagged = true then (octets f).take (12 + 4 * f.tags.length) ++ opened none 0 h.seq.isSome f
      else (octets f).take (f.len - 4)

/-- The bytes that start a frame of a length on a MAC: padded with zeros or cut, without the FCS (R119, R334). -/
def onWire (len : Nat) (bs : List Nat) : List Nat := (bs ++ List.replicate (len - 4 - bs.length) 0).take (len - 4)

/-- The FCS that ends a frame, its bits inverted where it is stomped (R121, R259). -/
def fcsOf (stomp : Bool) (bs : List Nat) : List Nat := let c := fcsBytes bs; if stomp then c.map fun b => 255 - b else c

end Sys2Proof.Machine
end

