-- ==== Sys2Proof/Machine/Queues.lean ====
section
/-! DEFINITION. Queues, shaping and time gates (11): admission, the shaper, gates and the guard band, selection and preemption at an
egress sub-port, the one-step release, and the queue and gate commands. -/
namespace Sys2Proof.Machine
open Sys2Proof

/-! ## Where a frame goes -/

/-- The egress sub-port key of a frame. -/
def Held.egress (h : Held) : Nat := spKey h.eport h.esub

/-- The ingress sub-port key of a frame. -/
def Held.ingress (h : Held) : Nat := spKey h.port h.sub

/-- The queue a frame goes to or is charged to (R313, R314). -/
def Held.queue (h : Held) : Nat := h.eport * 4096 + 512 * (h.cls % 8) + h.chan % 512

/-! ## Cells and admission (R316 to R319) -/

/-- Cells of 256 bytes that a length needs. -/
def cellsFor (len : Nat) : Nat := (len + 255) / 256

/-- Cells held by one queue, by one class of an egress. -/
def queueCells (s : State) (q : Nat) : Nat := total (s.que.cells.filter fun c => decide (c.queue = q)) cellsOf
def classOf (s : State) (e c : Nat) : List Cells := s.que.cells.filter fun x => decide (x.queue / 512 = e * 8 + c)
def classCells (s : State) (e c : Nat) : Nat := total (classOf s e c) cellsOf

def queueEntry (s : State) (q : Nat) : Queue := get s.que.queues q {}
def setQueue (q : Nat) (x : Queue) (s : State) : State :=
  { s with que := { s.que with queues := if x = {} then del s.que.queues q else put s.que.queues q x } }

/-- MAX_SDU of a class of an egress. -/
def maxSdu (s : State) (e c : Nat) : Nat := fld s (0x0A0200 + 0x20 * e + 4 * c) 13 0

/-- Admission of a frame of a clear length: its cells, or the QUE counter of the step that refuses it (R317). -/
def admitCells (h : Held) (clearLen : Nat) (s : State) : Cells ⊕ Nat :=
  let e := h.eport
  let c := h.cls % 8
  let n := cellsFor h.outLen
  let pp := 0x0A0010 + 4 * e
  let cp := 0x0A0100 + 0x20 * e + 4 * c
  let fromClass := min n (16 * fld s cp 14 0 - total (classOf s e c) (·.cls))
  let fromPort := min (n - fromClass) (16 * fld s pp 14 0 - total (s.que.cells.filter fun x => decide (x.queue / 4096 = e)) (·.port))
  let rest := n - fromClass - fromPort
  if maxSdu s e c < clearLen then .inr 0
  else if (queueEntry s h.queue).limit < queueCells s h.queue + n then .inr 1
  else if rest ≠ 0 ∧ (16 * fld s cp 30 16 < classCells s e c + n ∨ 16 * fld s pp 30 16 < portCells s e + n ∨ sharedFree s < rest) then .inr 2
  else .inl { frame := h.id, queue := h.queue, cls := fromClass, port := fromPort, shared := rest }

/-- A QUE drop counter of an egress: 0 SDU, 1 QLIM, 2 POOL, 3 AGED, 4 HOLD. -/
def queCount (e i : Nat) (s : State) : State := bump (0x0A0300 + 0x20 * e + 4 * i) 1 s

/-- A frame refused admission is dropped at dispatch and counted at its ingress and its egress (R318). -/
def refuse (h : Held) (i : Nat) (s : State) : State := queCount h.eport i (rxDrop h.ingress (dropFrame h.id s))

/-! ## The packet shaper (R324 to R327) -/

/-- A queue's credit lets a frame start. -/
def creditOk (s : State) (q : Nat) : Bool := let x := queueEntry s q; decide (x.rate = 0) || decide (0 ≤ x.credit)

/-- A frame of a queue starts: its credit falls by one packet, not below LO. -/
def charge (q : Nat) (s : State) : State :=
  let x := queueEntry s q
  if x.rate = 0 then s else setQueue q { x with credit := max (x.lo * 65536) (x.credit - 256 * 65536) } s

/-- A frame of a queue waits, in the queue or in an express hold. -/
def queueWaits (s : State) (q : Nat) : Bool := (s.que.frames ++ s.que.hold).any fun h => decide (h.queue = q) && !h.gone

/-- One credit update of a queue. -/
def shape (waits : Bool) (x : Queue) : Queue :=
  let lo := x.lo * 65536
  let hi : Int := (x.hi : Int) * 65536
  let c := if x.clampNext then max lo (min hi x.credit) else x.credit
  if x.rate = 0 then { x with credit := 0, rem := 0, clampNext := false }
  else
    let g := x.rate * 256 * 65536 + x.rem
    let gain : Int := (g / 10000000 : Nat)
    let c := if waits then (if c < hi then min hi (c + gain) else c) else if 0 < c then 0 else min 0 (c + gain)
    { x with credit := c, rem := g % 10000000, clampNext := false }

/-- Every credit is updated, as once in 100 ns (R325). -/
def shapeAll (s : State) : State :=
  s.que.queues.foldl (fun s e => setQueue e.1 (shape (queueWaits s e.1) e.2) s) s

def execShaperUpdate (t : Nat) (s : State) : Out := ev t shapeAll s

/-! ## Gates and the guard band (R328 to R336) -/

/-- The time of one byte on a sub-port, in ps. -/
def byteTime (s : State) (sp : Nat) : Nat := if sp < 16 then 10 * 2 ^ breakoutLive s (spPort sp) else 10

/-- The entries of a list as (end within the cycle, gate states): cut at the cycle, the last held to its end (R329). -/
def segments : List (Nat × Nat) → Nat → Nat → List (Nat × Nat)
  | [], _, _ => []
  | [(g, _)], _, cyc => [(cyc, g)]
  | (g, d) :: r, at_, cyc => if cyc ≤ at_ + d then [(cyc, g)] else (at_ + d, g) :: segments r (at_ + d) cyc

/-- The first instant from `x` on, within segments that begin at `from_`, at which a class's gate is closed. -/
def closedFrom (c x : Nat) : List (Nat × Nat) → Nat → Option Nat
  | [], _ => none
  | (e, g) :: r, from_ => if x < e ∧ g.testBit c = false then some (max x from_) else closedFrom c x r e

/-- How long, in ps from a fast time of `ft` ps, a class's gate of a list stays open; none where it never closes. -/
def openFor (g : GateList) (c ft : Nat) : Option Nat :=
  if g.enable = false then none
  else
    let cyc := max 1 g.cycle * 1000
    let x := (ft + 2 ^ 40 * 1000 - g.base % 2 ^ 40 * 1000) % (2 ^ 40 * 1000) % cyc
    let one := (segments g.entries 0 (max 1 g.cycle)).map fun e => (e.1 * 1000, e.2)
    (closedFrom c x (one ++ one.map fun e => (e.1 + cyc, e.2)) 0).map (· - x)

/-- Fast time in ps. -/
def fastPs (s : State) : Nat := tod s * 1000 / 65536 % (2 ^ 40 * 1000)

/-- How long from `d` ps ahead the gate of a class of an egress stays open, with the pending list's change (R330, R333, R335): some 0
where it is closed, none where it stays open. -/
def gateTime (s : State) (e c d : Nat) : Option Nat :=
  let x := egress s e
  let ft := (fastPs s + d) % (2 ^ 40 * 1000)
  let old := openFor x.oper c ft
  match x.pending with
  | none => old
  | some n =>
    let left := fastDiff x.changeT (fast s)
    if left ≤ 0 then old
    else
      let gap := left.toNat * 1000 - d
      let new := (openFor n c (x.changeT % 2 ^ 40 * 1000)).map (· + gap)
      match old with
      | some k => if k < gap then some k else new
      | none => new

/-- Gates act on an egress: a clear one, or a line port in Ethernet mode (R328). -/
def gated (s : State) (e : Nat) : Bool := decide (e < 2) || (decide (e < 4) && !lpTrunk s (e - 2))

/-- The gate of a class of an egress sub-port admits a frame of `len` bytes that starts `d` ps ahead, or any where no guard band is due
(R333, R336). -/
def gateAdmits (s : State) (sp c d : Nat) (len : Option Nat) : Bool :=
  let e := spPort sp
  if gated s e then
    match gateTime s e c (txDelay s sp + d) with
    | none => true
    | some k =>
      match len with
      | some n => decide (0 < k) && decide ((n + 20) * byteTime s sp ≤ k)
      | none => decide (0 < k)
  else true

/-- A frame is in cut-through: an express frame whose last byte has not reached the hold, or a bulk decrypt frame before its tag
result (R333). -/
def Held.cutThrough (h : Held) (now : Nat) : Bool :=
  if h.express then decide (now < h.wholeAt) else decide (2 ≤ h.brick) && decide (h.tagRes = none)

/-- The length that counts for the guard band (R333). -/
def guardLen (s : State) (h : Held) : Nat :=
  if h.cutThrough s.now then maxSdu s h.eport (h.cls % 8) + (if 2 ≤ h.eport then 32 else 0) else h.outLen

/-- A class is preemptable on a sub-port now. -/
def preemptable (s : State) (sp c : Nat) : Bool := preemptive s sp && !(fld s (0x020008 + 0x10 * spPort sp) 23 16).testBit c

/-! ## One-step frames at the release stage (R157 to R159) -/

/-- The one-step frames of a sub-port. -/
def oneStepsOf (s : State) (sp : Nat) : List (Nat × OneStep) := s.time.oneSteps.filter fun e => decide (e.2.port = sp)

/-- A frame of `n` bytes that starts `d` ps ahead ends, with its preamble and gap, before every one-step release of its sub-port (R158). -/
def clearOfOneStep (s : State) (sp d n : Nat) : Bool :=
  (oneStepsOf s sp).all fun e => decide (stampDiff s e.2.tRel ≤ 0) || decide ((((n + 20) * byteTime s sp + d : Nat) : Int) ≤ stampDiff s e.2.tRel * 250)

/-- The length a frame counts with before a one-step release (R158). -/
def oneStepLen (s : State) (sp : Nat) (h : Held) : Nat := if h.cutThrough s.now then frameMax s (spPort sp) else h.outLen

/-- A one-step frame is missed for a cause: 0 late, 1 link down or muted, 2 step or new epoch (R159). -/
def oneStepMiss (n cause : Nat) (x : OneStep) (s : State) : State :=
  let a := 0x040108 + 0x10 * spPort x.port
  let s := if cause = 0 then bumpFld a 31 16 1 s else if cause = 1 then bumpFld a 15 8 1 s else bumpFld a 7 0 1 s
  record 0x0605 [spPort x.port, cause] { s with time := { s.time with oneSteps := del s.time.oneSteps n } }

/-- The length on the wire of a PTP message of a kind (IEEE 1588-2019, log entry 5) with its TLVs, on a transport, and its SecTAG and ICV. -/
def ptpLen (s : State) (transport : Nat) (m : PtpMsg) (sa : Option (Nat × Nat)) : Nat :=
  let body := match m.kind with | 0 => 44 | 2 => 44 | 3 => 44 | 1 => 64 | _ => 54
  let head := match transport with | 0 => 0 | 1 => 28 | _ => 50
  let tag := match sa.bind fun e => (saOf s e.1).bind fun a => scOf s a.scKey with | some c => 24 + 8 * bit c.sciExplicit | none => 0
  max 64 (18 + head + body + total m.tlvs (fun t => 4 + t.2.length) + tag)

/-- A PTP message leaves on a sub-port and is counted (R132, R133); event messages have a transmit timestamp (R148, R149). -/
def sendPtp (sp transport : Nat) (m : PtpMsg) (sa : Option (Nat × Nat)) (st : Option Nat) (s : State) : State :=
  send (.ptp sp transport m sa st) (countTx sp (ptpLen s transport m sa) 0x011B19000000 false s)

/-- The frame that the MAC of a sub-port is sending has not ended. -/
def macBusy (s : State) (sp : Nat) : Bool :=
  match (subPort s sp).tx with
  | some x => decide (s.now < x.started + x.remain * byteTime s sp)
  | none => false

/-- The release instant of a one-step frame comes: the MAC releases it on the clock edge nearest T_rel, or it is dropped (R157, R159). -/
def oneStepRelease (n : Nat) (s : State) : State :=
  match look s.time.oneSteps n with
  | none => s
  | some x =>
    let d := stampDiff s x.tRel
    if 0 < d then s
    else if x.disturbed then oneStepMiss n 2 x s
    else if x.dispatched = false ∨ x.atRelease = false ∨ d < -2 ∨ macBusy s x.port = true then oneStepMiss n 0 x s
    else if canSend s x.port = false then oneStepMiss n 1 x s
    else
      let a := 0x040104 + 0x10 * spPort x.port
      let s := setReg a (regWord s a + 1) { s with time := { s.time with oneSteps := del s.time.oneSteps n } }
      sendPtp x.port x.transport x.msg x.sa none s

/-! ## Selection (R321 to R323) -/

/-- Frames discard at an egress sub-port: its link is down, local fault is ordered, its transmitters are muted, or it does not
exist (R116, R118, R580). -/
def sinks (s : State) (sp : Nat) : Bool :=
  let x := subPort s sp
  !x.link || x.sendFault || (decide (18 ≤ sp) && lineMuted s) || !subExists s sp

/-- The sub-port at which a discard for `sp` counts. -/
def countsAt (s : State) (sp : Nat) : Nat := if subExists s sp then sp else spKey (spPort sp) 0

/-- Frames that wait for a sub-port. -/
def waitingAt (s : State) (sp : Nat) : List Held := (s.que.frames ++ s.que.hold).filter fun h => decide (h.egress = sp) && !h.gone

/-- A frame is gone: it goes no further, and what is left of it ends where it stands. -/
def setGone (id : Nat) (s : State) : State := updFrame id (fun x => { x with gone := true }) s

/-- A discarded frame's unit leaves the framer's express input (R116, R339). -/
def unframe (h : Held) (s : State) : State :=
  let x := trunk s (h.eport - 2)
  if 2 ≤ h.eport ∧ (x.units.any fun u => decide (u.frame = some h.id)) = true then
    setTrunk (h.eport - 2) { x with units := x.units.filter (fun u => decide (u.frame ≠ some h.id)), expBytes := x.expBytes - h.outLen } s
  else s

/-- A waiting frame is discarded at its egress. -/
def discardAt (h : Held) (s : State) : State := txDrop (countsAt s h.egress) (setGone h.id (leaveQueues h.id (unframe h s)))

/-- A bulk decrypt frame has become eligible (R262); every other frame is. -/
def eligibleNow (s : State) (h : Held) : Bool :=
  h.eligible || decide (h.tagRes = some true) || (decide (h.cellAt ≠ 0) && decide (h.cellAt ≤ s.now))

/-- A head frame may start on its sub-port `d` ps ahead (R323, R333, R158). -/
def mayStart (s : State) (sp d : Nat) (h : Held) : Bool :=
  let c := h.cls % 8
  gateAdmits s sp c d (if preemptable s sp c then none else some (guardLen s h)) && creditOk s h.queue && eligibleNow s h &&
    !(decide (sp < 16) && paused s sp c) && clearOfOneStep s sp d (oneStepLen s sp h)

/-- The head of a class's express hold FIFO for a sub-port. -/
def holdHead (s : State) (sp c : Nat) : Option Held :=
  s.que.hold.find? fun h => decide (h.egress = sp) && decide (h.cls % 8 = c) && !h.gone

/-- The heads of a class's queues for a sub-port, each the first of its channel, in channel order starting after the last one
served. -/
def queueHeads (s : State) (sp c : Nat) : List Held :=
  let l := s.que.frames.filter fun h => decide (h.egress = sp) && decide (h.cls % 8 = c) && !h.gone
  let last := get (egress s (spPort sp)).rrLast (8 * spIdx sp + c) 511
  let heads := ((l.map (·.chan)).eraseDups.filterMap fun n => l.find? fun h => decide (h.chan = n)).mergeSort fun a b => decide (a.chan ≤ b.chan)
  heads.filter (fun h => decide (last < h.chan)) ++ heads.filter fun h => decide (h.chan ≤ last)

/-- The frame that a class gives to start `d` ps ahead. -/
def classPick (s : State) (sp d c : Nat) : Option Held :=
  match (holdHead s sp c).filter (mayStart s sp d) with
  | some h => some h
  | none => (queueHeads s sp c).find? (mayStart s sp d)

/-- The frame selected among a set of classes to start `d` ps ahead, 7 first (R323). -/
def pick (s : State) (sp d : Nat) (classes : Nat → Bool) : Option Held :=
  [7, 6, 5, 4, 3, 2, 1, 0].findSome? fun c => if classes c then classPick s sp d c else none

/-- The length a frame is sent with, padded to 64 bytes, and whether it is cut there with its FCS inverted (R119, R334). -/
def sentLen (s : State) (h : Held) : Nat × Bool :=
  let m := frameMax s h.eport
  if h.cutThrough s.now then
    let g := guardLen s h
    let lim := if gated s h.eport then min m g else m
    if lim < h.outLen then (lim, true) else (max 64 h.outLen, false)
  else (max 64 h.outLen, false)

/-- A frame starts on its sub-port's MAC at an instant. -/
def startFrame (sp at_ : Nat) (h : Held) (s : State) : State :=
  let (n, cut) := sentLen s h
  let cutShort := cut && decide (guardLen s h < h.outLen) && gated s h.eport
  let s := if cutShort then queCount h.eport 0 s else s
  let x : TxFrame := { id := h.id, len := n, remain := n, preempt := preemptable s sp (h.cls % 8), stomp := h.stomp || cut, cut := cut, started := at_ }
  let s := setGone h.id (charge h.queue s)
  let e := egress s (spPort sp)
  let s := if h.express then s else setEgress (spPort sp) { e with rrLast := put e.rrLast (8 * spIdx sp + h.cls % 8) h.chan } s
  send (.frame sp h.id n (onWire n h.out)) (perf 4 4 1 (setSub sp { subPort s sp with tx := some x } s))

/-- A store-and-forward frame that exceeds its egress port's maximum is discarded before it starts (R119). -/
def tooLong (s : State) (h : Held) : Bool := !h.cutThrough s.now && decide (frameMax s h.eport < h.outLen)

/-- Bytes of the current fragment sent by now. -/
def fragmentSent (s : State) (sp : Nat) (x : TxFrame) : Nat := (s.now - x.started) / byteTime s sp

/-- The frame in transmission may be cut for an express frame now (R129). -/
def maySuspend (s : State) (sp : Nat) (x : TxFrame) : Bool :=
  let n := fragmentSent s sp x
  x.preempt && preemptive s sp && decide (x.started ≤ s.now) && decide (60 ≤ n) && decide (n + 64 ≤ x.remain)

/-- The frame in transmission is suspended (R129). -/
def suspend (sp : Nat) (x : TxFrame) (s : State) : State :=
  let s := if sp < 18 then s else lineCount (sp - 18) 1 24 (bit (decide (x.parts = 0))) (lineCount (sp - 18) 1 22 1 s)
  setSub sp { subPort s sp with tx := none, suspended := some { x with remain := x.remain - fragmentSent s sp x, parts := x.parts + 1 } } s

/-- The class of a frame that has started. -/
def classOfTx (s : State) (x : TxFrame) : Nat := match frameOf s x.id with | some h => h.cls % 8 | none => 0

/-- A suspended frame goes on where its gate is open and its class not paused (R129, R336). -/
def resume (sp : Nat) (s : State) : State :=
  let p := subPort s sp
  match p.suspended with
  | some x =>
    let c := classOfTx s x
    if gateAdmits s sp c 0 none = true ∧ (sp < 16 ∧ paused s sp c = true) = false ∧ clearOfOneStep s sp 0 x.remain = true then setSub sp { p with tx := some { x with started := s.now }, suspended := none } s else s
  | none => s

/-- Frames that wait at a sub-port behind a gate that is open but for its guard band (Table 19.4). -/
def guardHolds (s : State) (sp : Nat) : Nat :=
  ((waitingAt s sp).filter fun h => gateAdmits s sp (h.cls % 8) 0 none && !gateAdmits s sp (h.cls % 8) 0 (some (guardLen s h))).length

/-- Selection at an egress sub-port (R323). -/
def egressSelect (sp : Nat) (s : State) : State :=
  let e := spPort sp
  if 20 ≤ sp ∨ sp = 16 ∨ sp = 17 then s
  else if sinks s sp = true then (waitingAt s sp).foldl (fun s h => discardAt h s) s
  else if (2 ≤ e ∧ lpTrunk s (e - 2) = true) ∨ canSend s sp = false then s
  else
    let s := (waitingAt s sp).foldl (fun s h => if tooLong s h then discardAt h s else s) s
    let p := subPort s sp
    let mask := fld s (0x020008 + 0x10 * e) 23 16
    match p.tx with
    | some x =>
      if maySuspend s sp x = false then s
      else if gateAdmits s sp (classOfTx s x) 0 none = false then suspend sp x s
      else match pick s sp (16 * byteTime s sp) fun c => mask.testBit c with
        | some h => startFrame sp (s.now + 16 * byteTime s sp) h (suspend sp x s)
        | none => s
    | none =>
      match (oneStepsOf s sp).find? fun o => decide (stampDiff s o.2.tRel ≤ 0) with
      | some o => oneStepRelease o.1 s
      | none =>
        if p.suspended.isSome then
          match pick s sp 0 fun c => mask.testBit c with
          | some h => startFrame sp s.now h s
          | none => resume sp s
        else match pick s sp 0 fun _ => true with
          | some h => startFrame sp s.now h s
          | none => perf 4 6 (guardHolds s sp) s

def execEgressSelect (t sp : Nat) (s : State) : Out := ev t (egressSelect sp) s

/-- The last byte of the frame in transmission leaves with the FCS, inverted where the frame is stomped: the frame is counted and its cells
are free (R121, R319, R132, R133). -/
def frameTxDone (sp : Nat) (s : State) : State :=
  match (subPort s sp).tx with
  | none => s
  | some x =>
    if s.now < x.started + x.remain * byteTime s sp then s
    else
      let h := frameOf s x.id
      let stomp := x.stomp || (match h with | some h => h.stomp | none => false)
      let dst := match h with | some h => h.frame.dst | none => 0
      let bytes := match h with | some h => onWire x.len h.out | none => []
      let s := if x.parts = 0 ∨ sp < 18 then s else lineCount (sp - 18) 1 22 1 s
      leaveQueues x.id (send (.fcs sp x.id (fcsOf stomp bytes)) (countTx sp x.len dst stomp (setSub sp { subPort s sp with tx := none } s)))

def execFrameTxDone (t sp : Nat) (s : State) : Out := ev t (fun s => if sp < 20 then frameTxDone sp s else s) s

/-- A frame has waited for MAX_RES (R321). -/
def frameAged (id : Nat) (s : State) : State :=
  match (s.que.frames ++ s.que.hold).find? fun h => decide (h.id = id) with
  | none => s
  | some h =>
    if h.gone = true ∨ s.now < h.queuedAt + fld s 0x0A0000 25 16 * ms then s else perf 4 5 1 (queCount h.eport 3 (discardAt h s))

def execFrameAged (t id : Nat) (s : State) : Out := ev t (frameAged id) s

/-- A gate list passes to its next entry; a preemptable frame whose gate has closed is preempted where R129 permits (R329, R336). -/
def gateChange (e : Nat) (s : State) : State :=
  let x := egress s e
  let s := setEgress e { x with entry := gateEntry x.oper (fast s) } s
  (spsOf e).foldl (fun s sp =>
    match (subPort s sp).tx with
    | some x => if maySuspend s sp x = true ∧ gateAdmits s sp (classOfTx s x) 0 none = false then suspend sp x s else s
    | none => s) s

def execGateEntryChange (t e : Nat) (s : State) : Out := ev t (fun s => if e < 4 then gateChange e s else s) s

/-- A pending list's change instant is reached (R331). -/
def gclChange (e : Nat) (s : State) : State :=
  if fastDiff (egress s e).changeT (fast s) ≤ 0 then changeList e s else s

def execGclChangeInstant (t e : Nat) (s : State) : Out := ev t (fun s => if e < 4 then gclChange e s else s) s

/-! ## Commands (R341, R342) -/

/-- A queue entry's four words (Table 11.3). -/
def queueWords (s : State) (q : Nat) : List Word :=
  let x := queueEntry s q
  let waiting := ((s.que.frames ++ s.que.hold).filter fun h => decide (h.queue = q) && !h.gone).length
  [w32 x.limit, w32 x.rate, w32 (x.hi * 65536 + unsignedOf 16 x.lo),
   w32 (unsignedOf 16 (x.credit / 65536) * 65536 + cap 65535 waiting)]

/-- LIMIT as applied. -/
def limitApplied (w : Word) : Nat := max 1 (w.bits 17 0)

/-- HI and LO as applied, as one word. -/
def boundsApplied (w : Word) : Word :=
  clampFld (w.withBits 31 16 (if w.bit 31 then 0 else w.bits 31 16)) 15 0 (.signed (-256) 0)

/-- A queue takes a RATE, HI and LO (R326). -/
def reshape (q rate : Nat) (bounds : Word) (s : State) : State :=
  let x := queueEntry s q
  let y := { x with rate := rate, hi := bounds.bits 31 16, lo := signedOf 16 (bounds.bits 15 0) }
  if y = x then s else setQueue q { y with clampNext := true } s

def elQueue : ElemSpec :=
  el 0x8801 4 true fun ws => decide (byteAt ws 0 < 4) && decide (byteAt ws 1 < 8) && decide (bytesNat ws 2 2 < 512)

/-- The queues that QUEUE and CHANNELS name, and the report of CHANNELS. -/
def queuesNamed (b : Body) : List Nat × Body :=
  let ws := wordsOf b 0x8801
  let ch := bytesNat ws 2 2
  let q := byteAt ws 0 * 4096 + byteAt ws 1 * 512 + ch
  let req := match elemOf b 0x0802 with | some e => wordAt e.val 0 | none => 1
  let n := min (Legal.apply (.range 1 512) 32 req.toNat) (512 - ch)
  ((List.range n).map (q + ·), reportElem 0x0802 0 req (w32 n))

def opQueueConfig : Op := { code := 0x0800, worlds := [0], life := 5, specs := [elQueue, el 0x0802 4, el 0x0803 4], far := fun _ => true }

/-- QUEUE_CONFIG. -/
def ansQueueConfig (b : Body) (s : State) : Ans :=
  let (qs, rep) := queuesNamed b
  let (s, rep2) := match elemOf b 0x0803 with
    | some e =>
      let w := wordAt e.val 0
      let l := limitApplied w
      (qs.foldl (fun s q => setQueue q { queueEntry s q with limit := l } s) s,
       if w.bits 17 0 = l then [] else reportElem 0x0803 0 w (w32 l))
    | none => (s, [])
  .done ((qs.take 256).map (fun q => elemW 0x0805 (queueWords s q ++ [w32 (queueCells s q), 0])) ++ rep ++ rep2) s

def execQueueConfig (h : Hdr) (b : Body) (s : State) : Out := run (.queueConfig h b) opQueueConfig h b (ansQueueConfig b) s

def opShaperSet : Op := { code := 0x0801, worlds := [0], life := 5, specs := [elQueue, el 0x0802 4, el 0x8804 8 true], far := fun _ => true }

/-- SHAPER_SET. -/
def ansShaperSet (b : Body) (s : State) : Ans :=
  let (qs, rep) := queuesNamed b
  let ws := wordsOf b 0x8804
  let v := boundsApplied (wordAt ws 1)
  .done (rep ++ reportElem 0x8804 1 (wordAt ws 1) v) (qs.foldl (fun s q => reshape q ((wordAt ws 0).bits 23 0) v s) s)

def execShaperSet (h : Hdr) (b : Body) (s : State) : Out := run (.shaperSet h b) opShaperSet h b (ansShaperSet b) s

def elGclPort : ElemSpec := el 0x8806 4 true fun ws => decide (byteAt ws 0 < 4)

/-- The egress that GCL_PORT names. -/
def gclEgress (b : Body) : Nat := byteAt (wordsOf b 0x8806) 0 % 4

def opGclWrite : Op :=
  { code := 0x0802, worlds := [0], life := 5,
    specs := [elGclPort, el 0x8807 4 true fun ws => decide ((wordAt ws 0).toNat < 1024),
      { typ := 0x8808, len := fun n => decide (8 ≤ n) && decide (n ≤ 2048) && decide (n % 8 = 0), req := true }],
    check := fun b =>
      if 1024 < (wordAt (wordsOf b 0x8807) 0).toNat + (wordsOf b 0x8808).length / 2 then some (elemIndex b 0x8808) else none, far := fun _ => true }

/-- GCL_WRITE: entries of the administrative list. -/
def ansGclWrite (b : Body) (s : State) : Ans :=
  let e := gclEgress b
  let first := (wordAt (wordsOf b 0x8807) 0).toNat
  let ws := wordsOf b 0x8808
  let n := ws.length / 2
  let ival := fun (i : Nat) => Legal.apply (.range 8 1000000000) 32 (wordAt ws (2 * i + 1)).toNat
  let x := egress s e
  let adm := (List.range n).foldl (fun m i => put m (first + i) (byteAt ws (8 * i), ival i)) x.admin
  .done ((List.range n).flatMap fun i => reportElem 0x8808 (2 * i + 1) (wordAt ws (2 * i + 1)) (w32 (ival i)))
    (setEgress e { x with admin := adm } s)

def execGclWrite (h : Hdr) (b : Body) (s : State) : Out := run (.gclWrite h b) opGclWrite h b (ansGclWrite b) s

def opGclCommit : Op :=
  { code := 0x0803, worlds := [0], life := 5, specs := [elGclPort, el 0x8809 8 true, el 0x880A 8 true], far := fun _ => true }

/-- An administrative entry that GCL_WRITE has not written: every gate closed for the shortest INTERVAL (log entry 1). -/
def adminEntry (x : Egress) (i : Nat) : Nat × Nat := get x.admin i (0, 8)

/-- GCL_COMMIT: the list becomes pending, or operational at once where BASE is reached (R331, R143). -/
def ansGclCommit (b : Body) (s : State) : Ans :=
  let e := gclEgress b
  let ws := wordsOf b 0x8809
  let cyc := Legal.apply (.range 1000 1000000000) 32 (wordAt ws 0).toNat
  let n := Legal.apply (.range 1 1024) 16 ((wordAt ws 1).bits 31 16)
  let base := bytesNat (wordsOf b 0x880A) 0 8 % 2 ^ 40
  let x := egress s e
  let g : GateList :=
    { entries := (List.range n).map (adminEntry x), cycle := cyc, base := base, enable := (wordAt ws 1).bit 8 }
  let late := decide (fastDiff base (fast s) ≤ 0)
  let at_ := if late then fast s else base
  let x := { x with pending := some g, changeT := at_, late := late }
  let s := setEgress e x s
  let s := if late then changeList e s else s
  .done ([elemW 0x080B [w32 (at_ / 2 ^ 32), w32 at_]] ++ reportElem 0x8809 0 (wordAt ws 0) (w32 cyc) ++
      reportElem 0x8809 1 (wordAt ws 1) ((wordAt ws 1).withBits 31 16 n)) s

def execGclCommit (h : Hdr) (b : Body) (s : State) : Out := run (.gclCommit h b) opGclCommit h b (ansGclCommit b) s

end Sys2Proof.Machine
end

