-- ==== Sys2Proof/Machine/Bricks.lean ====
section
/-! DEFINITION. Bricks (09): a frame's arrival and path, the context cache, staging, dispatch, tiles, the express lane, the reorder
buffer, tag results, duplicate discard, the express role, and the express hold. -/
namespace Sys2Proof.Machine
open Sys2Proof

/-! ## Counters -/

/-- A counter of a brick: 0 STOMP, 1 EARLY_DROP, 2 KS_MISPRED, 3 KS_WAIT, 4 EXP_FALLBACK, 5 DISP_STALL, 6 DUP_TOO_LONG, 7 TWIN_MISS. -/
def brkCount (b i : Nat) (s : State) : State :=
  let s := bump (0x070010 + 0x100 * b + 4 * i) 1 s
  match i with
  | 2 => perf b 6 1 s
  | 3 => perf b 7 1 s
  | 5 => perf b 5 1 s
  | _ => s

/-- A counter of the duplicate-discard stage: 0 FIRST_LP0, 1 FIRST_LP1, 2 DUP, 3 HOLD, 4 RESYNC. -/
def ddCount (i : Nat) (s : State) : State := bump (0x070400 + 4 * i) 1 s

/-- FLOW_MISS of a brick. -/
def missCount (b : Nat) (s : State) : State := bump (0x050010 + 0x100 * b) 1 s

/-! ## Arrival (R16, R17, R345, R385, R496) -/

/-- The values that GLB_DATAFLOW's fields [3:0] take when applied (Table 1.4). -/
def flowWanted (s : State) : Nat :=
  let w := regWord s 0x000040
  let t0 := w.bit 0
  let t1 := w.bit 1
  bit t0 + 2 * bit t1 + 4 * bit (w.bit 2 && t0 == t1) + 8 * bit (w.bit 3 && t0 && t1)

/-- The port codes whose data flow the application in progress changes (R17). DESIGN CHOICE, log entry 30: the spec does not list them; the
model takes PROT_LINE to change all four, LPn_TRUNK CPn and LPn, ADD_DROP LP0 and LP1. -/
def portsChanging (s : State) : List Nat :=
  let d := Nat.xor s.brk.flow (fld s 0x000040 7 4)
  if d.testBit 2 then [0, 1, 2, 3]
  else (if d.testBit 0 then [0, 2] else []) ++ (if d.testBit 1 then [1, 3] else []) ++ if d.testBit 3 then [2, 3] else []

/-- A port takes no frames: the datapath is held, the device stands by, a power transition runs (R503), a full self-test runs
(R541), or an application changes the port's data flow. -/
def takesNone (s : State) (p : Nat) : Bool :=
  dataHeld s || bondMuted s || s.pwr.target.isSome || (match s.obs.selftest with | some x => x.full | none => false) || (flag s 0x000040 8 && (portsChanging s).contains p)

/-- A frame for the command processor (R34, R35), of a legal length (R119, R120). -/
def isCommand (s : State) (p k : Nat) (f : Frame) : Bool :=
  decide (64 ≤ f.len) && decide (f.len ≤ frameMax s p) &&
  decide (f.etype = fld s 0x1F0000 15 0) && decide (f.tags.length ≤ 1) && flag s 0x1F0004 (8 * p + k) && f.fcsOk && f.sec.isNone

/-- A PTP frame (R152). -/
def isPtp (f : Frame) : Bool :=
  (decide (f.etype = 0x88F7) && decide (f.tags.length ≤ 1)) || (f.ip.isSome && !f.ipOpts && (decide (f.udpPort = some 319) || decide (f.udpPort = some 320)))

/-- A frame of the GDOI service on its sub-port, in its VLAN: UDP to its address and port 848, or an ARP request for that address (R437).
What it says comes as GDOI_MESSAGE_RX and ARP_REQUEST_RX. -/
def isGdoi (s : State) (sp : Nat) (f : Frame) : Bool :=
  gdoiServes s && decide (sp = gdoiSp s) && f.sec.isNone && decide (f.tags.length ≤ 1) &&
    decide ((match f.tags with | t :: _ => t.vid % 4096 | [] => 0) = fld s 0x0C0100 11 0) &&
    decide (f.ip = some (4, (regWord s 0x0C0108).toNat)) && (decide (f.udpPort = some 848) || decide (f.etype = 0x0806))

/-- A PTP frame consumed and verified awaits the firmware with its receive timestamp (R152, R153). -/
def ptpArrived (port st : Nat) (s : State) : State := { s with time := { s.time with ptpIn := s.time.ptpIn ++ [(port, stampTod s st)] } }

/-- A PTP frame for this device's PTP port (R153). -/
def ptpFor (s : State) (h : Held) (key : Nat) : Bool := isPtp h.frame && ptpRxSc s key

/-- The PTP port on a sub-port of a port. -/
def ptpOn (s : State) (p k : Nat) : Option PtpPort :=
  s.time.ptpPorts.find? fun q => decide (q.port = p) && (decide (2 ≤ p) || decide (q.sub = k))

/-! ## The path choice (R243, R263, R266) -/

/-- A class is express in a brick. -/
def expressClass (s : State) (b c : Nat) : Bool := (fld s (0x070000 + 0x100 * b) 23 16).testBit (c % 8)

/-- The express lane of a brick takes frames: EXPRESS_EN, the tile in role and not failed; never B1 in protected-line mode. -/
def expressOpen (s : State) (b : Nat) : Bool :=
  let x := tile s b 0
  flag s (0x070000 + 0x100 * b) 0 && x.ok && decide (x.role = 1) && !x.failed && !(decide (b = 1) && protLine s)

/-- The SA a frame would take: the ACTIVE one of a transmit SC, the one on the AN of a receive SC. -/
def saFor (s : State) (key : Nat) (an : Nat) : Option (Nat × Sa) :=
  match scOf s key with
  | none => none
  | some c => if scRx key then (entryOn c an).bind fun e => (saOf s e).map fun a => (e, a) else activeTx s c

/-- Whether a frame takes the express path: its class and length, and a banked SA or no cipher. -/
def expressFit (s : State) (b cls len : Nat) (sc : Option Nat) (an : Nat) : Bool :=
  expressOpen s b && expressClass s b cls && decide (len ≤ 2048) &&
    (match sc with
     | none => true
     | some key => match saFor s key an with
       | some (_, a) => a.banked
       | none => false)

/-- An express-class frame that takes the bulk path is counted, but in B1 in protected-line mode (R243, R23). -/
def fallback (b cls : Nat) (s : State) : State :=
  if expressClass s b cls = true ∧ (b = 1 ∧ protLine s = true) = false then brkCount b 4 s else s

/-! ## Lengths -/

/-- The length at which a frame leaves: bypassed, under a transmit SC, as a unit of a path, or decrypted (R202, R264, R266, R291). -/
def txLen (len seqTag : Nat) (c : Sc) : Nat := if c.path then len + seqTag + 20 else len + seqTag + 24 + 8 * bit c.sciExplicit
def rxLen (f : Frame) (seqTag : Nat) : Nat :=
  match f.sec with
  | some g => f.len - 24 - 8 * bit g.sc - seqTag
  | none => f.len

/-- Bytes of user data of a clear frame: what follows the addresses, without the FCS and the tags kept in clear. -/
def userBytes (len tags : Nat) : Nat := len - 16 - 4 * tags

/-! ## Keystream banks in use (R254, R255) -/

/-- A frame of `len` bytes and PN reads the bank of its SA: a wait or a misprediction is counted, and the bank is primed for the next
PN. `fresh` says that a prediction cannot hold (R229). -/
def useBank (entry pn len : Nat) (rx fresh : Bool) (s : State) : State :=
  match bankOf s entry with
  | none => s
  | some (b, k) =>
    let x := get (brick s b).banks k { sa := entry, primed := pn }
    let t := bc s b
    let miss := rx && (fresh || decide (x.primed ≠ pn))
    let wait := !miss && decide (s.now < x.freeAt + 15 * t)
    let from_ := if miss then s.now + 14 * t else max s.now (x.freeAt + 15 * t)
    let s := if miss then brkCount b 2 s else if wait then brkCount b 3 s else s
    let y := { x with primed := if miss then pn else pn + 1, freeAt := from_ + (len + 127) / 128 * t }
    setBrick b { brick s b with banks := put (brick s b).banks k y } s

/-- After a tag result the bank of a mispredicted frame, or of a failed one, is primed for HIGH_PN + 1 (R255). -/
def rePredict (entry pn : Nat) (ok : Bool) (s : State) : State :=
  match bankOf s entry with
  | none => s
  | some (b, k) =>
    let x := get (brick s b).banks k { sa := entry, primed := 0 }
    if ok = true ∧ pn < x.primed then s else reprime entry s

/-! ## Receive checks (R218 to R221, R224, R360) -/

/-- What the receive checks give: the frame is dropped, delivered without decryption, or checked under an SA. -/
inductive Checked where
  | drop
  | plain
  | secure (entry gen pn : Nat)
  deriving DecidableEq, Repr

/-- Step 1 of R218 as far as the frame alone shows it (R204). -/
def badTag (f : Frame) (g : SecTag) : Bool :=
  let body := f.len - 40 - 8 * bit g.sc - 4 * f.tags.length
  g.v || (g.es && g.sc) || g.scb || (g.c && !g.e) || decide (f.len < 40 + 8 * bit g.sc + 4 * f.tags.length) ||
    (decide (g.sl ≠ 0) && decide (g.sl ≠ body))

/-- A duplicate is counted (R220, R221). -/
def replayDup (key : Nat) (s : State) : State := bump 0x060028 1 (scCount key 7 1 s)

/-- Step 4 of R218 on a recovered PN: the replay check (R220), then the in-flight check (R221); none where the frame is dropped. -/
def replayCheck (b key entry pn : Nat) (a : Sa) (c : Sc) (s : State) : Option State × State :=
  let l := lowestPn a c
  if c.replay = true ∧ pn < l then (none, scCount key 4 1 s)
  else if c.replay = true ∧ pn ≤ a.pn ∧ a.pn < pn + 1024 ∧ a.bitmap.testBit (a.pn - pn) = true then
    (none, replayDup key (scCount key 4 1 s))
  else if pnHeld s b entry pn then (none, replayDup key s)
  else if c.replay = false ∧ pn < l then (some (scCount key 3 1 s), s)
  else if c.replay = true ∧ pn + 1024 ≤ a.pn then (some (scCount key 8 1 s), s)
  else (some s, s)

/-- A frame checked under the SA on an AN: PN recovery, replay, the receive ceiling (R218 steps 2 to 4, R360). Under Disabled the replay
check is not made: the frame is delivered with its SecTAG and ICV removed, or dropped with E = 1 (R224; DEDUCED, log entry 33). -/
def checkSa (b key an p : Nat) (e_ : Bool) (c : Sc) (s : State) : Checked × State :=
  match (entryOn c an).bind fun e => (saOf s e).map fun a => (e, a) with
  | none => (.drop, scCount key (if c.validate = 0 then 0 else 1) 1 s)
  | some (e, a) =>
    if a.st = 3 then (.drop, scCount key (if c.validate = 0 then 0 else 1) 1 s)
    else
      let pn := recoverPn a c p
      if 2 ^ 64 ≤ pn then (.drop, scCount key 4 1 s)
      else if pn = 0 then (.drop, if c.path then s else secyCount (scPort key) 2 s)
      else if c.validate = 2 ∧ c.path = false then (if e_ then .drop else .plain, scCount key 2 1 s)
      else match replayCheck b key e pn a c s with
        | (none, s) => (.drop, s)
        | (some s, _) =>
          if rxLimited s = true ∧ get s.bnd.rxCeil e (a.pn + 1) ≤ pn then
            (.drop, askRx e (pn + rxStep s c) c (bump 0x0B0018 1 s))
          else (.secure e a.gen pn, s)

/-- The receive checks of a line frame that resolved to an SC (R218, R224). -/
def rxChecks (b key : Nat) (f : Frame) (tagged : Bool) (s : State) : Checked × State :=
  match scOf s key with
  | none => (.drop, missCount b s)
  | some c =>
    match (if tagged then f.sec else none) with
    | none => if c.validate = 0 then (.drop, secyCount (scPort key) 1 s) else (.plain, secyCount (scPort key) 0 s)
    | some g =>
      if c.xpn = false ∧ g.pn = 0 then (.drop, secyCount (scPort key) 2 s)
      else checkSa b key g.an g.pn g.e c s

/-! ## The context cache (R248) -/

/-- An SC's context is used: a hit moves it to the most recently used, a miss joins those being fetched. -/
def context (b key : Nat) (s : State) : Bool × State :=
  let x := brick s b
  if x.misses.contains key then (false, s)
  else if x.cache.contains key then (true, setBrick b { x with cache := x.cache.filter (· ≠ key) ++ [key] } s)
  else (false, perf b 4 1 (setBrick b { x with misses := x.misses ++ [key] } s))

/-- A ninth miss stalls the parser (R248). -/
def parserFull (s : State) (b : Nat) (sc : Option Nat) : Bool :=
  match sc with
  | some key => let x := brick s b; decide (8 ≤ x.misses.length) && !x.misses.contains key && !x.cache.contains key
  | none => false

/-! ## The express lane (R247, R263 to R265) -/

/-- A frame of a brick. -/
def heldBy (s : State) (b id : Nat) : Option Held := (brick s b).held.find? fun h => decide (h.id = id)

/-- An earlier frame of the same SC is still in the brick. -/
def behind (s : State) (h : Held) : Bool :=
  ((brick s h.brick).held.takeWhile fun x => decide (x.id ≠ h.id)).any fun x => decide (x.sc = h.sc) && h.sc.isSome && !x.gone

/-- A frame joins a brick. -/
def enterBrick (h : Held) (s : State) : State :=
  perf h.brick (if h.express then 2 else 3) (bit (!h.twin)) (setBrick h.brick { brick s h.brick with held := (brick s h.brick).held ++ [h] } s)

/-- The next frame number. -/
def takeId (s : State) : Nat × State := (s.brk.nextId, { s with brk := { s.brk with nextId := s.brk.nextId + 1 } })

/-- A transmit frame is counted at its SA and SC (Table 8.8). -/
def countSent (entry key bytes : Nat) (s : State) : State :=
  match scOf s key with
  | some c => scCount key (if c.integrityOnly then 0 else 1) bytes (saCount entry (if c.integrityOnly then 0 else 1) s)
  | none => s

/-- The bytes of user data of a frame in a brick. -/
def Held.userBytes (h : Held) (c : Sc) : Nat :=
  if c.path then h.frame.len - 4
  else if h.brick < 2 then Machine.userBytes h.frame.len (min h.frame.tags.length h.clear)
  else Machine.userBytes h.outLen h.frame.tags.length

/-- What a tile captures of an SC and its SA when a frame is dispatched to it (R230). -/
def tileCapture (s : State) (key entry : Nat) : Option Crypt :=
  match scOf s key, saOf s entry with
  | some c, some a => some { key := Nat.xor a.key s.sas.mask, iv := a.ivBase, cfg := c.cfg, sci := c.sci, an := a.an }
  | _, _ => none

/-- The next sequence number of a stream (R264). -/
def seqOf (s : State) (stream : Nat) : Nat := get s.brk.seqs stream 1
def takeSeq (stream : Nat) (s : State) : State :=
  { s with brk := { s.brk with seqs := put s.brk.seqs stream (if seqOf s stream = 0xFFFFFFFF then 1 else seqOf s stream + 1) } }

/-- The copy on the twin SC of a protected stream (R263, R265). -/
def sendTwin (h : Held) (twin : Nat) (s : State) : State :=
  match saFor s twin 0 with
  | none => brkCount 0 7 s
  | some (_, a) =>
    if a.banked = false ∨ (tile s 0 1).failed = true ∨ (tile s 0 1).role ≠ 2 then brkCount 0 7 s
    else match assignPn twin s with
      | (none, s) => s
      | (some (e, g, pn), s) =>
        let (id, s) := takeId s
        let s := useBank e pn h.frame.len false false (countSent e twin (match scOf s twin with | some c => h.userBytes c | none => 0) s)
        enterBrick { h with id := id, sc := some twin, sa := some e, gen := g, pn := pn, crypt := tileCapture s twin e, eport := 3, chan := scIdx twin % 512, tile := some 1,
                            twin := true, stage := .tile } s

/-- An encrypt frame starts through the express lane: its PN is assigned and both copies of a protected stream go (R214, R247). -/
def laneTx (h : Held) (s : State) : State :=
  match h.sc with
  | none => updFrame h.id (fun x => { x with stage := .tile, tile := some 0 }) s
  | some key =>
    match assignPn key s with
    | (none, s) => leaveBrick h.id s
    | (some (e, g, pn), s) =>
      let s := useBank e pn h.frame.len false false (countSent e key (match scOf s key with | some c => h.userBytes c | none => 0) s)
      match twinOf s key with
      | none => updFrame h.id (fun x => { x with stage := .tile, tile := some 0, sa := some e, gen := g, pn := pn, crypt := tileCapture s key e }) s
      | some twin =>
        let q := seqOf s (scIdx key)
        let h2 := { h with stage := .tile, tile := some 0, sa := some e, gen := g, pn := pn, crypt := tileCapture s key e, seq := some (scIdx key, q) }
        let s := updFrame h.id (fun _ => h2) (takeSeq (scIdx key) s)
        sendTwin h2 twin s

/-- A decrypt frame that has passed its checks starts through the express lane, where the tile captures its SA (R230). -/
def laneRx (h : Held) (s : State) : State :=
  let s := match h.sa with
    | some e =>
      let fresh := match saOf s e with
        | some a => decide (a.st = 0) && (match scOf s a.scKey with | some c => (saIn s c 1).isSome | none => false)
        | none => false
      useBank e h.pn h.frame.len true fresh s
    | none => s
  let c := match h.sa, h.sc with | some e, some key => tileCapture s key e | _, _ => none
  let g := match h.sa.bind (saOf s) with | some a => a.gen | none => h.gen
  updFrame h.id (fun x => { x with stage := .tile, tile := some 0, crypt := c, gen := g }) s

/-- A frame starts through the express lane where no earlier frame of its SC is still in the brick (R247). -/
def laneStart (id : Nat) (s : State) : State :=
  match frameOf s id with
  | none => s
  | some h =>
    if h.stage ≠ .laneWait ∨ behind s h = true then s
    else if h.brick < 2 then laneTx h s else laneRx h s

def execExpressLaneStart (t id : Nat) (s : State) : Out := ev t (laneStart id) s

/-- The sub-port a decrypted frame leaves from (R580): CP0 for LP0, CP1 for LP1, CP0 for a protected stream. -/
def rxEgress (s : State) (b : Nat) (c : Sc) : Nat × Nat := (if protLine s = true ∧ c.express = true then 0 else b - 2, c.subport)

/-- An express frame waits for its lane, or starts in it. -/
def toLane (id : Nat) (s : State) : State := laneStart id (updFrame id (fun x => { x with stage := .laneWait }) s)

/-- An express frame after its context is known: the receive checks of a decrypt frame (step 4 of Table 9.3), then the lane. -/
def expressIn (id : Nat) (s : State) : State :=
  match frameOf s id with
  | none => s
  | some h =>
    match h.sc with
    | none => toLane id s
    | some key =>
      if h.brick < 2 then toLane id s
      else match rxChecks h.brick key h.frame true s with
        | (.drop, s) => leaveBrick id s
        | (.plain, s) => if ptpFor s h key then leaveBrick id s else toLane id (updFrame id (fun x => { x with unchecked := true, tagRes := some true }) s)
        | (.secure e g pn, s) => toLane id (updFrame id (fun x => { x with sa := some e, gen := g, pn := pn }) s)

/-- A frame goes on once its context is known: an express frame to the lane, a bulk frame to dispatch. -/
def contextKnown (id : Nat) (s : State) : State :=
  match frameOf s id with
  | none => s
  | some h =>
    if h.express then expressIn id s
    else
      let x := brick s h.brick
      let n := x.dispNext
      updFrame id (fun y => { y with stage := .dispatch, disp := n }) (setBrick h.brick { x with dispNext := n + 1 } s)

/-- A frame at the context read (R248). -/
def atContext (id : Nat) (s : State) : State :=
  match frameOf s id with
  | none => s
  | some h =>
    match h.sc with
    | none => contextKnown id s
    | some key =>
      match context h.brick key s with
      | (true, s) => contextKnown id s
      | (false, s) => updFrame id (fun x => { x with stage := .miss }) s

/-- A context arrives: its frame and those of its SC that wait behind it go on (R248). -/
def contextFetched (id : Nat) (s : State) : State :=
  match frameOf s id with
  | none => s
  | some h =>
    match h.sc with
    | none => s
    | some key =>
      let x := brick s h.brick
      if h.stage ≠ .miss ∨ (x.misses.take 8).contains key = false then s
      else
        let cache := x.cache ++ [key]
        let s := setBrick h.brick { x with
          misses := x.misses.filter (· ≠ key), cache := if 4096 < cache.length then cache.drop 1 else cache } s
        (x.held.filter fun y => decide (y.stage = .miss) && decide (y.sc = some key)).foldl (fun s y => contextKnown y.id s) s

def execContextFetchDone (t id : Nat) (s : State) : Out := ev t (contextFetched id) s

/-! ## Arrival at a brick (R242, R243, R582) -/

/-- The counts of a frame that classification drops (R582, R179, R180). -/
def dropCounts (h : Held) (s : State) : State :=
  let s := match h.secy with | some i => secyCount (h.brick % 2) i s | none => s
  match h.drop with
  | some 1 => rxDrop h.ingress s
  | some 2 => missCount h.brick s
  | some 3 => bump (0x050020 + 0x100 * h.brick) 1 s
  | _ => s

/-- Bytes in a brick's ingress staging. -/
def stagedBytes (s : State) (b : Nat) : Nat := total ((brick s b).held.filter fun h => decide (h.stage = .staging)) fun h => h.frame.len

/-- A bulk frame enters staging, or is dropped where it is full (R242). -/
def stage (h : Held) (s : State) : State :=
  if 98304 < stagedBytes s h.brick + h.frame.len then perf h.brick 10 1 (rxDrop h.ingress s) else enterBrick { h with stage := .staging } s

/-- A frame that has failed at its port goes no further. -/
def failFrame (sp : Nat) (f : Frame) (s : State) : State := (failedRx sp f (rxStamp s sp) s).getD s

/-- A clear frame after classification: dropped, express, or bulk (R179, R205, R243, R263). -/
def clearChosen (h : Held) (sp : Nat) (r : Resolved) (s : State) : State :=
  let b := h.brick
  let f := h.frame
  let exp := expressFit s b r.cls f.len r.sc 0
  let short := !f.fcsOk && decide (f.len ≤ 128)
  let late := !f.fcsOk && decide (128 < f.len)
  if r.drop.isSome then
    if exp then dropCounts h (failFrame sp f s) else stage h s
  else match r.sc with
    | none =>
      if exp then
        if short then failFrame sp f s
        else expressIn h.id (enterBrick { h with express := true, stage := .laneWait, stomp := late } s)
      else stage h (fallback b r.cls s)
    | some key =>
      match scOf s key with
      | none => s
      | some c =>
        let prot := (twinOf s key).isSome
        if prot = true ∧ (2040 < f.len ∨ exp = false) then brkCount 0 6 (failFrame sp f (if r.missed then missCount b s else s))
        else
          let out := txLen f.len (8 * bit prot) c
          let h := { h with outLen := out }
          if exp then
            let s := if r.missed then missCount b s else s
            if c.path = false ∧ frameMax s (2 + b) < out then secyCount b 3 s
            else if short then failFrame sp f s
            else atContext h.id (enterBrick { h with express := true, missed := false, stage := .miss, stomp := late } s)
          else stage h (fallback b r.cls s)

/-- A frame's first word arrives from a clear sub-port (R242, R177), or a frame from a management port. -/
def clearRx (sp : Nat) (f : Frame) (s : State) : State :=
  let p := spPort sp
  let k := spIdx sp
  if sp = 16 ∨ sp = 17 then mgmtIn sp f s
  else if 18 ≤ sp ∨ subExists s sp = false ∨ (subPort s sp).link = false then s
  else if f.etype = 0x8808 then macControl sp f s
  else if isCommand s p k f then s
  else
    let s := countRx sp f s
    if f.len < 64 ∨ frameMax s p < f.len then failFrame sp f s
    else if takesNone s p then failFrame sp f s
    else if isPtp f = true ∧ (ptpOn s p k).isSome = true then
      (if f.fcsOk then ptpArrived p (rxStamp s sp) s else failFrame sp f s)
    else if isGdoi s sp f = true ∧ f.fcsOk = true then s
    else
      let (r, s) := resolveTx p k f (perf p 1 1 s)
      let (id, s) := takeId s
      let chan := match r.sc with
        | some key => if lpTrunk s p then scIdx key % 256 else scIdx key % 512
        | none => 511
      clearChosen { id := id, brick := p, port := p, sub := k, frame := f, stamp := rxStamp s sp, drop := r.drop, missed := r.missed, cls := r.cls,
                    sc := r.sc, express := false, stage := .staging, eport := 2 + p, chan := chan, outLen := f.len, secy := r.secy,
                    clear := fld s (0x060000 + 4 * p) 3 2 } sp r s

def execClearFrameRx (t sp : Nat) (frame : Frame) (s : State) : Out := ev t (clearRx sp frame) s

/-- A line frame after classification (R180, R224, R243, R266). -/
def lineChosen (h : Held) (sp : Nat) (r : Resolved) (tagged : Bool) (s : State) : State :=
  let b := h.brick
  let f := h.frame
  let an := match f.sec with | some g => g.an | none => 0
  let sc := r.sc.bind (scOf s)
  let plain := !tagged || (match sc with | some c => decide (c.validate = 2) | none => false)
  let exp := expressFit s b r.cls f.len r.sc an && (r.sc.isNone || !plain)
  let short := !f.fcsOk && decide (f.len ≤ 128)
  let late := !f.fcsOk && decide (128 < f.len)
  let must := protLine s && (match sc with | some c => c.express | none => false)
  if r.drop.isSome then
    if exp then dropCounts h (failFrame sp f s) else stage h s
  else if must = true ∧ exp = false then brkCount b 4 (failFrame sp f s)
  else if exp then
    if short then failFrame sp f s
    else if r.sc.isNone then expressIn h.id (enterBrick { h with express := true, stage := .laneWait, stomp := late, tagRes := some true } s)
    else atContext h.id (enterBrick { h with
      express := true, stage := .miss, stomp := late, seq := if must then f.seqTag else none, eligible := !must } s)
  else stage { h with express := false } (fallback b r.cls s)

/-- A frame's first word arrives from a line port in Ethernet mode (R218 step 1 before classification, R153, R203, R580). An express frame
of B3 in bypass passes to CP1 and not through the duplicate-discard stage in protected-line mode, having no SC and so no stream: DESIGN
CHOICE, log entry 31 (Table 1.5 sends B3's express output to that stage, R266 and R267 speak of tagged streams only). -/
def lineRx (p : Nat) (f : Frame) (s : State) : State :=
  let sp := 18 + p
  if 2 ≤ p ∨ lpTrunk s p = true ∨ (subPort s sp).link = false then s
  else if f.etype = 0x8808 then macControl sp f s
  else
    let s := countRx sp f s
    if f.len < 64 ∨ frameMax s (2 + p) < f.len then failFrame sp f s
    else if takesNone s (2 + p) then failFrame sp f s
    else if f.etype = 0x888E then failFrame sp f s
    else
      let b := 2 + p
      let tagged := hasSecTag s p f
      if (if tagged then f.sec.any (badTag f) else false) = true then
        (if f.fcsOk then secyCount p 2 s else failFrame sp f s)
      else
        let (r, s) := resolveRx b f (perf b 1 1 s)
        let ptp := match ptpOn s b 0 with | some q => some (scKey p true q.rxSc) | none => none
        if isPtp f = true ∧ ptp.isSome = true ∧ r.sc ≠ ptp then rxDrop sp (failFrame sp f s)
        else
          let (id, s) := takeId s
          let (ep, es) := match r.sc.bind (scOf s) with
            | some c => rxEgress s b c
            | none => (p, r.sub)
          let prot := protLine s && (r.sc.bind (scOf s)).any (fun c => c.express)
          lineChosen { id := id, brick := b, port := 2 + p, sub := 0, frame := f, stamp := rxStamp s sp, drop := r.drop, cls := r.cls, sc := r.sc,
                       express := false, stage := .staging, eport := ep, esub := es, chan := es,
                       outLen := if tagged then rxLen f (8 * bit prot) else f.len, secy := r.secy,
                       clear := fld s (0x060000 + 4 * p) 3 2 } sp r tagged s

def execLineFrameRx (t port : Nat) (frame : Frame) (s : State) : Out := ev t (lineRx port frame) s

/-- Bulk entries of the reorder buffer in use, with those that frames at dispatch are to take (Table 1.6). -/
def bulkInUse (s : State) (b : Nat) : Nat :=
  ((brick s b).held.filter fun h => !h.express && (decide (h.stage = .dispatch) || decide (h.stage = .tile) || decide (h.stage = .done))).length

/-- The last byte and the FCS verdict of a bulk frame are in: it is discarded, or passes its classification slot (R242, R582). The parser
holds it while every bulk entry is occupied (R28). -/
def stagingRelease (id : Nat) (s : State) : State :=
  match frameOf s id with
  | none => s
  | some h =>
    if h.stage ≠ .staging then s
    else if h.frame.fcsOk = false then perf h.brick 10 1 ((failedRx h.ingress h.frame h.stamp (leaveBrick id s)).getD (leaveBrick id s))
    else if h.drop.isSome then perf h.brick 10 1 (dropCounts h (leaveBrick id s))
    else if parserFull s h.brick h.sc = true ∨ 1472 ≤ bulkInUse s h.brick then s
    else
      let s := if h.missed then missCount h.brick s else s
      atContext id (updFrame id (fun x => { x with missed := false }) s)

def execStagingRelease (t id : Nat) (s : State) : Out := ev t (stagingRelease id) s

/-! ## Dispatch (R28, R246, R262, R316 to R318) -/

/-- A tile holds no frame. -/
def tileFree (s : State) (b k : Nat) : Bool :=
  ((brick s b).held ++ s.que.frames).all fun h => !(decide (h.brick = b) && decide (h.tile = some k))

/-- A tile is in a bulk role and not failed. -/
def bulkTile (s : State) (b k : Nat) : Bool := let x := tile s b k; x.ok && decide (x.role = 0) && !x.failed

/-- A tile that dispatch may give a bulk frame: bulk, idle, not under a whole test, and not awaited by the express role (R271, R583). -/
def dispatchable (s : State) (b k : Nat) : Bool :=
  let x := tile s b k
  bulkTile s b k && tileFree s b k && !(x.testing && decide (x.segments = 0)) &&
    !(flag s (0x070000 + 0x100 * b) 0 && (decide (k = 0) || (decide (k = 1) && decide (b = 0) && protLine s)))

/-- The next idle bulk tile after the one last chosen. -/
def nextTile (s : State) (b : Nat) : Option Nat :=
  ((List.range 6).map fun i => ((brick s b).last + 1 + i) % 6).find? (dispatchable s b)

/-- Bulk entries of the reorder buffer in use. -/
def bulkEntries (s : State) (b : Nat) : Nat :=
  ((brick s b).held.filter fun h => !h.express && (decide (h.stage = .tile) || decide (h.stage = .done))).length

/-- A bulk frame is admitted and takes its tile. -/
def giveTile (h : Held) (k clearLen : Nat) (s : State) : State :=
  match admitCells h clearLen s with
  | .inr i => perf 4 3 1 (refuse h i s)
  | .inl c =>
    let s := perf 4 1 (cellsOf c) { s with que := { s.que with cells := s.que.cells ++ [c] } }
    let s := match h.sa, h.sc with
      | some e, some key => if h.brick < 2 then countSent e key (match scOf s key with | some c => h.userBytes c | none => 0) s else s
      | _, _ => s
    updFrame h.id (fun _ => { h with stage := .tile, tile := some k }) (setBrick h.brick { brick s h.brick with last := k } s)

/-- The instant at which a bulk decrypt frame with verify-before-release off becomes eligible before its tag result: the first cell
commit at which B_s / r ≥ (B − B_s) / 16 + 8 (R262). -/
def cellEligible (s : State) (h : Held) : Nat :=
  let t := bc s h.brick
  let r := 100 * t / byteTime s h.egress            -- hundredths of a byte in one bc
  let n := cellsFor h.outLen
  let done := fun (k : Nat) => min h.outLen (256 * (k + 1))
  let k := ((List.range n).find? fun k => decide ((h.outLen - done k) * r + 128 * r ≤ done k * 1600)).getD (n - 1)
  s.now + 14 * t + (done k + 15) / 16 * t

/-- A bulk frame leaves dispatch for a tile (R246): a PN is assigned, or the receive checks are made; then admission. -/
def dispatch (h : Held) (k : Nat) (s : State) : State :=
  match h.sc with
  | none => giveTile { h with tagRes := some true } k h.frame.len s
  | some key =>
    match scOf s key with
    | none => missCount h.brick (leaveBrick h.id s)
    | some c =>
      if h.brick < 2 then
        if c.path = false ∧ frameMax s h.eport < h.outLen then secyCount h.brick 3 (leaveBrick h.id s)
        else match assignPn key s with
          | (none, s) => leaveBrick h.id s
          | (some (e, g, pn), s) => giveTile { h with sa := some e, gen := g, pn := pn, crypt := tileCapture s key e } k h.frame.len s
      else match rxChecks h.brick key h.frame (c.path || h.tagged) s with
        | (.drop, s) => leaveBrick h.id s
        | (.plain, s) => if ptpFor s h key then leaveBrick h.id s else giveTile { h with unchecked := true, tagRes := some true } k h.outLen s
        | (.secure e g pn, s) =>
          let h := { h with sa := some e, gen := g, pn := pn, crypt := tileCapture s key e, eligible := false }
          giveTile { h with cellAt := if vbrOn s key c then 0 else cellEligible s h } k h.outLen s

/-- Dispatch of a bulk frame: the first in order, to an idle bulk tile, with a reorder entry free (R28, R246). -/
def bulkDispatch (id : Nat) (s : State) : State :=
  match frameOf s id with
  | none => s
  | some h =>
    let x := brick s h.brick
    let first := (x.held.filter fun y => decide (y.stage = .dispatch)).all fun y => decide (h.disp ≤ y.disp)
    if h.stage ≠ .dispatch ∨ first = false ∨ 1472 ≤ bulkEntries s h.brick ∨ dataHeld s = true then s
    else match nextTile s h.brick with
      | none => if h.stalled then s else updFrame id (fun y => { y with stalled := true }) (brkCount h.brick 5 s)
      | some k => dispatch h k s

def execBulkDispatch (t id : Nat) (s : State) : Out := ev t (bulkDispatch id) s

/-! ## Tiles, reorder and the express hold (R242, R247, R322) -/

/-- A tile finishes a frame: it waits in the reorder buffer, or, where it has left for its queue, frees the tile. -/
def tileFinish (id : Nat) (s : State) : State :=
  updFrame id (fun h => if h.stage = .tile then { h with stage := .done, tile := none } else if h.stage = .queue then { h with tile := none } else h) s

def execTileFinish (t id : Nat) (s : State) : Out := ev t (tileFinish id) s

/-- A bulk decrypt frame of an SC with verify-before-release off. -/
def releasesEarly (s : State) (h : Held) : Bool :=
  !h.express && decide (2 ≤ h.brick) && h.sa.isSome && (match h.sc with
    | some key => (match scOf s key with | some c => !vbrOn s key c | none => false)
    | none => false)

/-- A frame may leave the reorder buffer (R247): its tile has finished, with its tag result on decrypt, and no earlier frame of its SC
is in the brick. -/
def mayRelease (s : State) (h : Held) : Bool :=
  !behind s h && ((decide (h.stage = .done) && (decide (h.brick < 2) || h.tagRes.isSome || h.sa.isNone)) ||
    (decide (h.stage = .tile) && releasesEarly s h) || (decide (h.stage = .done) && releasesEarly s h))

/-- An express frame that has not yet reached its egress stays in the brick. -/
def awaitsHold (s : State) (h : Held) : Bool := h.express && !h.gone && !(s.que.hold.any fun y => decide (y.id = h.id))

/-- A frame leaves the brick: a bulk frame for its queue (R247, R250). -/
def reorderRelease (id : Nat) (s : State) : State :=
  match [0, 1, 2, 3].findSome? (heldBy s · id) with
  | none => s
  | some h =>
    if mayRelease s h = false ∨ awaitsHold s h = true then s
    else
      let s := leaveBrick id s
      if h.express = true ∨ h.gone = true then s
      else { s with que := { s.que with frames := s.que.frames ++ [{ h with stage := .queue, queuedAt := s.now }] } }

def execReorderRelease (t id : Nat) (s : State) : Out := ev t (reorderRelease id) s

/-- Bytes and frames in the express hold of an egress. -/
def holdOf (s : State) (e : Nat) : List Held := s.que.hold.filter fun h => decide (h.eport = e) && !h.gone

/-- The rate of an ingress port, as the time of one byte. -/
def ingressByte (s : State) (h : Held) : Nat := byteTime s h.ingress

/-- An express frame reaches the framer's express input of a trunk egress, or finds it full (R339). -/
def enterFramer (h : Held) (s : State) : State :=
  let p := h.eport - 2
  let x := trunk s p
  if 32768 < x.expBytes + h.outLen then queCount h.eport 4 (txDrop h.egress (setGone h.id s))
  else
    let s := setTrunk p { x with
      expBytes := x.expBytes + h.outLen,
      units := x.units ++ [{ path := h.chan, slots := (h.outLen + 63) / 64, len := h.outLen, cls := h.cls % 8, frame := some h.id }] } s
    { s with que := { s.que with hold := s.que.hold ++ [{ h with stage := .queue, queuedAt := s.now }] } }

/-- A frame joins the express holding buffer (R322). -/
def intoHold (h : Held) (s : State) : State := { s with que := { s.que with hold := s.que.hold ++ [h] } }

/-- An express frame's first word reaches its egress: it passes at once, waits in its class FIFO, or is discarded (R116, R322). -/
def holdEnter (id : Nat) (s : State) : State :=
  match frameOf s id with
  | none => s
  | some h =>
    if h.express = false ∨ h.eligible = false ∨ h.gone = true ∨ s.que.hold.any (fun y => decide (y.id = id)) = true ∨
        (h.stage ≠ .tile ∧ h.stage ≠ .done) then s
    else
      let sp := h.egress
      let vbr := decide (2 ≤ h.brick) && (match h.sc with
        | some key => (match scOf s key with | some c => vbrOn s key c | none => false)
        | none => false)
      if vbr = true ∧ h.tagRes = none ∧ h.sa.isSome = true then s
      else
        if sinks s sp = true then txDrop (countsAt s sp) (setGone id s)
        else if 2 ≤ h.eport ∧ lpTrunk s (h.eport - 2) = true then enterFramer h s
        else
          let l := holdOf s h.eport
          let whole := if vbr then s.now else s.now + h.frame.len * ingressByte s h
          let h2 := { h with stage := .queue, queuedAt := s.now, wholeAt := whole }
          let first := (l.all fun y => !(decide (y.egress = sp) && decide (y.cls % 8 = h.cls % 8)))
          if 64 ≤ l.length ∨ 32768 < total l (·.outLen) + h.outLen then
            if first = true ∧ canSend s sp = true ∧ (subPort s sp).tx.isNone = true ∧ mayStart s sp 0 h2 = true then startFrame sp s.now h2 (intoHold h2 s)
            else queCount h.eport 4 (txDrop sp (setGone id s))
          else
            let s := intoHold h2 s
            if first = true ∧ canSend s sp = true ∧ (subPort s sp).tx.isNone = true ∧ (oneStepsOf s sp).all (fun o => decide (0 < stampDiff s o.2.tRel)) = true ∧
                mayStart s sp 0 h2 = true then startFrame sp s.now h2 s
            else s

def execExpressHoldEnter (t id : Nat) (s : State) : Out := ev t (holdEnter id) s

/-! ## Tag results (R222, R259 to R262) and duplicate discard (R267, R268) -/

def stream (s : State) (n : Nat) : Stream := get s.brk.streams n {}
def setStream (n : Nat) (x : Stream) (s : State) : State := { s with brk := { s.brk with streams := put s.brk.streams n x } }

/-- SEQ − HIGH by signed 32-bit difference. -/
def seqDiff (q high : Nat) : Int := signedOf 32 ((q + 2 ^ 32 - high % 2 ^ 32) % 2 ^ 32)

/-- A SEQ is marked in the bitmap. -/
def seqMarked (x : Stream) (q : Nat) : Bool :=
  let d := seqDiff q x.high
  decide (d ≤ 0) && decide (-1024 < d) && x.bitmap.testBit (-d).toNat

/-- A copy's tag result reaches the duplicate-discard stage. -/
def ddResult (n q : Nat) (ok : Bool) (s : State) : State :=
  let x := stream s n
  let x := { x with pending := if (match x.pending with | some p => decide (p.1 = q) | none => false) then none else x.pending }
  let d := seqDiff q x.high
  setStream n (
    if ok = false then x
    else if d ≤ -1024 then { x with high := q, bitmap := 1 }
    else if 0 < d then { x with high := q, bitmap := if d < 1024 then (x.bitmap * 2 ^ d.toNat + 1) % 2 ^ 1024 else 1 }
    else { x with bitmap := Nat.lor x.bitmap (2 ^ (-d).toNat) }) s

/-- A copy of a protected stream passes to its egress; while its tag result is awaited it is the stream's pending copy (R268). -/
def passCopy (id n q line : Nat) (known : Bool) (s : State) : State :=
  updFrame id (fun y => { y with eligible := true })
    (if known then s else setStream n { stream s n with pending := some (q, line) } s)

/-- A copy reaches the duplicate-discard stage (Table 9.7). -/
def ddArrive (id : Nat) (s : State) : State :=
  match frameOf s id with
  | none => s
  | some h =>
    match h.seq with
    | none => s
    | some (n, q) =>
      let line := h.port - 2
      if h.brick < 2 ∨ h.eligible = true ∨ h.gone = true then s
      else
        let x := stream s n
        if seqMarked x q then ddCount 2 (setGone id s)
        else if (match x.pending with | some p => decide (p.1 = q) | none => false) then
          ddCount 3 (setStream n { x with heldSeq := some id } s)
        else if seqDiff q x.high ≤ -1024 then
          record 0x0904 ([n, h.port, 0, 0] ++ beBytes 4 q) (ddCount 4 (passCopy id n q line h.tagRes.isSome s))
        else ddCount (if line = 0 then 0 else 1) (passCopy id n q line h.tagRes.isSome s)

def execDuplicateDiscard (t id : Nat) (s : State) : Out := ev t (ddArrive id) s

/-- The tag result of the pending copy is known: the held copy is discarded where that copy verified, or passes (R268). -/
def heldRelease (n : Nat) (s : State) : State :=
  let x := stream s n
  match x.heldSeq with
  | none => s
  | some id =>
    if x.pending.isSome then s
    else
      let s := setStream n { x with heldSeq := none } s
      match frameOf s id with
        | some h =>
          let q := match h.seq with | some p => p.2 | none => 0
          if seqMarked x q then setGone id s
          else updFrame id (fun y => { y with eligible := true })
            (if h.tagRes.isSome then s else setStream n { stream s n with pending := some (q, h.port - 2) } s)
        | none => s

def execHeldCopyRelease (t stream : Nat) (s : State) : Out := ev t (heldRelease stream) s

/-- The outer VID of a decrypted frame. -/
def clearVid (f : Frame) : Nat := match f.tags ++ f.inner with | t :: _ => t.vid % 4096 | [] => 0

/-- A unit of a trunk path counts in the performance data: i 0 verified, 1 bad or failing its tag (Table 10.8, R311). -/
def countUnit (p path i : Nat) (s : State) : State :=
  let x := trunk s p
  setTrunk p { x with secCnt := bumpTable x.secCnt (64 * (1 + path) + i) 1, raw := bumpTable x.raw (8 * (1 + path) + i) 1 } s

/-- The same for a frame of a path SC at its tag result. -/
def countPathTag (key : Nat) (c : Sc) (i : Nat) (s : State) : State := if c.path then countUnit (scPort key) (scIdx key) i s else s

/-- A received frame is integrity-only: E = 0 in its SecTAG, or its SC is so where it carries none. -/
def Held.integrityOnly (h : Held) (c : Sc) : Bool :=
  match h.frame.sec with
  | some g => !g.e
  | none => c.integrityOnly

/-- Frames that have been dispatched in the decrypt direction: in a brick, a queue or a hold. -/
def dispatched (s : State) : List Held :=
  (([2, 3].flatMap fun b => (brick s b).held) ++ s.que.frames ++ s.que.hold).filter fun h => h.sa.isSome && decide (2 ≤ h.brick)

/-- An earlier frame of a frame's SC, in release order, still awaits its tag result (R222). -/
def awaitsEarlier (s : State) (h : Held) : Bool :=
  (dispatched s).any fun x => decide (x.sc = h.sc) && decide (x.id < h.id) && x.tagRes.isNone

/-- A verified frame updates its SA, and its bank's prediction (R222, R255). -/
def verified (h : Held) (s : State) : State :=
  match h.sa with
  | some e => rePredict e h.pn true (rxVerified e h.gen h.pn s)
  | none => s

/-- The updates of an SC's verified frames that no earlier frame holds up are made, in release order (R222). -/
def settleVerified (key : Nat) (s : State) : State :=
  (((dispatched s).filter fun h => h.due && decide (h.sc = some key)).map (·.id)).foldl (fun s id =>
    match frameOf s id with
    | some h => if h.due = true ∧ awaitsEarlier s h = false then verified h (updFrame id (fun x => { x with due := false }) s) else s
    | none => s) s

/-- A counter of an SA is raised for a frame dispatched under the entry's generation (R222, R232). -/
def saCountFor (h : Held) (e i : Nat) (s : State) : State :=
  match saOf s e with
  | some a => if a.gen = h.gen then saCount e i s else s
  | none => s

/-- A tag has verified (R222, R195, R255, R267). A frame that came with a bad FCS teaches nothing (R195). -/
def tagOk (h : Held) (e key : Nat) (c : Sc) (s : State) : State :=
  let s := updFrame h.id (fun x => { x with tagRes := some true, due := true, eligible := if x.express then x.eligible else true }) s
  let s := countPathTag key c 0 s
  let s := saCountFor h e 0 (scCount key (if h.integrityOnly c then 5 else 6) (h.userBytes c) s)
  let s := settleVerified key s
  let s := match h.seq with | some (n, q) => ddResult n q true s | none => s
  let s := if h.frame.fcsOk then learnFrom h.brick key (spKey h.eport h.esub) (clearVid h.frame) h.frame.src s else s
  if ptpFor s h key then ptpArrived h.port h.stamp (setGone h.id (leaveQueues h.id s)) else s

/-- A frame whose tag failed once its egress had begun is stomped, and recorded (R260). -/
def stompFrame (h : Held) (e key : Nat) (s : State) : State :=
  record 0x0901 ([h.brick, h.port] ++ beBytes 2 (scIdx key) ++ beBytes 4 e)
    (brkCount h.brick 0 (updFrame h.id (fun x => { x with stomp := true }) s))

/-- A frame whose tag failed before its egress began is discarded (R259). -/
def failEarly (h : Held) (s : State) : State := brkCount h.brick 1 (setGone h.id (leaveQueues h.id s))

/-- A tag has failed (R224, R259 to R262). -/
def tagFail (h : Held) (e key : Nat) (c : Sc) (s : State) : State :=
  let s := match h.seq with | some (n, q) => ddResult n q false s | none => s
  let s := perf h.brick 8 1 (rePredict e h.pn false (countPathTag key c 1 s))
  let s := settleVerified key (updFrame h.id (fun x => { x with tagRes := some false }) s)
  let s := offerCapture h.ingress 4 h.frame.len (scIdx key) h.stamp h.frame.raw s
  if ptpFor s h key then
    rxDrop h.ingress (saCountFor h e 2 (setGone h.id (leaveQueues h.id s)))
  else if c.validate = 1 ∧ h.integrityOnly c = true then
    saCountFor h e 1 (updFrame h.id (fun x => { x with eligible := if x.express then x.eligible else true }) s)
  else
    let s := saCountFor h e 2 s
    let queued := (s.que.frames ++ s.que.hold).find? fun x => decide (x.id = h.id)
    match queued with
    | some q => if q.express = true ∨ q.gone = true then stompFrame h e key s else failEarly h s
    | none => if h.gone then s else failEarly h s

/-- A decrypt frame's tag result is known (R259). -/
def tagResult (id : Nat) (ok : Bool) (s : State) : State :=
  match frameOf s id with
  | none => s
  | some h =>
    match h.sa, h.sc with
    | some e, some key =>
      if h.brick < 2 ∨ h.tagRes.isSome = true ∨ (h.stage ≠ .tile ∧ h.stage ≠ .done ∧ h.stage ≠ .queue) then s
      else match scOf s key with
        | none => updFrame id (fun x => { x with tagRes := some ok }) s
        | some c => if ok then tagOk h e key c s else tagFail h e key c s
    | _, _ => s

def execTagResult (t id : Nat) (ok : Bool) (s : State) : Out := ev t (tagResult id ok) s

/-! ## The express role (R583) -/

/-- The role of a tile changes, unless it has failed. -/
def setTileRole (b k r : Nat) (s : State) : State := if (tile s b k).failed then s else setTile b k { tile s b k with role := r } s

/-- A change of EXPRESS_EN is complete when the tile's frames have left: the tile changes its role, and the banks are dropped or
assigned. -/
def roleSwitch (b : Nat) (s : State) : State :=
  let x := brick s b
  let two := decide (b = 0) && protLine s
  match x.change with
  | none => s
  | some true =>
    if tileFree s b 0 = true ∧ (two = false ∨ tileFree s b 1 = true) then
      let s := setBrick b { x with change := none } s
      let s := setTileRole b 0 1 s
      let s := if two then setTileRole b 1 2 s else s
      fillBanks b 1 (fillBanks b 0 s)
    else s
  | some false =>
    if (x.held.any fun h => h.express && !h.gone) then s
    else
      let s := setBrick b { x with change := none } s
      let s := setTileRole b 0 0 s
      let s := if b = 0 then setTileRole b 1 0 s else s
      dropBanks b s

def execExpressRoleSwitch (t brick : Nat) (s : State) : Out := ev t (fun s => if brick < 4 then roleSwitch brick s else s) s

end Sys2Proof.Machine
end

