-- ==== Sys2Proof/Machine/TrunkWire.lean ====
section
/-! DEFINITION. The trunk on the wire (10.1 to 10.6): blocks, the course header's bits, its scrambling and stuffing, the keystream of a slot, the
directory slot, parity. -/
namespace Sys2Proof.Machine
open Sys2Proof

/-! ## Bits and parity -/

/-- The bits of bytes, the highest of each byte first, as the trunk sends them, and back (DEDUCED, log entry 40). -/
def bitsMsb (bs : List Nat) : List Bool := bs.flatMap fun b => [7, 6, 5, 4, 3, 2, 1, 0].map b.testBit
def bytesMsb : Nat → List Bool → List Nat
  | 0, _ => []
  | n + 1, l => (l.take 8).foldl (fun a b => 2 * a + bit b) 0 :: bytesMsb n (l.drop 8)

/-- The even bit-interleaved parity of bytes, taken on from a parity (R308). -/
def bip8 (from_ : Nat) (bs : List Nat) : Nat := bs.foldl (fun a b => Nat.xor a (b % 256)) (from_ % 256)

/-- The parity bits in which two parities differ. -/
def bipErrors (a b : Nat) : Nat := total (List.range 8) fun i => bit (a.testBit i != b.testBit i)

/-- The CRC-16 of bytes with polynomial 0x1021 and initial value 0xFFFF (R289). -/
def crc16Bits : Nat → Nat → Nat
  | 0, c => c
  | n + 1, c => crc16Bits n (if c.testBit 15 then Nat.xor (2 * c % 65536) 0x1021 else 2 * c % 65536)
def crc16 (bs : List Nat) : Nat := bs.foldl (fun c b => crc16Bits 8 (Nat.xor c (b % 256 * 256))) 0xFFFF

/-- Trunk bytes as 257-bit blocks, the header bit sent as 1 (R274), and the bytes of blocks, whose header bits are ignored. -/
def blocks32 : Nat → List Nat → List TrunkBlock
  | 0, _ => []
  | n + 1, bs => { header := true, bytes := bs.take 32 } :: blocks32 n (bs.drop 32)
def trunkBlocks (bs : List Nat) : List TrunkBlock := blocks32 (bs.length / 32) bs
def blockBytes (l : List TrunkBlock) : List Nat := l.flatMap fun b => (b.bytes ++ List.replicate (32 - b.bytes.length) 0).take 32

/-! ## The course header (R278 to R280, R283) -/

def alignA : List Nat := beBytes 8 0x5D3CA9F016E4B287
def alignB : List Nat := beBytes 8 0xA2C3560FE91B4D78

/-- The fields of a course header (Table 10.2). -/
structure CourseHdr where
  course : Nat
  label  : Nat := 0
  phase  : Nat := 0
  next   : Bool := false
  dir    : Nat := 0
  rdi    : Bool := false
  rei    : Nat := 0
  just   : Nat := 0
  sbip   : Nat := 0
  count  : Nat := 0
  data   : List Nat := []
  deriving DecidableEq, Repr

/-- The body's bytes 0 to 31. -/
def CourseHdr.fields (h : CourseHdr) : List Nat :=
  [h.course % 64, h.label % 256, h.phase % 2 + 2 * bit h.next + 4 * (h.dir % 2), bit h.rdi] ++ beBytes 2 h.rei ++ [h.just % 256, h.sbip % 256] ++
    beBytes 6 h.count ++ (h.data ++ List.replicate (18 - h.data.length) 0).take 18

/-- The body: in compatibility mode the CRC is 0 (R307). -/
def CourseHdr.body (h : CourseHdr) (compat : Bool) : List Nat := h.fields ++ if compat then [0, 0, 0, 0] else fcsBytes h.fields

/-- A run of identical bits, as its value and length, after more bits. -/
def runAfter (r : Bool × Nat) (bits : List Bool) : Bool × Nat := bits.foldl (fun r b => if b = r.1 then (b, r.2 + 1) else (b, 1)) r

/-- Leading bits equal to a value. -/
def leading (v : Bool) (bits : List Bool) : Nat := (bits.takeWhile (· == v)).length

/-- The body stuffed, `n` groups of 32 bits still to go: the map bits of the points, and the bits (R280). -/
def stuffBody : Nat → Bool × Nat → List Bool → List Bool × List Bool
  | 0, _, _ => ([], [])
  | n + 1, r, bits =>
    let g := bits.take 32
    let need := decide (64 ≤ r.2 + leading r.1 g)
    let s := if need then bitsMsb [if r.1 then 0x5A else 0xA5] else []
    let (m, o) := stuffBody n (runAfter r (s ++ g)) (bits.drop 32)
    (need :: m, s ++ g ++ o)

/-- The body without its stuff bytes, by the map. -/
def unstuffBody : List Bool → List Nat → List Nat
  | [], _ => []
  | m :: r, bs =>
    let bs := if m then bs.drop 1 else bs
    bs.take 4 ++ unstuffBody r (bs.drop 4)

/-- The stuff map's two bytes. -/
def mapBytes (m : List Bool) : List Nat :=
  let w := total (List.range 9) fun k => 2 ^ k * bit (m.getD k false)
  [128 + w / 4, 64 * (w / 2 % 2) + 32 * (w % 2) + 0x15]

/-- The map bits of the two bytes, M[0] first. -/
def mapBits (a b : Nat) : List Bool := [b.testBit 5, b.testBit 6] ++ (List.range 7).map a.testBit

/-- The 64 bytes of a course header on the wire. -/
def CourseHdr.wire (h : CourseHdr) (compat : Bool) : List Nat :=
  let (body, _) := scramble 0x7FFF (bitsMsb (h.body compat))
  let (m, bits) := stuffBody 9 (true, 1) body
  let head := alignA ++ (if h.course % 64 = 0 then alignB else []) ++ mapBytes m ++ bytesMsb (bits.length / 8) bits
  head ++ List.replicate (64 - head.length) 0xA5

/-- A course header read from its 64 bytes: whether its alignment word is right for a course 0 or another, whether its CRC is good, and its
fields. -/
def readHeader (zero : Bool) (bs : List Nat) : Bool × Bool × CourseHdr :=
  let b := (bs.drop 8).take 8 = alignB
  let faw := decide (bs.take 8 = alignA) && decide b == zero
  let o := if zero then 16 else 8
  let stuffed := unstuffBody (mapBits (bs.getD o 0) (bs.getD (o + 1) 0)) (bs.drop (o + 2))
  let body := bytesMsb 36 (scramble 0x7FFF (bitsMsb stuffed)).1
  let at_ := fun (i : Nat) => body.getD i 0
  (faw, decide (body.drop 32 = fcsBytes (body.take 32)),
    { course := at_ 0 % 64, label := at_ 1, phase := at_ 2 % 2, next := (at_ 2).testBit 1, dir := at_ 2 / 4 % 2, rdi := (at_ 3).testBit 0,
      rei := beNat ((body.drop 4).take 2), just := at_ 6, sbip := at_ 7, count := beNat ((body.drop 8).take 6), data := (body.drop 14).take 18 })

/-- A time of day in 2^-16 ns as 12 bytes: seconds, nanoseconds, fraction; and back (R165). -/
def timeBytes (t : Nat) : List Nat := beBytes 6 (t / 65536 / 1000000000) ++ beBytes 4 (t / 65536 % 1000000000) ++ beBytes 2 (t % 65536)
def bytesTime (bs : List Nat) : Nat := (beNat (bs.take 6) * 1000000000 + beNat ((bs.drop 6).take 4)) * 65536 + beNat ((bs.drop 10).take 2)

/-! ## Slots (R287, R289) -/

/-- The keystream of a slot: four AES-256 blocks over the counter blocks of Table 10.4. -/
def slotMask (key dir phase n course pos : Nat) : List Nat :=
  (List.range 4).flatMap fun b =>
    beBytes 16 (Config.aes 256 key (beNat ([0x5A, dir % 2, phase % 2, 0] ++ beBytes 6 n ++ [course % 64] ++ beBytes 2 pos ++ [0] ++ beBytes 2 b)))

/-- The 64 bytes of a slot's content. -/
def slotContent (data : List Nat) : List Nat := (data ++ List.replicate (64 - data.length) 0).take 64

/-- A directory entry (Table 10.5): a path, 256 for grout, and whether a unit starts there. -/
def dirEntry (path : Nat) (sof : Bool) : List Nat := if path < 256 then [128 + 64 * bit sof, path] else [0, 0]

/-- The content of a directory slot from its entries. -/
def dirContent (entries : List (Nat × Bool)) : List Nat :=
  let b := ((entries.flatMap fun (e : Nat × Bool) => dirEntry e.1 e.2) ++ List.replicate 62 0).take 62
  b ++ beBytes 2 (crc16 b)

/-- The paths that a directory slot's content names, none where its CRC fails. -/
def readDir (bs : List Nat) : Option (List Nat) :=
  let b := (slotContent bs).take 62
  if beNat ((slotContent bs).drop 62) = crc16 b then
    some (((List.range 31).filter fun i => (b.getD (2 * i) 0).testBit 7).map fun i => b.getD (2 * i + 1) 0)
  else none

/-- Content of AIS: the whole slot all ones (R303). -/
def aisContent : List Nat := List.replicate 64 255

end Sys2Proof.Machine
end

