-- ==== Sys2Proof/Machine/Trunk.lean ====
section
/-! DEFINITION. Trunk framing (10): headers, phases and keys, the slot scheduler (11.7), received units, defects, performance
data, the trunk commands; the key bus transfer; and the course 0 time of chapter 06. -/
namespace Sys2Proof.Machine
open Sys2Proof

/-! ## Registers and counters -/

def trkDir (s : State) (p : Nat) : Nat := fld s (trkCfg p) 4 4

/-- A counter of a port: 0 HDR_ERR, 1 DIR_ERR, 2 ALIGN_ERR, 3 JUST_INS, 4 JUST_DEL, 5 UNIT_BAD, 6 RUN_ABORT, 7 PASS_DROP, 8
RUN_TOO_LONG. -/
def trkCount (p i : Nat) (s : State) : State := bump (trkCfg p + 0x10 + 4 * i) 1 s

/-- A cumulative counter of the raw table: object 0 the section, 1 + n path n (R311). -/
def rawCount (p obj i n : Nat) (s : State) : State :=
  let x := trunk s p
  if n = 0 then s else setTrunk p { x with raw := put x.raw (8 * obj + i) ((get x.raw (8 * obj + i) 0 + n) % 2 ^ 48) } s

/-- A count of the second in progress. -/
def secCount (p obj i n : Nat) (s : State) : State :=
  let x := trunk s p
  setTrunk p { x with secCnt := bumpTable x.secCnt (64 * obj + i) n } s

/-- The course being received is errored, once (R309). -/
def erroredCourse (p : Nat) (s : State) : State :=
  let x := trunk s p
  if x.courseErr then s
  else
    let s := setTrunk p { x with courseErr := true, errCourses := x.errCourses + 1 } s
    rawCount p 0 0 1 (secCount p 0 0 1 s)

/-- The clear sub-ports that trunk paths map send local fault (R118, R305). -/
def settleFaults (s : State) : State :=
  (List.range 16).foldl (fun s sp =>
    let x := trunk s (spPort sp)
    let on := lpTrunk s (spPort sp) && x.paths.any fun e =>
      decide (e.2.rxMode = 1) && e.2.lfEn && decide (spKey (spPort sp) e.2.sub = sp) && (x.lof || x.labelFault || x.ais.contains e.1)
    if (subPort s sp).sendFault = on then s else setSub sp { subPort s sp with sendFault := on } s) s

/-! ## The transmit framer's units (R297 to R300, R319, R339) -/

/-- The positions of a period code. -/
def period (c : Nat) : Nat := if c = 0 then 0 else 2 ^ (3 + c)

/-- The path whose fixed transmit slots hold a position. -/
def fixedAt (x : Trunk) (pos : Nat) : Option Nat :=
  (x.paths.find? fun e => decide (e.2.txPer ≠ 0) && decide (pos % period e.2.txPer = e.2.txOfs)).map (·.1)

/-- A path has fixed transmit slots. -/
def hasFixed (x : Trunk) (path : Nat) : Bool := match look x.paths path with | some c => decide (c.txPer ≠ 0) | none => false

/-- The slots of a unit in all. -/
def TxUnit.whole (u : TxUnit) : Nat := (u.len + 63) / 64

/-- The last slot of a unit has been assigned: its buffer space and cells are free (R319, R339). -/
def unitDone (p : Nat) (u : TxUnit) (s : State) : State :=
  let x := trunk s p
  let s := if u.passed = true ∧ u.ais = false then setTrunk p { x with passBytes := x.passBytes - 64 * u.whole } s else s
  match u.frame with
  | some id =>
    let express := s.que.hold.any fun h => decide (h.id = id)
    let x := trunk s p
    leaveQueues id (if express then setTrunk p { x with expBytes := x.expBytes - u.len } s else s)
  | none => s

/-! ## Aborts (R285, R289, R300, R306) -/

/-- A passed unit of which `keep` slots have arrived is cut short upstream (R300): a run is completed with zero content and counted; a unit that was
to start when complete never starts; of another only what has arrived leaves. -/
def cutPassed (q path keep : Nat) (byRun : Bool) (s : State) : State :=
  let x := trunk s q
  let mine := fun (u : TxUnit) => decide (u.path = path) && u.passed && !u.ais
  let left := fun (u : TxUnit) => keep - (u.whole - u.slots)
  let short := fun (u : TxUnit) => { u with content := u.content.take (64 * left u) }
  let ends := fun (u : TxUnit) => { short u with slots := min u.slots (left u) }
  match (x.units.filter mine).getLast? with
  | some u =>
    if hasFixed x path then
      if byRun then trkCount q 6 (setTrunk q { x with units := x.units.map fun v => if v = u then short v else v } s)
      else unitDone q u (setTrunk q { x with units := x.units.erase u } s)
    else setTrunk q { x with units := x.units.map fun v => if v = u then ends v else v } s
  | none =>
    match x.runTx.filter mine with
    | some u => trkCount q 6 (setTrunk q { x with runTx := some (short u) } s)
    | none =>
      match x.partial_.filter mine with
      | some u =>
        if left u = 0 then unitDone q u (setTrunk q { x with partial_ := none } s) else setTrunk q { x with partial_ := some (ends u) } s
      | none => s

/-- The units in progress that a test names are aborted: one of a passed path is cut short, an express frame leaves stomped, a bulk one never
leaves the brick. -/
def abortUnits (p : Nat) (which : RxUnit → Bool) (s : State) : State :=
  let x := trunk s p
  let gone := x.rxUnits.filter which
  let s := setTrunk p { x with rxUnits := x.rxUnits.filter fun u => !which u } s
  gone.foldl (fun s u =>
    let s := if u.run then rawCount p (1 + u.path) 4 1 s else s
    if (match look x.paths u.path with | some c => decide (c.rxMode = 2) | none => false) then
      cutPassed (1 - p) u.path (u.slots - u.left.length) u.run s
    else match ((brick s (2 + p)).held.filter fun h => decide (h.sc = some (scKey p true u.path)) && !h.gone).getLast? with
    | none => s
    | some h =>
      if h.express then
        (if s.que.hold.any (fun y => decide (y.id = h.id)) then
          record 0x0901 ([h.brick, h.port] ++ beBytes 2 u.path ++ beBytes 4 (h.sa.getD 0)) (brkCount h.brick 0 (updFrame h.id (fun y => { y with stomp := true }) s))
        else updFrame h.id (fun y => { y with stomp := true }) s)
      else dropFrame h.id s) s

/-- A port goes out of frame (R284, R302). -/
def outOfFrame (p : Nat) (s : State) : State :=
  let x := trunk s p
  secCount p 0 1 1 (abortUnits p (fun _ => true) (setTrunk p { x with
    inFrame := false, good := 0, errWords := 0, dirRun := 0, outSince := if x.outSince.isSome then x.outSince else some s.now } s))

/-- A sub-port's link goes down; on a trunk port the units in progress are aborted (R114, R302). -/
def portDown (sp : Nat) (fault : Bool) (s : State) : State :=
  let s := linkDown sp fault s
  if sp = 18 ∨ sp = 19 then (if lpTrunk s (sp - 18) then abortUnits (sp - 18) (fun _ => true) s else s) else s

def execLinkDown (t sp : Nat) (localFault : Bool) (s : State) : Out := ev t (portDown sp localFault) s

/-- A link restarts as after a link loss (R115). -/
def restartLink (sp : Nat) (s : State) : State := if (subPort s sp).link then portDown sp false s else s

/-! ## Bytes sent (R274, R287, R308) -/

/-- Bytes leave on the trunk, and enter the parity of their course. -/
def sendTrunk (p : Nat) (bs : List Nat) (s : State) : State :=
  let x := trunk s p
  send (.trunk p (trunkBlocks bs)) (setTrunk p { x with bip := bip8 x.bip bs } s)

/-- The bytes on the wire of a slot of the course being sent. -/
def slotWire (s : State) (p pos : Nat) (content : List Nat) : List Nat :=
  let x := trunk s p
  xorBytes (slotContent content) (slotMask x.maskKey (trkDir s p) x.maskPhase x.maskCount x.course pos)

/-- The positions of a directory group leave, and enter the parity of their paths. -/
def sendGroup (p : Nat) (s : State) : State :=
  let x := trunk s p
  if x.group = [] then s
  else
    let out := x.group.map fun (g : SlotOut) => (g.path, slotWire s p g.pos (g.data.getD []))
    let par := out.foldl (fun m e => if e.1 < 256 then put m e.1 (bip8 (get m e.1 0) e.2) else m) x.pathBip
    sendTrunk p (out.flatMap (·.2)) (setTrunk p { x with group := [], pathBip := par } s)

/-! ## Headers sent (R278, R286, R288, R294, R304) -/

/-- The framer runs: a trunk port, enabled, its transmitters not muted. -/
def framerRuns (s : State) (p : Nat) : Bool :=
  decide (p < 2) && lpTrunk s p && portEnabled s (2 + p) && !lineMuted s && decide (8 ≤ s.boot.step)

/-- An advance of the count of a phase is requested half a block before its ceiling (R288). -/
def advanceCount (p ph : Nat) (s : State) : State :=
  let x := trunk s p
  match look x.keys ph with
  | none => s
  | some k =>
    if k.asked = none ∧ k.ceiling ≤ k.count + 2 ^ 19 then
      let top := k.ceiling + 2 ^ 20
      requestCeil 6 (2 * p + ph) top (.trunkCeil p ph top) (setTrunk p { x with keys := put x.keys ph { k with asked := some top } } s)
    else s

/-- The label sent: 0x00 under the transient key or with no path configured for transmit, else 0x01; 0 in compatibility mode. -/
def txLabel (s : State) (p : Nat) : Nat :=
  if trkCompat s p then 0
  else if txKeyed s p = true ∧ ((trunk s p).paths.any (fun e => decide (e.2.txPer ≠ 0)) || s.sas.scs.any fun e =>
      e.2.path && !scRx e.1 && decide (scPort e.1 = p)) then 1
  else 0

/-- Half a position, a position and a course, in ps. -/
def courseTime (s : State) (p : Nat) : Nat := if trkCompat s p then 327680 else 163840
def positionTime (s : State) (p : Nat) : Nat := if trkCompat s p then 1280 else 640

/-- A stretch of device time in ps of time-unit time. -/
def unitTime (s : State) (d : Nat) : Int := (d : Int) * (65536000000 + rateInUse s) / 65536000000

/-- Signed GROUT_J. -/
def justOf (j : Nat) : Int := if j = 1 then 1 else if j = 0xFF then -1 else 0

/-- What COURSE_DATA carries: in native course 0 the departure time of its first bit at the medium boundary and the remote delta, in compatibility
mode PBIP and PREI of the path of the course's number (Table 10.2, R165, R308). -/
def courseData (s : State) (p c : Nat) : List Nat :=
  let x := trunk s p
  if trkCompat s p then (if c < 16 then [get x.lastPbip c 0, get x.pbip c 0] else [])
  else if c = 0 then
    timeBytes ((tod s + txDelay s (18 + p) * 65536 / 1000 : Nat) + txCorr s (2 + p) * 16384).toNat ++ beBytes 6 (unsignedOf 48 (get s.time.trunkDelta p 0))
  else []

/-- The header of the course that begins. -/
def courseHdr (s : State) (p : Nat) : CourseHdr :=
  let x := trunk s p
  { course := x.course, label := txLabel s p, phase := x.phase, next := has x.keys (1 - x.phase), dir := trkDir s p, rdi := x.rdiHist.testBit 2,
    rei := if trkCompat s p then x.lastSbip else x.lastErr, just := x.just, sbip := if trkCompat s p then x.bip else 0, count := x.maskCount,
    data := courseData s p x.course }

/-- A course begins: its number, justification, and the key, phase and count it is masked under (R287, R288). -/
def beginCourse (p c j : Nat) (s : State) : State :=
  let s := if c = 0 ∧ txKeyed s p = true then
      let x := trunk s p
      advanceCount p x.phase (setTrunk p { x with keys := upd x.keys x.phase fun k => { k with count := k.count + 1 } } s)
    else s
  let x := trunk s p
  let k := look x.keys x.phase
  let keyed := txKeyed s p
  setTrunk p { x with
    course := c, just := j, dirGroup := 0,
    rdiHist := (2 * x.rdiHist + bit (!(subPort s (18 + p)).link || x.lof)) % 8,
    maskKeyed := keyed, maskPhase := x.phase, maskCount := match k with | some k => k.count | none => 0,
    maskKey := match k with | some k => if keyed then Nat.xor k.key s.sas.mask else x.transient | none => x.transient,
    pathBip := if c = 0 then [] else x.pathBip, lastPbip := if c = 0 then x.pathBip else x.lastPbip } s

/-- A course header departs, after the rest of the course before it. -/
def headerTx (p : Nat) (s : State) : State :=
  if framerRuns s p = false then s
  else
    let s := sendGroup p s
    let x := trunk s p
    let first := !x.started
    let (key, s) := if first then drawBits 256 s else (x.transient, s)
    let full : Int := courseTime s p
    let pos : Int := positionTime s p
    let took := if first then full else unitTime s (s.now - x.lastDep)
    let err := if first then 0 else x.gridErr + full - took
    let natural := took - pos * justOf x.just
    let ahead := err + full - natural
    let j := if flag s (trkCfg p) 2 = false then 0 else if pos ≤ 2 * ahead then 1 else if 2 * ahead ≤ -pos then 0xFF else 0
    let s := setTrunk p { x with started := true, transient := key, gridErr := err, lastDep := s.now } s
    let s := if j = 1 then rawCount p 0 5 1 (trkCount p 3 s) else if j = 0xFF then rawCount p 0 6 1 (trkCount p 4 s) else s
    let s := beginCourse p (if first then 0 else (x.course + 1) % 64) j s
    let h := courseHdr s p
    sendTrunk p (h.wire (trkCompat s p)) (setTrunk p { trunk s p with bip := 0 } s)

def execCourseHeaderTx (t port : Nat) (s : State) : Out := ev t (headerTx port) s

/-- PATH_CONFIG completes on the ports of a bitmap once no transfer and no phase switch of theirs is left. -/
def settleTrunkCmds (s : State) : State :=
  let busy := fun (p : Nat) => (s.sas.bus.any fun b => match b.trunk with | some (q, _) => decide (q = p) | none => false) ||
    (trunk s p).wantPhase.isSome
  finishWhere (fun w => match w with
    | .trunkKeys m => (!m.testBit 0 || !busy 0) && (!m.testBit 1 || !busy 1)
    | _ => false) stOk [] s

/-- The phase switches at a course 0 (R290). -/
def phaseSwitch (p : Nat) (s : State) : State :=
  let x := trunk s p
  match x.wantPhase with
  | none => s
  | some ph =>
    if has x.keys ph = false then s
    else settleTrunkCmds (setTrunk p { x with
      wantPhase := none, phase := ph, newRun := 0, oldPhase := if has x.keys (1 - ph) then some (1 - ph) else none } s)

def execPhaseSwitch (t port : Nat) (s : State) : Out := ev t (fun s => if port < 2 then phaseSwitch port s else s) s

/-- The old phase's key is erased after 64 good headers with both phases new (R290). -/
def phaseErase (p : Nat) (s : State) : State :=
  let x := trunk s p
  match x.oldPhase with
  | some o =>
    if 64 ≤ x.newRun then
      record 0x0A06 [2 + p, x.phase, o] (setTrunk p { x with
        keys := del x.keys o, oldPhase := none, newRun := 0, keyed := false, dirRun := 0, dirConflict := false } s)
    else s
  | none => s

def execPhaseOldKeyErase (t port : Nat) (s : State) : Out := ev t (fun s => if port < 2 then phaseErase port s else s) s

/-- The transmitter engages the trunk key (R286). -/
def engage (p : Nat) (s : State) : State :=
  let x := trunk s p
  if 3 ≤ x.dirRun ∧ has x.keys x.phase = true ∧ x.dirConflict = false then setTrunk p { x with keyed := true } s else s

def execTrunkKeyEngage (t port : Nat) (s : State) : Out := ev t (fun s => if port < 2 then engage port s else s) s

/-- The count stands at its ceiling: an advance is requested where none is (R288). The transient key is in use meanwhile
(`txKeyed`). -/
def countCeiling (p : Nat) (s : State) : State :=
  let x := trunk s p
  match look x.keys x.phase with
  | some k => if k.ceiling ≤ k.count then advanceCount p x.phase s else s
  | none => s

def execTrunkCountCeiling (t port : Nat) (s : State) : Out := ev t (fun s => if port < 2 then countCeiling port s else s) s

/-! ## The key bus (R24 to R27, R286, R288) -/

/-- A trunk key reaches its entry. -/
def commitTrunkKey (p ph : Nat) (b : KeyBus) (s : State) : State :=
  let x := trunk s p
  let s := setTrunk p { x with
    keys := put x.keys ph { entry := b.entry, handle := b.handle, key := b.sa.key }, keyed := false, dirRun := 0, dirConflict := false } s
  settleTrunkCmds (requestCeil 6 (2 * p + ph) (2 ^ 20) (.trunkCeil p ph (2 ^ 20)) s)

/-- The transfer at the head of the key bus completes. -/
def busDone (s : State) : State :=
  match s.sas.bus with
  | [] => s
  | b :: r =>
    let s : State := { s with sas := { s.sas with bus := r } }
    settleKeyErase (match b.trunk with
      | some (p, ph) => commitTrunkKey p ph b s
      | none => commitInstall b s)

def execKeyBusTransferDone (t : Nat) (s : State) : Out := ev t busDone s

/-! ## The slot scheduler (R296 to R299, R337, R338) -/

/-- The heads of the queues of a class of a trunk egress, by path, after the one last served. -/
def addedHeads (s : State) (p c : Nat) : List Held :=
  let l := s.que.frames.filter fun h => decide (h.eport = 2 + p) && decide (h.cls % 8 = c) && !h.gone
  let last := get (trunk s p).lastPath c 255
  let heads := ((l.map (·.chan)).eraseDups.filterMap fun n => l.find? fun h => decide (h.chan = n)).mergeSort fun a b => decide (a.chan ≤ b.chan)
  heads.filter (fun h => decide (last < h.chan)) ++ heads.filter fun h => decide (h.chan ≤ last)

/-- A queued frame as a unit (R291). -/
def unitOf (h : Held) : TxUnit :=
  { path := h.chan, slots := (h.outLen + 63) / 64, len := h.outLen, cls := h.cls % 8, frame := some h.id, content := h.out }

/-- A unit leaves the framer's waiting list; a frame it carries is gone from its egress. -/
def takeUnit (p : Nat) (u : TxUnit) (s : State) : TxUnit × State :=
  let x := trunk s p
  let s := setTrunk p { x with units := x.units.erase u } s
  match u.frame with
  | some id => ({ u with content := match frameOf s id with | some h => h.out | none => [] }, perf 4 4 1 (setGone id s))
  | none => (u, s)

/-- An added unit is taken from its queue. -/
def takeAdded (p : Nat) (h : Held) (s : State) : TxUnit × State :=
  let x := trunk s p
  (unitOf h, perf 4 4 1 (setGone h.id (setTrunk p { x with lastPath := put x.lastPath (h.cls % 8) h.chan } s)))

/-- The next unit for a position that is not fixed (R337 step 3, R303); none but path AIS while the egress discards its frames (R116). -/
def nextUnit (p : Nat) (s : State) : Option (TxUnit × State) :=
  let x := trunk s p
  let free := fun (u : TxUnit) => !hasFixed x u.path
  let waiting := fun (t : TxUnit → Bool) => (x.units.filter free).find? t
  match (waiting (·.ais)).orElse fun _ => if sinks s (18 + p) then none else waiting fun u => !u.passed with
  | some u => some (takeUnit p u s)
  | none =>
    if sinks s (18 + p) then none
    else [7, 6, 5, 4, 3, 2, 1, 0].findSome? fun c =>
      match waiting fun u => u.passed && decide (u.cls = c) with
      | some u => some (takeUnit p u s)
      | none => ((addedHeads s p c).find? fun h => !hasFixed x h.chan).map fun h => takeAdded p h s

/-- One slot of a bulk unit takes a position. -/
def bulkSlot (p pos : Nat) (u : TxUnit) (s : State) : (SlotOut × Bool) × State :=
  let x := trunk s p
  let out : SlotOut := { pos := pos, path := u.path, data := some (u.content.take 64) }
  let s := if u.slots ≤ 1 then unitDone p u (setTrunk p { x with partial_ := none } s)
    else setTrunk p { x with partial_ := some { u with slots := u.slots - 1, content := u.content.drop 64, begun := true } } s
  ((out, !u.begun), s)

/-- One position is named: a fixed one to its set's path, a deleted one to none, then what a run displaced, the unit part-assigned, the next unit
(R337). With it, whether a unit starts there. -/
def namePosition (p pos : Nat) (s : State) : (SlotOut × Bool) × State :=
  let x := trunk s p
  match fixedAt x pos with
  | some n => (({ pos := pos, path := n }, false), s)
  | none =>
    if pos = 16 ∧ x.just = 0xFF then (({ pos := pos }, false), s)
    else match x.spill with
      | e :: r => (({ pos := pos, path := e.1, data := some e.2 }, false), setTrunk p { x with spill := r } s)
      | [] =>
        match x.partial_ with
        | some u => bulkSlot p pos u s
        | none =>
          match nextUnit p s with
          | some (u, s) => bulkSlot p pos u s
          | none => (({ pos := pos }, false), s)

/-- A list of positions is named. -/
def namePositions (p : Nat) : List Nat → State → List (SlotOut × Bool) × State
  | [], s => ([], s)
  | pos :: r, s =>
    let (n, s) := namePosition p pos s
    let (l, s) := namePositions p r s
    (n :: l, s)

/-- A run takes positions of a group, from a position on: from the first fixed slot of its path, every one that follows until the unit ends. Bulk
data placed there moves to its path's next owned slot, and past the group to `spill` (R297). -/
def placeRun (x : Trunk) (from_ : Nat) : List SlotOut → TxUnit → List (Nat × List Nat) → List SlotOut × TxUnit × List (Nat × List Nat)
  | [], u, sp => ([], u, sp)
  | g :: r, u, sp =>
    if g.run = false ∧ g.pos ≠ 256 ∧ from_ ≤ g.pos ∧ u.slots ≠ 0 ∧ (u.begun = true ∨ fixedAt x g.pos = some u.path) then
      let sp := match g.data with | some d => sp ++ [(g.path, d)] | none => sp
      let (l, v, sp) := placeRun x from_ r { u with slots := u.slots - 1, content := u.content.drop 64, begun := true } sp
      ({ g with path := u.path, data := some (u.content.take 64), run := true } :: l, v, sp)
    else
      match (if g.run then none else g.data), sp.find? (fun e => decide (e.1 = g.path)) with
      | some d, some e =>
        let (l, v, sp) := placeRun x from_ r u (sp.erase e ++ [(g.path, d)])
        ({ g with data := some e.2 } :: l, v, sp)
      | _, _ =>
        let (l, v, sp) := placeRun x from_ r u sp
        (g :: l, v, sp)

/-- The run in progress takes positions of the group being sent. -/
def runOn (p from_ : Nat) (s : State) : State :=
  let x := trunk s p
  match x.runTx with
  | none => s
  | some u =>
    let (g, v, sp) := placeRun x from_ x.group u []
    let s := setTrunk p { x with group := g, runTx := if v.slots = 0 then none else some v, spill := sp ++ x.spill } s
    if v.slots = 0 then unitDone p u s else s

/-- The framer builds the next directory slot of the course for its 31 positions, 30 in group 7 (R277, R337), and sends it, after the positions of the
group before it. Under the transient key every slot is grout. -/
def buildDirectory (p : Nat) (s : State) : State :=
  let x := trunk s p
  if framerRuns s p = false ∨ x.started = false ∨ 8 ≤ x.dirGroup then s
  else
    let g := x.dirGroup
    let s := sendGroup p s
    let s := setTrunk p { trunk s p with dirGroup := g + 1 } s
    let poss := (List.range (if g = 7 then 30 else 31)).map (32 * g + 2 + ·)
    let data := decide (x.maskKeyed = true ∧ s.pwr.state = 0)
    let (l, s) := if data then namePositions p poss s else (poss.map fun n => (({ pos := n } : SlotOut), false), s)
    let s := sendTrunk p (slotWire s p (32 * g + 1) (dirContent (l.map fun e => (e.1.path, e.2)))) s
    let slots := (l.map (·.1)).flatMap fun o =>
      if o.pos = 16 ∧ x.just = 0xFF then [] else if o.pos = 15 ∧ x.just = 1 then [o, { pos := 256 }] else [o]
    let s := setTrunk p { trunk s p with group := slots } s
    if data then runOn p 0 s else s

def execDirectorySlotBuild (t port : Nat) (s : State) : Out := ev t (buildDirectory port) s

/-- A unit of a path with fixed slots is too long for a run: it is dropped at the framer (R299). -/
def dropLong (p : Nat) (u : TxUnit) (s : State) : State := unitDone p u (trkCount p 8 s)

/-- The next unit of a path that may start a run: path AIS first, then its oldest (R300, R303, R337); none but path AIS while the egress discards its
frames. -/
def pathUnit (p path : Nat) (s : State) : Option (TxUnit × State) :=
  let mine := (trunk s p).units.filter fun u => decide (u.path = path)
  match (mine.find? (·.ais)).orElse fun _ => if sinks s (18 + p) then none else mine.head?.filter fun u => decide (u.readyAt ≤ s.now) with
  | some u => some (takeUnit p u s)
  | none =>
    if sinks s (18 + p) then none
    else [7, 6, 5, 4, 3, 2, 1, 0].findSome? fun c =>
      ((addedHeads s p c).find? fun h => decide (h.chan = path)).map fun h => takeAdded p h s

/-- The first position of the course being sent that starts now or later. -/
def posNow (s : State) (p : Nat) : Nat :=
  let x := trunk s p
  let n := (s.now - x.lastDep + positionTime s p - 1) / positionTime s p
  if n < 16 then n else if x.just = 1 then n - 1 else if x.just = 0xFF then n + 1 else n

/-- The next unit of a path with fixed slots starts its run at the path's next fixed slot, where no other run is in progress (R297). -/
def runStart (p path : Nat) (s : State) : State :=
  let x := trunk s p
  if framerRuns s p = false ∨ x.maskKeyed = false ∨ x.runTx.isSome = true ∨ hasFixed x path = false ∨ s.pwr.state ≠ 0 then s
  else
    match pathUnit p path s with
    | none => s
    | some (u, s) =>
      if 2068 < u.len then dropLong p u s
      else runOn p (posNow s p) (setTrunk p { trunk s p with runTx := some u } s)

def execRunStart (t port path : Nat) (s : State) : Out := ev t (runStart port path) s

/-! ## Headers received (R166, R282 to R286, R290, R302, R308) -/

/-- GROUT_J is legal. -/
def legalJust (j : Nat) : Bool := j == 0 || j == 1 || j == 0xFF

/-- The label a receiver expects (R282). -/
def wantLabel (s : State) (p : Nat) : Nat := if (trunk s p).paths.any (fun e => decide (e.2.rxMode ≠ 0)) then 1 else 0

/-- The label of a good header (R282). -/
def rxLabel (p label : Nat) (s : State) : State :=
  let x := trunk s p
  let s := setTrunk p { x with rxLabel := label % 256 } s
  if trkCompat s p then s
  else
    let x := trunk s p
    if label = wantLabel s p then
      let s := setTrunk p { x with okLabel := x.okLabel + 1, badLabel := 0, labelFault := x.labelFault && decide (x.okLabel < 2) } s
      settleFaults s
    else
      let s := setTrunk p { x with badLabel := x.badLabel + 1, okLabel := 0 } s
      if 2 ≤ x.badLabel ∧ x.labelFault = false then
        settleFaults (record 0x0A04 [2 + p, label % 256, wantLabel s p] (setTrunk p { trunk s p with labelFault := true } s))
      else s

/-- RDI of a good header (R302). -/
def rxRdi (p : Nat) (rdi : Bool) (s : State) : State :=
  let x := trunk s p
  let s := if rdi then secCount p 0 3 1 s else s
  let x : Trunk := { x with secCnt := (trunk s p).secCnt }
  if rdi then
    let s := setTrunk p { x with rdiRun := x.rdiRun + 1, noRdiRun := 0, rdiRx := x.rdiRx || decide (2 ≤ x.rdiRun) } s
    if 2 ≤ x.rdiRun ∧ x.rdiRx = false then record 0x0A03 [2 + p, 0, 0] s else s
  else setTrunk p { x with noRdiRun := x.noRdiRun + 1, rdiRun := 0, rdiRx := x.rdiRx && decide (x.noRdiRun < 2) } s

/-- DIR, phase, count and NEXT_READY of a good header (R286 to R288, R290). -/
def rxPhase (p : Nat) (h : CourseHdr) (s : State) : State :=
  let x := trunk s p
  let x := { x with rxPhase := h.phase % 2, nextReadyRx := h.next, rxCount := h.count, rxDir := h.dir % 2 }
  let x := if h.dir % 2 = trkDir s p then { x with dirConflict := true, keyed := false, dirRun := 0 } else { x with dirRun := x.dirRun + 1 }
  let x := { x with newRun := if x.oldPhase.isSome && decide (x.rxPhase = x.phase) then x.newRun + 1 else 0 }
  setTrunk p x s

/-- The trunk role of a line port (Table 6.3): 0 none, 1 master, 2 slave. -/
def trunkRole (s : State) (p : Nat) : Nat :=
  if trkCompat s p then 0 else match ptpOn s (2 + p) 0 with | some q => q.role | none => 0

/-- The time fields of a course 0 (R165, R166): t_arr − t_dep is kept to send; a slave port computes offset and mean path delay, and measures once in
a millisecond. A port with role none ignores them. -/
def rxTime (p : Nat) (h : CourseHdr) (s : State) : State :=
  if trunkRole s p = 0 then s
  else
    let din : Int := (stampTod s (rxStamp s (18 + p)) : Nat) - (bytesTime h.data : Nat)
    let dout := signedOf 48 (beNat ((h.data.drop 12).take 6))
    let s : State := { s with time := { s.time with
      trunkDelta := put s.time.trunkDelta p din, trunkDin := put s.time.trunkDin p din, trunkDout := put s.time.trunkDout p dout } }
    if trunkRole s p ≠ 2 then s
    else
      let s : State := { s with time := { s.time with trunkMean := put s.time.trunkMean p ((din + dout) / 2) } }
      if servoSrc s = 3 ∧ s.time.lastTrunk + ms ≤ s.now then measure ((din - dout) / 2) { s with time := { s.time with lastTrunk := s.now } } else s

/-- A trunk frame has been received whole: its errors are what REMOTE_ERR tells (Table 10.2, R308). -/
def frameEnds (p : Nat) (s : State) : State :=
  let x := trunk s p
  setTrunk p { x with lastErr := min 64 x.errCourses, errCourses := 0, lastSbip := min 512 x.sbipErr, sbipErr := 0 } s

/-- The parity that a compatibility header carries against what was received: SBIP of the course before, PBIP of the path of its number (R308). -/
def rxParity (p : Nat) (h : CourseHdr) (r : CourseRx) (s : State) : State :=
  if trkCompat s p = false then s
  else
    let n := bipErrors h.sbip r.bip
    let x := trunk s p
    let x := if h.course < 16 then { x with pbip := put x.pbip h.course (bipErrors (h.data.getD 0 0) r.pbip) } else x
    let s := setTrunk p { x with sbipErr := x.sbipErr + n } s
    if n = 0 then s else erroredCourse p s

/-- A good header in frame. -/
def goodHeader (p : Nat) (h : CourseHdr) (r : CourseRx) (s : State) : State :=
  let s := rxPhase p h s
  let s := rxLabel p h.label s
  let s := rxRdi p h.rdi s
  let s := if h.course = 0 then rawCount p 0 4 h.rei (secCount p 0 2 h.rei s) else s
  let s := rxParity p h r s
  if h.course = 0 ∧ trkCompat s p = false then rxTime p h s else s

/-- A slot whose course and position lie before a position of a course. -/
def slotPast (c pos : Nat) (e : Nat × Nat) : Bool :=
  let age := (c + 64 - e.1 % 64) % 64
  (decide (age = 0) && decide (e.2 < pos)) || (decide (0 < age) && decide (age < 32))

/-- The units in progress after what lies before a position of a course has arrived. -/
def advanceRx (c pos : Nat) (l : List RxUnit) : List RxUnit :=
  (l.map fun u => { u with left := u.left.dropWhile (slotPast c pos) }).filter fun u => u.left ≠ []

/-- The header at a place where one is sought (R283): a course 0 followed by ALIGN_B, or another that is not. -/
def soughtHeader (bs : List Nat) : Bool × Bool × CourseHdr :=
  let z := readHeader true bs
  if z.1 = true ∧ z.2.2.course = 0 then z
  else
    let n := readHeader false bs
    (n.1 && decide (n.2.2.course ≠ 0), n.2)

/-- What an errored alignment word or a header error leaves of the counts of consecutive good headers. -/
def breakRuns (x : Trunk) : Trunk := { x with dirRun := 0, newRun := 0, okLabel := 0, badLabel := 0, rdiRun := 0, noRdiRun := 0 }

/-- A course header is received. -/
def headerRx (p : Nat) (r : CourseRx) (s : State) : State :=
  if 2 ≤ p ∨ lpTrunk s p = false ∨ (subPort s (18 + p)).link = false ∨ s.boot.step < 8 then s
  else
    let x := trunk s p
    let (faw, crcOk, h) := if x.inFrame then readHeader (x.next = 0) (blockBytes r.blocks) else soughtHeader (blockBytes r.blocks)
    let valid := (crcOk || trkCompat s p) && legalJust h.just
    if x.inFrame = false then
      if faw = false ∨ valid = false then setTrunk p { x with good := 0 } s
      else
        let n := if x.good ≠ 0 ∧ h.course = x.next then x.good + 1 else 1
        let x := { x with good := n, next := (h.course + 1) % 64 }
        if 3 ≤ n then
          goodHeader p h r (setTrunk p { x with inFrame := true, inSince := s.now, errWords := 0, outSince := none, courseErr := false, badGroups := [] } s)
        else setTrunk p x s
    else
      let s := if x.next = 0 then frameEnds p s else s
      let y := trunk s p
      let y : Trunk := { y with
        next := (y.next + 1) % 64, courseErr := false, badGroups := [], rxUnits := advanceRx y.next 0 y.rxUnits,
        rxCount := if y.next = 0 then y.rxCount + 1 else y.rxCount }
      if faw = false then
        let s := erroredCourse p (trkCount p 2 (setTrunk p (breakRuns { y with errWords := y.errWords + 1 }) s))
        if 3 ≤ y.errWords then outOfFrame p s else s
      else if valid = false then
        abortUnits p (fun _ => true)
          (erroredCourse p (rawCount p 0 7 1 (trkCount p 0 (setTrunk p (breakRuns { y with errWords := 0, badGroups := List.range 8 }) s))))
      else goodHeader p h r (setTrunk p { y with errWords := 0 } s)

def execCourseHeaderRx (t port : Nat) (hdr : CourseRx) (s : State) : Out := ev t (headerRx port hdr) s

/-- LOF is declared after LOF_TIME out of frame (R302). -/
def lofDeclare (p : Nat) (s : State) : State :=
  let x := trunk s p
  match x.outSince with
  | some t0 =>
    if p < 2 ∧ lpTrunk s p = true ∧ x.lof = false ∧ t0 + fld s (trkCfg p) 15 8 * us ≤ s.now then
      settleFaults (record 0x0A01 [2 + p, 0, 0] (setTrunk p { x with lof := true } s))
    else s
  | none => s

def execLofDeclare (t port : Nat) (s : State) : Out := ev t (lofDeclare port) s

/-- LOF clears after 100 µs in frame (R302). -/
def lofClear (p : Nat) (s : State) : State :=
  let x := trunk s p
  if p < 2 ∧ x.lof = true ∧ x.inFrame = true ∧ x.inSince + 100 * us ≤ s.now then settleFaults (setTrunk p { x with lof := false } s) else s

def execLofClear (t port : Nat) (s : State) : Out := ev t (lofClear port) s

/-! ## Slots and units received (R289, R293, R300, R302, R303) -/

/-- The receiver takes slots: in frame. -/
def receives (s : State) (p : Nat) : Bool := decide (p < 2) && lpTrunk s p && (trunk s p).inFrame && decide (8 ≤ s.boot.step)

/-- The course being received. -/
def courseNow (x : Trunk) : Nat := (x.next + 63) % 64

/-- The trunk key of the phase being received, where the port holds it. -/
def rxKey (s : State) (p : Nat) : Option Nat := (look (trunk s p).keys (trunk s p).rxPhase).map fun k => Nat.xor k.key s.sas.mask

/-- The content of slots received, by their places: `n` is the count of the trunk frame of the course `c` (R287). -/
def unmaskSlots (key dir phase : Nat) : Nat → Nat → List (Nat × Nat) → List Nat → List Nat
  | _, _, [], _ => []
  | n, c, e :: r, bs =>
    let n := if e.1 < c then n + 1 else n
    xorBytes (slotContent bs) (slotMask key dir phase n e.1 e.2) ++ unmaskSlots key dir phase n e.1 r (bs.drop 64)

/-- The content of slots that a port receives, none where it holds no key for them. -/
def rxContent (s : State) (p : Nat) (at_ : List (Nat × Nat)) (bs : List Nat) : Option (List Nat) :=
  let x := trunk s p
  (rxKey s p).map fun key => unmaskSlots key x.rxDir x.rxPhase x.rxCount (courseNow x) at_ bs

/-- A slot's place lies in a directory group of a course. -/
def inGroup (c g : Nat) (e : Nat × Nat) : Bool := decide (e.1 = c) && decide (32 * g + 1 < e.2) && decide (e.2 ≤ 32 * g + 32)

/-- A directory slot is received: its entries are counted, or, with a bad CRC or no key of its phase, its positions are discarded (R289). -/
def directoryRx (p g : Nat) (bytes : List Nat) (s : State) : State :=
  if receives s p = false then s
  else
    let x := trunk s p
    let c := courseNow x
    let s := setTrunk p { x with rxUnits := advanceRx c (32 * g + 1) x.rxUnits } s
    match (rxContent s p [(c, 32 * g + 1)] bytes).bind readDir with
    | some l => (if g = 7 then l.take 30 else l).foldl (fun s n => rawCount p (1 + n % 256) 3 1 s) s
    | none =>
      let s := setTrunk p { trunk s p with badGroups := g :: (trunk s p).badGroups } s
      abortUnits p (fun u => u.left.any (inGroup c g)) (erroredCourse p (rawCount p 0 1 1 (trkCount p 1 s)))

def execDirectorySlotRx (t port group : Nat) (bytes : List Nat) (s : State) : Out := ev t (directoryRx port group bytes) s

/-- A unit begins: one of its path still in progress is bad (R293). -/
def beginRx (p path slots : Nat) (run : Bool) (at_ : List (Nat × Nat)) (s : State) : State :=
  let s := if (trunk s p).rxUnits.any (fun u => decide (u.path = path)) then
      countUnit p path 1 (trkCount p 5 (abortUnits p (fun u => decide (u.path = path)) s))
    else s
  let x := trunk s p
  if 1 < slots then setTrunk p { x with rxUnits := x.rxUnits ++ [{ path := path, slots := slots, left := at_.drop 1, run := run }] } s else s

/-- What a receiver makes of the first slot of a unit: nothing, where its place is discarded, no key is held, or a fixed slot idles; path AIS; a bad
unit; or the unit's content and clear length without FCS (R293, R297, Table 10.6). -/
inductive UnitRead where
  | idle
  | ais
  | bad
  | unit (len : Nat) (content : List Nat)
  deriving DecidableEq, Repr

/-- A slot of the path's fixed receive set. -/
def fixedRx (c : PathCfg) (pos : Nat) : Bool := decide (c.rxPer ≠ 0) && decide (pos % period c.rxPer = c.rxOfs)

/-- A unit's first slot is read. -/
def readUnit (s : State) (p : Nat) (c : PathCfg) (u : UnitInfo) : UnitRead :=
  match u.at_, rxContent s p u.at_ u.bytes with
  | e :: _, some b =>
    let len := beNat (b.take 2)
    if (trunk s p).badGroups.contains ((e.2 - 2) / 32) = true ∨ (len = 0 ∧ fixedRx c e.2 = true) then .idle
    else if len = 0xFFFF then .ais
    else if len < 60 ∨ fld s (0x020000 + 0x10 * (2 + p)) 29 16 < len + 4 ∨ b.getD 3 0 ≠ 0 ∨ 4 ≤ b.getD 2 0 then .bad
    else .unit len (b.take (len + 24))
  | _, _ => .idle

/-- AIS status of a dropped path begins or ends (R302). -/
def aisOn (p path : Nat) (s : State) : State :=
  let x := trunk s p
  let was := x.ais.contains path
  let s := setTrunk p { x with ais := if was then x.ais else path :: x.ais, aisLast := put x.aisLast path s.now, secCnt := put x.secCnt (64 * (1 + path) + 2) 1 } s
  if was then s else settleFaults (record 0x0A05 [2 + p, path, 0] s)
def aisOff (p path : Nat) (s : State) : State :=
  let x := trunk s p
  if x.ais.contains path then settleFaults (setTrunk p { x with ais := x.ais.filter (· ≠ path) } s) else s

/-- A unit of a dropped path reaches its decrypt brick (R180, R218, R243, R580). -/
def unitFrame (p path : Nat) (c : PathCfg) (f : Frame) (s : State) : State :=
  let b := 2 + p
  let key := scKey p true path
  match scOf s key with
  | none => missCount b s
  | some sc =>
    let (id, s) := takeId s
    let (ep, _) := rxEgress s b sc
    let prot := protLine s && sc.express
    lineChosen { id := id, brick := b, port := 2 + p, sub := 0, frame := f, stamp := stamp s, cls := c.cls, sc := some key, express := false,
                 stage := .staging, eport := ep, esub := c.sub, chan := c.sub, outLen := f.len - 8 * bit prot } (18 + p)
      { cls := c.cls, sc := some key, sub := c.sub } true s

/-- The frame of a unit for its decrypt brick: the unit's bytes after its header, AN and PN from the header (R293). -/
def unitClear (f : Frame) (len : Nat) (content : List Nat) : Frame :=
  { f with len := len + 4, fcsOk := true, raw := packWords ((content.drop 8).take len),
           sec := some { an := content.getD 2 0 % 4, pn := beNat ((content.drop 4).take 4) } }

/-- A unit that travels in fixed slots: its first slot is one of its path's. -/
def runs (c : PathCfg) (u : UnitInfo) : Bool := match u.at_ with | e :: _ => fixedRx c e.2 | [] => false

/-- A unit of a dropped path is received (R293, R302). -/
def unitRx (p path : Nat) (u : UnitInfo) (s : State) : State :=
  if receives s p = false then s
  else match look (trunk s p).paths path with
    | none => s
    | some c =>
      if c.rxMode ≠ 1 then s
      else match readUnit s p c u with
        | .idle => s
        | .ais => aisOn p path s
        | .bad => countUnit p path 1 (trkCount p 5 (aisOff p path s))
        | .unit len b =>
          let s := beginRx p path ((len + 87) / 64) (runs c u) u.at_ (aisOff p path s)
          if takesNone s (2 + p) then rxDrop (18 + p) s else unitFrame p path c (unitClear u.frame len b) s

def execUnitRx (t port path : Nat) (unit : UnitInfo) (s : State) : Out := ev t (unitRx port path unit) s

/-- The time that a unit takes to arrive in its slots, in ps. -/
def unitSpan (s : State) (p : Nat) (at_ : List (Nat × Nat)) : Nat :=
  match at_.head?, at_.getLast? with
  | some a, some b => ((b.1 + 64 - a.1 % 64) % 64 * 256 + b.2 + 1 - a.2) * positionTime s p
  | _, _ => 0

/-- A passed unit joins the waiting units of the other line port, or finds its buffer full or its egress discarding (R116, R300). -/
def passOn (q : Nat) (u : TxUnit) (s : State) : State :=
  if sinks s (18 + q) then txDrop (18 + q) s
  else if 262144 < (trunk s q).passBytes + 64 * u.whole then trkCount q 7 s
  else
    let x := trunk s q
    setTrunk q { x with passBytes := x.passBytes + 64 * u.whole, units := x.units ++ [u] } s

/-- A unit of a passed path is received: unmasked, it waits at the other line port's framer with its ciphertext, PN and ICV unchanged, and path AIS
passes on unchanged (R20, R300, R302). -/
def passUnit (p path : Nat) (u : UnitInfo) (s : State) : State :=
  let q := 1 - p
  if receives s p = false ∨ addDrop s = false then s
  else match look (trunk s p).paths path with
    | none => s
    | some c =>
      if c.rxMode ≠ 2 then s
      else if takesNone s (2 + p) then rxDrop (18 + p) s
      else match readUnit s p c u with
        | .idle => s
        | .ais => setTrunk q { trunk s q with units := (trunk s q).units ++ [{ path := path, slots := 1, passed := true, cls := c.cls, ais := true, content := aisContent }] } s
        | .bad => countUnit p path 1 (trkCount p 5 s)
        | .unit len b =>
          let n := (len + 87) / 64
          passOn q { path := path, slots := n, len := len + 24, passed := true, cls := c.cls, content := b, byRun := runs c u,
                     readyAt := if runs c u then s.now else s.now + unitSpan s p (u.at_.take n) } (beginRx p path n (runs c u) u.at_ s)

def execPassUnitRx (t port path : Nat) (unit : UnitInfo) (s : State) : Out := ev t (passUnit port path unit) s

/-- 350 µs without AIS clear a dropped path's AIS status (R302). -/
def aisTimeout (p path : Nat) (s : State) : State :=
  if p < 2 ∧ get (trunk s p).aisLast path 0 + 350 * us ≤ s.now then aisOff p path s else s

def execPathAisTimeout (t port path : Nat) (s : State) : Out := ev t (aisTimeout port path) s

/-- An AIS unit is due for a passed path of a port in LOF or label fault: the other line port sends it (R303). -/
def aisInsert (p path : Nat) (s : State) : State :=
  let q := 1 - p
  let x := trunk s p
  if p < 2 ∧ flag s (trkCfg p) 3 = true ∧ (x.lof = true ∨ x.labelFault = true) ∧ addDrop s = true ∧ framerRuns s q = true ∧
      (match look x.paths path with | some c => decide (c.rxMode = 2) | none => false) = true then
    let y := trunk s q
    setTrunk q { y with units := y.units ++ [{ path := path, slots := 1, ais := true, content := aisContent }] } s
  else s

def execAisInsert (t port path : Nat) (s : State) : Out := ev t (aisInsert port path) s

/-! ## Performance data (R309 to R311) -/

/-- What a second adds to the eight parameters of an object, and its SES verdicts, near and far end. -/
def sectionSecond (s : State) (p : Nat) : Bool × Bool × List Nat × List Nat :=
  let c := fun (i : Nat) => get (trunk s p).secCnt i 0
  let lim := if trkCompat s p then 915528 else 1831055
  let ses := decide (c 1 ≠ 0) || decide (lim ≤ c 0)
  let fe := decide (c 3 ≠ 0) || decide (lim ≤ c 2)
  (ses, fe, [bit (ses || decide (c 0 ≠ 0)), bit ses, if ses then 0 else c 0], [bit (fe || decide (c 2 ≠ 0)), bit fe, if fe then 0 else c 2])
def pathSecond (s : State) (p n : Nat) : Bool × Bool × List Nat :=
  let c := fun (i : Nat) => get (trunk s p).secCnt (64 * (1 + n) + i) 0
  let ais := decide (c 2 ≠ 0)
  let bad := decide (c 1 ≠ 0) && decide (3 * (c 0 + c 1) ≤ 10 * c 1)
  (ais || bad, ais, [bit (ais || decide (c 1 ≠ 0)), bit (ais || bad)])

/-- Unavailability after a second: the runs, whether the object is unavailable, and whether this second counts in UAS alone (R310). -/
def availability (ses : Bool) (run ok : Nat) (un : Bool) : Nat × Nat × Bool :=
  let run := if ses then run + 1 else 0
  let ok := if ses then 0 else ok + 1
  (run, ok, if un then decide (ok < 10) else decide (10 ≤ run))

/-- Counts added to a bin, saturating. -/
def addBin (b : PmBin) (l : List Nat) : PmBin :=
  { b with counts := (List.range 8).map fun i => min 0xFFFFFFFF (b.counts.getD i 0 + l.getD i 0) }

/-- Bins rolled at a boundary of `len` seconds, keeping `keep` previous ones. -/
def rollBins (now len keep : Nat) (l : List PmBin) : List PmBin :=
  match l with
  | [] => [{ start := now, partl := decide (now % len ≠ 0) }]
  | b :: r => if now / len = b.start / len then b :: r else ({ start := now / len * len } :: { b with partl := b.partl } :: r).take (keep + 1)

/-- A second's counts go into the bins of an object, which roll where the second ends a period. -/
def intoBins (now : Nat) (l : List Nat) (o : PmObj) : PmObj :=
  let put := fun (bs : List PmBin) => match bs with | b :: r => addBin b l :: r | [] => []
  { o with q15 := rollBins now 900 16 (put o.q15), day := rollBins now 86400 1 (put o.day) }

/-- A new object's bins. -/
def newPm (now : Nat) (suspect : Bool) : PmObj :=
  { q15 := [{ start := now, partl := decide (now % 900 ≠ 0), suspect := suspect }],
    day := [{ start := now, partl := decide (now % 86400 ≠ 0), suspect := suspect }] }

/-- The section's second. -/
def sectionInto (s : State) (p now : Nat) (o : PmObj) : PmObj :=
  let (ses, fe, near, far) := sectionSecond s p
  let (r, k, un) := availability ses o.sesRun o.okRun o.unavail
  let (fr, fk, fun_) := availability fe o.feSes o.feOk o.feUn
  let l := (if un then [0, 0, 0, 1] else near ++ [0]) ++ (if fun_ then [0, 0, 0, 1] else far ++ [0])
  intoBins now l { o with sesRun := r, okRun := k, unavail := un, feSes := fr, feOk := fk, feUn := fun_ }

/-- A path's second. -/
def pathInto (s : State) (p n now : Nat) (o : PmObj) : PmObj :=
  let (ses, ais, l) := pathSecond s p n
  let c := fun (i : Nat) => get (trunk s p).secCnt (64 * (1 + n) + i) 0
  let (r, k, un) := availability ses o.sesRun o.okRun o.unavail
  intoBins now (if un then [0, 0, 1] else l ++ [0, bit ais, c 0, c 1]) { o with sesRun := r, okRun := k, unavail := un }

/-- A whole second of time of day ends: it is classified into the bins, and the raw table is latched. -/
def pmSecond (p : Nat) (s : State) : State :=
  if 2 ≤ p ∨ lpTrunk s p = false ∨ s.time.running = false then s
  else
    let now := todSec s
    let s := if (trunk s p).inFrame = false ∨ (trunk s p).lof = true then secCount p 0 1 1 s else s
    let c := fun (i : Nat) => get (trunk s p).secCnt i 0
    let s := rawCount p 0 3 (bit (decide (c 3 ≠ 0))) (rawCount p 0 2 (bit (decide (c 1 ≠ 0))) s)
    let s := (trunk s p).ais.foldl (fun s n => setTrunk p { trunk s p with secCnt := put (trunk s p).secCnt (64 * (1 + n) + 2) 1 } s) s
    let s := (List.range 256).foldl (fun s n => rawCount p (1 + n) 2 (bit (decide (get (trunk s p).secCnt (64 * (1 + n) + 2) 0 ≠ 0))) s) s
    let x := trunk s p
    let pm :=
      if rawMode s p then []
      else
        let base := if x.pm = [] then put (x.paths.map fun e => (1 + e.1, newPm now true)) 0 (newPm now true) else x.pm
        base.map fun e => (e.1, if e.1 = 0 then sectionInto s p now e.2 else pathInto s p (e.1 - 1) now e.2)
    setTrunk p { x with pm := pm, secCnt := [], rawLatch := x.raw, rawSec := now } s

def execPmSecond (t port : Nat) (s : State) : Out := ev t (pmSecond port) s

/-! ## PATH_CONFIG (R290, R296, R301, R305, R307, R312) -/

def linePort (ws : List Word) : Bool := byteAt ws 0 == 2 || byteAt ws 0 == 3

/-- A fixed slot set is well formed (R296): codes above 5 are replaced by 0. -/
def goodSet (code ofs : Nat) : Bool :=
  code = 0 || 5 < code || (decide (ofs < period code) && decide (1 < ofs % 16))

def goodPath (ws : List Word) : Bool := linePort ws && goodSet (byteAt ws 4) (byteAt ws 5) && goodSet (byteAt ws 6) (byteAt ws 7)

def opPathConfig : Op :=
  { code := 0x0700, worlds := [0], life := 5, ready := 2,
    specs := [els 0x8701 4 false linePort, els 0x8702 12 false goodPath, els 0x8703 8 false (fun ws => linePort ws && decide (byteAt ws 1 ≤ 1)),
      el 0x8704 4 false linePort], far := fun _ => true }

/-- A TRUNK element is applied; none where it changes DIR under an installed key. -/
def applyTrunkElem (ws : List Word) (s : State) : Option (State × Body) :=
  let p := byteAt ws 0 - 2
  let f := byteAt ws 1
  let dir := f % 2
  let lof := Legal.apply (.range 1 255) 8 (byteAt ws 2)
  let compat := f.testBit 1 && lpTrunk s p
  let x := trunk s p
  if dir ≠ trkDir s p ∧ x.keys ≠ [] then none
  else
    let was := flag s (trkCfg p) 1
    let changed := decide (dir ≠ trkDir s p)
    let s := setFld (trkCfg p) 4 4 dir (setFld (trkCfg p) 15 8 lof (setFld (trkCfg p) 3 3 (bit (f.testBit 3))
      (setFld (trkCfg p) 2 2 (bit (f.testBit 2)) (setFld (trkCfg p) 1 1 (bit compat) s))))
    let s := if changed then setTrunk p { trunk s p with keyed := false, dirRun := 0, dirConflict := false } s else s
    let s := if was = compat then s else restartLink (18 + p) s
    let w := wordAt ws 0
    let applied := ((w.withBits 17 17 (bit compat)).withBits 15 8 lof)
    some (s, reportElem 0x8701 0 w applied)

/-- Two fixed slot sets share a position. -/
def setsMeet (c1 o1 c2 o2 : Nat) : Bool :=
  decide (c1 ≠ 0) && decide (c2 ≠ 0) && (let m := min (period c1) (period c2); decide (o1 % m = o2 % m))

/-- RX_MODE of a pass as applied: without ADD_DROP, or against a drop or an added path of the other port, none (R20, R301). -/
def passYields (s : State) (p path : Nat) : Bool :=
  !addDrop s || has s.sas.scs (scKey (1 - p) false path) ||
    (match look (trunk s (1 - p)).paths path with | some c => decide (c.rxMode = 1) | none => false)

/-- A PATH element is applied; none where a set shares a position with another path's. -/
def applyPathElem (ws : List Word) (s : State) : Option (State × Body) :=
  let p := byteAt ws 0 - 2
  let n := byteAt ws 1
  let x := trunk s p
  let shut := trkCompat s p && decide (16 ≤ n)
  let m := byteAt ws 2
  let mode := if shut ∨ 2 < m then 0 else if m = 2 ∧ passYields s p n = true then 0 else m
  let code := fun (c : Nat) => if shut ∨ 5 < c then 0 else c
  let sub := byteAt ws 3 / 8 % 8
  let taken := [0, 1].any fun q => (decide (q = p) || protLine s) && (trunk s q).paths.any fun e =>
    !(decide (q = p) && decide (e.1 = n)) && decide (e.2.rxMode = 1) && decide (e.2.sub = sub)
  let lf := (byteAt ws 3).testBit 6 && !taken
  let c : PathCfg :=
    { rxMode := mode, cls := byteAt ws 3 % 8, sub := sub, lfEn := lf, txPer := code (byteAt ws 4), txOfs := byteAt ws 5,
      rxPer := code (byteAt ws 6), rxOfs := byteAt ws 7 }
  let clash := x.paths.any fun e => decide (e.1 ≠ n) &&
    (setsMeet e.2.txPer e.2.txOfs c.txPer c.txOfs || setsMeet e.2.rxPer e.2.rxOfs c.rxPer c.rxOfs)
  if clash then none
  else
    if mode = 0 ∧ c.txPer = 0 ∧ c.rxPer = 0 then
      some (setTrunk p { x with paths := del x.paths n, pm := del x.pm (1 + n), ais := x.ais.filter (· ≠ n) } s, [])
    else
      let pm := if has x.pm (1 + n) ∨ x.pm = [] then x.pm else put x.pm (1 + n) (newPm (todSec s) false)
      some (setTrunk p (suspectPm { x with paths := put x.paths n c, pm := pm } (some (1 + n))) s, [])

/-- What a PATH element reports against the configuration that it left (R58, R62). -/
def pathReport (ws : List Word) (s : State) : Body :=
  let w0 := wordAt ws 0
  let w1 := wordAt ws 1
  match look (trunk s (byteAt ws 0 - 2)).paths (byteAt ws 1) with
  | some c => reportElem 0x8702 0 w0 ((w0.withBits 15 8 c.rxMode).withBits 6 6 (bit c.lfEn)) ++
      reportElem 0x8702 1 w1 ((w1.withBits 31 24 c.txPer).withBits 15 8 c.rxPer)
  | none => reportElem 0x8702 0 w0 (w0.withBits 15 8 0) ++ reportElem 0x8702 1 w1 ((w1.withBits 31 24 0).withBits 15 8 0)

/-- The paths of a port that a command named in a PATH element. -/
def namesPath (b : Body) (p n : Nat) : Bool := (elemsOf b 0x8702).any fun e => decide (byteAt e.val 0 - 2 = p) && decide (byteAt e.val 1 = n)

/-- The passes of a port that a drop or an added path of the other port now outweighs. -/
def yieldingPasses (s : State) (p : Nat) : List Nat :=
  ((trunk s p).paths.filter fun e => e.2.rxMode = 2 && passYields s p e.1).map (·.1)

/-- Passes that a drop now outweighs yield (R20, R301). -/
def yieldPasses (s : State) : State :=
  [0, 1].foldl (fun s p =>
    let l := yieldingPasses s p
    setTrunk p { trunk s p with paths := (trunk s p).paths.map fun e => if l.contains e.1 then (e.1, { e.2 with rxMode := 0 }) else e } s) s

/-- Word 0 of a path's PATH element. -/
def pathWord0 (p n : Nat) (c : PathCfg) : Word := word4 (2 + p) n c.rxMode (c.cls % 8 + 8 * (c.sub % 8) + 64 * bit c.lfEn)

/-- What a PATH_CONFIG reports of its PATH elements and of the earlier passes that yield to them, `before` the yielding and after it (R62). -/
def yieldReports (b : Body) (before after : State) : Body :=
  ((elemsOf b 0x8702).flatMap fun e => pathReport e.val after) ++
    [0, 1].flatMap fun p => ((yieldingPasses before p).filter fun n => !namesPath b p n).flatMap fun n =>
      match look (trunk before p).paths n with
      | some c => reportElem 0x8702 0 (pathWord0 p n c) (pathWord0 p n { c with rxMode := 0 })
      | none => []

/-- A TRUNK_KEY element is applied: its transfer is queued; else the status it fails with, 1 for a deferral, 2 for a hold. -/
def applyKeyElem (world : Nat) (ws : List Word) (s : State) : State ⊕ Nat :=
  let p := byteAt ws 0 - 2
  let ph := byteAt ws 1
  let handle := (wordAt ws 1).toNat
  let x := trunk s p
  if ph = x.phase ∧ has x.keys ph = true then .inr stState
  else match keyFor s world handle [uEncrypt, uDecrypt] mBus with
    | .bad st => .inr st
    | .later => .inr 1
    | .held => .inr 2
    | .ok k =>
      if k.alg ≠ 2 ∨ k.use.bit 4 = true then .inr stKeyAttr
      else match (match look x.keys ph with | some o => some o.entry | none => freeEntry s) with
        | none => .inr stNoSpace
        | some e =>
          match takeSlot 0 s with
          | none => .inr stBusy
          | some s =>
            let sa : Sa := { rx := false, an := 0, port := p, sc := 0, pn := 0, lim := 0, handle := handle, key := maskedKey s true k.value }
            .inl (touchKey handle (setKey handle { k with use := k.use.withBits 4 4 1 }
              { s with sas := { s.sas with bus := s.sas.bus ++
                [{ entry := e, handle := handle, sa := sa, scKey := 0, rewrite := has x.keys ph, trunk := some (p, ph) }] } }))

/-- Elements applied one after the other, with their reports. -/
def applyElems (f : List Word → State → Option (State × Body)) : List Elem → State → Option (State × Body)
  | [], s => some (s, [])
  | e :: r, s => match f e.val s with
    | none => none
    | some (s, a) => (applyElems f r s).map fun x => (x.1, a ++ x.2)

def applyKeys (world : Nat) : List Elem → State → State ⊕ Nat
  | [], s => .inl s
  | e :: r, s => match applyKeyElem world e.val s with
    | .inl s => applyKeys world r s
    | .inr n => .inr n

/-- A trunk port's TRUNK element, a path's PATH element (its deletion where it has no configuration) and a phase's TRUNK_KEY element
as applied (Table 10.9). -/
def trunkElemOf (s : State) (p : Nat) : Elem :=
  elemW 0x8701 [word4 (2 + p) (trkDir s p + 2 * bit (flag s (trkCfg p) 1) + 4 * bit (flag s (trkCfg p) 2) + 8 * bit (flag s (trkCfg p) 3))
    (fld s (trkCfg p) 15 8) 0]
def pathElemOf (s : State) (p n : Nat) : Elem :=
  match look (trunk s p).paths n with
  | some c => elemW 0x8702 [pathWord0 p n c, word4 c.txPer c.txOfs c.rxPer c.rxOfs, 0]
  | none => elemW 0x8702 [word4 (2 + p) n 0 0, 0, 0]
def keyElemOf (p ph handle : Nat) : Elem := elemW 0x8703 [word4 (2 + p) ph 0 0, w32 handle]

/-- The elements of a PATH_CONFIG as applied, for the mirror (Table 12.7). -/
def appliedElems (s : State) (b : Body) : Body := b.filterMap fun e =>
  let p := byteAt e.val 0 - 2
  if e.typ = 0x8701 then some (trunkElemOf s p) else if e.typ = 0x8702 then some (pathElemOf s p (byteAt e.val 1))
  else if e.typ = 0x8703 then some e else none

/-- PATH_CONFIG: all its elements apply or none (R312). -/
def ansPathConfig (h : Hdr) (b : Body) (s : State) : Ans :=
  if standby s then .fail stStandby 0
  else match applyElems applyTrunkElem (elemsOf b 0x8701) s with
    | none => .fail stState 0
    | some (s, r1) =>
      match applyKeys h.world (elemsOf b 0x8703) s with
      | .inr 1 => .defer
      | .inr 2 => .hold
      | .inr st => .fail st 0
      | .inl s =>
        match applyElems applyPathElem (elemsOf b 0x8702) s with
        | none => .fail stState 0
        | some (s, _) =>
          let r2 := yieldReports b s (yieldPasses s)
          let s := settleFaults (yieldPasses s)
          let s := mirror 8 (.path (appliedElems s b)) s
          let want := match elemOf b 0x8704 with | some e => some (byteAt e.val 0 - 2) | none => none
          let bad := match want with
            | some p => let x := trunk s p; !has x.keys (1 - x.phase) || !x.nextReadyRx
            | none => false
          if bad then .fail stState 0
          else
            let s := match want with
              | some p => setTrunk p { trunk s p with wantPhase := some (1 - (trunk s p).phase) } s
              | none => s
            let ports := (elemsOf b 0x8703).map (fun e => byteAt e.val 0 - 2) ++ want.toList
            if ports = [] then .done (r1 ++ r2) s
            else .waits (.trunkKeys (bit (ports.contains 0) + 2 * bit (ports.contains 1))) (r1 ++ r2) s

def execPathConfig (h : Hdr) (b : Body) (s : State) : Out := run (.pathConfig h b) opPathConfig h b (ansPathConfig h b) s

/-! ## TRUNK_PM_READ (R311, R312) -/

def opTrunkPmRead : Op :=
  { code := 0x0701, worlds := [0, 1, 2], life := 5,
    specs := [el 0x8705 8 true fun ws => linePort ws && decide (byteAt ws 1 ≤ 1) && decide (byteAt ws 3 ≤ 2)], far := fun _ => true }

/-- A bin as its PM_BIN element. -/
def binElem (i : Nat) (b : PmBin) : Elem :=
  elemB 0x0706 ([i, bit b.valid + 2 * bit b.suspect + 4 * bit b.partl, 0, 0] ++ beBytes 6 b.start ++ [0, 0] ++ b.counts.flatMap (beBytes 4))

/-- The raw table of an object as its PM_RAW element. -/
def rawPmElem (x : Trunk) (obj : Nat) : Elem :=
  elemB 0x0707 (beBytes 6 x.rawSec ++ [0, 0] ++ (List.range 8).flatMap fun i => beBytes 8 (get x.rawLatch (8 * obj + i) 0))

/-- TRUNK_PM_READ. -/
def ansTrunkPmRead (b : Body) (s : State) : Ans :=
  let ws := wordsOf b 0x8705
  let p := byteAt ws 0 - 2
  let obj := if byteAt ws 1 = 0 then 0 else 1 + byteAt ws 2
  let x := trunk s p
  if byteAt ws 3 = 2 then .done [rawPmElem x obj] s
  else if rawMode s p then .fail stState 0
  else if byteAt ws 1 = 1 ∧ has x.paths (byteAt ws 2) = false then .fail stNotFound 0
  else
    let o := get x.pm obj { q15 := [{ valid := false }], day := [{ valid := false }] }
    .done ((if byteAt ws 3 = 0 then o.q15 else o.day).zipIdx.map fun e => binElem e.2 e.1) s

def execTrunkPmRead (h : Hdr) (b : Body) (s : State) : Out := run (.trunkPmRead h b) opTrunkPmRead h b (ansTrunkPmRead b) s

end Sys2Proof.Machine
end

