-- ==== Sys2Proof/Machine/Ptp.lean ====
section
/-! DEFINITION. PTP (06, 6.4 and 6.5): the configuration, messages received and sent, one-step frames. -/
namespace Sys2Proof.Machine
open Sys2Proof

/-! ## PTP_CONFIG (R150 to R156) -/

/-- A word with each writable field that a mask names brought to its legal values (R60). -/
def legalWord (a : Nat) (w : Word) : Word :=
  (fieldsAt a).foldl (fun x f => if f.acc = .rw ∨ f.acc = .rws then clampFld x f.hi f.lo f.legal else x) w

/-- The bits of a requested word that a register's writable fields hold. -/
def storedPart (a : Nat) (w : Word) : Word := w &&& rwMask a

/-- `TMU_SERVO_CFG` is written: its clamps, then the clock that REF_MODE selects (R160, R169). -/
def writeServo (w : Word) (s : State) : State :=
  let a := 0x040040
  refChoose (setReg a ((regWord s a &&& ~~~ rwMask a) ||| (legalWord a w &&& rwMask a)) s)

/-- A signed byte clamped. -/
def clampByte (lo hi : Int) (v : Nat) : Nat := Legal.apply (.signed lo hi) 8 v

/-- A code of a set below `n`, else the default. -/
def codeBelow (n d v : Nat) : Nat := if v < n then v else d

/-- The brick that feeds an egress port: LP0 from B0, LP1 from B1, CP0 from B2, CP1 from B3. -/
def feeder (port : Nat) : Nat := if port < 2 then port + 2 else port - 2

/-- CLOCK as applied: type, profile and domain, whose fixed value a profile may give (Table 6.2), priority. -/
def clockApplied (w : Word) : Word :=
  let profile := codeBelow 4 2 (w.bits 23 16)
  let domain := if profile = 2 then 0 else if profile = 3 then 254 else w.bits 15 8
  word4 (codeBelow 3 0 (w.bits 31 24)) profile domain (w.bits 7 0)

/-- The bytes of PTP_PORT as applied under a profile (R150, R153, R155, R156, R168). -/
def ptpPortApplied (s : State) (profile : Nat) (ws : List Word) : List Word :=
  let p := byteAt ws 0
  let trunked := decide (2 ≤ p) && lpTrunk s (p - 2)
  let l2 := decide (2 ≤ profile) || decide (2 ≤ p)
  let transport := if l2 then 0 else codeBelow 3 0 (byteAt ws 2)
  let step := if trunked || !flag s (0x070000 + 0x100 * feeder p) 0 then 0 else codeBelow 2 0 (byteAt ws 3)
  let role := if trunked && trkCompat s (p - 2) then 0 else codeBelow 3 0 (byteAt ws 10)
  [word4 p (byteAt ws 1) transport step, wordAt ws 1,
    word4 (clampByte (-7) 4 (byteAt ws 8)) (clampByte (-7) 5 (byteAt ws 9)) role (byteAt ws 11)]

/-- The PTP port that applied bytes give. -/
def ptpPortOf (ws : List Word) : PtpPort :=
  { port := byteAt ws 0, sub := byteAt ws 1, transport := byteAt ws 2, step := byteAt ws 3, txSc := bytesNat ws 4 2,
    rxSc := bytesNat ws 6 2, logSync := signedOf 8 (byteAt ws 8), logPdelay := signedOf 8 (byteAt ws 9), role := byteAt ws 10 }

/-- The 1-based index of a PTP_PORT element that is malformed where the ports stand: a sub-port absent under the breakout in
force, a port repeated, an SC index outside its space on a line port in Ethernet mode (R155). -/
def ptpPortFault (s : State) (seen : List Nat) (i : Nat) : Body → Option Nat
  | [] => none
  | e :: r =>
    if e.typ ≠ 0x8411 then ptpPortFault s seen (i + 1) r
    else
      let p := byteAt e.val 0
      let here := if p < 2 then subExists s (spKey p 0 + byteAt e.val 1) && decide (byteAt e.val 1 < 8) else decide (byteAt e.val 1 = 0)
      let scs := decide (2 ≤ p) && !lpTrunk s (p - 2) && (decide (32768 ≤ bytesNat e.val 4 2) || decide (32768 ≤ bytesNat e.val 6 2))
      if here = false ∨ seen.contains p = true ∨ scs = true then some i else ptpPortFault s (p :: seen) (i + 1) r

/-- An SC that PTP may name: it exists, is of kind MACsec and integrity-only (R153). -/
def ptpScOk (s : State) (key : Nat) : Bool :=
  match scOf s key with
  | some c => !c.path && c.integrityOnly
  | none => false

/-- The SCs that PTP ports of line ports in Ethernet mode name. -/
def ptpScs (s : State) (l : List PtpPort) : List Nat :=
  l.flatMap fun q => if q.port < 2 ∨ lpTrunk s (q.port - 2) = true then [] else [scKey (q.port - 2) false q.txSc, scKey (q.port - 2) true q.rxSc]

/-- An SC that another command holds, or that is being deleted (R52, R210). -/
def scHeld (s : State) (key : Nat) : Bool := scBusy s key || (scOf s key).any fun c => c.deleting

/-- Bank 15 of a reserved tile is taken from an SA of any other SC (R153, R253). -/
def freeReserved (b : Nat) (s : State) : State :=
  match look (brick s b).banks 15 with
  | none => s
  | some k =>
    match saOf s k.sa with
    | some a => if bankReserved s b 0 = true ∧ ptpTxSc s a.scKey = false then releaseBank k.sa s else s
    | none => s

/-- The SCs of a line port in Ethernet mode are fit. -/
def ptpPortOk (s : State) (q : PtpPort) : Bool :=
  decide (q.port < 2) || lpTrunk s (q.port - 2) ||
    (ptpScOk s (scKey (q.port - 2) false q.txSc) && ptpScOk s (scKey (q.port - 2) true q.rxSc))

def opPtpConfig (s : State) : Op :=
  { code := 0x0402, worlds := [0],
    specs := [el 0x0410 4, els 0x8411 12 false fun ws => decide (byteAt ws 0 ≤ 3), el 0x0412 4],
    check := ptpPortFault s [] 1 }

/-- The reports of the PTP_PORT elements after the first, which an ordinary clock does not keep. -/
def dropReports (l : List Elem) : Body := l.flatMap fun e => (List.range 3).flatMap fun i => reportElem 0x8411 i (wordAt e.val i) 0

/-- PTP_CONFIG: the whole configuration is replaced and every PTP port restarts (R155). -/
def ansPtpConfig (b : Body) (s : State) : Ans :=
  let asked := if hasElem b 0x0410 then wordAt (wordsOf b 0x0410) 0 else word4 0 2 0 0
  let clock := clockApplied asked
  let all := elemsOf b 0x8411
  let kept := if clock.bits 31 24 = 1 then all.take 1 else all
  let applied := kept.map fun e => ptpPortApplied s (clock.bits 23 16) e.val
  let ports := applied.map fun ws => { ptpPortOf ws with since := s.now }
  if (ptpScs s ports).any (scHeld s) then .hold
  else if ports.all (ptpPortOk s) = false then .fail stState 0
  else
    let reports := (if hasElem b 0x0410 then reportElem 0x0410 0 asked clock else []) ++
      ((kept.zip applied).flatMap fun x => (List.range 3).flatMap fun i =>
        reportElem 0x8411 i (wordAt x.1.val i) (wordAt x.2 i)) ++
      dropReports (all.drop kept.length)
    let s : State := { s with time := { s.time with
      ptpType := clock.bits 31 24, ptpProfile := clock.bits 23 16, ptpDomain := clock.bits 15 8, ptpPrio1 := clock.bits 7 0,
      ptpPorts := ports, ptpIn := [] } }
    let s := fillBanks 1 0 (fillBanks 0 0 (freeReserved 1 (freeReserved 0 s)))
    if hasElem b 0x0412 then
      let w := wordAt (wordsOf b 0x0412) 0
      let m := storedPart 0x040040 w
      .done (reports ++ reportElem 0x0412 0 m (storedPart 0x040040 (legalWord 0x040040 w))) (writeServo w s)
    else .done reports s

def execPtpConfig (h : Hdr) (b : Body) (s : State) : Out := run (.ptpConfig h b) (opPtpConfig s) h b (ansPtpConfig b) s

/-! ## The best master clock algorithm (R151)

The algorithm is the default one of IEEE 1588-2019; what of it stands here, and the attributes of this device's own clock that
PTP_CONFIG does not give, are taken from that standard (log entry 36). -/

/-- The PTP port of a port code, where the clock is on. -/
def ptpPort (s : State) (port : Nat) : Option PtpPort :=
  if s.time.ptpType = 0 then none else s.time.ptpPorts.find? fun q => decide (q.port = port)

/-- A PTP port changed. -/
def updPtp (port : Nat) (f : PtpPort → PtpPort) (s : State) : State :=
  { s with time := { s.time with ptpPorts := s.time.ptpPorts.map fun q => if q.port = port then f q else q } }

/-- The clock identity of the device, from its base MAC, and the identity of a port. -/
def clockId (s : State) : Nat := s.boot.mac / 2 ^ 24 * 2 ^ 40 + 0xFFFE * 2 ^ 24 + s.boot.mac % 2 ^ 24
def portId (s : State) (port : Nat) : Nat := clockId s * 65536 + (port + 1)

/-- The device's own clock. -/
def ownClock (s : State) : PtpClock := { prio1 := s.time.ptpPrio1, id := clockId s }

/-- Lists of attributes in order of precedence: the first is better. -/
def attrsLess : List Nat → List Nat → Bool
  | a :: r, b :: t => decide (a < b) || (decide (a = b) && attrsLess r t)
  | _, _ => false

/-- One announced clock is better than another: by attributes, or for one grandmaster by the path to it. -/
def clockBetter (a b : PtpClock × Nat) : Bool :=
  if a.1.id = b.1.id then attrsLess [a.1.steps, a.2] [b.1.steps, b.2]
  else attrsLess [a.1.prio1, a.1.cls, a.1.acc, a.1.var, a.1.prio2, a.1.id] [b.1.prio1, b.1.cls, b.1.acc, b.1.var, b.1.prio2, b.1.id]

/-- Three announce intervals: 1 s in the power profiles, 2 s in the default ones. -/
def announceLife (s : State) : Nat := if 2 ≤ s.time.ptpProfile then 3 * sec else 6 * sec

/-- The clock announced to a port, while it lasts. -/
def bestOf (s : State) (q : PtpPort) : Option (PtpClock × Nat) := if s.now < q.bestAt + announceLife s then q.best else none

/-- The ports that choose their states: none in trunk mode, whose role is static. -/
def bmcaPorts (s : State) : List PtpPort := if s.time.ptpType = 0 then [] else s.time.ptpPorts.filter fun q => !(decide (2 ≤ q.port) && lpTrunk s (q.port - 2))

/-- The best clock announced to any port, with the port. -/
def bestHeard (s : State) : Option (PtpClock × Nat × Nat) :=
  (bmcaPorts s).foldl (fun m q =>
    match bestOf s q, m with
    | some c, some x => if clockBetter c (x.1, x.2.1) then some (c.1, c.2, q.port) else m
    | some c, none => some (c.1, c.2, q.port)
    | none, _ => m) none

/-- The state of a port: slave where the best clock is heard there and is better than the device's own, passive where another port hears
the same grandmaster better, else master; listening until it has heard or waited. -/
def bmcaState (s : State) (q : PtpPort) : Nat :=
  let quiet := if q.state = 0 ∧ (bestOf s q).isNone = true ∧ s.now < q.since + announceLife s then 0 else 2
  match bestHeard s with
  | none => quiet
  | some (c, src, port) =>
    if clockBetter (ownClock s, 0) (c, src) then quiet
    else if port = q.port then 1
    else match bestOf s q with
      | some x => if x.1.id = c.id then 3 else 2
      | none => quiet

/-- Every port takes its state. -/
def runBmca (s : State) : State :=
  (bmcaPorts s).foldl (fun t q => updPtp q.port (fun p => { p with state := bmcaState s q }) t) s

/-- The clock that the device announces: that of its slave port, one step on, else its own. -/
def parentClock (s : State) : PtpClock :=
  match bestHeard s with
  | some (c, src, _) => if clockBetter (ownClock s, 0) (c, src) then ownClock s else { c with steps := c.steps + 1 }
  | none => ownClock s

/-! ## Messages received (R151 to R153, R160) -/

/-- The firmware reads a PTP frame that was consumed at a port: its receive timestamp. -/
def takeArrival (port : Nat) (s : State) : Option (Nat × State) :=
  match s.time.ptpIn.find? fun e => decide (e.1 = port) with
  | some e => some (e.2, { s with time := { s.time with ptpIn := s.time.ptpIn.erase e } })
  | none => none

/-- A port measures its offset when a Sync is complete: t2 − t1 less the delay (IEEE 1588-2019). -/
def syncMeasured (q : PtpPort) (d : Int) (s : State) : State :=
  let delay : Int := if 1 ≤ s.time.ptpProfile then q.linkDelay else match q.reqDiff with | some r => (d + r) / 2 | none => 0
  let s := updPtp q.port (fun p => { p with syncDiff := some d, rxSync := none }) s
  if q.state = 1 ∧ servoSrc s = 1 then measure (d - delay) s else s

/-- A message is used: Announce feeds the best master clock algorithm, the others the exchanges of Sync and of delay. `at_` is its receive
timestamp. -/
def ptpUse (q : PtpPort) (m : PtpMsg) (at_ : Nat) (s : State) : State :=
  let t2 : Int := (at_ : Nat)
  let mine := decide (m.requester = portId s q.port)
  let fromMaster := decide (q.state = 1) && (match q.best with | some b => decide (b.2 = m.source) | none => false)
  match m.kind with
  | 0 =>
    if fromMaster = false then s
    else if m.twoStep then updPtp q.port (fun p => { p with rxSync := some (m.seq, at_, m.corr) }) s
    else syncMeasured q (t2 - m.time - m.corr) s
  | 1 =>
    let c := (m.clock, m.source)
    let take := match bestOf s q with | some b => decide (b.2 = m.source) || clockBetter c b | none => true
    if m.clock.id = clockId s ∨ 255 ≤ m.clock.steps ∨ take = false then s
    else runBmca (updPtp q.port (fun p => { p with best := some c, bestAt := s.now }) s)
  | 2 =>
    match q.rxSync with
    | some (n, at2, c) => if fromMaster = true ∧ n = m.seq then syncMeasured q (at2 - m.time - c - m.corr) s else s
    | none => s
  | 3 => if q.state = 2 ∧ s.time.ptpProfile = 0 then updPtp q.port (fun p => { p with rxReq := some (m.source, m.seq, at_, m.corr) }) s else s
  | 4 =>
    match q.sentReq with
    | some (n, t3) => if mine = true ∧ n = m.seq then updPtp q.port (fun p => { p with reqDiff := some ((m.time : Int) - t3 - m.corr), sentReq := none }) s else s
    | none => s
  | 5 => if 1 ≤ s.time.ptpProfile then updPtp q.port (fun p => { p with rxPd := some (m.source, m.seq, at_, m.corr) }) s else s
  | 6 =>
    match q.sentPd with
    | some (n, t1) =>
      if mine = false ∨ n ≠ m.seq then s
      else if m.twoStep then updPtp q.port (fun p => { p with pdGot := some (m.seq, at_, m.time, m.corr) }) s
      else updPtp q.port (fun p => { p with linkDelay := (t2 - t1 - m.corr) / 2, sentPd := none }) s
    | none => s
  | 7 =>
    match q.sentPd, q.pdGot with
    | some (n, t1), some (k, t4, t2, c) =>
      if mine = true ∧ n = m.seq ∧ k = m.seq then
        updPtp q.port (fun p => { p with linkDelay := ((t4 : Int) - t1 - ((m.time : Int) - t2) - c - m.corr) / 2, sentPd := none, pdGot := none }) s
      else s
    | _, _ => s
  | _ => s

/-- A PTP message that has been consumed reaches the firmware: discarded and counted where its domain is another, else used (R152). Its
frame has passed the checks of R153, and TLVs are accepted whatever they are (R150). -/
def ptpRx (port : Nat) (m : PtpMsg) (s : State) : State :=
  match ptpPort s port, takeArrival port s with
  | some q, some (at_, s) =>
    if 2 ≤ port ∧ lpTrunk s (port - 2) = true then s
    else if m.domain ≠ s.time.ptpDomain then { s with time := { s.time with ptpDiscard := s.time.ptpDiscard + 1 } }
    else ptpUse q m at_ s
  | _, _ => s

def execPtpMessageRx (t port : Nat) (msg : PtpMsg) (s : State) : Out := ev t (ptpRx port msg) s

/-! ## Messages sent (R154 to R157) -/

/-- The step of a port: one-step only while EXPRESS_EN is 1 in the brick that feeds its egress (R156). -/
def stepOf (s : State) (q : PtpPort) : Nat := if flag s (0x070000 + 0x100 * feeder q.port) 0 then q.step else 0

/-- Whether a port of a state and profile sends a kind of message. A one-step port sends no follow-up of what it sends in
one step (R154). -/
def ptpSends (s : State) (q : PtpPort) (kind : Nat) : Bool :=
  let p2p := decide (1 ≤ s.time.ptpProfile)
  match kind with
  | 0 => decide (q.state = 2)
  | 1 => decide (q.state = 2)
  | 2 => decide (q.state = 2) && decide (stepOf s q = 0)
  | 3 => decide (q.state = 1) && !p2p
  | 4 => decide (q.state = 2) && !p2p
  | 5 => p2p
  | 6 => p2p
  | 7 => p2p && decide (stepOf s q = 0)
  | _ => false

/-- The sequence number that a message of a port's own takes. -/
def nextSeqOf (q : PtpPort) (kind : Nat) : Nat := (get q.seqs kind 65535 + 1) % 65536

/-- The message of a kind that a port sends; none where it answers or follows up nothing. -/
def ptpMsgOf (s : State) (q : PtpPort) (kind : Nat) : Option PtpMsg :=
  let m : PtpMsg := { kind := kind, domain := s.time.ptpDomain, source := portId s q.port, twoStep := decide (stepOf s q = 0), seq := nextSeqOf q kind }
  match kind with
  | 1 =>
    let c := parentClock s
    some { m with clock := c, tlvs := if s.time.ptpProfile = 3 then Config.powerTlvs c.id else [] }
  | 2 => q.sentSync.map fun e => { m with seq := e.1, time := e.2 }
  | 4 => q.rxReq.map fun e => { m with requester := e.1, seq := e.2.1, time := e.2.2.1, corr := e.2.2.2 }
  | 6 => q.rxPd.map fun e => { m with requester := e.1, seq := e.2.1, time := e.2.2.1 }
  | 7 => q.pdResp.bind fun e => (q.rxPd.map fun r => { m with requester := e.1, seq := e.2.1, time := e.2.2, corr := r.2.2.2 })
  | _ => some m

/-- What a port keeps of a message it has sent at a transmit timestamp. -/
def ptpSent (m : PtpMsg) (st : Nat) (q : PtpPort) : PtpPort :=
  match m.kind with
  | 0 => { q with seqs := put q.seqs 0 m.seq, sentSync := some (m.seq, st) }
  | 1 => { q with seqs := put q.seqs 1 m.seq }
  | 2 => { q with sentSync := none }
  | 3 => { q with seqs := put q.seqs 3 m.seq, sentReq := some (m.seq, st) }
  | 4 => { q with rxReq := none }
  | 5 => { q with seqs := put q.seqs 5 m.seq, sentPd := some (m.seq, st), pdGot := none }
  | 6 => { q with pdResp := some (m.requester, m.seq, st) }
  | 7 => { q with pdResp := none, rxPd := none }
  | _ => q

/-- A PTP frame takes a packet number on its transmit SC, on a line port (R153): the SA entry and PN, or that none may go. -/
def ptpProtect (q : PtpPort) (s : State) : State × Option (Option (Nat × Nat)) :=
  if q.port < 2 then (s, some none)
  else
    let key := scKey (q.port - 2) false q.txSc
    match assignPn key s with
    | (none, s) => (s, none)
    | (some (e, _, pn), s) => (saCount e 0 s, some (some (e, pn)))

/-- The transmit delay of Table 5.2, in quarter nanoseconds. -/
def txDelayOf (s : State) (port : Nat) : Nat := txDelay s (spKey port 0) / 250

/-- A one-step frame is placed at the timed injection stage at least 1 µs before its departure instant (R157). One frame at
a time stands there for a port. -/
def inject (q : PtpPort) (m : PtpMsg) (dep : Nat) (s : State) : State :=
  if stampDiff s dep < 4000 ∨ has s.time.oneSteps q.port = true then s
  else
    let rel := unsignedOf 42 ((dep : Int) - (txDelayOf s q.port : Nat) - txCorr s q.port)
    let since := match q.rxPd with | some r => r.2.2.1 | none => 0
    let x : OneStep :=
      { port := spKey q.port q.sub, transport := q.transport, msg := { m with twoStep := false }, since := since, tDep := dep % 2 ^ 42, tRel := rel }
    let s := updPtp q.port (fun p => { p with seqs := if m.kind = 0 then put p.seqs 0 m.seq else p.seqs, rxPd := if m.kind = 6 then none else p.rxPd }) s
    { s with time := { s.time with oneSteps := put s.time.oneSteps q.port x } }

/-- The transmit timestamp of an event message that leaves the datapath now, at its instant at the medium boundary, plus TX_CORR (R113, R148,
R149). -/
def txStampTod (s : State) (port : Nat) : Nat := ((tod s / 16384 + txDelayOf s port : Nat) + txCorr s port).toNat * 16384

/-- A PTP message is sent at its interval, in one step where the port does so (R154, R157). -/
def ptpTx (port kind dep : Nat) (s : State) : State :=
  let s := runBmca s
  match ptpPort s port with
  | none => s
  | some q =>
    let sp := spKey port q.sub
    if (2 ≤ port ∧ lpTrunk s (port - 2) = true) ∨ dataHeld s = true ∨ ptpSends s q kind = false then s
    else match ptpMsgOf s q kind with
      | none => s
      | some m =>
        if stepOf s q = 1 ∧ (kind = 0 ∨ kind = 6) then inject q m dep s
        else if canSend s sp = false then s
        else match ptpProtect q s with
          | (s, none) => s
          | (s, some sa) =>
            let st := txStampTod s port
            sendPtp sp q.transport m sa (if [0, 3, 5, 6].contains kind then some st else none) (updPtp port (ptpSent m st) s)

def execPtpMessageTx (t port kind dep : Nat) (s : State) : Out := ev t (ptpTx port kind dep) s

/-! ## One-step frames (R157, R159) -/

/-- The one-step message of a port is dropped. -/
def dropOneStep (n : Nat) (s : State) : State := { s with time := { s.time with oneSteps := del s.time.oneSteps n } }

/-- The tile writes the departure instant into a one-step message: its seconds and nanoseconds as the timestamp, its fraction into the
correction, to which a Pdelay_Resp also adds its turnaround (R157 step 4). -/
def oneStepWritten (s : State) (x : OneStep) : PtpMsg :=
  let d := stampTod s x.tDep
  let frac : Int := (d % 65536 : Nat)
  { x.msg with time := d / 65536 * 65536, corr := x.msg.corr + frac + (if x.msg.kind = 6 then (d : Int) - x.since else 0) }

/-- At T_rel − LEAD the one-step frame is dispatched to the express tile, where it takes its packet number and its time; it reaches the
release stage 32 bc later. -/
def oneStepDispatch (n : Nat) (s : State) : State :=
  match look s.time.oneSteps n with
  | none => s
  | some x =>
    let b := feeder n
    let left := stampDiff s x.tRel * 250
    if x.dispatched = true ∨ (fld s 0x040060 9 0 * bc s b : Nat) < left then s
    else
      match ptpPort s n with
      | none => dropOneStep n s
      | some q =>
        if stepOf s q = 0 then dropOneStep n s
        else match ptpProtect q s with
          | (s, none) => dropOneStep n s
          | (s, some sa) =>
            { s with time := { s.time with
              oneSteps := put s.time.oneSteps n { x with dispatched := true, sa := sa, msg := oneStepWritten s x, atRelease := decide ((32 * bc s b : Nat) ≤ left) } } }

def execOnestepDispatch (t n : Nat) (s : State) : Out := ev t (oneStepDispatch n) s

def execOnestepRelease (t n : Nat) (s : State) : Out := ev t (oneStepRelease n) s

end Sys2Proof.Machine
end

