-- ==== Sys2Proof/Machine/Bond.lean ====
section
/-! DEFINITION. The bond (12): sessions and settlement, the lease and its fence, resigning, the mirror at both ends, takeover,
resynchronisation, and the bond commands. -/
namespace Sys2Proof.Machine
open Sys2Proof

/-! ## Frames in flight, events -/

/-- Every frame in the bricks, the queues and the holds is discarded, those that waited for an egress counted there (R345, R352,
R480, Table 16.3). -/
def flushDatapath (s : State) : State :=
  let s := ((s.que.frames ++ s.que.hold).filter fun h => !h.gone).foldl (fun s h => txDrop (countsAt s h.egress) s) s
  { s with
    brk := { s.brk with bricks := s.brk.bricks.map fun e => (e.1, { e.2 with held := [], misses := [] }) }
    que := { s.que with frames := [], hold := [], cells := [] }
    port := { s.port with subs := s.port.subs.map fun e => (e.1, { e.2 with tx := none, suspended := none }) } }

/-- The bytes of a bond event (Table 19.9). -/
def bondEvent (a b : Nat) (s : State) : List Nat := [a, b] ++ beBytes 2 s.bnd.bond ++ beBytes 2 s.bnd.peer

/-- The QA reference is within limits (R354). -/
def qaOk (s : State) : Bool := s.lane.refOk.contains 8

/-- The lease duration in force (R351): D. -/
def leaseD (s : State) : Nat := s.bnd.dNow * 500 * us

/-! ## Leaving sync and the fence (R352, R354, R355, R361, R368) -/

/-- The active records its standby in sync no more: nothing waits for an acknowledgement, ceilings that wait apply, receive
ceilings lapse. -/
def dropSync (s : State) : State :=
  lapseCeils { s with bnd := { s.bnd with inSync := false, resync := false, unacked := [], rxCeil := [], rxAsked := [] } }

/-- A standby that cannot resynchronise: halted, frozen, or its QA reference out of limits. -/
def unfit (s : State) : Bool := halted s || s.tmp.frozen || !qaOk s

/-- A standby that is not in sync and has a session asks for a resynchronisation (R367). -/
def syncReq (s : State) : State :=
  if s.bnd.shaken = false ∨ unfit s = true then setRole 3 7 s
  else
    let s := setRole 4 7 { s with bnd := { s.bnd with based := false, early := [], snapEnd := none, gapSince := none } }
    sendBond 6 0 [] [] (mirrorLane s) s

/-- A standby leaves sync for a reason (R368). -/
def loseSync (reason : Nat) (s : State) : State :=
  if s.bnd.role = 4 ∨ s.bnd.role = 5 then
    let s := if s.bnd.role = 5 then record 0x0C05 (bondEvent reason 0 s) s else s
    syncReq (setRole 3 7 s)
  else s

/-- The device fences for a cause (Table 12.4): muted, no frame dispatched, frames in flight discarded, FENCED (R352). -/
def fenceOff (cause note : Nat) (s : State) : State :=
  if s.bnd.role ≠ 1 then s
  else
    let s := dropSync (flushDatapath s)
    record 0x0C03 (bondEvent cause 0 s) (setRole 2 note s)

/-- The device fences and sends FENCED (R352). -/
def fence (cause note : Nat) (s : State) : State :=
  if s.bnd.role ≠ 1 then s else sendBond 11 0 [cause, 0, 0, 0, 0, 0, 0, 0] [] 3 (fenceOff cause note s)

/-- The mask bit of a discretionary cause (Table 12.6). -/
def resignMask (s : State) (cause : Nat) : Bool :=
  match cause with
  | 1 => flag s 0x0B0000 9
  | 3 => flag s 0x0B0000 8
  | 4 => flag s 0x0B0000 11
  | 5 => flag s 0x0B0000 10
  | _ => true

/-- A resign for a cause, forced or discretionary (R355): a fence and RESIGN. A standby leaves sync (R368). -/
def resign (cause : Nat) (forced : Bool) (s : State) : State :=
  if s.bnd.role = 4 ∨ s.bnd.role = 5 then loseSync 1 s
  else if s.bnd.role ≠ 1 ∨ (forced = false ∧ (s.bnd.inSync = false ∨ resignMask s cause = false)) then s
  else
    let s := fenceOff cause 4 s
    sendBond 10 0 [cause, 0, 0, 0, 0, 0, 0, 0] [] 3 (record 0x0C02 (bondEvent cause 0 s) s)

/-! ## Takeover (R363, R364) -/

/-- A transmit SA starts at its mirrored ceiling, its first reservation in force at once (R364 step 2). -/
def startTx (entry : Nat) (s : State) : State :=
  match saOf s entry with
  | none => s
  | some a =>
    match scOf s a.scKey with
    | none => s
    | some c =>
      if a.rx then s
      else
        let s := setSa entry { a with lim := max a.lim (min (a.pn + 2 ^ 20) (c.pnEnd + 1)), asked := none } s
        if a.st = 1 ∧ a.pnEvent < a.pn then considerAuto a.scKey (threshold entry a c s) else s

/-- Each phase of a trunk port resumes its frame count at its mirrored ceiling, the next block in force at once (R364 step 4). -/
def resumeCount (x : Trunk) : Trunk :=
  { x with keys := x.keys.map fun e => (e.1, { e.2 with count := e.2.ceiling, ceiling := e.2.ceiling + 2 ^ 20, asked := none }) }

/-- The banks of every express tile are given out. -/
def fillAll (s : State) : State := [0, 1, 2, 3].foldl (fun s b => fillBanks b 1 (fillBanks b 0 s)) s

/-- Takeover for a cause of Table 12.10 (R364). -/
def takeover (cause : Nat) (s : State) : State :=
  let s := setRole 1 cause { s with bnd := { s.bnd with
    inSync := false, resync := false, rxCeil := [], rxAsked := [], leaseAt := none, leases := [], activeAt := s.now } }
  let s := s.sas.sas.foldl (fun s e => startTx e.1 s) s
  let s : State := { s with trk := { p0 := resumeCount s.trk.p0, p1 := resumeCount s.trk.p1 } }
  let s := fillAll (restartAger s)
  let s : State := { s with sas := { s.sas with cas := s.sas.cas.map fun e => (e.1, { e.2 with peers := [], server := isServer s e.1 { e.2 with peers := [] } }) } }
  let s := raise 0x0B0004 15 s
  let s := if s.pwr.state = 1 ∧ s.pwr.target = none then record 0x1201 [1, 0] { s with pwr := { s.pwr with state := 0 } } else s
  let s : State := { s with boot := { s.boot with recoveryUntil := some (s.now + fld s 0x000048 15 8 * sec) } }
  record 0x0C01 (bondEvent cause 0 s) s

/-! ## Sessions and settlement (R347, R350, Table 12.2) -/

/-- A bond session starts: lease numbers from 1, a fresh nonce, HELLO on both lanes. -/
def startSession (s : State) : State :=
  let (n, s) := drawBits 256 (drbgUse s)
  let s : State := { s with bnd := { s.bnd with
    nonce := some n, peerNonce := none, shaken := false, leaseNo := 0, ackNo := 0, lastLease := 0, syncNo := 0, leases := [],
    slowRun := 0, acted := [] } }
  sendBond 1 0 (beBytes 32 n ++ [s.bnd.role, bit s.bnd.secondary, 0, 0]) [] 3 s

/-- This device gives way to its peer: the secondary, or the higher device ID where the preferences are equal. -/
def givesWay (s : State) : Bool :=
  decide (s.bnd.peerPref < bit s.bnd.secondary) || (decide (bit s.bnd.secondary = s.bnd.peerPref) && decide (s.bnd.peer < s.dks.device))

/-- Roles are settled by the first row of Table 12.2 that applies; a standby then asks for resynchronisation. -/
def settleRoles (s : State) : State :=
  let p := s.bnd.peerRole
  let s :=
    if s.bnd.role = 1 ∧ p = 1 then
      let s := record 0x0C06 (bondEvent (bit s.bnd.secondary) 0 s) s
      if givesWay s then setRole 3 8 (setRole 2 8 (dropSync (flushDatapath s))) else s
    else if s.bnd.role = 2 ∧ (p = 5 ∨ p = 1) then setRole 3 8 s
    else if s.bnd.role = 2 ∧ (p = 3 ∨ p = 4) then setRole 1 8 { s with bnd := { s.bnd with activeAt := s.now, leaseAt := none } }
    else if s.bnd.role = 2 ∧ p = 2 then
      if givesWay s then setRole 3 8 s else setRole 1 8 { s with bnd := { s.bnd with activeAt := s.now, leaseAt := none } }
    else if s.bnd.role = 5 ∧ p = 2 then takeover 8 s
    else s
  if s.bnd.role = 3 ∨ s.bnd.role = 4 then syncReq s else s

/-- A message fails its authentication (R347, R349). -/
def authFail (typ : Nat) (rec : Bool) (m : BondRx) (s : State) : State :=
  let s := bump 0x0B0010 1 s
  if rec then record 0x0C08 ([m.lane % 2, typ] ++ beBytes 2 m.bond ++ beBytes 2 m.sender) s else s

/-- A message of a TYPE that Table 12.4 does not give. -/
def strangeType (m : BondRx) : Bool := m.typ.any fun n => decide (n = 0 ∨ 11 < n)

/-- A HELLO names this bond and this peer. -/
def helloFits (s : State) (m : BondRx) : Bool := decide (m.bond = s.bnd.bond) && decide (m.sender = s.bnd.peer)

/-- A HELLO is accepted: a copy is discarded; one with another nonce after the handshake restarts the session (R347, R350). -/
def acceptHello (m : BondRx) (s : State) : State :=
  let n := beNat (m.body.take 32)
  if s.bnd.peerNonce = some n then s
  else
    let s := if s.bnd.nonce = none ∨ s.bnd.shaken = true then startSession s else s
    settleRoles { s with bnd := { s.bnd with
      peerNonce := some n, peerRole := m.body.getD 32 0, peerPref := m.body.getD 33 0, shaken := true } }

/-- A lane delivers bond messages. -/
def hears (s : State) (m : BondRx) : Bool := bondLaneUp s (m.lane % 2)

/-- HELLO arrives. Before a bond is configured it is kept for the join (log entry 17). -/
def helloRx (m : BondRx) (s : State) : State :=
  if hears s m = false then s
  else if s.bnd.joined = false then { s with bnd := { s.bnd with heard := some m } }
  else if helloFits s m = false then authFail 1 false m s
  else if strangeType m = true ∨ bondMacOk s 1 m = false then authFail (m.typ.getD 1) true m s
  else if m.format ≠ 1 then loseSync 3 s
  else acceptHello m s

def execHelloRx (t : Nat) (m : BondRx) (s : State) : Out := ev t (helloRx m) s

/-- The bond link goes up or down (R107): a session starts at each rise (R347). -/
def linkChange (s : State) : State :=
  let up := decide (bondMode s ≠ 0)
  if up = s.bnd.linkUp then s
  else
    let s : State := { s with bnd := { s.bnd with linkUp := up } }
    if up = true ∧ s.bnd.joined = true then startSession s else s

def execBondLinkStateChange (t : Nat) (s : State) : Out := ev t linkChange s

/-- A message of a type under K_mac reaches its rule: heard, of this bond, authenticated, of this format (R349, R368). -/
def underMac (typ : Nat) (m : BondRx) (f : State → State) (s : State) : State :=
  if hears s m = false ∨ s.bnd.joined = false then s
  else if strangeType m = true ∨ s.bnd.shaken = false ∨ bondMacOk s typ m = false ∨ helloFits s m = false then authFail (m.typ.getD typ) true m s
  else if m.format ≠ 1 then loseSync 3 s
  else f s

/-! ## The lease (R351 to R354) -/

/-- The active sends LEASE every D/4; one not acknowledged by then is late. -/
def leaseTx (s : State) : State :=
  let due := match s.bnd.leaseAt with | some t => decide (t + leaseD s / 4 ≤ s.now) | none => true
  if s.bnd.role ≠ 1 ∨ s.bnd.shaken = false ∨ bondMode s = 0 ∨ due = false then s
  else
    let late := decide (s.bnd.ackNo < s.bnd.leaseNo)
    let s := if late then bump 0x0B0014 1 { s with bnd := { s.bnd with slowRun := s.bnd.slowRun + 1 } } else s
    let n := s.bnd.leaseNo + 1
    let s : State := { s with bnd := { s.bnd with
      leaseNo := n, leaseAt := some s.now, dNow := fld s 0x0B0000 15 12,
      leases := (n, s.now) :: s.bnd.leases.filter fun e => decide (s.bnd.ackNo < e.1) } }
    sendBond 2 n [bit s.bnd.inSync, 0, 0, 0, 0, 0, 0, 0] [] 3 s

def execLeaseTx (t : Nat) (s : State) : Out := ev t leaseTx s

/-- A LEASE reaches a fenced or standby device: it is accepted and answered. A fenced device that hears one stands by. -/
def leaseRx (m : BondRx) (s : State) : State :=
  if s.bnd.role ≤ 1 ∨ m.number ≤ s.bnd.lastLease then s
  else
    let s : State := { s with bnd := { s.bnd with lastLease := m.number, tRx := s.now, dNow := fld s 0x0B0000 15 12 } }
    let s := if s.bnd.role = 2 then syncReq (setRole 3 8 s) else s
    sendBond 3 m.number [s.bnd.role, 0, 0, 0, 0, 0, 0, 0] [] 3 s

def execLeaseRx (t : Nat) (m : BondRx) (s : State) : Out := ev t (underMac 2 m (leaseRx m)) s

/-- A LEASE_ACK renews the lease; one that does not report role 5 to a LEASE sent since the sync was recorded ends it
(R351, R368). -/
def leaseAckRx (m : BondRx) (s : State) : State :=
  if s.bnd.role ≠ 1 ∨ m.number ≤ s.bnd.ackNo then s
  else
    let at_ := (s.bnd.leases.find? fun e => decide (e.1 = m.number)).map (·.2)
    let slow := match at_ with
      | some t => if m.number = s.bnd.leaseNo then (if t + 250 * us < s.now then s.bnd.slowRun + 1 else 0) else s.bnd.slowRun
      | none => s.bnd.slowRun
    let s : State := { s with bnd := { s.bnd with
      ackNo := m.number, slowRun := slow, tAck := max s.bnd.tAck (at_.getD 0),
      leases := s.bnd.leases.filter fun e => decide (m.number < e.1) } }
    if s.bnd.inSync = true ∧ m.body.getD 0 0 ≠ 5 ∧ s.bnd.syncNo < m.number then dropSync s else s

def execLeaseAckRx (t : Nat) (m : BondRx) (s : State) : Out := ev t (underMac 3 m (leaseAckRx m)) s

/-- No newer LEASE has been acknowledged by t_ack + 3D/4 while the lease is binding (R352). -/
def leaseFence (s : State) : State :=
  if leaseBinding s = true ∧ s.bnd.tAck + 3 * leaseD s / 4 ≤ s.now then fence 6 5 s else s

def execLeaseFence (t : Nat) (s : State) : Out := ev t leaseFence s

/-- The lease expires at t_rx + D + D/8: a standby in sync takes over (R353). -/
def leaseExpiry (s : State) : State :=
  if s.bnd.role = 5 ∧ s.bnd.tRx + leaseD s + leaseD s / 8 ≤ s.now then takeover 1 s else s

def execLeaseExpiry (t : Nat) (s : State) : Out := ev t leaseExpiry s

/-- A quad's reference is lost (R96); without QA an active fences and a standby leaves sync (R354). -/
def execRefLoss (t quad : Nat) (s : State) : Out :=
  ev t (fun s =>
    let s := refLoss quad s
    if quad = 8 then (if s.bnd.role = 1 then fence 6 5 s else loseSync 2 s) else s) s

/-! ## RESIGN and FENCED (R355, R356) -/

/-- RESIGN or FENCED acts once in a session: a standby in sync takes over, another records it. -/
def resignRx (typ cause : Nat) (m : BondRx) (s : State) : State :=
  if s.bnd.acted.contains typ then s
  else
    let s : State := { s with bnd := { s.bnd with acted := typ :: s.bnd.acted } }
    if s.bnd.role = 5 then takeover cause s
    else if s.bnd.role = 3 ∨ s.bnd.role = 4 then record 0x0C02 (bondEvent (m.body.getD 0 0) 1 s) s
    else s

def execResignRx (t : Nat) (m : BondRx) (s : State) : Out := ev t (underMac 10 m (resignRx 10 2 m)) s

def execFencedRx (t : Nat) (m : BondRx) (s : State) : Out := ev t (underMac 11 m (resignRx 11 3 m)) s

/-- The junction has stood at or above TEMP_RESIGN in each of the last 100 ms. -/
def hotFor (s : State) : Bool :=
  (List.range 100).all fun i => decide (((fld s 0x0B0000 7 0 * 4 : Nat) : Int) ≤ signedOf 16 (Config.junction (s.now / ms - i) % 65536))

/-- Block errors on both lanes within one lease period. -/
def bothErrored (s : State) : Bool :=
  match look s.bnd.blockErr 0, look s.bnd.blockErr 1 with
  | some a, some b => decide (max a b ≤ min a b + leaseD s) && decide (s.now ≤ max a b + leaseD s)
  | _, _ => false

/-- A condition of Table 12.6 holds: its cause and whether it is forced. -/
def resignHolds (s : State) (cause : Nat) : Option Bool :=
  let on := fun (b forced : Bool) => if b then some forced else none
  match cause with
  | 1 => on ((List.range 4).any fun b => (List.range 6).any fun t => (tile s b t).failed) false
  | 2 => on s.mem.halt true
  | 3 => if s.mem.tamperHalt ∨ s.tmp.frozen then some true else on (s.tmp.latch.any fun e => decide (e.resp = 5)) false
  | 4 => on (hotFor s) false
  | 5 => on ((decide (3 ≤ s.bnd.slowRun) || bothErrored s) && decide (s.bnd.activeAt + 60 * sec ≤ s.now)) false
  | _ => none

def execResignCondition (t cause : Nat) (s : State) : Out :=
  ev t (fun s => match resignHolds s cause with | some f => resign cause f s | none => s) s

/-! ## The mirror at the standby (R362, R367) -/

/-- A mirrored SC. -/
def mirrorScIn (key : Nat) (present : Bool) (sci : Nat) (cfg : Word) (window : Nat) (link : Word) (thresh retire : Nat) (s : State) : State :=
  if present then
    let c : Sc := (scOf s key).getD { sci := sci, cfg := cfg }
    setSc key { c with sci := sci, cfg := cfg, window := window, link := link, thresh := thresh, retire := retire } s
  else
    let s := unlearn key s
    { s with sas := { s.sas with scs := del s.sas.scs key, sas := dropIf s.sas.sas fun _ a => decide (a.scKey = key) } }

/-- A mirrored installation: the key in a fresh slot of this device, the SA on its entry (R233, R362). -/
def mirrorSaIn (entry : Nat) (rx : Bool) (an port sc gen : Nat) (iv : List Word) (init : Nat) (wrapped : List Word) (s : State) : State :=
  let key := scKey port rx sc
  match scOf s key with
  | none => s
  | some c =>
    let alg := if c.suite % 2 = 1 then 2 else 1
    let use := w32 (2 ^ (if rx then 25 else 24) + 2 ^ 21 + 2 ^ (lifeBit s.keys.life) + 2 ^ 4)
    let field := Config.keyUnwrap (bondWrapKey s) wrapped
    let value := if alg = 2 then field % 2 ^ 256 else field / 2 ^ 128 % 2 ^ 128
    let (s, handle) := (storeValue (w32 (alg * 2 ^ 24 + 128 * alg)) use 0 value s).getD (s, 0)
    let a := { newSa key an handle (maskedKey s (alg = 2) value) init c iv (saOf s entry) with gen := gen, rx := rx }
    setSc key { c with ans := put c.ans an entry } (setSa entry a s)

/-- A mirrored state of an SA: one that is erased leaves. -/
def mirrorStateIn (entry st : Nat) (active : Option Nat) (s : State) : State :=
  match saOf s entry with
  | none => s
  | some a =>
    if st = 3 then
      let s := releaseBank entry s
      { s with sas := { s.sas with
        sas := del s.sas.sas entry,
        scs := upd s.sas.scs a.scKey fun c =>
          { c with ans := if entryOn c a.an = some entry then del c.ans a.an else c.ans,
                   enc := if a.st = 1 ∧ a.rx = false then none else c.enc } } }
    else
      let s := setSa entry { a with st := st, retireAt := if st = 2 then some s.now else none } s
      { s with sas := { s.sas with scs := upd s.sas.scs a.scKey fun c =>
        { c with enc := match active with | some an => if a.rx then c.enc else some an | none => c.enc } } }

/-- Mirrored trunk elements: a trunk key is held where its handle names a key of this device. -/
def mirrorPathIn (b : Body) (s : State) : State :=
  let s := ((applyElems applyTrunkElem (elemsOf b 0x8701) s).map (·.1)).getD s
  let s := (elemsOf b 0x8703).foldl (fun s e =>
    let p := byteAt e.val 0 - 2
    let ph := byteAt e.val 1
    let h := (wordAt e.val 1).toNat
    match look s.keys.keys h with
    | some k =>
      (match (look (trunk s p).keys ph).map (·.entry) <|> freeEntry s with
       | some n => setTrunk p { trunk s p with keys := put (trunk s p).keys ph { entry := n, handle := h, key := maskedKey s true k.value } } s
       | none => s)
    | none => s) s
  let s := ((applyElems applyPathElem (elemsOf b 0x8702) s).map (·.1)).getD s
  settleFaults (yieldPasses s)

/-- A mirrored CA. -/
def mirrorMkaIn (ca : Nat) (present : Bool) (txSc rxSc cak : Nat) (ckn : Body) (server : Bool) (ps : List Nat) (s : State) : State :=
  if present then
    let old : MkaCa := (look s.sas.cas ca).getD { ckn := ckn, cak := cak, txSc := txSc, rxSc := rxSc }
    { s with sas := { s.sas with cas := put s.sas.cas ca { old with
      ckn := ckn, cak := cak, txSc := txSc, rxSc := rxSc, server := server, prio := ps.getD 0 old.prio, suite := ps.getD 1 old.suite,
      offset := ps.getD 2 old.offset, hello := ps.getD 3 old.hello, rekey := ps.getD 4 old.rekey, keyNum := ps.getD 5 old.keyNum,
      an := ps.getD 6 old.an } } }
  else { s with sas := { s.sas with cas := del s.sas.cas ca } }

/-- A record is applied (R362): a transmit ceiling into NEXT_PN and RES_CEIL, a receive ceiling into FLOOR_PN. -/
def applyRec (r : MirrorBody) (s : State) : State :=
  match r with
  | .sc key present sci cfg window link thresh retire => mirrorScIn key present sci cfg window link thresh retire s
  | .saInstall entry rx an port sc gen iv init _ wrapped => mirrorSaIn entry rx an port sc gen iv init wrapped s
  | .saState entry st active => mirrorStateIn entry st active s
  | .txCeil entry c => { s with sas := { s.sas with sas := upd s.sas.sas entry fun a => { a with pn := c, lim := c } } }
  | .rxCeil entry c => { s with sas := { s.sas with sas := upd s.sas.sas entry fun a => { a with lim := max a.lim c } } }
  | .trunkCeil p ph c => setTrunk p { trunk s p with keys := upd (trunk s p).keys ph fun k => { k with count := c, ceiling := c } } s
  | .learn remove b sc key => addWork b (.learn { remove := remove, brick := b, sc := sc, key := key, mirrored := true }) s
  | .path b => mirrorPathIn b s
  | .mka ca present txSc rxSc cak ckn server ps => mirrorMkaIn ca present txSc rxSc cak ckn server ps s

/-- The records that follow the last applied are applied, looking at most `n` times. -/
def drainRecs : Nat → State → State
  | 0, s => s
  | n + 1, s =>
    match s.bnd.early.find? fun r => decide (r.seq = s.bnd.applied + 1) with
    | none => s
    | some r =>
      drainRecs n (applyRec r.body { s with bnd := { s.bnd with
        applied := r.seq, early := s.bnd.early.filter fun x => decide (r.seq < x.seq) } })

/-- SYNC_DONE follows once every record up to the snapshot's end is applied (R367 step 3). -/
def checkDone (s : State) : State :=
  match s.bnd.snapEnd with
  | some e => if s.bnd.role = 4 ∧ e ≤ s.bnd.applied then sendBond 8 0 [] [] (mirrorLane s) { s with bnd := { s.bnd with snapEnd := none } } else s
  | none => s

/-- Records that have come are applied in order and acknowledged; a gap is timed (R362). -/
def absorb (s : State) : State :=
  let before := s.bnd.applied
  let s := drainRecs s.bnd.early.length s
  let s : State := { s with bnd := { s.bnd with gapSince := if s.bnd.early = [] then none else s.bnd.gapSince.orElse fun _ => some s.now } }
  checkDone (if before < s.bnd.applied then sendBond 5 s.bnd.applied [] [] (mirrorLane s) s else s)

/-- MIRROR at a standby. The first message of a resynchronisation gives the sequence it starts from (log entry 17). -/
def mirrorRx (m : BondRx) (s : State) : State :=
  match m.recs with
  | [] => s
  | r :: _ =>
    if s.bnd.role ≠ 4 ∧ s.bnd.role ≠ 5 then s
    else
      let s := if s.bnd.based then s else { s with bnd := { s.bnd with based := true, applied := r.seq - 1 } }
      let fresh := m.recs.filter fun x => decide (s.bnd.applied < x.seq) && s.bnd.early.all fun y => decide (y.seq ≠ x.seq)
      absorb { s with bnd := { s.bnd with early := s.bnd.early ++ fresh } }

def execMirrorRx (t : Nat) (m : BondRx) (s : State) : Out := ev t (underMac 4 m (mirrorRx m)) s

/-- A gap not filled within 1 ms drops the standby out of sync (R362). -/
def gapTimeout (s : State) : State :=
  match s.bnd.gapSince with
  | some g => if g + ms ≤ s.now then loseSync 0 s else s
  | none => s

def execMirrorGapTimeout (t : Nat) (s : State) : Out := ev t gapTimeout s

/-- SNAPSHOT_END names the sequence of the snapshot's last record. -/
def snapshotEndRx (m : BondRx) (s : State) : State :=
  if s.bnd.role ≠ 4 then s
  else
    let e := beNat (m.body.take 8)
    absorb { s with bnd := { s.bnd with snapEnd := some e, based := true, applied := if s.bnd.based then s.bnd.applied else e } }

def execSnapshotEndRx (t : Nat) (m : BondRx) (s : State) : Out := ev t (underMac 7 m (snapshotEndRx m)) s

/-- SYNC_ACK: the standby is in sync (R367 step 5). -/
def syncAckRx (s : State) : State :=
  if s.bnd.role = 4 then let s := setRole 5 6 s; record 0x0C04 (bondEvent 0 0 s) s else s

def execSyncAckRx (t : Nat) (m : BondRx) (s : State) : Out := ev t (underMac 9 m syncAckRx) s

/-! ## The mirror at the active (R359 to R362, R367) -/

/-- MIRROR_ACK: messages it covers are acknowledged, ceilings they carry come into force (R361). -/
def mirrorAckRx (m : BondRx) (s : State) : State :=
  if s.bnd.role ≠ 1 ∨ m.number ≤ s.bnd.acked then s
  else releaseCeils m.number { s with bnd := { s.bnd with
    acked := m.number, unacked := s.bnd.unacked.filter fun x => decide (m.number < x.last) } }

def execMirrorAckRx (t : Nat) (m : BondRx) (s : State) : Out := ev t (underMac 5 m (mirrorAckRx m)) s

/-- Every message not acknowledged for 50 µs is sent again (R362). -/
def retransmit (s : State) : State :=
  if mirrorOn s = false ∨ bondMode s = 0 then s
  else
    let due := s.bnd.unacked.filter fun x => decide (x.sent + 50 * us ≤ s.now)
    let s : State := { s with bnd := { s.bnd with unacked := s.bnd.unacked.map fun x => if x.sent + 50 * us ≤ s.now then { x with sent := s.now } else x } }
    due.foldl (fun s x => bump 0x0B001C 1 (sendBond 4 ((x.recs.head?.map (·.seq)).getD x.last) [] x.recs (mirrorLane s) s)) s

def execMirrorRetransmit (t : Nat) (s : State) : Out := ev t retransmit s

/-- The snapshot's records of one SA: its installation, state and ceiling. -/
def snapSa (e : Nat × Sa) (s : State) : State :=
  let a := e.2
  if a.st = 3 then s
  else
    let init := if a.rx then a.lim else 1
    let s := mirror 2 (.saInstall e.1 a.rx a.an a.port a.sc a.gen a.ivBase init false
      (Config.keyWrap (bondWrapKey s) (beBytes 32 (Nat.xor a.key s.sas.mask)))) s
    let s := if a.st = 0 then s else mirror 3 (.saState e.1 a.st (if a.st = 1 then some a.an else none)) s
    if a.rx then
      match scOf s a.scKey with
      | some c => askRx e.1 (a.pn + 1 + rxStep s c) c s
      | none => s
    else mirror 4 (.txCeil e.1 a.lim) s

/-- The snapshot's records of one trunk port. -/
def snapTrunk (p : Nat) (s : State) : State :=
  let x := trunk s p
  let es := trunkElemOf s p :: (x.keys.map fun k => keyElemOf p k.1 k.2.handle) ++ x.paths.map fun e => pathElemOf s p e.1
  let s := mirror 8 (.path es) s
  x.keys.foldl (fun s k => mirror 6 (.trunkCeil p k.1 k.2.ceiling) s) s

/-- SYNC_REQ: resynchronisation runs, its snapshot in the running sequence (R367 steps 1 to 3). -/
def syncReqRx (s : State) : State :=
  if s.bnd.role ≠ 1 then s
  else
    let s := dropSync s
    let s : State := { s with bnd := { s.bnd with resync := true } }
    let s := s.sas.scs.foldl (fun s e => mirrorSc e.1 true s) s
    let s := s.sas.sas.foldl (fun s e => snapSa e s) s
    let s := [0, 1].foldl (fun s p => if lpTrunk s p then snapTrunk p s else s) s
    let s := s.sas.cas.foldl (fun s e => setCa e.1 e.2 s) s
    let s := [0, 1].foldl (fun s b => ((tabs s b).flow.filter fun e => !e.2.tomb && !e.2.static).foldl
      (fun s e => mirror 7 (.learn false b e.2.sc e.2.key) s) s) s
    sendBond 7 0 (beBytes 8 (s.bnd.nextSeq - 1)) [] (mirrorLane s) s

def execSyncReqRx (t : Nat) (m : BondRx) (s : State) : Out := ev t (underMac 6 m syncReqRx) s

/-- SYNC_DONE: the active records its standby in sync (R367 step 4). -/
def syncDoneRx (s : State) : State :=
  if s.bnd.role ≠ 1 ∨ s.bnd.resync = false then s
  else
    let s : State := { s with bnd := { s.bnd with
      resync := false, inSync := true, syncNo := s.bnd.leaseNo, tAck := if s.bnd.ackNo = 0 then s.now else s.bnd.tAck } }
    sendBond 9 0 [] [] (mirrorLane s) s

def execSyncDoneRx (t : Nat) (m : BondRx) (s : State) : Out := ev t (underMac 8 m syncDoneRx) s

/-! ## Commands (R346, R358, R363, R370) -/

/-- The BOND element. -/
def bondElem : ElemSpec := el 0x8901 12 true fun ws =>
  decide (byteAt ws 0 ≤ 2) && decide (bytesNat ws 2 2 ≤ 511) && decide (bytesNat ws 4 2 ≤ 1023)

def opBondConfig : Op := { code := 0x0900, worlds := [0], life := 5, specs := [bondElem] }

/-- The bond and its session end; the mirror's sequence runs on. -/
def dropBond (s : State) : State :=
  let s := dropSync s
  { s with bnd := { s.bnd with
    joined := false, bond := 0, peer := 0, secondary := false, key := 0, nonce := none, peerNonce := none, shaken := false,
    leaseNo := 0, ackNo := 0, leaseAt := none, lastLease := 0, leases := [], acted := [], slowRun := 0, early := [], based := false,
    gapSince := none, snapEnd := none } }

/-- A session starts where the link stands, with the HELLO heard before the join. -/
def greet (s : State) : State :=
  if bondMode s = 0 then s
  else
    let s := startSession { s with bnd := { s.bnd with linkUp := true } }
    match s.bnd.heard with
    | some m =>
      let s : State := { s with bnd := { s.bnd with heard := none } }
      if helloFits s m = true ∧ strangeType m = false ∧ bondMacOk s 1 m = true ∧ m.format = 1 then acceptHello m s else s
    | none => s

/-- Join: the bond is configured anew, FENCED until the handshake has run (R346, R370). -/
def joinBond (world : Nat) (ws : List Word) (s : State) : Ans :=
  let handle := (wordAt ws 2).toNat
  match keyFor s world handle [uDerive] mCore with
  | .bad st => .fail st 0
  | .later => .defer
  | .held => .hold
  | .ok _ =>
    let pref := if byteAt ws 1 = 0 then 0 else 1
    let w := wordAt ws 0
    let s := if s.bnd.role = 5 then record 0x0C05 (bondEvent 4 0 s) s else s
    let s := dropBond (if s.bnd.role = 1 then flushDatapath s else s)
    let s := touchKey handle { s with bnd := { s.bnd with
      joined := true, bond := bytesNat ws 2 2, peer := bytesNat ws 4 2, secondary := decide (pref = 1), key := handle } }
    .done (reportElem 0x8901 0 w (w.withBits 23 16 pref)) (greet (setRole 2 0 s))

/-- BOND_CONFIG: leave, join or FORCE. -/
def ansBondConfig (h : Hdr) (b : Body) (s : State) : Ans :=
  let ws := wordsOf b 0x8901
  match byteAt ws 0 with
  | 0 => if s.bnd.role = 1 ∧ s.bnd.inSync = true then .fail stState 0 else .done [] (setRole 0 0 (dropBond s))
  | 1 => joinBond h.world ws s
  | _ =>
    if s.bnd.role ≤ 1 then .fail stState 0
    else .done [] (takeover 9 (record 0x0C07 (bondEvent (credOf s h.session) 0 s) s))

def execBondConfigJoin (h : Hdr) (b : Body) (s : State) : Out := run (.bondConfigJoin h b) opBondConfig h b (ansBondConfig h b) s
def execBondConfigLeave (h : Hdr) (b : Body) (s : State) : Out := run (.bondConfigLeave h b) opBondConfig h b (ansBondConfig h b) s
def execBondForce (h : Hdr) (b : Body) (s : State) : Out := run (.bondForce h b) opBondConfig h b (ansBondConfig h b) s

def opBondResign : Op := { code := 0x0901, worlds := [0], life := 5 }

/-- BOND_RESIGN (R358). -/
def ansBondResign (s : State) : Ans :=
  if s.bnd.role = 1 ∧ s.bnd.inSync = true then .done [] (resign 0 false s) else .fail stState 0

def execBondResign (h : Hdr) (b : Body) (s : State) : Out := run (.bondResign h b) opBondResign h b ansBondResign s

def opBondStatus : Op := { code := 0x0902, worlds := [0, 1, 2], life := 5 }

/-- BOND_STATUS (Table 12.9). -/
def ansBondStatus (s : State) : Ans :=
  let seq := if standby s then s.bnd.applied else s.bnd.acked
  let n := if s.bnd.inSync ∨ s.bnd.resync ∨ s.bnd.role = 4 ∨ s.bnd.role = 5 then s.sas.sas.length else 0
  .done [elemW 0x0902 [liveWord s 0x0B0004, liveWord s 0x0B0008, w32 (seq / 2 ^ 32), w32 seq, w32 n]] s

def execBondStatus (h : Hdr) (b : Body) (s : State) : Out := run (.bondStatus h b) opBondStatus h b ansBondStatus s

/-- A bond member resumes in FENCED and settles at a new session (R481). -/
def bondResume (s : State) : State := if s.bnd.joined then greet (setRole 2 0 s) else s

end Sys2Proof.Machine
end

