-- ==== Sys2Proof/Machine/Jobs.lean ====
section
/-! DEFINITION. Vault jobs (14.1 to 14.4): admission, kiln lanes and lattice pipes, yield points, end checks, aborts; zeroisation of
keys and of the SA store; the entropy source and the DRBG (14.7). -/
namespace Sys2Proof.Machine
open Sys2Proof

/-- A vault cycle (Table 1.2). -/
def vc : Nat := ns

/-! ## Lanes and queues (R403, R411) -/

/-- A lane of the kiln (engine 0) or a pipe of the lattice engine (engine 1). -/
def unitOf14 (s : State) (engine k : Nat) : Lane14 := if engine = 0 then get s.eng.lanes k {} else get s.eng.pipes k {}
def setUnit14 (engine k : Nat) (x : Lane14) (s : State) : State :=
  if engine = 0 then { s with eng := { s.eng with lanes := put s.eng.lanes k x } }
  else { s with eng := { s.eng with pipes := put s.eng.pipes k x } }

def putJob (id : Nat) (j : Job) (s : State) : State := { s with eng := { s.eng with jobs := put s.eng.jobs id j } }
def dropJob (id : Nat) (s : State) : State := { s with eng := { s.eng with jobs := del s.eng.jobs id } }

/-- The queued job that a free lane takes: the oldest of the highest priority. -/
def nextQueued (s : State) (engine : Nat) : Option (Nat × Job) :=
  (s.eng.jobs.filter fun e => decide (e.2.engine = engine) && e.2.lane.isNone).foldl (fun best e =>
    match best with
    | none => some e
    | some b => if b.2.prio < e.2.prio then some e else best) none

/-- A lane or pipe that holds no job and is not withheld. -/
def unitFree (s : State) (engine k : Nat) : Bool :=
  let x := unitOf14 s engine k
  !x.withheld && decide (laneJobs s engine k = [])

/-- Every free lane or pipe of an engine takes a job. -/
def fillUnits (engine : Nat) (s : State) : State :=
  (List.range (if engine = 0 then 8 else 2)).foldl (fun s k =>
    if unitFree s engine k then
      match nextQueued s engine with
      | some (id, j) => perf 5 (if engine = 0 then 1 else 4) 1 (putJob id { j with lane := some k, start := s.now, done := 0 } s)
      | none => s
    else s) s

/-- The oldest job that waits for a vault-cipher page starts where the page is idle (R417). -/
def fillPage (p : Nat) (s : State) : State :=
  let l := s.eng.jobs.filter fun e => decide (e.2.engine = 2) && decide (e.2.page = p)
  if l.any (fun e => e.2.lane.isSome) then s
  else match l with
    | (id, j) :: _ => putJob id { j with lane := some p, start := s.now } s
    | [] => s

/-! ## Admission (R30, R401, R402) -/

/-- The ceiling of a world's priorities (R402). -/
def prioCeil (s : State) (world : Nat) : Nat :=
  match worldClass world with
  | 3 => 2
  | 4 => fld s 0x0D0000 1 0
  | _ => 3

/-- The PRIORITY of a command and its report. -/
def prioOf (s : State) (world : Nat) (b : Body) : Nat × Body :=
  match elemOf b 0x0B15 with
  | some e =>
    let v := (wordAt e.val 0).toNat
    let a := min v (prioCeil s world)
    (a, reportElem 0x0B15 0 (wordAt e.val 0) (w32 a))
  | none => (min 1 (prioCeil s world), [])

/-- An engine has no unit left to run a job (R408, R414, R539). -/
def engineOut (s : State) (engine : Nat) : Bool :=
  match engine with
  | 0 => kilnOut s
  | 1 => latticeOut s
  | 2 => (List.range 4).all fun k => s.eng.cores.contains k
  | 3 => (List.range 2).all fun k => s.eng.hashes.contains k
  | _ => false

/-- A job is admitted, or its command fails for want of a unit or a slot. -/
def submit (j : Job) (s : State) : Ans :=
  if engineOut s j.engine then .fail stSelftest 0
  else match takeSlot j.world s with
    | none => .fail stBusy 0
    | some s =>
      let id := s.eng.nextJob
      let s := match j.key with | some h => touchKey h s | none => s
      let s := match j.key2 with | some h => touchKey h s | none => s
      let s := putJob id j { s with eng := { s.eng with nextJob := id + 1 } }
      .wait (.job id) (if j.engine = 2 then fillPage j.page s else fillUnits j.engine s)

/-- Work that ends within its command: it needs a job slot while it runs. -/
def brief (engine world : Nat) (f : State → Ans) (s : State) : Ans :=
  if engineOut s engine then .fail stSelftest 0
  else match takeSlot world s with
    | none => .fail stBusy 0
    | some s => f s

/-- Work that draws on DRBG instance 0: it waits while the source restarts, and fails while it is held failed (R422). -/
def withDrbg (f : State → Ans) (s : State) : Ans :=
  if drbgOut s then .fail stSelftest 0 else if s.eng.startup then .hold else f (drbgUse s)

/-- Instance 0 reseeds before a key generation (R421). -/
def reseed0 (s : State) : State := { s with eng := { s.eng with d0 := { s.eng.d0 with requests := 0, last := s.now } } }

/-! ## Free results -/

/-- An element of `n` bytes of free values (log entry 3), padded with zeros. -/
def drawElem (typ n : Nat) (s : State) : Elem × State :=
  let (ws, s) := drawWords ((n + 3) / 4) s
  let pad := match ws.getLast? with
    | some w => if n % 4 = 0 then ws else ws.dropLast ++ [w.withBits (31 - 8 * (n % 4)) 0 0]
    | none => ws
  ({ typ := typ, len := n, val := pad }, s)

/-! ## The end of a job (R407 to R410, R414) -/

/-- The cycles a job has run. -/
def cyclesRun (s : State) (j : Job) : Nat := j.done + (if j.suspended then 0 else (s.now - j.start) / vc)

/-- The command of a job completes, and the job is gone. -/
def endJob (id status : Nat) (elems : Body) (s : State) : State :=
  settleTenants (settleKeyErase (finishWhere (fun w => decide (w = .job id)) status elems (dropJob id s)))

/-- A job ends well: its result, or its key with the handle. -/
def deliver (id : Nat) (j : Job) (s : State) : State :=
  if j.bad ≠ 0 then endJob id j.bad [] (if j.engine = 0 then bump 0x0D001C 1 s else s)
  else match j.result with
    | .reply es => endJob id stOk es s
    | .key typ use owner value es =>
      match storeValue typ use owner value s with
      | some (s, h) => endJob id stOk (elemW 0x8A02 [w32 h] :: es) s
      | none => endJob id stNoSpace [] s

/-- Queued jobs of an engine with no unit left complete with ST_SELFTEST (R408, R414). -/
def drainOut (engine : Nat) (s : State) : State :=
  if engineOut s engine then
    (s.eng.jobs.filter fun e => decide (e.2.engine = engine) && e.2.lane.isNone).foldl (fun s e => endJob e.1 stSelftest [] s) s
  else s

/-- A check failure of a lane or pipe: recorded and counted; the unit's known-answer test, and its withholding until reset
(R408, R414). -/
def unitFault (engine k check : Nat) (kat : Bool) (s : State) : State :=
  let x := unitOf14 s engine k
  let recent := s.now :: x.faults.filter fun t => decide (s.now < t + 60 * sec)
  let s := record (if engine = 0 then 0x0B01 else 0x0B03) ([k, check] ++ (if engine = 0 then [cap 255 recent.length] else []))
    (bump (if engine = 0 then 0x0D0018 else 0x0E0018) 1 s)
  let s := setUnit14 engine k { x with faults := recent, withheld := !kat || decide (3 ≤ recent.length) } s
  let s := if kat then s else kindFailed (1 + engine) (record (if engine = 0 then 0x0B02 else 0x0B04) [k] s)
  drainOut engine s

/-- The job that a lane suspended resumes: it went on 64 cycles after the end of the one that displaced it, 192 before the
wipe was verified (R404, R409). -/
def resumeJob (k : Nat) (s : State) : State :=
  match (laneJobs s 0 k).find? fun e => e.2.suspended with
  | some (id, j) => putJob id { j with suspended := false, start := s.now - 192 * vc } s
  | none => s

/-- A job ends on a lane or pipe, its bank wiped: its completion, and the next job (R409). The attempts of an ML-DSA signature are a
free value. -/
def unitJobEnd (engine k : Nat) (fault : Option Nat) (kat : Bool) (s : State) : State :=
  match (laneJobs s engine k).find? fun e => !e.2.suspended with
  | none => s
  | some (id, j) =>
    let run := cyclesRun s j
    if run < j.cycles + 256 then s
    else
      let s := bump (if engine = 0 then 0x0D0010 else 0x0E0010) 1 s
      let (n, s) := if j.work = 2 then drawBits 10 s else (0, s)
      let s := if j.work = 2 then perf 5 5 (1 + n % 1000) (bump 0x0E0014 (1 + n % 1000) s) else s
      let s := match fault with
        | some c => unitFault engine k c kat (endJob id stEngineFault [] s)
        | none => if j.work = 1 ∧ 30 * sec ≤ run * vc then endJob id stEngineFault [] s else deliver id j s
      fillUnits engine (if engine = 0 then resumeJob k s else s)

def execKilnJobEnd (t lane : Nat) (fault : Option Nat) (kat : Bool) (s : State) : Out :=
  ev t (fun s => if lane < 8 then unitJobEnd 0 lane fault kat s else s) s

def execLatticeJobEnd (t pipe : Nat) (fault : Option Nat) (kat : Bool) (s : State) : Out :=
  ev t (fun s => if pipe < 2 then unitJobEnd 1 pipe fault kat s else s) s

/-! ## Yield points (R404) -/

/-- Whether a job stands at one of its yield points: between two of its ceil(C / 50,000) segments, as equal as whole cycles
allow; between any two candidate tests of an RSA key generation (R407). -/
def atYield (s : State) (j : Job) : Bool :=
  let n := (j.cycles + 49999) / 50000
  let run := cyclesRun s j
  decide (j.work = 1) || (List.range n).any fun k => decide (0 < k) &&
    (decide (run = k * j.cycles / n) || decide (run = (k * j.cycles + n - 1) / n))

/-- A running job that may be suspended: it displaced none, and its lane holds no suspended job. -/
def maySuspendJob (s : State) (k : Nat) (j : Job) : Bool :=
  !j.displaced && (laneJobs s 0 k).all (fun e => !e.2.suspended) && atYield s j

/-- The lanes whose running jobs stand at a yield point, with those jobs. -/
def yielding (s : State) : List (Nat × Nat × Job) :=
  (List.range 8).filterMap fun k =>
    match (laneJobs s 0 k).find? fun e => !e.2.suspended with
    | some (id, j) => if maySuspendJob s k j then some (k, id, j) else none
    | none => none

/-- Of two lanes, the one that suspends: the lower priority, then the later start, then the higher lane. -/
def yieldsBefore (a b : Nat × Nat × Job) : Bool :=
  decide (a.2.2.prio < b.2.2.prio) || (decide (a.2.2.prio = b.2.2.prio) &&
    (decide (b.2.2.start < a.2.2.start) || (decide (a.2.2.start = b.2.2.start) && decide (b.1 ≤ a.1))))

/-- A lane at a yield point suspends its job for a queued one of higher priority than every job running. -/
def yieldPoint (k : Nat) (s : State) : State :=
  match (yielding s).find? fun x => decide (x.1 = k), nextQueued s 0 with
  | some x, some (qid, q) =>
    let higher := s.eng.jobs.all fun e => !(decide (e.2.engine = 0) && e.2.lane.isSome && !e.2.suspended) || decide (e.2.prio < q.prio)
    if higher = true ∧ (yielding s).all (fun y => yieldsBefore x y) = true then
      let s := putJob x.2.1 { x.2.2 with suspended := true, done := cyclesRun s x.2.2 } s
      perf 5 1 1 (perf 5 3 1 (bump 0x0D0014 1 (putJob qid { q with lane := some k, start := s.now + 64 * vc, displaced := true } s)))
    else s
  | _, _ => s

def execKilnYieldPoint (t lane : Nat) (s : State) : Out := ev t (yieldPoint lane) s

/-! ## Aborts and zeroisation (R409, R398, Table 16.3, R480) -/

/-- A suspended job whose lane runs nothing resumes, and free units take queued jobs. -/
def tidyUnits (s : State) : State :=
  let s := (List.range 8).foldl (fun s k => if (laneJobs s 0 k).all (fun e => e.2.suspended) then resumeJob k s else s) s
  fillUnits 1 (fillUnits 0 s)

/-- Every job of a sort is aborted and its bank wiped; its command completes with a status. -/
def abortJobs (p : Job → Bool) (status : Nat) (s : State) : State :=
  tidyUnits ((s.eng.jobs.filter fun e => p e.2).foldl (fun s e => endJob e.1 status [] s) s)

/-- Every key slot and cache entry is zeroised: volatile keys are gone, persistent ones wait for the next boot (R382). -/
def zeroiseKeys (s : State) : State :=
  { s with keys := { s.keys with
    keys := (s.keys.keys.filter fun e => e.2.persistent).map fun e => (e.1, { e.2 with place := 2, erasing := false, fresh := false }) } }

/-- Every SA entry, trunk key, transfer and keystream bank is zeroised; commands that wait for a transfer or a switch find nothing,
those that wait for an erasure are done. -/
def zeroiseSas (s : State) : State :=
  let s : State := { s with
    sas := { s.sas with
      sas := [], bus := [],
      scs := s.sas.scs.map fun e => (e.1, { e.2 with ans := [], enc := none, pending := none }) }
    trk := { p0 := { s.trk.p0 with keys := [], keyed := false, wantPhase := none, oldPhase := none }
             p1 := { s.trk.p1 with keys := [], keyed := false, wantPhase := none, oldPhase := none } }
    brk := { s.brk with bricks := s.brk.bricks.map fun e => (e.1, { e.2 with banks := [] }) }
    bnd := { s.bnd with rxCeil := [], rxAsked := [], waiting := [] } }
  let s := finishWhere (fun w => match w with | .keyBus _ => true | .trunkKeys _ => true | .switch _ => true | _ => false) stNotFound [] s
  let s := (s.sas.scs.filter fun e => e.2.deleting).foldl (fun s e => removeSc e.1 s) s
  settleCas (finishWhere (fun w => match w with | .zeroised _ _ => true | _ => false) stOk [] s)

/-- A key leaves for its failed integrity check: its handle names nothing, jobs on it end with ST_ENGINE_FAULT (R380, R381). -/
def keyFails (handle : Nat) (s : State) : State :=
  match look s.keys.keys handle with
  | none => s
  | some k =>
    let s := record 0x0D08 (beBytes 4 handle ++ [bit (k.fresh || decide (k.place = 1))]) (dropKey handle s)
    abortJobs (fun j => decide (j.key = some handle) || decide (j.key2 = some handle)) stEngineFault s

/-- A cached key is brought back into a slot, or fails its check (R380, R381). -/
def keyReload (handle : Nat) (ok : Bool) (s : State) : State :=
  match look s.keys.keys handle with
  | none => s
  | some k =>
    if ok = false then keyFails handle s
    else
      let s := if k.place = 1 then perf 5 7 1 (makeRoom (keySlots k) s).1 else s
      setKey handle { k with place := if k.place = 1 then 0 else k.place, fresh := false } s

def execKeyReload (t handle : Nat) (ok : Bool) (s : State) : Out := ev t (keyReload handle ok) s

/-! ## The entropy source and the DRBG (R420 to R422) -/

/-- An instance reseeds from a healthy source (R421). -/
def drbgReseed (inst : Nat) (s : State) : State :=
  if s.eng.srcOk = false then s
  else if inst = 0 then reseed0 s
  else { s with eng := { s.eng with d1 := { s.eng.d1 with requests := 0, last := s.now } } }

def execDrbgReseed (t inst : Nat) (s : State) : Out := ev t (drbgReseed inst) s

/-- A health test fails: the source restarts; a second failure within 60 s holds it failed until reset (R422). -/
def rngFail (test : Nat) (s : State) : State :=
  let again : Bool := match s.eng.lastFail with | some l => decide (s.now < l + 60 * sec) | none => false
  let s : State := { s with eng := { s.eng with srcOk := false, startup := !s.eng.failed, fails := s.eng.fails + 1, lastFail := some s.now } }
  let s := record 0x0B05 [test, cap 255 s.eng.fails] s
  if again = true ∧ s.eng.failed = false then
    let s : State := { s with eng := { s.eng with failed := true, startup := false, d0 := { s.eng.d0 with ok := false } } }
    kindFailed 5 (record 0x0B06 [test, cap 255 s.eng.fails] s)
  else s

def execRngHealthFail (t test : Nat) (s : State) : Out := ev t (rngFail test) s

/-- The start-up test passes: the source delivers again (R420). -/
def rngStarted (s : State) : State :=
  if s.eng.failed then s else { s with eng := { s.eng with srcOk := true, startup := false, d0 := { s.eng.d0 with ok := true }, d1 := { s.eng.d1 with ok := true } } }

def execRngStartupDone (t : Nat) (s : State) : Out := ev t rngStarted s

end Sys2Proof.Machine
end

