-- ==== Sys2Proof/Machine/Keys.lean ====
section
/-! DEFINITION. Keys, the lifecycle, officers and dual control (13). -/
namespace Sys2Proof.Machine
open Sys2Proof

/-! ## Attribute records (R376, R377, Table 13.3) -/

/-- The ALG codes. -/
def algCodes : List Nat := [1, 2, 3, 0x10, 0x11, 0x12, 0x13, 0x20, 0x21, 0x22, 0x30, 0x31, 0x38, 0x39]

/-- BITS of an ALG. -/
def algBits (a : Nat) : Nat :=
  match a with
  | 1 => 128 | 2 => 256 | 3 => 256 | 0x10 => 256 | 0x11 => 384 | 0x12 => 255 | 0x13 => 255
  | 0x20 => 2048 | 0x21 => 3072 | 0x22 => 4096 | 0x30 => 512 | 0x31 => 512 | _ => 256

def isAes (a : Nat) : Bool := a == 1 || a == 2
def isMlKem (a : Nat) : Bool := a == 0x30 || a == 0x31
def isRsa (a : Nat) : Bool := a == 0x20 || a == 0x21 || a == 0x22
def isMlDsa (a : Nat) : Bool := a == 0x38 || a == 0x39
def isCurve (a : Nat) : Bool := a == 0x10 || a == 0x11
def isSymmetric (a : Nat) : Bool := isAes a || a == 3

/-- Whether a USAGE bit has a meaning for an ALG. -/
def usageFits (a bit : Nat) : Bool :=
  if bit = uEncrypt ∨ bit = uDecrypt then isAes a || isMlKem a
  else if bit = uWrap ∨ bit = uUnwrap then isAes a
  else if bit = uSign ∨ bit = uVerify then isCurve a || a == 0x12 || isRsa a || isMlDsa a
  else if bit = uDerive then a == 2 || a == 3 || a == 0x13 || isCurve a
  else isAes a || a == 3

/-- The bits of USE that a creating element gives. -/
def useFields : Word := 0xFFFF70C0

/-- The USE word as applied for an ALG, an owner and an origin in a lifecycle state, where the fields that clash yield (R377). -/
def useApplied (a owner life : Nat) (origin : Bool) (w : Word) : Word :=
  let w := w &&& useFields
  let w := [24, 25, 26, 27, 28, 29, 30, 31].foldl (fun w i => if usageFits a i then w else w.withBits i i 0) w
  let w := if isAes a then w else w.withBits 21 21 0
  let w := if isAes a && worldClass owner == 4 then w else w.withBits 23 23 0
  let w := if w.bit 21 then w.withBits 7 6 0 else w
  let w := if worldClass owner = 4 then w.withBits 19 16 0 else w
  let w := if w.bits 14 12 = 0 then w.withBits (lifeBit life) (lifeBit life) 1 else w
  w.withBits 5 5 (bit origin)

/-- The TYPE word as applied. -/
def typeApplied (a : Nat) : Word := w32 (a * 2 ^ 24 + algBits a)

/-- KEY_ATTRS: its ALG is a code of the table. -/
def keyAttrs (req : Bool) : ElemSpec := el 0x8A01 12 req fun ws => algCodes.contains (byteAt ws 0)

/-- A key's attributes as applied: TYPE, USE, and the report of a field that yielded; none where its LIFECYCLES omits the current
state. BITS, ORIGIN, TX_USED and OWNER, which Table 13.3 sets or ignores on input, are no request of KEY_ATTRS (log entry 25). -/
def attrsFor (s : State) (world : Nat) (origin : Bool) (typ use : Word) : Option (Word × Word × Body) :=
  let a := typ.bits 31 24
  let life := s.keys.life
  if use.bits 14 12 ≠ 0 ∧ use.bit (lifeBit life) = false then none
  else
    let u := useApplied a world life origin use
    some (typeApplied a, u, if use &&& useFields = u &&& useFields then [] else [asApplied (w32 (0x8A01 * 65536 + 1)) use u])

/-- An X25519 key usable by the command processor is outside the approved mode (R400). -/
def notApproved (s : State) (typ use : Word) : Bool := s.keys.inForce && decide (typ.bits 31 24 = 0x13) && use.bit mCmd

/-! ## Key commands (R383, R384) -/

/-- The bytes of a public key's encoding (Table 13.6). -/
def publicLen (a : Nat) : Nat :=
  match a with
  | 0x10 => 65 | 0x11 => 97 | 0x12 => 32 | 0x13 => 32 | 0x20 => 264 | 0x21 => 392 | 0x22 => 520
  | 0x30 => 1184 | 0x31 => 1568 | 0x38 => 1952 | 0x39 => 2592 | _ => 0

/-- PUBLIC_KEY of a private key (Table 13.6). -/
def publicElem (a v : Nat) : Elem := { typ := 0x0A03, len := publicLen a, val := Config.publicKey a v }

/-- The engine and cycles of a key generation (Table 14.2, Table 14.5, R407): none for a symmetric key. -/
def generateCycles (a : Nat) : Option (Nat × Nat) :=
  match a with
  | 0x10 => some (0, 36000) | 0x11 => some (0, 84000) | 0x12 => some (0, 30000) | 0x13 => some (0, 40000)
  | 0x20 => some (0, 0) | 0x21 => some (0, 0) | 0x22 => some (0, 0)
  | 0x30 => some (1, 9000) | 0x31 => some (1, 13500) | 0x38 => some (1, 24000) | 0x39 => some (1, 38000)
  | _ => none

/-- A key is stored and named in its command's completion. -/
def storeNow (typ use : Word) (owner value : Nat) (rest : Body) (s : State) : Ans :=
  match storeValue typ use owner value s with
  | some (s, h) => .done (elemW 0x8A02 [w32 h] :: rest) s
  | none => .fail stNoSpace 0

def opKeyGenerate : Op := { code := 0x0A00, worlds := [0, 4], life := 4, ready := 2, vault := true, specs := [keyAttrs true, el 0x0B15 4] }

/-- KEY_GENERATE (R383): the key is drawn after a reseed; an asymmetric one is a job of its engine. -/
def ansKeyGenerate (h : Hdr) (b : Body) (s : State) : Ans :=
  let ws := wordsOf b 0x8A01
  match attrsFor s h.world true (wordAt ws 0) (wordAt ws 1) with
  | none => .fail stKeyAttr 0
  | some (typ, use, rep) =>
    if notApproved s typ use then .fail stNotApproved 0
    else withDrbg (fun s =>
      let s := reseed0 s
      let a := typ.bits 31 24
      let (v, s) := drawBits (typ.bits 15 0) s
      match generateCycles a with
      | none => brief 3 h.world (storeNow typ use h.world v rep) s
      | some (e, c) =>
        let (p, prep) := prioOf s h.world b
        submit { engine := e, work := if isRsa a then 1 else 0, prio := p, world := h.world, cycles := c,
                 result := .key typ use h.world v (publicElem a v :: rep ++ prep) } s) s

def execKeyGenerate (h : Hdr) (b : Body) (s : State) : Out := run (.keyGenerate h b) opKeyGenerate h b (ansKeyGenerate h b) s

def opKeyImport : Op :=
  { code := 0x0A01, worlds := [0, 4], life := 4, ready := 2, vault := true,
    specs := [el 0x8A04 4 true, elv 0x8A05 24 8176 true, keyAttrs false] }

/-- A key that an operation names, or the answer that stands in its way. -/
def withKey (r : KeyRes) (f : Key → Ans) : Ans :=
  match r with
  | .bad st => .fail st 0
  | .later => .defer
  | .held => .hold
  | .ok k => f k

/-- The reports of the words that WRAPPED carries, at the words of KEY_ATTRS (R58): TYPE where its ALG or BITS, OWNER where its world is not
the new key's. -/
def importReports (typ own applied : Word) (owner : Nat) : Body :=
  (if typ &&& 0xFF00FFFF = applied then [] else [asApplied (w32 (0x8A01 * 65536)) typ applied]) ++
  (if own.bits 31 24 = owner then [] else [asApplied (w32 (0x8A01 * 65536 + 2)) own (w32 (owner * 2 ^ 24))])

/-- KEY_IMPORT_WRAPPED (R383): the verdict on WRAPPED, the record it carries and the value of its key material are operands (log
entry 5). -/
def ansKeyImport (h : Hdr) (b : Body) (kwpOk valid : Bool) (typ use own : Word) (value : Nat) (s : State) : Ans :=
  withKey (keyFor s h.world (wordAt (wordsOf b 0x8A04) 0).toNat [uUnwrap] mCmd) fun w =>
    if w.alg ≠ 2 then .fail stKeyAttr 0
    else if kwpOk = false then .fail stAuth 0
    else if valid = false ∨ algCodes.contains (typ.bits 31 24) = false then .fail stKeyAttr 0
    else
      let use := if hasElem b 0x8A01 then use &&& (wordAt (wordsOf b 0x8A01) 1 ||| ~~~ (0xFFFF0000 : Word)) else use
      match attrsFor s h.world false typ use with
      | none => .fail stKeyAttr 0
      | some (t, u, rep) =>
        if notApproved s t u then .fail stNotApproved 0
        else brief 2 h.world (storeNow t u h.world value (importReports typ own t h.world ++ rep)) (touchKey (wordAt (wordsOf b 0x8A04) 0).toNat s)

def execKeyImportWrapped (h : Hdr) (b : Body) (kwpOk valid : Bool) (typ use own : Word) (value : Nat) (s : State) : Out :=
  run (.keyImportWrapped h b kwpOk valid typ use own value) opKeyImport h b (ansKeyImport h b kwpOk valid typ use own value) s

def opKeyExport : Op :=
  { code := 0x0A02, worlds := [0, 4], life := 4, ready := 2, vault := true, specs := [el 0x8A02 4 true, el 0x8A04 4 true] }

/-- The bytes of key material of an ALG. -/
def materialLen (a : Nat) : Nat :=
  match a with
  | 1 => 16 | 0x11 => 48 | 0x30 => 64 | 0x31 => 64
  | 0x20 => Config.rsaMaterial 2048 | 0x21 => Config.rsaMaterial 3072 | 0x22 => Config.rsaMaterial 4096
  | _ => 32

/-- The attribute record of a key. -/
def Key.record (k : Key) : List Word := [k.typ, k.use, w32 (k.owner * 2 ^ 24)]

/-- KEY_EXPORT_WRAPPED (R383): the attribute record and the key material, wrapped; key wrap with padding adds 8 bytes to a multiple
of 8. -/
def ansKeyExport (h : Hdr) (b : Body) (s : State) : Ans :=
  let key := (wordAt (wordsOf b 0x8A02) 0).toNat
  let wrap := (wordAt (wordsOf b 0x8A04) 0).toNat
  withKey (keyFor s h.world key [] mCmd) fun k =>
    withKey (keyFor s h.world wrap [uWrap] mCmd) fun w =>
      if k.use.bit 6 = false ∨ w.alg ≠ 2 then .fail stKeyAttr 0
      else brief 2 h.world (fun s =>
        let e : Elem := { typ := 0x8A05, len := (12 + materialLen k.alg + 7) / 8 * 8 + 8,
                          val := Config.kwp w.value (unpack k.record ++ Config.material k.alg k.value) }
        .done [e] (touchKey wrap (touchKey key s))) s

def execKeyExportWrapped (h : Hdr) (b : Body) (s : State) : Out := run (.keyExportWrapped h b) opKeyExport h b (ansKeyExport h b) s

def opKeyErase : Op := { code := 0x0A03, worlds := [0, 4], life := 4, ready := 2, vault := true, specs := [el 0x8A02 4 true] }

/-- KEY_ERASE (R384): once no job uses the key. -/
def ansKeyErase (h : Hdr) (b : Body) (s : State) : Ans :=
  let key := (wordAt (wordsOf b 0x8A02) 0).toNat
  withKey (keyNamed s h.world key) fun k =>
    if keyIdle s key then .done [] (eraseKey key s)
    else .wait (.keyErase key) (setKey key { k with erasing := true } s)

def execKeyErase (h : Hdr) (b : Body) (s : State) : Out := run (.keyErase h b) opKeyErase h b (ansKeyErase h b) s

/-! ## Attestation (R391, R392) -/

/-- ATTEST_KIND of a body: 0 key, 1 device. -/
def attestKind (b : Body) : Nat := (wordAt (wordsOf b 0x8A07) 0).toNat

/-- The operation of KEY_ATTEST: of the device in every lifecycle state, of a key where keys are served (Table 13.9). -/
def opKeyAttest (b : Body) : Op :=
  { code := 0x0A04, worlds := [0, 2, 3, 4], life := if attestKind b = 1 then 0 else 4, ready := 2, vault := true,
    specs := [el 0x8A07 4 true fun ws => decide ((wordAt ws 0).toNat ≤ 1), el 0x8A06 32 true, el 0x8A02 4],
    check := fun b => if attestKind b = 0 ∧ hasElem b 0x8A02 = false then some 0 else none }

/-- Whether a world may attest a key (R392). -/
def mayAttest (world : Nat) (k : Key) : Bool :=
  match worldClass world with
  | 2 => true
  | 3 => k.use.bit 19
  | _ => decide (k.owner = world)

/-- COMMIT of a key (R391): of a symmetric key the HMAC under it, of an asymmetric one the hash of its PUBLIC_KEY. -/
def commitOf (k : Key) (nonce : List Word) : List Nat :=
  if isSymmetric k.alg then hmac384 (beBytes ((k.typ.bits 15 0) / 8) k.value) (ascii "TIRIQUE KEY COMMIT" ++ unpack nonce)
  else Config.sha384 (unpack (Config.publicKey k.alg k.value))

/-- The statement of an attestation, signed with both identity keys (R391, Table 13.8). -/
def attestWords (kind handle : Nat) (attrs : List Word) (commit : List Nat) (nonce : List Word) (s : State) : List Word :=
  let flags := bit s.keys.inForce + 2 * bit s.keys.debugOpen + 4 * bit s.time.sync
  let m3 := (List.range 12).map fun i => wordAt (runBank s).m3 i
  let head := beBytes 4 0x54415454 ++ [1, kind, s.keys.life, flags] ++ beBytes 8 s.boot.serial ++
    beBytes 2 (if s.dks.enrolled then s.dks.device % 1024 else 0xFFFF) ++ beBytes 2 (runBank s).cmd.svn ++ beBytes 4 s.time.epoch ++
    todBytes s ++ unpack m3 ++ unpack nonce ++ beBytes 4 handle ++ unpack attrs ++ beBytes 4 0 ++ commit
  packWords head ++ idSign s head

/-- A completed attestation. -/
def attest (kind handle : Nat) (attrs : List Word) (commit : List Nat) (nonce : List Word) (s : State) : Ans :=
  .done [{ typ := 0x0A08, len := 4907, val := attestWords kind handle attrs commit nonce s }] s

/-- KEY_ATTEST (R391). -/
def ansKeyAttest (h : Hdr) (b : Body) (s : State) : Ans :=
  let nonce := (List.range 8).map fun i => wordAt (wordsOf b 0x8A06) i
  if attestKind b = 1 then withDrbg (attest 1 0 [0, 0, 0] (List.replicate 48 0) nonce) s
  else
    let handle := (wordAt (wordsOf b 0x8A02) 0).toNat
    match look s.keys.keys handle with
    | none => .fail stNotFound 0
    | some k =>
      if mayAttest h.world k = false then .fail stNotFound 0
      else if k.erasing then .hold else if k.place = 2 then .defer
      else withDrbg (brief 2 h.world (attest 0 handle k.record (commitOf k nonce) nonce)) (touchKey handle s)

def execKeyAttest (h : Hdr) (b : Body) (s : State) : Out := run (.keyAttest h b) (opKeyAttest b) h b (ansKeyAttest h b) s

/-! ## Tickets (R396, R397) -/

/-- SHA-384 over the opcode's two bytes and the body with its TICKET elements removed (R397). -/
def digestOf (opcode : Nat) (b : Body) : List Word :=
  packWords (Config.sha384 (beBytes 2 opcode ++ (b.filter fun e => decide (e.typ ≠ 0x8A0A)).flatMap elemBytes))

/-- The officer whose session a command came on. -/
def officerOf (s : State) (session : Nat) : Option Nat :=
  match look s.cmd.sessions session with
  | some x => (match x.cred with | .officer n => some n | _ => none)
  | none => none

/-- A ticket is good for a command: it exists, is at most 120 s old, its opcode and digest match, its issuer is a crypto officer
and not the command's own credential. -/
def ticketOk (s : State) (opcode : Nat) (dig : List Word) (own : Option Nat) (id : Nat) : Option Ticket :=
  match s.keys.tickets.find? fun t => decide (t.id = id) with
  | some t =>
    if s.now ≤ t.issued + 120 * sec ∧ t.opcode = opcode ∧ t.digest = dig ∧ own ≠ some t.issuer ∧
        (match look s.keys.officers t.issuer with | some o => decide (o.role = 0) | none => false) = true then some t else none
  | none => none

/-- The issuers of the `n` tickets a command carries, each good and all different; none where a check fails. -/
def ticketsFor (opcode n : Nat) (h : Hdr) (b : Body) (s : State) : Option (List Nat) :=
  let ids := (elemsOf b 0x8A0A).map fun e => (wordAt e.val 0).toNat
  let dig := digestOf opcode b
  let own := officerOf s h.session
  let good := ids.filterMap fun i => (ticketOk s opcode dig own i).map (·.issuer)
  if ids.length = n ∧ good.length = n ∧ good.eraseDups.length = n then some good else none

/-- The tickets of a command that passes are consumed. -/
def useTickets (b : Body) (s : State) : State :=
  let ids := (elemsOf b 0x8A0A).map fun e => (wordAt e.val 0).toNat
  { s with keys := { s.keys with tickets := s.keys.tickets.filter fun t => !ids.contains t.id } }

/-- The elements of a dual-control command. -/
def ticketElem : ElemSpec := els 0x8A0A 4

/-- A dual-control command: with its ticket good, it goes on with the issuer and its own credential, the ticket used. -/
def dual (opcode : Nat) (h : Hdr) (b : Body) (f : Nat → Nat → State → Ans) (s : State) : Ans :=
  match ticketsFor opcode 1 h b s with
  | some (i :: _) => f (credOf s h.session) i (useTickets b s)
  | _ => .fail stDualControl 0

def opDualAuthorise : Op := { code := 0x0A08, worlds := [0], life := 2, ready := 2, vault := true, specs := [el 0x8A0D 52 true] }

/-- DUAL_AUTHORISE (R396): the ticket's number is a free value. -/
def ansDualAuthorise (h : Hdr) (b : Body) (s : State) : Ans :=
  let ws := wordsOf b 0x8A0D
  match officerOf s h.session with
  | none => .fail stState 0
  | some o =>
    if 16 ≤ s.keys.tickets.length then .fail stBusy 0
    else
      let (id, s) := drawBits 32 s
      let op := bytesNat ws 0 2
      let s : State := { s with keys := { s.keys with
        tickets := s.keys.tickets ++ [{ id := id, issuer := o, opcode := op, digest := (List.range 12).map fun i => wordAt ws (1 + i), issued := s.now }] } }
      .done [elemW 0x8A0A [w32 id]] (record 0x0D04 ([o, 0] ++ beBytes 2 op ++ beBytes 4 id) s)

def execDualAuthorise (h : Hdr) (b : Body) (s : State) : Out := run (.dualAuthorise h b) opDualAuthorise h b (ansDualAuthorise h b) s

/-- A ticket older than 120 s is gone (R396). -/
def expireTicket (id : Nat) (s : State) : State :=
  { s with keys := { s.keys with tickets := s.keys.tickets.filter fun t => decide (t.id ≠ id) || decide (s.now ≤ t.issued + 120 * sec) } }

def execTicketExpiry (t ticket : Nat) (s : State) : Out := ev t (expireTicket ticket) s

/-! ## The lifecycle (R386 to R389) -/

/-- Crypto officers enrolled. -/
def cryptoOfficers (s : State) : Nat := (s.keys.officers.filter fun e => decide (e.2.role = 0)).length

/-- A transition of Table 13.7 that LIFECYCLE_CHANGE may take. -/
def transition (a b : Nat) : Bool :=
  [(0, 1), (1, 2), (2, 3), (3, 2), (3, 1)].contains (a, b) || (decide (b = 4) && decide (a ≠ 4))

def opLifecycleChange : Op :=
  { code := 0x0A05, worlds := [0], life := 2, ready := 2, long := true, vault := true,
    specs := [el 0x8A09 4 true fun ws => decide ((wordAt ws 0).toNat ≤ 5), ticketElem] }

/-- K_record (Table 13.1). -/
def kRecord (s : State) : Nat := kdf (beBytes 32 s.boot.idSeed) "TIRIQUE RECORD" (beBytes 8 s.boot.serial)

/-- The MAC of a lifecycle record: the code and the change count (R387, R388; the record's layout is the model's, log entry 8). -/
def lifeMac (s : State) (code count : Nat) : List Nat := hmac384 (beBytes 32 (kRecord s)) (code :: beBytes 4 count)

/-- LIFECYCLE_CHANGE (R387): checked, then decided by the record in flash; a command warm reset follows after 1 ms, and the boot
performs the rest. -/
def ansLifecycleChange (h : Hdr) (b : Body) (s : State) : Ans :=
  let target := (wordAt (wordsOf b 0x8A09) 0).toNat
  dual 0x0A05 h b (fun own issuer s =>
    if transition s.keys.life target = false then .fail stLifecycle 0
    else if target = 1 ∧ s.keys.life = 0 ∧ cryptoOfficers s < 2 then .fail stState 0
    else if s.keys.inForce then .fail stNotApproved 0
    else
      let op := nextOp s
      let s := startOp 0x0A05 h.world h.mailbox h.tag s
      .prog [opIdElem op] { s with
        keys := { s.keys with changing := true, changePending := true, changeRec := (s.keys.life, own, issuer) }
        boot := { s.boot with flashCode := target, flashCount := s.boot.bbdCount + 1,
                                flashMac := some (lifeMac s target (s.boot.bbdCount + 1)), warmAt := some (s.now + ms) } }) s

def execLifecycleChange (h : Hdr) (b : Body) (s : State) : Out := run (.lifecycleChange h b) opLifecycleChange h b (ansLifecycleChange h b) s

/-! ## Officers (R393 to R395) -/

/-- The sessions of a credential end at once: commands not started complete with ST_ABORTED, those started run on (R47). The command
with the tag given is the one that ends them. -/
def endCred (c : Cred) (mailbox tag : Nat) (s : State) : State :=
  let ids := (s.cmd.sessions.filter fun e => decide (e.2.cred = c)).map (·.1)
  let waiting := s.cmd.flights.filter fun f => ids.contains f.session && decide (f.await = .start) && !(decide (f.mailbox = mailbox) && decide (f.tag = tag))
  let s := waiting.foldl (fun s f => finish f stAborted 0 [] s) s
  ids.foldl (fun s n => endSession n s) s

def credentialElem : ElemSpec := el 0x8A0B 2696 true fun ws => decide (byteAt ws 0 ≤ 15) && decide (byteAt ws 1 ≤ 2)

def opOfficerEnrol : Op := { code := 0x0A06, worlds := [0], life := 1, ready := 2, vault := true, specs := [credentialElem, ticketElem] }

/-- A credential is enrolled (R395). -/
def enrol (own issuer : Nat) (ws : List Word) (s : State) : Ans :=
  let id := byteAt ws 0
  if has s.keys.officers id then .fail stState 0
  else
    let o : Officer := { role := byteAt ws 1, cred := ws, mac := hmac384 (beBytes 32 (kRecord s)) (unpack ws) }
    let s : State := { s with keys := { s.keys with officers := put s.keys.officers id o } }
    .done [] (record 0x0D02 [id, byteAt ws 1, own, issuer] s)

/-- OFFICER_ENROL: of crypto officers without a ticket in a bootstrap session, which ends once two are enrolled (R394); else with a
ticket. -/
def ansOfficerEnrol (h : Hdr) (b : Body) (s : State) : Ans :=
  let ws := wordsOf b 0x8A0B
  if isBootstrap s h.session then
    if byteAt ws 1 ≠ 0 then .fail stWrongWorld 0
    else match enrol 0xFF 0xFF ws s with
      | .done e s => .done e (if 2 ≤ cryptoOfficers s then endCred .bootstrap h.mailbox h.tag s else s)
      | r => r
  else dual 0x0A06 h b (fun own issuer s => enrol own issuer ws s) s

def execOfficerEnrol (h : Hdr) (b : Body) (s : State) : Out := run (.officerEnrol h b) opOfficerEnrol h b (ansOfficerEnrol h b) s

def opOfficerRevoke : Op :=
  { code := 0x0A07, worlds := [0], life := 1, ready := 2, vault := true,
    specs := [el 0x8A0C 4 true fun ws => decide ((wordAt ws 0).toNat ≤ 15), ticketElem] }

/-- OFFICER_REVOKE (R395). -/
def ansOfficerRevoke (h : Hdr) (b : Body) (s : State) : Ans :=
  let id := (wordAt (wordsOf b 0x8A0C) 0).toNat
  dual 0x0A07 h b (fun own issuer s =>
    match look s.keys.officers id with
    | none => .fail stNotFound 0
    | some o =>
      let left := { s with keys := { s.keys with
        officers := del s.keys.officers id, tickets := s.keys.tickets.filter fun t => decide (t.issuer ≠ id) } }
      if s.keys.life ≠ 0 ∧ cryptoOfficers left < 2 then .fail stState 0
      else .done [] (endCred (.officer id) h.mailbox h.tag (record 0x0D03 [id, o.role, own, issuer] left))) s

def execOfficerRevoke (h : Hdr) (b : Body) (s : State) : Out := run (.officerRevoke h b) opOfficerRevoke h b (ansOfficerRevoke h b) s

/-! ## Debug (R398) -/

def opDebugEnable : Op := { code := 0x0A09, worlds := [1], life := 6, ready := 2, vault := true, specs := [el 0x8A0E 4 true, ticketElem] }

/-- DEBUG_ENABLE: keys and SAs are zeroised, jobs aborted, the port opened, until the next reset. -/
def ansDebugEnable (h : Hdr) (b : Body) (s : State) : Ans :=
  match ticketsFor 0x0A09 2 h b s with
  | some [i, j] =>
    if s.boot.debugFused ∨ s.keys.life ≠ 3 then .fail stState 0
    else
      let scope := (wordAt (wordsOf b 0x8A0E) 0).bits 1 0
      let own := credOf s h.session
      let s := zeroiseSas (zeroiseKeys (abortJobs (fun _ => true) stNotFound (useTickets b s)))
      let s : State := { s with keys := { s.keys with debugOpen := true, debugScope := scope } }
      .done [] (settleApproved (record 0x0D05 [own, i, j, scope] s))
  | _ => .fail stDualControl 0

def execDebugEnable (h : Hdr) (b : Body) (s : State) : Out := run (.debugEnable h b) opDebugEnable h b (ansDebugEnable h b) s

end Sys2Proof.Machine
end

