-- ==== Sys2Proof/Machine/Engines.lean ====
section
/-! DEFINITION. The vault engine commands (14.2 to 14.8): signatures, key encapsulation and agreement, raw blocks, hashing,
random bytes, vault-cipher pages. -/
namespace Sys2Proof.Machine
open Sys2Proof

/-! ## Cycles (Tables 14.2, 14.3, 14.5) -/

/-- MODMUL of `n` 64-bit words (R406). -/
def modMul (n : Nat) : Nat := (n * n + 4) / 5 + 6

/-- An RSA public operation of `n` words (R406). -/
def rsaPublic (n : Nat) : Nat := 66 * modMul n + 200

/-- The engine and cycles of a signature; of ML-DSA those of one attempt (R412). -/
def signCycles (a : Nat) : Nat × Nat :=
  match a with
  | 0x10 => (0, 36360) | 0x11 => (0, 84200) | 0x12 => (0, 30760)
  | 0x20 => (0, 250000) | 0x21 => (0, 739995) | 0x22 => (0, 1777752)
  | 0x38 => (1, 2700 + 6000) | _ => (1, 5900 + 12000)

/-- The engine and cycles of a verification; `n` the words of an RSA modulus. -/
def verifyCycles (a n : Nat) : Nat × Nat :=
  match a with
  | 0x10 => (0, 88880) | 0x11 => (0, 200000) | 0x12 => (0, 76000)
  | 0x38 => (1, 16000) | 0x39 => (1, 26000) | _ => (0, rsaPublic n)

/-- The cycles of an encapsulation and of a decapsulation. -/
def encapCycles (a : Nat) : Nat := if a = 0x30 then 11100 else 16600
def decapCycles (a : Nat) : Nat := if a = 0x30 then 13400 else 19800

/-- The cycles of a key agreement. -/
def agreeCycles (a : Nat) : Nat := if a = 0x11 then 92000 else 40000

/-! ## Elements -/

/-- SCHEME: a code of the table, a digest only where the scheme takes one. -/
def schemeElem : ElemSpec :=
  el 0x8B01 4 true fun ws => decide (byteAt ws 0 ≤ 9) && decide (byteAt ws 1 ≤ 1) &&
    (decide (byteAt ws 1 = 0) || [0, 1, 3, 4, 5, 6].contains (byteAt ws 0))

/-- The scheme of a body. -/
def schemeOf (b : Body) : Nat := byteAt (wordsOf b 0x8B01) 0

/-- The bytes of the hash of a scheme. -/
def schemeHash (n : Nat) : Nat := if n = 0 ∨ n = 3 ∨ n = 5 then 32 else 48

/-- What is wrong with the input of a signature: exactly the MESSAGE or the DIGEST that SCHEME announces, a DIGEST of the length
of the scheme's hash. -/
def inputFault (b : Body) : Option Nat :=
  if byteAt (wordsOf b 0x8B01) 1 = 1 then
    if hasElem b 0x8B02 then some (elemIndex b 0x8B02)
    else match elemOf b 0x8B03 with
      | none => some 0
      | some e => if e.len = schemeHash (schemeOf b) then none else some (elemIndex b 0x8B03)
  else if hasElem b 0x8B03 then some (elemIndex b 0x8B03)
  else if hasElem b 0x8B02 then none else some 0

/-- Whether a scheme fits an ALG (R423). -/
def schemeFits (scheme a : Nat) : Bool :=
  if scheme ≤ 1 then isCurve a
  else if scheme = 2 then a == 0x12
  else if scheme ≤ 6 then isRsa a
  else if scheme = 7 then isMlDsa a
  else if scheme = 8 then a == 3
  else isAes a

/-- The bytes of a signature of an ALG; `n` the bytes of an RSA modulus. -/
def signatureLen (a n : Nat) : Nat :=
  match a with
  | 0x10 => 64 | 0x11 => 96 | 0x12 => 64 | 0x38 => 3309 | 0x39 => 4627 | 3 => 48 | 1 => 16 | 2 => 16 | _ => n

/-- Whether a peer public key has the length of its ALG: for RSA, a modulus of 2,048 to 8,192 bits in steps of 64. -/
def peerLenOk (a len : Nat) : Bool :=
  if isRsa a then decide (12 + 256 ≤ len) && decide (len ≤ 12 + 1024) && decide ((len - 12) % 8 = 0)
  else decide (publicLen a ≠ 0) && decide (len = 4 + publicLen a)

/-- A PEER_PUBLIC of a body: its ALG and the bytes of its key. -/
def peerOf (b : Body) : Option (Nat × Nat) := (elemOf b 0x8B06).map fun e => (byteAt e.val 0, e.len - 4)

/-- What is wrong with a PEER_PUBLIC, or with its standing beside a HANDLE or without one. -/
def peerFault (b : Body) (handleToo : Bool) : Option Nat :=
  match elemOf b 0x8B06 with
  | none => if hasElem b 0x8A02 then none else some 0
  | some e =>
    if peerLenOk (byteAt e.val 0) e.len = false ∨ (handleToo = false ∧ hasElem b 0x8A02 = true) then some (elemIndex b 0x8B06)
    else if handleToo = true ∧ hasElem b 0x8A02 = false then some 0 else none

def messageElem : ElemSpec := elv 0x8B02 0 8000
def digestElem : ElemSpec := elv 0x8B03 32 48 false
def contextElem : ElemSpec := elv 0x8B0B 0 255
def priorityElem : ElemSpec := el 0x0B15 4
def peerElem : ElemSpec := elv 0x8B06 4 2596

/-- The status of an input check of a kiln job (Table 14.4): an RSA input is never a point. -/
def checkStatus (a : Nat) (c : InputCheck) : Nat :=
  match c with
  | .ok => 0
  | .operand => stOperand
  | .point => if isRsa a then 0 else stPoint

/-- Whether a signature of an ALG draws on DRBG instance 0: an ECDSA nonce, an RSA-PSS salt, the rnd of ML-DSA. -/
def signDraws (scheme : Nat) : Bool := [0, 1, 5, 6, 7].contains scheme

/-! ## SIGN and VERIFY -/

def opSign : Op :=
  { code := 0x0B00, worlds := [0, 4], life := 4, ready := 2, vault := true,
    specs := [el 0x8A02 4 true, schemeElem, messageElem, digestElem, contextElem, priorityElem], check := inputFault }

/-- The bytes of the MESSAGE of a body. -/
def messageBytes (b : Body) : List Nat :=
  match elemOf b 0x8B02 with
  | some e => (unpack e.val).take e.len
  | none => []

/-- The tag of HMAC-SHA-384 or of AES-CMAC over a message under a key (R423). -/
def macOf (k : Key) (msg : List Nat) : List Nat :=
  if k.alg = 3 then hmac384 (beBytes 32 k.value) msg else cmac (algBits k.alg) k.value msg

/-- A signature as a job of its engine; its bytes are free values (R401, R402). -/
def signJob (h : Hdr) (b : Body) (a handle : Nat) (s : State) : Ans :=
  let (p, prep) := prioOf s h.world b
  let (e, s) := drawElem 0x0B05 (signatureLen a (algBits a / 8)) s
  let (eng, c) := signCycles a
  submit { engine := eng, work := if isMlDsa a then 2 else 0, key := some handle, prio := p, world := h.world, cycles := c,
           result := .reply (e :: prep) } s

/-- SIGN (R401, R402, R412, R423): a signature's bytes are free values, a MAC is computed. -/
def ansSign (h : Hdr) (b : Body) (s : State) : Ans :=
  let handle := (wordAt (wordsOf b 0x8A02) 0).toNat
  let scheme := schemeOf b
  withKey (keyFor s h.world handle [if 8 ≤ scheme then uMac else uSign] mCmd) fun k =>
    let a := k.alg
    if schemeFits scheme a = false then .fail stKeyAttr 0
    else if 8 ≤ scheme then
      brief (if scheme = 8 then 3 else 2) h.world (fun s =>
        .done [elemB 0x0B05 (macOf k (messageBytes b))] (touchKey handle s)) s
    else
      if signDraws scheme then withDrbg (signJob h b a handle) s else signJob h b a handle s

def execSign (h : Hdr) (b : Body) (s : State) : Out := run (.sign h b) opSign h b (ansSign h b) s

def opVerify : Op :=
  { code := 0x0B01, worlds := [0, 3, 4], life := 4, ready := 2, vault := true,
    specs := [el 0x8A02 4, peerElem, schemeElem, messageElem, digestElem, elv 0x8B04 0 4627 true, contextElem, priorityElem],
    check := fun b => (inputFault b).orElse fun _ => peerFault b false }

/-- The bytes of the SIGNATURE of a body. -/
def signatureBytes (b : Body) : List Nat :=
  match elemOf b 0x8B04 with
  | some e => (unpack e.val).take e.len
  | none => []

/-- A verification under a key of an ALG, `n` bytes its RSA modulus (R410, R425): the verdict on a signature and the failing input check are
operands (log entry 5). -/
def verifyUnder (h : Hdr) (b : Body) (a n : Nat) (handle : Option Nat) (verdict : Bool) (bad : InputCheck) (s : State) : Ans :=
  let scheme := schemeOf b
  let sigLen := match elemOf b 0x8B04 with | some e => e.len | none => 0
  let out := fun (v : Bool) => elemW 0x0B07 [w32 (bit v)]
  if schemeFits scheme a = false then .fail stKeyAttr 0
  else if sigLen ≠ signatureLen a n then .fail stBadElement (elemIndex b 0x8B04)
  else if 8 ≤ scheme then
    brief (if scheme = 8 then 3 else 2) h.world (fun s =>
      .done [out verdict] (match handle with | some x => touchKey x s | none => s)) s
  else
    let (p, prep) := prioOf s h.world b
    let (eng, c) := verifyCycles a (n / 8)
    submit { engine := eng, key := handle, prio := p, world := h.world, cycles := c,
             bad := if eng = 0 then checkStatus a bad else 0, result := .reply (out verdict :: prep) } s

/-- VERIFY (R425): under a stored key that allows it, or under a public key given; a MAC is computed and compared. -/
def ansVerify (h : Hdr) (b : Body) (verdict : Bool) (bad : InputCheck) (s : State) : Ans :=
  match peerOf b with
  | some (a, len) => verifyUnder h b a (len - 8) none verdict bad s
  | none =>
    let handle := (wordAt (wordsOf b 0x8A02) 0).toNat
    withKey (keyFor s h.world handle [if 8 ≤ schemeOf b then uMac else uVerify] mCmd) fun k =>
      verifyUnder h b k.alg (algBits k.alg / 8) (some handle)
        (if 8 ≤ schemeOf b then decide (macOf k (messageBytes b) = signatureBytes b) else verdict)
        (if isCurve k.alg && bad == .point then .ok else bad) s

def execVerify (h : Hdr) (b : Body) (verdict : Bool) (bad : InputCheck) (s : State) : Out :=
  run (.verify h b verdict bad) opVerify h b (ansVerify h b verdict bad) s

/-! ## Encapsulation and raw blocks (R417, R424) -/

/-- Whether a release of a page waits (R416). -/
def pageLeaving (s : State) (p : Nat) : Bool := s.cmd.flights.any fun f => decide (f.await = .page p)

/-- The raw-block form: an AES key of a tenant on its page. -/
def ansBlocks (h : Hdr) (b : Body) (usage : Nat) (s : State) : Ans :=
  let handle := (wordAt (wordsOf b 0x8A02) 0).toNat
  let blocks := match elemOf b 0x8B0C with | some e => e.len / 16 | none => 0
  withKey (keyFor s h.world handle [usage] mPage) fun k =>
    if isAes k.alg = false then .fail stKeyAttr 0
    else if worldClass h.world ≠ 4 then .fail stState 0
    else match s.eng.pages.find? (fun e => decide (e.2 = h.world - 0x40)) with
      | none => .fail stState 0
      | some (p, _) =>
        if pageLeaving s p then .hold
        else
          let bytes := match elemOf b 0x8B0C with | some e => (unpack e.val).take e.len | none => []
          let f := if usage = uEncrypt then Config.aes else Config.aesInv
          let e := elemB 0x0B0D ((blocksOf bytes).flatMap fun x => beBytes 16 (f (algBits k.alg) k.value x))
          submit { engine := 2, key := some handle, world := h.world, cycles := blocks * (if k.alg = 1 then 11 else 15), page := p,
                   result := .reply [e] } s

/-- A shared secret's key: its ALG AES-256 or an HMAC secret, its ORIGIN 0 (R424, R425). -/
def secretAttrs (s : State) (world : Nat) (b : Body) : Option (Word × Word × Body) :=
  let ws := wordsOf b 0x8A01
  if [2, 3].contains (byteAt ws 0) then attrsFor s world false (wordAt ws 0) (wordAt ws 1) else none

def blocksElem : ElemSpec := { typ := 0x8B0C, len := fun n => decide (16 ≤ n) && decide (n ≤ 8176) && decide (n % 16 = 0) }

/-- What a KEM command lacks: the raw-block form a handle, the ML-KEM form its keys and KEY_ATTRS. -/
def kemFault (b : Body) (more : Body → Option Nat) : Option Nat :=
  if hasElem b 0x8B0C then (if hasElem b 0x8A02 then none else some 0)
  else if hasElem b 0x8A01 = false then some 0
  else more b

def opKemEncap : Op :=
  { code := 0x0B02, worlds := [0, 4], life := 4, ready := 2, vault := true,
    specs := [el 0x8A02 4, peerElem, keyAttrs false, blocksElem, priorityElem],
    check := fun b => kemFault b fun b => peerFault b false }

/-- The bytes of a ciphertext of ML-KEM. -/
def ciphertextLen (a : Nat) : Nat := if a = 0x30 then 1088 else 1568

/-- An encapsulation to a public key of an ALG: the modulus check of the key is an operand (R413, log entry 5). -/
def encapTo (h : Hdr) (b : Body) (a : Nat) (ek : List Word) (handle : Option Nat) (bad : InputCheck) (s : State) : Ans :=
  if isMlKem a = false then .fail stKeyAttr 0
  else match secretAttrs s h.world b with
    | none => .fail stKeyAttr 0
    | some (typ, use, rep) => withDrbg (fun s =>
        let (p, prep) := prioOf s h.world b
        let (r, s) := drawBits 256 s
        let (c, secret) := Config.kemEncap ek r
        let ct : Elem := { typ := 0x0B09, len := ciphertextLen a, val := c }
        submit { engine := 1, key := handle, prio := p, world := h.world, cycles := encapCycles a,
                 bad := if bad = .ok then 0 else stOperand, result := .key typ use h.world secret (ct :: rep ++ prep) } s) s

/-- KEM_ENCAP (R413, R417, R424). -/
def ansKemEncap (h : Hdr) (b : Body) (bad : InputCheck) (s : State) : Ans :=
  if hasElem b 0x8B0C then ansBlocks h b uEncrypt s
  else match peerOf b with
    | some (a, _) => encapTo h b a ((wordsOf b 0x8B06).drop 1) none bad s
    | none =>
      let handle := (wordAt (wordsOf b 0x8A02) 0).toNat
      withKey (keyFor s h.world handle [uEncrypt] mCmd) fun k =>
        encapTo h b k.alg (Config.publicKey k.alg k.value) (some handle) .ok s

def execKemEncap (h : Hdr) (b : Body) (bad : InputCheck) (s : State) : Out := run (.kemEncap h b bad) opKemEncap h b (ansKemEncap h b bad) s

def opKemDecap : Op :=
  { code := 0x0B03, worlds := [0, 4], life := 4, ready := 2, vault := true,
    specs := [el 0x8A02 4 true, elv 0x8B08 1088 1568, keyAttrs false, blocksElem, priorityElem],
    check := fun b => kemFault b fun b => if hasElem b 0x8B08 then none else some 0 }

/-- KEM_DECAP (R413, R417, R424): implicit rejection, so every ciphertext of the right length gives a key. -/
def ansKemDecap (h : Hdr) (b : Body) (s : State) : Ans :=
  if hasElem b 0x8B0C then ansBlocks h b uDecrypt s
  else
    let handle := (wordAt (wordsOf b 0x8A02) 0).toNat
    withKey (keyFor s h.world handle [uDecrypt] mCmd) fun k =>
      if isMlKem k.alg = false then .fail stKeyAttr 0
      else if (elemOf b 0x8B08).map (·.len) ≠ some (ciphertextLen k.alg) then .fail stBadElement (elemIndex b 0x8B08)
      else match secretAttrs s h.world b with
        | none => .fail stKeyAttr 0
        | some (typ, use, rep) =>
          let (p, prep) := prioOf s h.world b
          submit { engine := 1, key := some handle, prio := p, world := h.world, cycles := decapCycles k.alg,
                   result := .key typ use h.world (Config.kemDecap k.alg k.value (wordsOf b 0x8B08)) (rep ++ prep) } s

def execKemDecap (h : Hdr) (b : Body) (s : State) : Out := run (.kemDecap h b) opKemDecap h b (ansKemDecap h b) s

def opKeyAgree : Op :=
  { code := 0x0B04, worlds := [0, 4], life := 4, ready := 2, vault := true,
    specs := [el 0x8A02 4 true, { peerElem with req := true }, keyAttrs true, el 0x8B0A 4, contextElem, priorityElem],
    check := fun b => peerFault b true }

/-- The bytes of the shared secret Z of an ALG: a coordinate. -/
def agreeLen (a : Nat) : Nat := if a = 0x11 then 48 else 32

/-- The value of a key agreed (R424): from Z, then the key of KEM_HANDLE. -/
def agreedValue (k : Key) (kem : Option Key) (typ : Word) (b : Body) : Nat :=
  let z := beBytes (agreeLen k.alg) (Config.agree k.alg k.value ((wordsOf b 0x8B06).drop 1))
  let q := match kem with | some q => beBytes 32 q.value | none => []
  let ctx := match elemOf b 0x8B0B with | some e => (unpack e.val).take e.len | none => []
  kdfBits (algBits (typ.bits 31 24)) (z ++ q) "TIRIQUE AGREE" ctx

/-- KEY_AGREE (R400, R410, R424): ECDH or X25519 with a peer key of the same ALG; the key derived is symmetric. -/
def ansKeyAgree (h : Hdr) (b : Body) (bad : InputCheck) (s : State) : Ans :=
  let handle := (wordAt (wordsOf b 0x8A02) 0).toNat
  let ws := wordsOf b 0x8A01
  let kem := (elemOf b 0x8B0A).map fun e => (wordAt e.val 0).toNat
  withKey (keyFor s h.world handle [uDerive] mCmd) fun k =>
    let go := fun (q : Option Key) =>
      if (isCurve k.alg || k.alg == 0x13) = false ∨ (peerOf b).map (·.1) ≠ some k.alg ∨ isSymmetric (byteAt ws 0) = false then
        .fail stKeyAttr 0
      else if s.keys.inForce = true ∧ k.alg = 0x13 ∧ kem = none then .fail stNotApproved 0
      else match attrsFor s h.world false (wordAt ws 0) (wordAt ws 1) with
        | none => .fail stKeyAttr 0
        | some (typ, use, rep) =>
          let (p, prep) := prioOf s h.world b
          submit { engine := 0, key := some handle, key2 := kem, prio := p, world := h.world, cycles := agreeCycles k.alg,
                   bad := if bad = .point then stPoint else 0,
                   result := .key typ use h.world (agreedValue k q typ b) (rep ++ prep) } s
    match kem with
    | none => go none
    | some x => withKey (keyFor s h.world x [uDerive] mCmd) fun q => if [2, 3].contains q.alg then go (some q) else .fail stKeyAttr 0

def execKeyAgree (h : Hdr) (b : Body) (bad : InputCheck) (s : State) : Out := run (.keyAgree h b bad) opKeyAgree h b (ansKeyAgree h b bad) s

/-! ## HASH and DRBG_READ -/

/-- HASH_ALG of a body, and its FINAL bit. -/
def hashAlg (b : Body) : Nat := byteAt (wordsOf b 0x8B0E) 0
def hashFinal (b : Body) : Bool := (byteAt (wordsOf b 0x8B0E) 1).testBit 0

/-- What is wrong with a HASH body: a state not of its algorithm, or a message too long beside a state (R419). -/
def hashFault (b : Body) : Option Nat :=
  match elemOf b 0x8B0F, elemOf b 0x8B02 with
  | some e, some m =>
    if 7920 < m.len then some (elemIndex b 0x8B02)
    else if Config.hashStateOk (hashAlg b) e.val then none else some (elemIndex b 0x8B0F)
  | _, _ => none

def opHash : Op :=
  { code := 0x0B05, worlds := [0, 4], life := 4, ready := 2, vault := true,
    specs := [el 0x8B0E 4 true fun ws => decide (byteAt ws 0 ≤ 5), { messageElem with req := true }, el 0x8B0F 256], check := hashFault }

/-- The bytes of a digest (R419). -/
def digestLen (a : Nat) : Nat := if a % 3 = 0 then 32 else if a % 3 = 1 then 48 else 64

/-- HASH (R419): the digest, or the state to go on from. -/
def ansHash (h : Hdr) (b : Body) (s : State) : Ans :=
  let m := (elemOf b 0x8B02).getD { typ := 0x8B02, len := 0, val := [] }
  let word := Config.hashWord (hashAlg b) (wordsOf b 0x8B0F) m.len m.val (hashFinal b)
  let n := if hashFinal b then digestLen (hashAlg b) / 4 else 64
  let out := if hashAlg b = 1 ∧ hashFinal b = true ∧ hasElem b 0x8B0F = false then packWords (Config.sha384 (messageBytes b))
    else (List.range n).map word
  brief 3 h.world (.done [elemW (if hashFinal b then 0x0B11 else 0x0B10) out]) s

def execHash (h : Hdr) (b : Body) (s : State) : Out := run (.hash h b) opHash h b (ansHash h b) s

def opDrbgRead : Op := { code := 0x0B06, worlds := [0, 4], life := 4, ready := 2, vault := true, specs := [el 0x0B12 4] }

/-- DRBG_READ (R421): LENGTH bytes from instance 0, free values. -/
def ansDrbgRead (h : Hdr) (b : Body) (s : State) : Ans :=
  let (n, rep) := match elemOf b 0x0B12 with
    | some e =>
      let v := (wordAt e.val 0).toNat
      let a := if v < 1 then 1 else if 4096 < v then 4096 else v
      (a, reportElem 0x0B12 0 (wordAt e.val 0) (w32 a))
    | none => (32, [])
  withDrbg (brief 4 h.world fun s => let (e, s) := drawElem 0x0B13 n s; .done (e :: rep) s) s

def execDrbgRead (h : Hdr) (b : Body) (s : State) : Out := run (.drbgRead h b) opDrbgRead h b (ansDrbgRead h b) s

/-! ## Vault-cipher pages (R416, R417) -/

def opVciPageAssign : Op :=
  { code := 0x0B07, worlds := [0], life := 4, ready := 2, vault := true,
    specs := [el 0x8B14 4 true fun ws => decide (byteAt ws 0 ≤ 63) && (decide (byteAt ws 1 ≤ 63) || decide (byteAt ws 1 = 0xFF))] }

/-- A page is released. -/
def releasePage (p : Nat) (s : State) : State :=
  record 0x0B07 [p, 0xFF] { s with eng := { s.eng with pages := del s.eng.pages p } }

/-- Jobs of a page. -/
def pageJobs (s : State) (p : Nat) : List (Nat × Job) :=
  s.eng.jobs.filter fun e => decide (e.2.engine = 2) && decide (e.2.page = p)

/-- VCI_PAGE_ASSIGN (R416): a release waits for the page's jobs. -/
def ansVciPageAssign (b : Body) (s : State) : Ans :=
  let p := byteAt (wordsOf b 0x8B14) 0
  let t := byteAt (wordsOf b 0x8B14) 1
  if t = 0xFF then
    if pageLeaving s p then .hold
    else if has s.eng.pages p = false then .done [] s
    else if pageJobs s p = [] then .done [] (releasePage p s)
    else .wait (.page p) s
  else if has s.dks.tenants t = false then .fail stNotFound 0
  else if look s.eng.pages p = some t then .done [] s
  else if has s.eng.pages p = true ∨ s.eng.pages.any (fun e => decide (e.2 = t)) = true then .fail stState 0
  else .done [] (record 0x0B07 [p, t] { s with eng := { s.eng with pages := put s.eng.pages p t } })

def execVciPageAssign (h : Hdr) (b : Body) (s : State) : Out := run (.vciPageAssign h b) opVciPageAssign h b (ansVciPageAssign b) s

/-- The cores that serve a page. -/
def coresUp (s : State) : Nat := 4 - s.eng.cores.length

/-- The job on a page ends (R417, R418): no sooner than every core could pass its blocks and the wipe end. The next job of the page
starts; a release that waits is done. -/
def pageJobEnd (p : Nat) (s : State) : State :=
  match (pageJobs s p).find? fun e => e.2.lane.isSome with
  | none => s
  | some (id, j) =>
    if coresUp s = 0 ∨ (s.now - j.start) / vc < (j.cycles + coresUp s - 1) / coresUp s then s
    else
      let s := fillPage p (deliver id j s)
      if pageJobs s p = [] ∧ pageLeaving s p = true then
        finishWhere (fun w => decide (w = .page p)) stOk [] (releasePage p s)
      else s

def execVciJobEnd (t page : Nat) (s : State) : Out := ev t (pageJobEnd page) s

end Sys2Proof.Machine
end

