-- ==== Sys2Proof/Machine/Domain.lean ====
section
/-! DEFINITION. The domain key service (15): enrolment, distribution, rollover, group keys, tenants, domain snapshots. -/
namespace Sys2Proof.Machine
open Sys2Proof

/-! ## Who serves and who is served -/

/-- The device is the service: a primary replica, in a domain (R426). -/
def isService (s : State) : Bool := s.dks.enrolled && decide (s.dks.replica = 1)

/-- The device is a replica. -/
def isReplica (s : State) : Bool := s.dks.enrolled && decide (s.dks.replica ≠ 0)

/-- The other replicas of the roster, and every other device, that are not revoked. -/
def otherReplicas (s : State) : List Nat :=
  (s.dks.roster.filter fun e => decide (e.2.role ≠ 0) && !e.2.revoked && decide (e.1 ≠ s.dks.device)).map (·.1)
def otherDevices (s : State) : List Nat :=
  (s.dks.roster.filter fun e => !e.2.revoked && decide (e.1 ≠ s.dks.device)).map (·.1)

/-- The role of a device as this device knows it: from its roster, or from the service entries of its membership. -/
def roleOf (s : State) (d : Nat) : Nat :=
  if isReplica s then (match look s.dks.roster d with | some r => if r.revoked then 0 else r.role | none => 0)
  else match s.dks.services.find? (fun x => decide (x.1 = d)) with | some x => x.2.1 | none => 0

/-- The command came in the domain peer world from a replica. -/
def fromReplica (s : State) (session : Nat) : Bool :=
  match look s.cmd.sessions session with
  | some x => (match x.cred with | .device d => decide (roleOf s d ≠ 0) | _ => false)
  | none => false

/-- Whether a bond standby turns a domain command away (R450). -/
def domainStandby (s : State) (h : Hdr) : Bool := standby s && !(decide (h.world = 3) && fromReplica s h.session)

/-- A roster entry replaced: the version rises by 1 (R426). -/
def setRoster (d : Nat) (r : Roster) (s : State) : State :=
  { s with dks := { s.dks with roster := put s.dks.roster d r, version := s.dks.version + 1 } }

/-- DOMAIN_ACTION of a command whose row names the action. -/
def actionElem (n : Nat) : ElemSpec := el 0x8C01 4 true fun ws => decide (byteAt ws 0 = n)

/-- A domain command that a bond standby does not turn away. -/
def onActive (h : Hdr) (f : State → Ans) (s : State) : Ans := if domainStandby s h then .fail stStandby 0 else f s

/-- A domain or group-key command needs its DDR tables (R453). -/
def inDdr (f : State → Ans) (s : State) : Ans := if s.mem.memOff then .fail stState 0 else f s

/-- A number read from a device ID word. -/
def deviceWord (b : Body) : Nat := (wordAt (wordsOf b 0x8C02) 0).toNat

/-! ## Service operations: their results and their ends -/

/-- The deliveries of a group. -/
def groupOf (s : State) (g : Nat) : List Delivery := s.dks.deliveries.filter fun d => decide (d.group = g)

/-- DIST_RESULT of deliveries (Table 15.8). -/
def distResult (l : List Delivery) : Elem :=
  elemB 0x0C0C (l.flatMap fun d => beBytes 2 d.target ++ beBytes 2 (d.status.getD 0) ++ beBytes 4 d.handle)

/-- A bitmap of devices as 128 bytes, bit d in byte d / 8. -/
def deviceMap (l : List Nat) : List Nat := (List.range 128).map fun i => bitmap 8 fun k => l.contains (8 * i + k)

/-- SNAP_ARMED: the devices armed, and those of them at SYNC 0 (a handle of 1 in their answer). -/
def snapArmed (l : List Delivery) : Elem :=
  let ok := l.filter fun d => decide (d.status = some 0)
  elemB 0x0C16 (deviceMap (ok.map (·.target)) ++ deviceMap ((ok.filter fun d => decide (d.handle = 1)).map (·.target)))

/-- A service operation ends: its command completes, its deliveries are dropped, its own key copy erased. -/
def endSvc (o : SvcOp) (status : Nat) (elems : Body) (s : State) : State :=
  let s : State := { s with dks := { s.dks with
    svcOps := s.dks.svcOps.filter fun x => decide (x.id ≠ o.id)
    deliveries := s.dks.deliveries.filter fun d => decide (d.group ≠ o.id) } }
  let s := match o.key with | some k => eraseKey k s | none => s
  finishWhere (fun w => decide (w = .svc o.id)) status elems s

/-- A service operation whose targets have all answered ends: an enrolment reports the replicas that have not applied the delta, a
distribution each target, an agreement its failure, a snapshot the devices armed; a snapshot ends at its instant too. -/
def settleSvc (o : SvcOp) (s : State) : State :=
  let l := groupOf s o.id
  let all := l.all fun d => d.status.isSome
  if o.kind = 9 then
    if all = true ∨ o.until_ ≤ tod s then endSvc o stOk [snapArmed l] s else s
  else if all = false then s
  else if o.kind = 8 then endSvc o stOk (o.elems ++ [distResult (l.filter fun d => decide (d.status ≠ some 0))]) s
  else if o.kind = 3 then
    match l.find? fun d => decide (d.status ≠ some 0) with
    | some d => endSvc o (d.status.getD 0) [] s
    | none => endSvc o stOk [distResult ((l.filter fun d => decide (d.stage ≠ 0)).reverse)] s
  else endSvc o stOk (o.elems ++ [distResult l]) s

/-- Every service operation settled. -/
def settleAllSvc (s : State) : State := s.dks.svcOps.foldl (fun s o => settleSvc o s) s

/-- A service operation starts: its deliveries join those to send; the command waits for it, or is done at once. -/
def startSvc (kind : Nat) (ds : List Delivery) (o : SvcOp) (s : State) : State :=
  let n := s.dks.nextSvc
  pump { s with dks := { s.dks with
    nextSvc := n + 1
    svcOps := s.dks.svcOps ++ [{ o with id := n, kind := kind }]
    deliveries := s.dks.deliveries ++ ds.map fun d => { d with kind := kind, group := n } } }

/-- A delivery to a device. -/
def delivery (d : Nat) : Delivery := { target := d, kind := 0, group := 0 }

/-! ## The vault's part -/

/-- Keys of the service itself: P-384, ML-DSA-87, X25519, ML-KEM-1024 and P-256 pairs generated inside, the vault core their only
master. A bit of `uses` names the usage. -/
def serviceUse (s : State) (use : Nat) : Word :=
  ((0 : Word).withBits use use 1).withBits 22 22 1 |>.withBits 7 7 1 |>.withBits 5 5 1 |>.withBits (lifeBit s.keys.life) (lifeBit s.keys.life) 1

/-- Several keys of the service stored, none where one does not fit. -/
def storeAll : List (Nat × Nat) → State → Option (State × List Nat)
  | [], s => some (s, [])
  | (alg, use) :: r, s =>
    match storeKey (typeApplied alg) (serviceUse s use) 0 s with
    | none => none
    | some (s, h) => (storeAll r s).map fun x => (x.1, h :: x.2)

/-- Keys erased. -/
def eraseAll (l : List Nat) (s : State) : State := l.foldl (fun s k => eraseKey k s) s

/-- Vault work of a domain command at its priority 2, which needs the kiln, a job slot and DRBG instance 0 (15.6). -/
def serviceWork (f : State → Ans) (s : State) : Ans :=
  if latticeOut s then .fail stSelftest 0 else brief 0 3 (fun s => withDrbg (fun s => f (reseed0 s)) s) s

/-! ## Enrolment (R429 to R431) -/

def opEnrolChallenge : Op :=
  { code := 0x0C00, worlds := [0], life := 5, ready := 2, vault := true, specs := [actionElem 0, elv 0x8C03 0 8192 true] }

/-- DOMAIN_ENROL challenge: the verdict on the certificates, the serial and the identity digest they carry are operands (log
entry 5). -/
def ansEnrolChallenge (h : Hdr) (ok : Bool) (serial : Nat) (idDig : List Word) (s : State) : Ans :=
  onActive h (fun s =>
    if isService s = false then .fail stState 0
    else serviceWork (fun s =>
      if ok = false then .fail stAuth 0
      else
        let (n, s) := drawWords 8 s
        let live := s.dks.nonces.filter fun x => decide (s.now ≤ x.at_ + 300 * sec)
        .done [elemW 0x8C04 n]
          { s with dks := { s.dks with nonces := live ++ [{ nonce := n, serial := serial, idDig := idDig, at_ := s.now }] } }) s) s

def execDomainEnrolChallenge (h : Hdr) (b : Body) (ok : Bool) (serial : Nat) (idDig : List Word) (s : State) : Out :=
  run (.domainEnrolChallenge h b ok serial idDig) opEnrolChallenge h b (inDdr (ansEnrolChallenge h ok serial idDig)) s

def opEnrolPrepare : Op :=
  { code := 0x0C00, worlds := [0], life := 5, ready := 2, vault := true, specs := [actionElem 1, el 0x8C04 32 true, el 0x8C05 4 true] }

/-- The words of a digest field, as many as it has. -/
def digestWords (ws : List Word) (o n : Nat) : List Word := (List.range n).map fun i => wordAt ws (o / 4 + i)

/-- DOMAIN_ENROL prepare: a new distribution pair replaces an earlier one; ENROL_REQUEST (Table 15.2) holds it and an attestation. -/
def ansEnrolPrepare (h : Hdr) (b : Body) (s : State) : Ans :=
  onActive h (serviceWork fun s =>
    match storeAll [(0x13, uDerive), (0x31, uDecrypt)] (eraseAll s.dks.distKeys s) with
    | none => .fail stNoSpace 0
    | some (s, hs) =>
      let pub := hs.flatMap (keyPublic s)
      let head := packWords (beBytes 4 0x54454E52 ++ [1, 0, 0, 0] ++ beBytes 8 s.boot.serial ++ beBytes 6 s.boot.mac ++ [0, 0]) ++
        [wordAt (wordsOf b 0x8C05) 0, 0] ++ digestWords (wordsOf b 0x8C04) 0 8 ++ pub
      let nonce := packWords (Config.sha384 (unpack head))
      let s : State := { s with dks := { s.dks with distKeys := hs, distDig := packWords (Config.sha384 (unpack pub)) } }
      let att := attestWords 1 0 [0, 0, 0] (List.replicate 48 0) ((List.range 8).map fun i => wordAt nonce i) s
      .done [{ typ := 0x8C06, len := 6571, val := head ++ att }] s) s

def execDomainEnrolPrepare (h : Hdr) (b : Body) (s : State) : Out := run (.domainEnrolPrepare h b) opEnrolPrepare h b (inDdr (ansEnrolPrepare h b)) s

/-- DEVICE_ID: a device, or where `any` the lowest free one. -/
def deviceElem (req any : Bool) : ElemSpec :=
  el 0x8C02 4 req fun ws => decide ((wordAt ws 0).toNat ≤ 1023) || (any && decide ((wordAt ws 0).toNat = 0xFFFFFFFF))

def opEnrolAdmit : Op :=
  { code := 0x0C00, worlds := [0], life := 5, ready := 2, vault := true,
    specs := [actionElem 2, el 0x8C06 6571 true, deviceElem false true,
      el 0x8C08 4 false fun ws => decide ((wordAt ws 0).toNat ≤ 511) || decide ((wordAt ws 0).toNat = 0xFFFFFFFF)] }

/-- The device ID an admission takes (R430): that of an entry with the same serial, the one named where it is free or revoked, else the
lowest that holds no entry; the status where there is none. -/
def admitId (s : State) (b : Body) (serial : Nat) : Nat ⊕ Nat :=
  match s.dks.roster.find? (fun e => decide (e.2.serial = serial)) with
  | some (d, _) => .inl d
  | none =>
    if hasElem b 0x8C02 = true ∧ deviceWord b ≠ 0xFFFFFFFF then
      match look s.dks.roster (deviceWord b) with
      | some r => if r.revoked then .inl (deviceWord b) else .inr stState
      | none => .inl (deviceWord b)
    else
      let used := s.dks.roster.map (·.1)
      let d := lowestFree used used.length 0
      if d < 1024 then .inl d else .inr stNoSpace

/-- A service entry of a membership: 128 bytes (Table 15.3). -/
def serviceEntry (d : Nat) (r : Roster) : List Nat :=
  beBytes 2 d ++ [r.role, 0] ++ (unpack (digestWords r.idDig 0 12)) ++ (unpack (digestWords r.txnPub 0 17)).take 65 ++ List.replicate 11 0

/-- A membership or a pending package (Table 15.3) for a device of a roster: the keys of a pair and a generation, signed with a pair. -/
def membershipBytes (d gen version : Nat) (roster : KMap Roster) (pair signer : List Nat) (s : State) : List Nat :=
  let svc := (roster.filter fun e => decide (e.2.role ≠ 0) && !e.2.revoked).take 4
  let r := (look roster d).getD {}
  let head := beBytes 4 0x54444D42 ++ [1, svc.length] ++ beBytes 2 d ++ beBytes 4 s.dks.domain ++ beBytes 4 gen ++
    beBytes 8 version ++ unpack (digestWords r.distDig 0 12) ++ beBytes 8 r.serial
  let entries := ((svc.flatMap fun (e : Nat × Roster) => serviceEntry e.1 e.2) ++ List.replicate 512 0).take 512
  let body := head ++ entries ++ pubEc s pair ++ [0, 0, 0] ++ pubPq s pair
  body ++ pairSign s signer body

/-- A roster entry's 256 bytes (Table 15.1). -/
def rosterBytes (d : Nat) (r : Roster) : List Nat :=
  beBytes 2 (d % 1024) ++ [r.role, bit r.revoked + 2 * bit r.stale] ++ beBytes 2 r.bond ++ beBytes 2 r.svn ++ beBytes 8 r.serial ++
    beBytes 6 r.mac ++ [0, 0] ++ beBytes 8 r.admitAt ++ unpack (digestWords r.idDig 0 12) ++ unpack (digestWords r.distDig 0 12) ++
    (unpack (digestWords r.txnPub 0 17)).take 65 ++ List.replicate 63 0

/-- A ROSTER_DELTA of an entry (R426): the header (log entry 8), the entry, and the signatures over the hash of the header and all
entries. -/
def deltaWords (d : Nat) (s : State) : List Word :=
  let head := beBytes 4 0x54444D42 ++ [1, 0, 0, 0] ++ beBytes 4 s.dks.domain ++ beBytes 4 s.dks.gen ++ beBytes 8 s.dks.version ++ List.replicate 40 0
  let all := Config.sha384 (head ++ s.dks.roster.flatMap fun e => rosterBytes e.1 e.2)
  packWords (head ++ rosterBytes d ((look s.dks.roster d).getD {}) ++ pairSign s s.dks.domainKeys all)

/-- A changed roster entry goes to replicas. -/
def sendDelta (group d : Nat) (ds : List Nat) (s : State) : State :=
  let w := deltaWords d s
  deliverTo 8 group (fun _ => w) ds s

/-- DOMAIN_ENROL, admission (R430): the verdict on the attestation's signatures is an operand (log entry 5). -/
def ansEnrolAdmit (h : Hdr) (b : Body) (sigOk : Bool) (s : State) : Ans :=
  onActive h (fun s =>
    let ws := wordsOf b 0x8C06
    let serial := bytesNat ws 8 8
    if isService s = false then .fail stState 0
    else serviceWork (fun s =>
      match s.dks.nonces.find? (fun x => decide (x.nonce = digestWords ws 32 8) && !x.used && decide (s.now ≤ x.at_ + 300 * sec)) with
      | none => .fail stAuth 0
      | some n =>
        if sigOk = false ∨ digestWords ws 1748 8 ≠ digestWords (packWords (Config.sha384 (unpack (ws.take 416)))) 0 8 then .fail stAuth 0
        else if byteAt ws 1670 ≠ 1 ∧ byteAt ws 1670 ≠ 2 then .fail stState 0
        else if bytesNat ws 1682 2 < fld s 0x0C0100 23 16 then .fail stState 0
        else if bytesNat ws 24 4 ≠ s.dks.domain then .fail stState 0
        else match admitId s b serial with
          | .inr st => .fail st 0
          | .inl d =>
            let bond := if hasElem b 0x8C08 ∧ (wordAt (wordsOf b 0x8C08) 0).toNat ≤ 511 then (wordAt (wordsOf b 0x8C08) 0).toNat else 0xFFFF
            let old := (look s.dks.roster d).getD {}
            let keep := decide (old.serial = serial) && has s.dks.roster d
            let pub := (ws.drop 16).take 400
            let r : Roster :=
              { role := if keep then old.role else 0, bond := bond, svn := bytesNat ws 1682 2, serial := serial, mac := bytesNat ws 16 6,
                admitAt := todSec s, idDig := n.idDig, distDig := packWords (Config.sha384 (unpack pub)), distPub := pub,
                txnPub := if keep then old.txnPub else [] }
            let s := setRoster d r { s with dks := { s.dks with
              nonces := s.dks.nonces.map fun x => if x.nonce = n.nonce then { x with used := true } else x } }
            let s := record 0x0E01 (beBytes 2 d ++ beBytes 2 bond ++ beBytes 4 serial) s
            let m := elemB 0x8C07 (membershipBytes d s.dks.gen s.dks.version s.dks.roster s.dks.domainKeys s.dks.domainKeys s)
            let w := deltaWords d s
            let others := (otherReplicas s).filter fun x => decide (x ≠ d)
            if others = [] then .done [m, distResult []] s
            else .wait (.svc s.dks.nextSvc) (startSvc 8 (others.map fun x => { delivery x with words := w }) { id := 0, kind := 8, elems := [m] } s)) s) s

def execDomainEnrolAdmit (h : Hdr) (b : Body) (sigOk : Bool) (s : State) : Out :=
  run (.domainEnrolAdmit h b sigOk) opEnrolAdmit h b (inDdr (ansEnrolAdmit h b sigOk)) s

/-- A membership read from its bytes (Table 15.3). -/
def membershipOf (ws : List Word) : Membership :=
  { device := bytesNat ws 6 2 % 1024, domain := bytesNat ws 8 4, gen := bytesNat ws 12 4, version := bytesNat ws 16 8,
    services := (List.range (min 4 (byteAt ws 5))).map fun i =>
      (bytesNat ws (80 + 128 * i) 2 % 1024, byteAt ws (82 + 128 * i), digestWords ws (84 + 128 * i) 12) }

/-- A membership becomes the device's own. -/
def takeMembership (m : Membership) (s : State) : State :=
  let role := match m.services.find? (fun x => decide (x.1 = m.device)) with | some x => x.2.1 | none => 0
  { s with dks := { s.dks with
    enrolled := true, replica := role, device := m.device, domain := m.domain, gen := m.gen, version := m.version, services := m.services } }

def opEnrolAccept : Op :=
  { code := 0x0C00, worlds := [0], life := 5, ready := 2, vault := true, specs := [actionElem 3, el 0x8C07 8007 true] }

/-- DOMAIN_ENROL accept (R429): the package is its own and verifies. -/
def ansEnrolAccept (h : Hdr) (b : Body) (sigOk : Bool) (s : State) : Ans :=
  onActive h (fun s =>
    let ws := wordsOf b 0x8C07
    let m := membershipOf ws
    let own := decide (bytesNat ws 72 8 = s.boot.serial) && decide (digestWords ws 24 12 = s.dks.distDig) && !s.dks.distKeys.isEmpty &&
      (!(s.dks.enrolled && decide (s.dks.domain = m.domain)) || decide (s.dks.device = m.device))
    if sigOk = false ∨ own = false then .fail stAuth 0
    else brief 0 3 (fun s => .done [] (takeMembership m { s with dks := { s.dks with pendingPkg := none } })) s) s

def execDomainEnrolAccept (h : Hdr) (b : Body) (sigOk : Bool) (s : State) : Out :=
  run (.domainEnrolAccept h b sigOk) opEnrolAccept h b (inDdr (ansEnrolAccept h b sigOk)) s

def opEnrolRevoke : Op :=
  { code := 0x0C00, worlds := [0], life := 5, ready := 2, vault := true, specs := [actionElem 4, deviceElem true false] }

/-- DOMAIN_ENROL revoke (R431). -/
def ansEnrolRevoke (h : Hdr) (b : Body) (s : State) : Ans :=
  onActive h (fun s =>
    if isService s = false then .fail stState 0
    else match look s.dks.roster (deviceWord b) with
      | none => .fail stNotFound 0
      | some r =>
        let d := deviceWord b
        let s := setRoster d { r with revoked := true } s
        let s : State := { s with dks := { s.dks with clients := s.dks.clients.filter fun x => decide (x ≠ d) } }
        .done [] (pump (sendDelta 0 d (otherReplicas s) (endCred (.device d) h.mailbox h.tag s)))) s

def execDomainEnrolRevoke (h : Hdr) (b : Body) (s : State) : Out := run (.domainEnrolRevoke h b) opEnrolRevoke h b (inDdr (ansEnrolRevoke h b)) s

def opEnrolDelta : Op :=
  { code := 0x0C00, worlds := [3], life := 5, ready := 2, vault := true, specs := [actionElem 5, el 0x8C09 5043 true] }

/-- The roster entry of a delta (Table 15.1), which stands after its 64-byte header. -/
def deltaEntry (ws : List Word) : Roster :=
  { role := byteAt ws 66, revoked := (byteAt ws 67).testBit 0, stale := (byteAt ws 67).testBit 1, bond := bytesNat ws 68 2,
    svn := bytesNat ws 70 2, serial := bytesNat ws 72 8, mac := bytesNat ws 80 6, admitAt := bytesNat ws 88 8,
    idDig := digestWords ws 96 12, distDig := digestWords ws 144 12, txnPub := digestWords ws 192 17 }

/-- DOMAIN_ENROL roster delta (R426): a credential it revokes loses its sessions (R46, R47). Its header is read as the first 24 bytes of Table 15.3 (log entry 8). -/
def ansEnrolDelta (h : Hdr) (b : Body) (sigOk : Bool) (s : State) : Ans :=
  onActive h (fun s =>
    let ws := wordsOf b 0x8C09
    let gen := bytesNat ws 12 4
    let ver := bytesNat ws 16 8
    let d := bytesNat ws 64 2 % 1024
    if isReplica s = false ∨ sigOk = false ∨ (s.dks.gen < gen || (decide (s.dks.gen = gen) && decide (s.dks.version < ver))) = false then
      .fail stState 0
    else brief 0 3 (fun s =>
      let r := deltaEntry ws
      let s : State := { s with dks := { s.dks with
        roster := put s.dks.roster d r, version := ver, replica := if d = s.dks.device then r.role else s.dks.replica } }
      .done [] (if r.revoked then endCred (.device d) h.mailbox h.tag s else s)) s) s

def execDomainEnrolRosterDelta (h : Hdr) (b : Body) (sigOk : Bool) (s : State) : Out :=
  run (.domainEnrolRosterDelta h b sigOk) opEnrolDelta h b (inDdr (ansEnrolDelta h b sigOk)) s

/-! ## Distribution (R432 to R435, R446) -/

/-- DIST_TARGET of a body. -/
def distKind (b : Body) : Nat := byteAt (wordsOf b 0x8C0A) 0
def distA (b : Body) : Nat := bytesNat (wordsOf b 0x8C0A) 2 2
def distB (b : Body) : Nat := bytesNat (wordsOf b 0x8C0A) 4 2

/-- The port code and phase of an end, none where the target names none. -/
def distPort (b : Body) (end_ : Nat) : Option (Nat × Nat) :=
  let p := byteAt (wordsOf b 0x8C0A) (6 + 2 * end_)
  if p = 0xFF then none else some (p - 2, byteAt (wordsOf b 0x8C0A) (7 + 2 * end_))

/-- DIST_TARGET: its kind, devices, port codes and phases are codes of the table. -/
def targetElem : ElemSpec :=
  let port := fun (ws : List Word) (o : Nat) =>
    decide (byteAt ws o = 0xFF) || (([2, 3].contains (byteAt ws o)) && decide (byteAt ws (o + 1) ≤ 1))
  el 0x8C0A 12 true fun ws => decide (byteAt ws 0 ≤ 7) && decide (bytesNat ws 2 2 ≤ 1023) &&
    (decide (bytesNat ws 4 2 ≤ 1023) || (decide (bytesNat ws 4 2 = 0xFFFF) && !([1, 2, 3].contains (byteAt ws 0)))) &&
    port ws 6 && port ws 8

def opDomainKeyDistribute : Op :=
  { code := 0x0C01, worlds := [0, 3], life := 5, ready := 2, vault := true, specs := [targetElem, elv 0x8C0B 0 8192] }

/-- The attributes of a key delivered to an end of a distribution (Table 15.4): kinds 0 and 1 persistent for the vault core, kind 2 to
encrypt or decrypt on the SA key bus, kind 3 both. -/
def distUse (s : State) (kind : Nat) (isA : Bool) : Word :=
  let life := ((0 : Word).withBits (lifeBit s.keys.life) (lifeBit s.keys.life) 1)
  match kind with
  | 2 => (life.withBits 21 21 1).withBits (if isA then uEncrypt else uDecrypt) (if isA then uEncrypt else uDecrypt) 1
  | 3 => ((life.withBits 21 21 1).withBits uEncrypt uEncrypt 1).withBits uDecrypt uDecrypt 1
  | _ => ((life.withBits 22 22 1).withBits uDerive uDerive 1).withBits 7 7 1

/-- The ephemeral distribution key gives way to a new one once it is spent (R433). -/
def rotateEph (s : State) : State :=
  if 4096 ≤ s.dks.ephServed ∨ s.dks.ephSince + sec ≤ s.now then
    let (v, s) := drawBits 256 s
    { s with dks := { s.dks with eph := v, ephServed := 0, ephSince := s.now } }
  else s

/-- A bundle for a device (R433): its transaction number, the ephemeral public key, the ciphertext, the records and keys wrapped under the
key derived, and the signature, which is a free value; they stand in that order (log entry 8). -/
def buildBundle (d : Nat) (content : List Nat) (s : State) : List Word × State :=
  let s := rotateEph s
  let (r, s) := drawBits 256 s
  let pub := ((look s.dks.roster d).getD {}).distPub
  let txn := s.dks.txn + 1
  let mine := words8 (Config.x25519 s.dks.eph 9)
  let (ct, shared) := Config.kemEncap (pub.drop 8) r
  let ctx := beBytes 4 s.dks.domain ++ beBytes 2 s.dks.device ++ beBytes 2 d ++ beBytes 8 txn ++ unpack mine ++ unpack ct
  let key := kdf (beBytes 32 (Config.x25519 s.dks.eph (bytesNat pub 0 32)) ++ beBytes 32 shared) "TIRIQUE DIST" ctx
  let (sig, s) := drawWords 16 s
  (packWords (beBytes 8 txn) ++ mine ++ ct ++ Config.kwp key content ++ sig,
    { s with dks := { s.dks with txn := txn, ephServed := s.dks.ephServed + 1 } })

/-- The attribute record and the key of a handle, as a bundle wraps them. -/
def keyContent (s : State) (handle : Nat) : List Nat :=
  match look s.keys.keys handle with
  | some k => unpack k.record ++ Config.material k.alg k.value
  | none => []

/-- Bundles of one content for devices join the deliveries. -/
def deliverBundles (kind group : Nat) (content : List Nat) (ds : List Nat) (s : State) : State :=
  ds.foldl (fun s d => let (w, s) := buildBundle d content s; deliverTo kind group (fun _ => w) [d] s) s

/-- Whether a device can be a target. -/
def isTarget (s : State) (d : Nat) : Bool := match look s.dks.roster d with | some r => !r.revoked | none => false

/-- DOMAIN_KEY_DISTRIBUTE at the service (R432): a key drawn and a bundle for each target, or an agreement relayed. -/
def ansDistribute (b : Body) (s : State) : Ans :=
  let kind := distKind b
  let targets := if distB b = 0xFFFF then [distA b] else [distA b, distB b]
  if isService s = false ∨ 4 ≤ kind then .fail stState 0
  else if targets.all (isTarget s) = false then .fail stNotFound 0
  else if kind = 1 ∧ (look s.dks.roster (distA b)).map (·.bond) ≠ (look s.dks.roster (distB b)).map (·.bond) then .fail stState 0
  else serviceWork (fun s =>
    if kind = 3 then
      .wait (.svc s.dks.nextSvc)
        (startSvc 3 [{ delivery (distA b) with words := packWords (beBytes 8 (s.dks.txn + 1)) }]
          { id := 0, kind := 3, ends := (distA b, distB b) } { s with dks := { s.dks with txn := s.dks.txn + 1 } })
    else match storeKey (typeApplied 2) ((distUse s kind true).withBits 5 5 1) 0 s with
      | none => .fail stNoSpace 0
      | some (s, k) =>
        let s := deliverBundles kind s.dks.nextSvc (keyContent s k) targets s
        .wait (.svc s.dks.nextSvc) (startSvc kind [] { id := 0, kind := kind, key := some k } s)) s

/-- A bundle's signature and transaction number (R433). -/
def bundleOk (s : State) (x : Bundle) : Bool :=
  x.sigOk && decide (roleOf s x.sender ≠ 0) && decide (get s.dks.txnSeen x.sender 0 < x.txn) && !s.dks.distKeys.isEmpty

/-- The DIST_RESULT of the device itself. -/
def ownResult (s : State) (handle : Nat) : Elem := elemB 0x0C0C (beBytes 2 s.dks.device ++ beBytes 2 0 ++ beBytes 4 handle)

/-- The ALG of the key of a TEK algorithm. -/
def tekAlg (n : Nat) : Nat := if n = 0 then 1 else if n = 1 then 2 else 3

/-- The TEKs of a policy copy stored, none where one does not fit. -/
def storeTeks (alg : Nat) : List (Nat × Nat × Nat) → State → Option (State × List Tek)
  | [], s => some (s, [])
  | (v, a, e) :: r, s =>
    match storeValue (typeApplied (tekAlg alg)) ((serviceUse s uMac).withBits 5 5 0) 0 v s with
    | none => none
    | some (s, h) => (storeTeks alg r s).map fun x => (x.1, { handle := h, active := a, expiry := e } :: x.2)

/-- A copy of a policy replaces the replica's own (R438, R440). -/
def copyPolicy (c : PolicyCopy) (s : State) : Ans :=
  let s := eraseAll (((look s.dks.groups c.group).map (·.teks)).getD [] |>.map (·.handle)) s
  let s : State := { s with dks := { s.dks with
    anchors := c.anchors.getD s.dks.anchors, serviceCert := c.cert.getD s.dks.serviceCert, groups := del s.dks.groups c.group } }
  if c.present = false then .done [ownResult s 0] s
  else match storeTeks c.alg c.teks s with
    | none => .fail stNoSpace 0
    | some (s, ts) =>
      .done [ownResult s 0] { s with dks := { s.dks with
        groups := put s.dks.groups c.group { typ := c.typ, alg := c.alg, lifetime := c.lifetime, teks := ts } } }

/-- Kinds 0, 1, 2 and 4 at a target (R433): the key it stores; a copy of a policy, or of the pending domain key pair. -/
def takeBundle (b : Body) (x : Bundle) (s : State) : Ans :=
  if bundleOk s x = false then .fail stAuth 0
  else
    let kind := distKind b
    let s : State := { s with dks := { s.dks with txnSeen := put s.dks.txnSeen x.sender x.txn } }
    match x.policy with
    | some c => if kind = 4 then copyPolicy c s else .fail stAuth 0
    | none =>
      let use := if kind = 4 then x.use.withBits 5 5 0 else distUse s kind (decide (distA b = s.dks.device))
      match storeValue (if kind = 4 then x.typ else typeApplied 2) use 0 x.value s with
      | none => .fail stNoSpace 0
      | some (s, k) =>
        if kind = 4 ∧ x.gen ≠ 0 then
          match x.pair with
          | none => .done [ownResult s k] { s with dks := { s.dks with pendKeys := [k] } }
          | some (t, v) =>
            match storeValue t use 0 v s with
            | none => .fail stNoSpace 0
            | some (s, k2) => .done [ownResult s k] { s with dks := { s.dks with pendKeys := [k, k2] } }
        else .done [ownResult s k] s

/-- A TRUNK_KEY element installs a key that a command has stored, with the command's results (R290, R312). -/
def installTrunkKey (e : Elem) (out : Body) (s : State) : Ans :=
  match applyKeyElem 0 e.val s with
  | .inr st => .fail st 0
  | .inl s => .done out (mirror 8 (.path [e]) s)

/-- A trunk key agreed is stored at an end, and installed where the target names its port and phase (R435, R290, R312). -/
def takeTrunkKey (b : Body) (end_ value : Nat) (more : Body) (s : State) : Ans :=
  match storeValue (typeApplied 2) (distUse s 3 true) 0 value s with
  | none => .fail stNoSpace 0
  | some (s, k) =>
    match distPort b end_ with
    | none => .done (more ++ [ownResult s k]) s
    | some (p, ph) => installTrunkKey (keyElemOf p ph k) (more ++ [ownResult s k]) s

/-- The trunk key of an agreement (R435): from the two secrets, over the offer's public keys and the reply. -/
def trunkValue (b : Body) (x : Bundle) (z shared : Nat) (offer reply : List Word) (s : State) : Nat :=
  kdf (beBytes 32 z ++ beBytes 32 shared) "TIRIQUE TRUNK"
    (beBytes 4 s.dks.domain ++ beBytes 2 (distA b) ++ beBytes 2 (distB b) ++ beBytes 8 x.txn ++ unpack offer ++ unpack reply)

/-- An offer or a reply: its public part, signed with the hybrid identity over the domain, the ends, the TXN and the public keys. -/
def agreeElem (b : Body) (x : Bundle) (pub : List Word) (s : State) : Elem :=
  elemB 0x8C0B (unpack pub ++ (unpack (idSign s
    (beBytes 4 s.dks.domain ++ beBytes 2 (distA b) ++ beBytes 2 (distB b) ++ beBytes 8 x.txn ++ unpack pub))).take 4723)

/-- Kind 3 at an end (R435): offer at A, reply at B, finish at A. A failed finish erases the ephemeral keys. The public keys stand first
in an offer, the public key and the ciphertext in a reply (log entry 8). -/
def agreeTrunk (b : Body) (x : Bundle) (s : State) : Ans :=
  if standby s then .fail stStandby 0
  else match x.stage with
    | 0 => withDrbg (fun s =>
        let (v, s) := drawBits 256 s
        let (k, s) := drawBits 512 s
        .done [agreeElem b x (words8 (Config.x25519 v 9) ++ Config.publicKey 0x31 k) s] { s with dks := { s.dks with
          trunkEph := s.dks.trunkEph.filter (fun t => decide (t.1 ≠ x.txn)) ++ [(x.txn, v, k)] } }) s
    | 1 =>
      if x.sigOk = false then .fail stAuth 0
      else withDrbg (fun s =>
        let offer := (wordsOf b 0x8C0B).take 400
        let (v, s) := drawBits 256 s
        let (r, s) := drawBits 256 s
        let (ct, shared) := Config.kemEncap (offer.drop 8) r
        let reply := words8 (Config.x25519 v 9) ++ ct
        takeTrunkKey b 1 (trunkValue b x (Config.x25519 v (bytesNat offer 0 32)) shared offer reply s) [agreeElem b x reply s] s) s
    | _ =>
      let gone := { s with dks := { s.dks with trunkEph := s.dks.trunkEph.filter fun t => decide (t.1 ≠ x.txn) } }
      match s.dks.trunkEph.find? fun t => decide (t.1 = x.txn) with
      | none => .fail stState 0
      | some (_, v, k) =>
        if x.sigOk = false then .spent stAuth gone
        else
          let offer := words8 (Config.x25519 v 9) ++ Config.publicKey 0x31 k
          let reply := (wordsOf b 0x8C0B).take 400
          takeTrunkKey b 0 (trunkValue b x (Config.x25519 v (bytesNat reply 0 32)) (Config.kemDecap 0x31 k (reply.drop 8)) offer reply s) [] gone

/-- Kind 5 (R446): a pending package of the next generation that verifies; another of the same generation is refused until an abort
note, the same one is accepted again. -/
def takePackage (b : Body) (x : Bundle) (s : State) : Ans :=
  let m := membershipOf (wordsOf b 0x8C0B)
  let bytes := unpack (wordsOf b 0x8C0B)
  let dig := packWords (pairDigest ((bytes.drop 592).take 97) ((bytes.drop 692).take 2592))
  if x.sigOk = false then .fail stAuth 0
  else if m.gen ≠ s.dks.gen + 1 then .fail stState 0
  else match s.dks.pendingPkg with
    | some p => if p.gen = m.gen ∧ p.digest = dig then .done [] s else .fail stState 0
    | none => .done [] { s with dks := { s.dks with pendingPkg := some { gen := m.gen, digest := dig, member := m } } }

/-- Whether a note is of a sort and for the domain, verifies, and names the pending keys (R445, R446, log entry 28). -/
def noteOk (magic : Nat) (b : Body) (x : Bundle) (p : PendingPkg) (s : State) : Bool :=
  let ws := wordsOf b 0x8C0B
  x.sigOk && decide (bytesNat ws 0 4 = magic) && decide (bytesNat ws 4 4 = s.dks.domain) && decide (bytesNat ws 8 4 = p.gen) &&
    decide (digestWords ws 20 4 = p.digest)

/-- Kind 6 (R446): the pending keys become the committed ones. -/
def takeCommit (b : Body) (x : Bundle) (s : State) : Ans :=
  match s.dks.pendingPkg with
  | none => if bytesNat (wordsOf b 0x8C0B) 8 4 = s.dks.gen then .done [] s else .fail stState 0
  | some p =>
    if noteOk 0x5444434D b x p s = false then .fail stAuth 0
    else
      let roster := s.dks.roster
      let s := eraseAll s.dks.domainKeys s
      let m := p.member
      let role := match m.services.find? (fun y => decide (y.1 = s.dks.device)) with | some y => y.2.1 | none => 0
      let mark := fun (e : Nat × Roster) =>
        (e.1, { e.2 with role := match m.services.find? (fun y => decide (y.1 = e.1)) with | some y => y.2.1 | none => 0 })
      .done [] { s with dks := { s.dks with
        gen := p.gen, version := m.version, services := m.services, replica := role, pendingPkg := none,
        domainKeys := s.dks.pendKeys, pendKeys := [], roster := roster.map mark } }

/-- Kind 7 (R446): the pending package is discarded. -/
def takeAbort (b : Body) (x : Bundle) (s : State) : Ans :=
  match s.dks.pendingPkg with
  | none => .fail stState 0
  | some p =>
    if noteOk 0x54444142 b x p s = false then .fail stAuth 0
    else
      let s := eraseAll s.dks.pendKeys s
      .done [] { s with dks := { s.dks with pendingPkg := none, pendKeys := [] } }

/-- DOMAIN_KEY_DISTRIBUTE at a target: in the domain peer world, from a replica. -/
def ansTarget (h : Hdr) (b : Body) (x : Bundle) (s : State) : Ans :=
  if s.dks.enrolled = false then .fail stState 0
  else if fromReplica s h.session = false then .fail stAuth 0
  else brief 0 3 (fun s =>
    match distKind b with
    | 3 => agreeTrunk b x s
    | 5 => takePackage b x s
    | 6 => takeCommit b x s
    | 7 => takeAbort b x s
    | _ => takeBundle b x s) s

/-- DOMAIN_KEY_DISTRIBUTE (R432): at the service in the operator world, at a target in the domain peer world, where its bundle is an
operand (log entry 5). -/
def ansDomainKeyDistribute (h : Hdr) (b : Body) (bundle : Option Bundle) (s : State) : Ans :=
  onActive h (fun s =>
    if h.world = 0 then ansDistribute b s
    else match bundle with
      | none => .fail stBadElement 0
      | some x => ansTarget h b x s) s

def execDomainKeyDistribute (h : Hdr) (b : Body) (bundle : Option Bundle) (s : State) : Out :=
  run (.domainKeyDistribute h b bundle) opDomainKeyDistribute h b (inDdr (ansDomainKeyDistribute h b bundle)) s

/-! ## Rollover (R444 to R447) -/

def opDomainRollover : Op :=
  { code := 0x0C02, worlds := [0], life := 5, ready := 2, long := true, vault := true, specs := [ticketElem, el 0x0C0D 4] }

/-- ROLL_PARAMS as applied, with its report. -/
def rollParams (b : Body) : Nat × Bool × Body :=
  match elemOf b 0x0C0D with
  | none => (600, false, [])
  | some e =>
    let w := wordAt e.val 0
    let a := clampFld w 31 16 (.range 60 3600)
    (a.bits 31 16, w.bit 8, reportElem 0x0C0D 0 w a)

/-- A domain is created: a random identifier, the device its first member and primary, its transaction key (R444). -/
def createDomain (s : State) : Option State :=
  match storeAll [(0x10, uSign)] s with
  | none => none
  | some (s, ks) =>
    let (dom, s) := drawBits 32 s
    let idd := packWords (Config.sha384 (unpack (Config.publicKey 0x11 (idKeys s).1) ++ unpack (Config.publicKey 0x39 (idKeys s).2)))
    let r : Roster :=
      { role := 1, bond := if s.bnd.joined then s.bnd.bond else 0xFFFF, svn := (runBank s).cmd.svn, serial := s.boot.serial,
        mac := s.boot.mac, admitAt := todSec s, idDig := idd, distDig := s.dks.distDig, txnPub := keyPublic s (ks.headD 0),
        distPub := s.dks.distKeys.flatMap (keyPublic s) }
    some { s with dks := { s.dks with
      domain := dom, device := 0, gen := 0, version := 0, roster := [(0, r)], txnKey := ks.headD 0 } }

/-- The role a device takes at a commit (R445 step 4): this device and its bond partner primary; under PROMOTE the old primary pair
secondary. -/
def rolledRole (s : State) (promote : Bool) (d : Nat) (r : Roster) : Nat :=
  let bond := match look s.dks.roster s.dks.device with | some x => x.bond | none => 0xFFFF
  if d = s.dks.device ∨ (r.bond = bond ∧ bond ≠ 0xFFFF) then 1
  else if promote = true ∧ r.role = 1 then 2 else r.role

/-- DOMAIN_ROLLOVER (R444, R445): steps 1 to 5. A creation has no targets. -/
def ansDomainRollover (h : Hdr) (b : Body) (s : State) : Ans :=
  onActive h (dual 0x0C02 h b fun own issuer s =>
    let (d, prom, rep) := rollParams b
    let creation := !s.dks.enrolled && (decide (s.keys.life = 1) || decide (s.keys.life = 2))
    let promote := prom && decide (s.dks.replica = 2) && s.dks.enrolled
    if (creation || isService s || promote) = false ∨ s.dks.rollover.isSome = true then .fail stState 0
    else serviceWork (fun s =>
      match storeAll [(0x11, uSign), (0x39, uSign)] s with
      | none => .fail stNoSpace 0
      | some (s, hs) =>
        match (if creation then createDomain s else some s) with
        | none => .fail stNoSpace 0
        | some s =>
          let op := nextOp s
          let g := s.dks.nextSvc
          let s := startOp 0x0C02 h.world h.mailbox h.tag s
          let r : Rollover :=
            { op := op, step := 6, deadline := s.now + d * sec, promote := promote, creation := creation, group := g, oldGen := s.dks.gen,
              cred := own, issuer := issuer, handles := hs }
          let s : State := { s with dks := { s.dks with rollover := some r, rolling := 1, nextSvc := g + 1 } }
          let roster := s.dks.roster.map fun e => (e.1, { e.2 with role := rolledRole s promote e.1 e.2 })
          let pkg := fun d => packWords (membershipBytes d (s.dks.gen + 1) (s.dks.version + 1) roster hs s.dks.domainKeys s)
          .prog (opIdElem op :: rep)
            (if creation then s
             else pump (deliverTo 5 g pkg (otherDevices s) (deliverBundles 4 g (hs.flatMap (keyContent s)) (otherReplicas s) s)))) s) s

def execDomainRollover (h : Hdr) (b : Body) (s : State) : Out := run (.domainRollover h b) opDomainRollover h b (inDdr (ansDomainRollover h b)) s

/-- Step 9 (R445): the devices without an acknowledgement are stale; the operation ends. -/
def endRollover (r : Rollover) (s : State) : State :=
  let ok := (groupOf s r.group).filter fun d => decide (d.kind = 6) && decide (d.status = some 0)
  let stale := (otherDevices s).filter fun d => !(ok.any fun x => decide (x.target = d))
  let mark := fun (e : Nat × Roster) => (e.1, { e.2 with stale := stale.contains e.1 || (e.2.stale && e.2.revoked) })
  let s : State := { s with dks := { s.dks with
    roster := s.dks.roster.map mark, rollover := none, rolling := 0
    deliveries := s.dks.deliveries.filter fun d => decide (d.group ≠ r.group) } }
  let s := record2 0x0E02 (beBytes 4 r.oldGen ++ beBytes 4 s.dks.gen) ([r.cred, r.issuer] ++ beBytes 2 stale.length) s
  endOp r.op stOk [] s

/-- The commit notes are out once every device that took kind 5 has answered or has been tried again. -/
def settleRollover (s : State) : State :=
  match s.dks.rollover with
  | none => s
  | some r =>
    let open_ := (groupOf s r.group).any fun d => decide (d.kind = 6) && r.acked.contains d.target && d.status.isNone && decide (d.tries ≤ 1)
    if r.step = 8 ∧ open_ = false then endRollover r s else s

/-- Step 7 (R445): the new pair is the domain key; step 8 sends the commit notes. -/
def commitRollover (r : Rollover) (s : State) : State :=
  let late := (groupOf s r.group).filter fun d => decide (d.kind = 5) && !r.acked.contains d.target
  let s := eraseAll s.dks.domainKeys s
  let roster := s.dks.roster.map fun e => (e.1, { e.2 with role := rolledRole s r.promote e.1 e.2 })
  let s : State := { s with dks := { s.dks with
    enrolled := true, replica := 1, gen := s.dks.gen + 1, version := s.dks.version + 1, roster := roster, domainKeys := r.handles,
    rolling := 2, rollover := some { r with step := 8 }
    packages := late.foldl (fun m d => put m d.target d.words) s.dks.packages
    deliveries := s.dks.deliveries.filter fun d => decide (d.group ≠ r.group) } }
  let note := noteWords 0x5444434D s.dks.gen r.handles r.handles s
  settleRollover (pump (deliverTo 6 r.group (fun _ => note) (otherDevices s) s))

/-- Every target has acknowledged, or the deadline has passed (R445 step 6): commit; but without PROMOTE a missing replica aborts
(R447). -/
def rolloverDue (s : State) : State :=
  match s.dks.rollover with
  | none => s
  | some r =>
    let ok := fun (l : List Delivery) => l.all fun d => decide (d.status = some 0)
    let l := groupOf s r.group
    let replicas := l.filter fun d => decide (d.kind = 4) || (otherReplicas s).contains d.target
    if r.step ≠ 6 ∨ (ok l = false ∧ s.now < r.deadline) then s
    else if r.promote = false ∧ ok replicas = false then endOp r.op stState [] (dropRollover r s)
    else commitRollover r s

def execRolloverDeadline (t : Nat) (s : State) : Out := ev t rolloverDue s

/-! ## Answers of targets, retries (R428) -/

/-- The first delivery to a device that has been sent and is not answered. -/
def openTo (s : State) (d : Nat) : Option Nat :=
  s.dks.deliveries.findIdx? fun x => decide (x.target = d) && decide (x.tries ≠ 0) && x.status.isNone

def setDelivery (i : Nat) (x : Delivery) (s : State) : State := { s with dks := { s.dks with deliveries := s.dks.deliveries.set i x } }

/-- What an answer of a delivery leads to: the next step of an agreement, an acknowledgement of a rollover, the catching up of a stale
device. -/
def answered (x : Delivery) (ret : List Word) (s : State) : State :=
  let ok := decide (x.status = some 0)
  let s := if ok = true ∧ (x.kind = 0 ∨ x.kind = 1 ∨ x.kind = 2 ∨ x.kind = 4 ∨ (x.kind = 3 ∧ x.stage = 2)) then bump 0x0C0120 1 s else s
  if ok = false then s
  else if x.kind = 3 then
    match s.dks.svcOps.find? fun o => decide (o.id = x.group) with
    | some o =>
      if x.stage = 2 then s
      else { s with dks := { s.dks with deliveries := s.dks.deliveries ++
        [{ target := if x.stage = 0 then o.ends.2 else o.ends.1, kind := 3, group := o.id, stage := x.stage + 1, words := ret }] } }
    | none => s
  else if x.kind = 5 ∧ x.group = 0 then
    let note := noteWords 0x5444434D s.dks.gen s.dks.domainKeys s.dks.domainKeys s
    deliverTo 6 0 (fun _ => note) [x.target] s
  else if x.kind = 5 then
    match s.dks.rollover with
    | some r => if r.group = x.group then { s with dks := { s.dks with rollover := some { r with acked := r.acked ++ [x.target] } } } else s
    | none => s
  else if x.kind = 6 ∧ x.group = 0 then
    match look s.dks.roster x.target with
    | some r => sendDelta 0 x.target (otherReplicas s) (setRoster x.target { r with stale := false } s)
    | none => s
  else s

/-- A stale device that has been heard from is brought up to date (R446). -/
def catchUp (d : Nat) (s : State) : State :=
  match look s.dks.roster d with
  | some r =>
    if r.stale = true ∧ r.revoked = false ∧ s.dks.deliveries.all (fun x => decide (x.target ≠ d) || decide (x.kind < 5)) = true then
      deliverTo 5 0 (fun d => get s.dks.packages d []) [d] s
    else s
  | none => s

/-- A completion of a device arrives at the service, with the offer or reply it returns. -/
def peerCompletion (d status handle : Nat) (ret : List Word) (s : State) : State :=
  match openTo s d with
  | none => s
  | some i =>
    match s.dks.deliveries[i]? with
    | none => s
    | some x =>
      let x := { x with status := some status, handle := handle }
      let s := answered x ret (setDelivery i x s)
      let s := if x.group = 0 then { s with dks := { s.dks with deliveries := s.dks.deliveries.filter fun y => !(decide (y.group = 0) && y.status.isSome) } } else s
      settleRollover (settleAllSvc (pump (catchUp d s)))

def execDomainPeerCompletionRx (t device status handle : Nat) (words : List Word) (s : State) : Out :=
  ev t (peerCompletion device status handle words) s

/-- A delivery not answered for 5 s is sent again; a replica that has not answered a roster delta of an admission counts as not
reached, with a free status (log entry 3). -/
def retry (d : Nat) (s : State) : State :=
  match openTo s d with
  | none => s
  | some i =>
    match s.dks.deliveries[i]? with
    | none => s
    | some x =>
      if s.now < x.last + 5 * sec then s
      else if x.kind = 8 ∧ x.group ≠ 0 then
        let (st, s) := drawBits 16 s
        pump (settleAllSvc (setDelivery i { x with status := some (st + 1) } s))
      else
        let s := sendDelivery x (setDelivery i { x with tries := x.tries + 1, last := s.now } s)
        settleRollover (settleAllSvc s)

def execDksRetry (t device : Nat) (s : State) : Out := ev t (retry device) s

def execEphemeralKeyRotate (t : Nat) (s : State) : Out := ev t rotateEph s

/-! ## Group keys (R436 to R440) -/

/-- A TEK of a group generated, active from an instant for its lifetime; none where it cannot be stored. -/
def newTek (g : Group) (active : Nat) (s : State) : Option (State × Group) :=
  (storeAll [(tekAlg g.alg, uMac)] s).map fun x =>
    (x.1, { g with teks := g.teks ++ [{ handle := x.2.headD 0, active := active, expiry := active + g.lifetime * sec }] })

/-- A policy, with its TEKs, goes to every other replica (R438): its group, type, algorithm, lifetime and keys (log entry 8). -/
def copyGroup (id : Nat) (s : State) : State :=
  let content := match look s.dks.groups id with
    | some g => beBytes 4 id ++ [1, g.typ, g.alg, 0] ++ beBytes 4 g.lifetime ++ g.teks.flatMap fun t => keyContent s t.handle
    | none => beBytes 4 id ++ List.replicate 8 0
  pump (deliverBundles 4 0 (content ++ s.dks.anchors.flatMap elemBytes ++ s.dks.serviceCert.flatMap elemBytes) (otherReplicas s) s)

/-- GROUP of a body. -/
def groupElem : ElemSpec :=
  el 0x8C0E 12 true fun ws => decide (byteAt ws 4 ≤ 1) && decide (byteAt ws 5 ≤ 1) && decide (byteAt ws 6 ≤ 2)

/-- The index of the ninth ANCHOR. -/
def anchorFault (b : Body) : Option Nat :=
  (((List.range b.length).filter fun i => decide ((b.getD i { typ := 0, len := 0, val := [] }).typ = 0x8C0F))[8]?).map (· + 1)

def opGroupPolicySet : Op :=
  { code := 0x0C03, worlds := [0], life := 5, ready := 2, vault := true,
    specs := [groupElem, { elv 0x8C0F 1 2048 with multi := true }, elv 0x8C10 5 8188], check := anchorFault }

/-- GROUP_POLICY_SET (R438): a policy replaced takes a new TEK. -/
def ansGroupPolicySet (h : Hdr) (b : Body) (s : State) : Ans :=
  onActive h (fun s =>
    let ws := wordsOf b 0x8C0E
    let id := (wordAt ws 0).toNat
    let life := Legal.apply (.range 300 86400) 32 (wordAt ws 2).toNat
    let rep := if byteAt ws 4 = 1 then reportElem 0x8C0E 2 (wordAt ws 2) (w32 life) else []
    let put_ := fun (s : State) =>
      let s := if hasElem b 0x8C0F then
          { s with dks := { s.dks with anchors := elemsOf b 0x8C0F, members := s.dks.members.map fun m => { m with chain := none } } } else s
      match elemOf b 0x8C10 with
      | some e => { s with dks := { s.dks with serviceCert := [e] } }
      | none => s
    if isService s = false then .fail stState 0
    else
      let cert := match elemOf b 0x8C10 with
        | none => none
        | some e => match keyFor s h.world (wordAt e.val 0).toNat [uSign] mCore with
          | .bad st => some st
          | .ok k => if isCurve k.alg then none else some stKeyAttr
          | _ => none
      match cert with
      | some st => .fail st 0
      | none =>
        if byteAt ws 4 = 0 then
          match look s.dks.groups id with
          | none => .fail stNotFound 0
          | some g =>
            let s := eraseAll (g.teks.map (·.handle)) s
            .done [] (copyGroup id (put_ { s with dks := { s.dks with groups := del s.dks.groups id } }))
        else if has s.dks.groups id = false ∧ 1024 ≤ s.dks.groups.length then .fail stNoSpace 0
        else serviceWork (fun s =>
          let old := match look s.dks.groups id with | some g => g.teks.map (·.handle) | none => []
          match newTek { typ := byteAt ws 5, alg := byteAt ws 6, lifetime := life } s.now (eraseAll old s) with
          | none => .fail stNoSpace 0
          | some (s, g) => .done rep (copyGroup id (put_ { s with dks := { s.dks with groups := put s.dks.groups id g } }))) s) s

def execGroupPolicySet (h : Hdr) (b : Body) (s : State) : Out := run (.groupPolicySet h b) opGroupPolicySet h b (inDdr (ansGroupPolicySet h b)) s

/-- MEMBER: a digest, 1 to 16 groups, as many as its length holds. -/
def memberElem : ElemSpec :=
  { typ := 0x8C11, len := fun n => decide (40 ≤ n) && decide (n ≤ 100) && decide (n % 4 = 0), multi := true, req := true,
    ident := fun ws => decide (1 ≤ byteAt ws 32) && decide (byteAt ws 32 ≤ 16) && decide (ws.length = 9 + byteAt ws 32) }

/-- The index of the 129th MEMBER. -/
def memberFault (b : Body) : Option Nat :=
  (((List.range b.length).filter fun i => decide ((b.getD i { typ := 0, len := 0, val := [] }).typ = 0x8C11))[128]?).map (· + 1)

/-- A member as its element gives it. -/
def memberOf (e : Elem) : Member :=
  { digest := digestWords e.val 0 8, groups := (e.val.drop 9).map (·.toNat) }

def opGdoiMemberAdd : Op :=
  { code := 0x0C04, worlds := [0], life := 5, ready := 2, specs := [memberElem], check := memberFault }

/-- GDOI_MEMBER_ADD (R438): a member added again is changed. -/
def ansGdoiMemberAdd (h : Hdr) (b : Body) (s : State) : Ans :=
  onActive h (fun s =>
    let new := (elemsOf b 0x8C11).foldl (fun l e =>
      let m := memberOf e
      l.filter (fun x => decide (x.digest ≠ m.digest)) ++ [m]) s.dks.members
    if isReplica s = false then .fail stState 0
    else if 65536 < new.length then .fail stNoSpace 0
    else .done [] { s with dks := { s.dks with members := new } }) s

def execGdoiMemberAdd (h : Hdr) (b : Body) (s : State) : Out := run (.gdoiMemberAdd h b) opGdoiMemberAdd h b (inDdr (ansGdoiMemberAdd h b)) s

def opGdoiMemberRemove : Op :=
  { code := 0x0C05, worlds := [0], life := 5, ready := 2, specs := [memberElem], check := memberFault }

/-- GDOI_MEMBER_REMOVE (R438). -/
def ansGdoiMemberRemove (h : Hdr) (b : Body) (s : State) : Ans :=
  onActive h (fun s =>
    let gone := (elemsOf b 0x8C11).map fun e => (memberOf e).digest
    if isReplica s = false then .fail stState 0
    else if gone.all (fun d => s.dks.members.any fun m => decide (m.digest = d)) = false then .fail stNotFound 0
    else .done [] { s with dks := { s.dks with members := s.dks.members.filter fun m => !gone.contains m.digest } }) s

def execGdoiMemberRemove (h : Hdr) (b : Body) (s : State) : Out := run (.gdoiMemberRemove h b) opGdoiMemberRemove h b (inDdr (ansGdoiMemberRemove h b)) s

/-- With a quarter of the lifetime left, the next TEK is generated, to activate when the current one expires (R440). -/
def nextTek (id : Nat) (s : State) : State :=
  match look s.dks.groups id with
  | none => s
  | some g =>
    match g.teks with
    | [t] =>
      if isService s = true ∧ t.expiry ≤ s.now + g.lifetime * sec / 4 then
        match newTek g t.expiry (reseed0 s) with
        | some (s, g) => copyGroup id { s with dks := { s.dks with groups := put s.dks.groups id g } }
        | none => s
      else s
    | _ => s

def execTekNextGenerate (t group : Nat) (s : State) : Out := ev t (nextTek group) s

/-- An expired TEK is erased (R440). -/
def expireTeks (id : Nat) (s : State) : State :=
  match look s.dks.groups id with
  | none => s
  | some g =>
    let old := (g.teks.filter fun t => decide (t.expiry ≤ s.now)).map (·.handle)
    let s := eraseAll old s
    { s with dks := { s.dks with groups := put s.dks.groups id { g with teks := g.teks.filter fun t => decide (s.now < t.expiry) } } }

def execTekExpiry (t group : Nat) (s : State) : Out := ev t (expireTeks group) s

/-- GDOI is served: by a replica, enabled, at an address, on a clear sub-port whose link is up (R436, R437). -/
def gdoiOn (s : State) : Bool :=
  isReplica s && gdoiServes s && decide (10 ≤ s.boot.step) && (subPort s (gdoiSp s)).link

/-- Phase 1 accepts a member whose chain verifies; the verdict is an operand (R439, log entry 5). -/
def gdoiPhase1 (m : GdoiMsg) (s : State) : State :=
  if m.ok = true ∧ s.dks.members.any (fun x => decide (x.digest = m.digest)) = true then
    send (.gdoi m.src true true 0 []) { s with dks := { s.dks with
      members := s.dks.members.map fun x => if x.digest = m.digest then { x with chain := some m.chainTo, phase1 := some s.now } else x } }
  else send (.gdoi m.src true false 0 []) s

/-- The TEKs a pull delivers, with their remaining lifetimes in seconds (R440). -/
def pullTeks (s : State) (g : Group) : List (Nat × Nat) := g.teks.map fun t => (keyValue s t.handle, (t.expiry - s.now) / sec)

/-- A pull in a phase 1 SA delivers the group's TEKs, or is answered with a failure and counted (R439, R440). -/
def gdoiPull (m : GdoiMsg) (s : State) : State :=
  match s.dks.members.find? fun x => decide (x.digest = m.digest) with
  | none => s
  | some x =>
    if x.phase1.isNone ∨ m.ok = false then s
    else match look s.dks.groups m.group with
      | some g =>
        if x.groups.contains m.group then send (.gdoi m.src false true m.group (pullTeks s g)) (bump 0x0C0124 1 s)
        else send (.gdoi m.src false false m.group []) (bump 0x0C0128 1 s)
      | none => send (.gdoi m.src false false m.group []) (bump 0x0C0128 1 s)

/-- A GDOI message (R437 to R443): dropped where the service has no job slot. -/
def gdoiRx (m : GdoiMsg) (s : State) : State :=
  if gdoiOn s = false then s
  else if (m.phase1 && kilnOut s) || !sharedSlot s then bump 0x0C012C 1 s
  else if m.phase1 then gdoiPhase1 m s else gdoiPull m s

def execGdoiMessageRx (t : Nat) (msg : GdoiMsg) (s : State) : Out := ev t (gdoiRx msg) s

/-- An ARP request for the GDOI address is answered from the base MAC to its source (R437). -/
def arpRx (ip mac : Nat) (s : State) : State :=
  if gdoiOn s = true ∧ ip = (regWord s 0x0C0108).toNat then send (.arp mac) s else s

def execArpRequestRx (t ip mac : Nat) (s : State) : Out := ev t (arpRx ip mac) s

/-! ## Tenants (R441, R442) -/

def opTenantCreate : Op :=
  { code := 0x0C06, worlds := [0], life := 5, ready := 2, vault := true,
    specs := [el 0x8C12 2696 true fun ws => decide (byteAt ws 0 ≤ 63) && decide (byteAt ws 1 ≤ 1)] }

/-- TENANT_CREATE (R441): a replaced tenant keeps its shares; a deletion aborts what waits and waits for what runs. -/
def ansTenantCreate (h : Hdr) (b : Body) (s : State) : Ans :=
  onActive h (fun s =>
    let ws := wordsOf b 0x8C12
    let n := byteAt ws 0
    if s.cmd.flights.any (fun f => decide (f.await = .tenant n)) then .hold
    else if byteAt ws 1 = 1 then
      .done [] { s with dks := { s.dks with tenants := put s.dks.tenants n { get s.dks.tenants n {} with cred := ws.drop 1 } } }
    else if has s.dks.tenants n = false then .fail stNotFound 0
    else
      let s := endCred (.tenant n) h.mailbox h.tag s
      let queued := s.eng.jobs.filter fun e => decide (e.2.world = 0x40 + n) && e.2.lane.isNone
      let s := queued.foldl (fun s e => endJob e.1 stAborted [] s) s
      let s := (ownedKeys s (0x40 + n)).foldl (fun s k => match look s.keys.keys k with | some x => setKey k { x with erasing := true } s | none => s) s
      if tenantIdle s n then .done [] (removeTenant n s) else .wait (.tenant n) s) s

def execTenantCreate (h : Hdr) (b : Body) (s : State) : Out := run (.tenantCreate h b) opTenantCreate h b (ansTenantCreate h b) s

def opTenantRateSet : Op :=
  { code := 0x0C07, worlds := [0], life := 5, ready := 2, specs := [el 0x8C13 12 true fun ws => decide (byteAt ws 0 ≤ 63)] }

/-- TENANT_RATE_SET (R442): the sum of the reserves is at most 512. -/
def ansTenantRateSet (h : Hdr) (b : Body) (s : State) : Ans :=
  onActive h (fun s =>
    let ws := wordsOf b 0x8C13
    let n := byteAt ws 0
    if s.cmd.flights.any (fun f => decide (f.await = .tenant n)) then .hold
    else match look s.dks.tenants n with
    | none => .fail stNotFound 0
    | some x =>
      let others := tenantReserve s - x.reserved
      let res := min (min 64 (bytesNat ws 4 2)) (512 - others)
      let lim := Legal.apply (.range 1 888) 16 (bytesNat ws 6 2)
      let rate := min 1000000 (wordAt ws 2).toNat
      let x := { x with reserved := res, limit := lim, rate := rate, tokens := bucketDepth rate, refilled := s.now }
      .done (reportElem 0x8C13 1 (wordAt ws 1) (w32 (res * 65536 + lim)) ++ reportElem 0x8C13 2 (wordAt ws 2) (w32 rate))
        { s with dks := { s.dks with tenants := put s.dks.tenants n x } }) s

def execTenantRateSet (h : Hdr) (b : Body) (s : State) : Out := run (.tenantRateSet h b) opTenantRateSet h b (ansTenantRateSet h b) s

/-! ## Domain snapshots (R448, R449) -/

def opDomainSnapshot : Op :=
  { code := 0x0C08, worlds := [0, 3], life := 5, ready := 2, specs := [el 0x8C14 12 true, el 0x8C15 128 true] }

/-- The domain snapshot trigger is armed with an instant (R449). -/
def armSnap (at_ : Nat) (s : State) : State := armMatch 7 (at_ / 65536 % 2 ^ 40) { s with dks := { s.dks with snapArmed := true } }

/-- The devices a bitmap names. -/
def namedDevices (ws : List Word) : List Nat := (List.range 1024).filter fun d => (byteAt ws (d / 8)).testBit (d % 8)

/-- DOMAIN_SNAPSHOT (R448, R449): at a replica for the operator, on each device for the service. -/
def ansDomainSnapshot (h : Hdr) (b : Body) (s : State) : Ans :=
  let ws := wordsOf b 0x8C14
  let at_ := (bytesNat ws 0 6 * 1000000000 + bytesNat ws 6 4) * 65536
  let q := 65536 * 1000000
  if at_ < tod s + q ∨ tod s + 549000 * q < at_ then .fail stState 0
  else
    let own : Delivery := { target := s.dks.device, kind := 9, group := 0, tries := 1, status := some 0, handle := bit (!s.time.sync) }
    if h.world = 3 then
      if s.dks.enrolled = false ∨ fromReplica s h.session = false then .fail stState 0
      else .done [snapArmed [own]] (armSnap at_ s)
    else if isReplica s = false then .fail stState 0
    else
      let named := namedDevices (wordsOf b 0x8C15)
      let me := named.contains s.dks.device
      let s := if me then armSnap at_ s else s
      let others := (otherDevices s).filter fun d => named.contains d
      let mine := if me then [own] else []
      if others = [] then .done [snapArmed mine] s
      else .wait (.svc s.dks.nextSvc) (startSvc 9 (mine ++ others.map fun d => { delivery d with words := wordsOf b 0x8C14 ++ wordsOf b 0x8C15 }) { id := 0, kind := 9, until_ := at_ } s)

def execDomainSnapshot (h : Hdr) (b : Body) (s : State) : Out := run (.domainSnapshot h b) opDomainSnapshot h b (inDdr (ansDomainSnapshot h b)) s

end Sys2Proof.Machine
end

