-- ==== Sys2Proof/Machine/Memory.lean ====
section
/-! DEFINITION. External memory (16): training, the region map and firewall, line reads and writes, the counter tree, the integrity
halt, key rolls. -/
namespace Sys2Proof.Machine
open Sys2Proof

/-! ## Channels, lines, regions (R454, R455) -/

def channel (s : State) (ch : Nat) : Channel := if ch = 0 then s.mem.c0 else s.mem.c1
def setChannel (ch : Nat) (c : Channel) (s : State) : State :=
  if ch = 0 then { s with mem := { s.mem with c0 := c } } else { s with mem := { s.mem with c1 := c } }

/-- The region of an address (Table 16.1): 0 V, 1 T, 2 RS, 3 W, 4 none. -/
def region (s : State) (addr : Nat) : Nat :=
  if addr < 0x40000000 then 0 else if addr < 0x4A000000 then 1 else if addr < 0x50000000 then 2
  else if addr < chanBytes s then 3 else 4

/-- The rights of a master (Table 16.4): 0 vault cores, 1 vault cache engine, 2 command processor core, 3 its DMA, 4 recorder
engine, 5 debug, 6 the controller itself. -/
def rights (s : State) (master reg : Nat) (write : Bool) : Bool :=
  match master with
  | 0 => reg == 0
  | 1 => reg == 0
  | 2 => reg == 3 || (reg == 2 && !write)
  | 3 => reg == 3
  | 4 => reg == 2
  | 5 => reg == 3 && s.keys.debugOpen && s.keys.debugScope.testBit 0
  | _ => decide (reg ≤ 3)

/-- A byte of DDR: 0 where nothing is listed. -/
def ddrByte (c : Channel) (a : Nat) : BitVec 8 := (look c.data a).getD 0

/-- A byte stored, the canonical form kept. -/
def ddrPut (d : List Host.Cell) (a : Nat) (v : BitVec 8) : List Host.Cell := if v = 0 then del d a else put d a v

/-- The 16 words of the line at an address. -/
def lineWords (c : Channel) (base : Nat) : List Word :=
  (List.range 16).map fun i =>
    word4 (ddrByte c (base + 4 * i)).toNat (ddrByte c (base + 4 * i + 1)).toNat (ddrByte c (base + 4 * i + 2)).toNat
      (ddrByte c (base + 4 * i + 3)).toNat

/-- Words stored from an address. -/
def putWords (d : List Host.Cell) (a : Nat) (ws : List Word) : List Host.Cell :=
  ((unpack ws).foldl (fun (x : List Host.Cell × Nat) b => (ddrPut x.1 x.2 (BitVec.ofNat 8 b), x.2 + 1)) (d, a)).1

/-- The line that holds an address. -/
def lineBase (a : Nat) : Nat := a / 64 * 64

/-- Whether initialisation has passed an address: V and T within 30 ms of training, the rest at its end (R455; log entry 18). -/
def initialised (s : State) (addr : Nat) : Bool :=
  s.mem.initDone || (decide (addr < 0x4A000000) && decide (s.mem.trainedAt + 30 * ms ≤ s.now))

/-! ## A line as stored (R456 to R458, R460, R470) -/

/-- The identifier and the key that apply to a line: in a roll the new ones below the sweep pointer, the old ones from it on (R470). -/
def lineKey (s : State) (addr : Nat) : Nat × Nat :=
  if s.mem.rolling = true ∧ sweptBytes s ≤ lineBase addr then (s.mem.kidOld, s.mem.keyOld) else (s.mem.kid, s.mem.key)

/-- The XTS key pair and the tag key of a memory key (R456). -/
def xtsPair (kid key : Nat) : Nat := kdfBits 512 (beBytes 32 key) "TIRIQUE MEM XTS" [kid]
def tagKey (kid key : Nat) : Nat := kdf (beBytes 32 key) "TIRIQUE MEM TAG" [kid]

/-- The offset of a tree node, the levels following one another from level 1 on (log entry 41), and the node at an offset of T. -/
def levelBase (level : Nat) : Nat := total (List.range (level - 1)) fun i => 2097152 / 8 ^ i
def nodeAddr (node : Nat) : Nat := 0x40000000 + 64 * (levelBase (node / 2 ^ 22) + node % 2 ^ 22)
def nodeAt (addr : Nat) : Option Nat :=
  let n := (addr - 0x40000000) / 64
  ((List.range 7).reverse.find? fun i => decide (levelBase (i + 1) ≤ n)).bind fun i =>
    let k := n - levelBase (i + 1)
    if k < 2097152 / 8 ^ i then some ((i + 1) * 2 ^ 22 + k) else none

/-- The counter of a root copy's child. -/
def rootCounter (c : Channel) (i : Nat) : Nat := (c.root.headD []).getD i 0

/-- A node's own counter, which its parent or the root holds. -/
def nodeCounter (c : Channel) (node : Nat) : Nat := if node / 2 ^ 22 = 7 then rootCounter c (node % 2 ^ 22) else get c.nodes node 0

/-- A node's 64 bytes: its eight counters, of lines of V or of nodes of the level below (R460). -/
def nodeBytes (c : Channel) (node : Nat) : List Nat :=
  let i := node % 2 ^ 22
  ((List.range 8).flatMap fun j =>
    beBytes 7 (if node / 2 ^ 22 = 1 then get c.leaf (8 * i + j) 0 else get c.nodes ((node / 2 ^ 22 - 1) * 2 ^ 22 + 8 * i + j) 0)) ++ List.replicate 8 0

/-- The counter in the tag block of a line: its leaf counter in V, its parent's counter for a node of T, else 0 (Table 16.2). -/
def tagCounter (c : Channel) (addr : Nat) : Nat :=
  if addr < 0x40000000 then get c.leaf (addr / 64) 0
  else if addr < 0x4A000000 then (match nodeAt addr with | some n => nodeCounter c n | none => 0)
  else 0

/-- The 48-bit tag of a line as stored (R458). -/
def lineTag (kid key ch addr counter : Nat) (cipher : List Nat) : Nat :=
  let kt := tagKey kid key
  let b := [0x4D, ch] ++ beBytes 4 (addr / 64) ++ [kid] ++ beBytes 7 counter ++ [0, 0]
  Nat.xor (ghash (Config.aes 256 kt 0) (blocksOf cipher)) (Config.aes 256 kt (beNat b)) / 2 ^ 80

/-- The bytes of a line in DDR: enciphered in V, RS and W, in clear in T (R457). -/
def lineBytes (s : State) (ch addr : Nat) : List Nat :=
  let c := channel s ch
  if 0x40000000 ≤ addr ∧ addr < 0x4A000000 then (match nodeAt addr with | some n => nodeBytes c n | none => List.replicate 64 0)
  else
    let (kid, key) := lineKey s addr
    xtsUnit Config.aes (xtsPair kid key) (ch * 2 ^ 29 + addr / 64) (unpack (lineWords c (lineBase addr)))

/-- A line's bytes read back from DDR, deciphered. -/
def decipherLine (s : State) (ch addr : Nat) (bytes : List Nat) : List Word :=
  let (kid, key) := lineKey s addr
  if 0x40000000 ≤ addr ∧ addr < 0x4A000000 then packWords bytes
  else packWords (xtsUnit Config.aesInv (xtsPair kid key) (ch * 2 ^ 29 + addr / 64) bytes)

/-- The tag that a line of given bytes must carry now. -/
def dueTag (s : State) (ch addr : Nat) (bytes : List Nat) : Nat :=
  let (kid, key) := lineKey s addr
  lineTag kid key ch addr (tagCounter (channel s ch) addr) bytes

/-- A line leaves for DDR with its redundancy bits: the tag above the code (R458). -/
def putLine (ch addr : Nat) (s : State) : State :=
  let b := lineBytes s ch (lineBase addr)
  let t := dueTag s ch (lineBase addr) b
  send (.ddr ch (lineBase addr) b (t * 2 ^ 80 + Config.deviceCode b t % 2 ^ 80)) s

/-! ## The counter tree (R460 to R463) -/

/-- A write of a line or node at an instant: whether its counter advances, and the write it now stands for (R461): at most one in
40 ns, a later one merged into the pending one. -/
def countAt (last : Option Nat) (now : Nat) : Bool × Nat :=
  match last with
  | none => (true, now)
  | some l => if now < l then (false, l) else if now < l + 40 * ns then (true, l + 40 * ns) else (true, now)

/-- A node is written to DDR: its own counter advances, in the root for level 7. -/
def writeNode (ch node : Nat) (s : State) : State :=
  let c := channel s ch
  let (adv, w) := countAt (look c.written (2 ^ 30 + node)) s.now
  let c := { c with written := put c.written (2 ^ 30 + node) w }
  let c := if adv = false then c
    else if node / 2 ^ 22 = 7 then { c with root := c.root.map fun l => l.mapIdx fun i v => if i = node % 2 ^ 22 then v + 1 else v }
    else { c with nodes := put c.nodes node (get c.nodes node 0 + 1) }
  putLine ch (nodeAddr node) (setChannel ch c s)

/-- A node comes into the cache, or is used again there, changed or not. -/
def useNode (ch node : Nat) (dirty : Bool) (s : State) : State :=
  let k := ch * 2 ^ 26 + node
  let was := s.mem.cache.any fun e => decide (e.1 = k) && e.2
  let miss := s.mem.cache.all fun e => decide (e.1 ≠ k)
  perf 7 3 (bit miss) { s with mem := { s.mem with cache := s.mem.cache.filter (fun e => decide (e.1 ≠ k)) ++ [(k, was || dirty)] } }

/-- A node and those above it, from level 7 down, are in the cache; the node itself changed or not. -/
def usePath (ch level idx : Nat) (dirty : Bool) (s : State) : State :=
  let s := ((List.range (7 - level)).reverse).foldl (fun s k => useNode ch ((level + 1 + k) * 2 ^ 22 + idx / 8 ^ (k + 1)) false s) s
  useNode ch (level * 2 ^ 22 + idx) dirty s

/-- The cache holds 4,096 nodes: the least recently used leave, a changed one written to DDR with its parent changed in turn
(log entry 18). -/
def trimCache : Nat → State → State
  | 0, s => s
  | fuel + 1, s =>
    if s.mem.cache.length ≤ 4096 then s
    else match s.mem.cache with
      | [] => s
      | (k, dirty) :: r =>
        let s : State := { s with mem := { s.mem with cache := r } }
        if dirty = false then trimCache fuel s
        else
          let ch := k / 2 ^ 26
          let level := k % 2 ^ 26 / 2 ^ 22
          let s := writeNode ch (k % 2 ^ 26) s
          trimCache fuel (if level < 7 then usePath ch (level + 1) (k % 2 ^ 22 / 8) true s else s)

/-- The nodes above a line of V are brought in and verified. -/
def verifyPath (ch addr : Nat) (dirty : Bool) (s : State) : State := trimCache 64 (usePath ch 1 (addr / 64 / 8) dirty s)

/-- A data line is written to DDR: in V its leaf counter advances (R461). -/
def countLine (ch addr : Nat) (s : State) : State :=
  if 0x40000000 ≤ addr then s
  else
    let c := channel s ch
    let line := addr / 64
    let (adv, w) := countAt (look c.written line) s.now
    let c := { c with written := put c.written line w, leaf := if adv then put c.leaf line (get c.leaf line 0 + 1) else c.leaf }
    verifyPath ch addr true (setChannel ch c s)

/-- A data line is stored: its counter advances in V, and it leaves for DDR. -/
def storeLine (ch addr : Nat) (s : State) : State := putLine ch addr (countLine ch addr s)

/-- Every changed node is written, level by level, and the cache is empty (R469 step 3). -/
def flushNodes (s : State) : State :=
  let s := (List.range 7).foldl (fun s l =>
    (s.mem.cache.filter fun e => e.2 && decide (e.1 % 2 ^ 26 / 2 ^ 22 = l + 1)).foldl (fun s e =>
      let s := writeNode (e.1 / 2 ^ 26) (e.1 % 2 ^ 26) s
      if l + 1 < 7 then useNode (e.1 / 2 ^ 26) ((l + 2) * 2 ^ 22 + e.1 % 2 ^ 22 / 8) true s else s) s) s
  { s with mem := { s.mem with cache := [] } }

/-! ## The integrity halt (R466, Table 16.3) -/

/-- The opcodes that run in a halt (R56). -/
def haltCodes : List Nat := [0x0001, 0x0002, 0x0003, 0x0100, 0x0101, 0x1004, 0x1001, 0x0104]

/-- The halt of Table 16.3: memory keys zeroised, datapath frozen, the bond left with a cause, SAs zeroised, jobs aborted,
commands not started turned away, the halt snapshot fired. -/
def enterHalt (cause : Nat) (s : State) : State :=
  let s : State := { s with mem := { s.mem with halt := true, haltAt := s.now, keyed := false, key := 0, keyOld := 0, cache := [] } }
  let s := resign cause true (flushDatapath s)
  let s := abortJobs (fun _ => true) stHalted (zeroiseSas s)
  let waiting := s.cmd.flights.filter fun f => decide (f.await = .start) && !haltCodes.contains f.opcode
  let s := waiting.foldl (fun s f => finish f stHalted 0 [] s) s
  snapTrigger 4 (tod s) s

/-- An integrity failure (R465, R466): the first starts the halt and is recorded, a later one is counted. -/
def integrityFail (kind master ch addr : Nat) (s : State) : State :=
  if s.mem.halt then bumpFld 0x100028 23 16 1 s
  else
    let s := setReg 0x100020 (w32 (lineBase addr % 2 ^ 32)) (setReg 0x100024 (w32 (addr / 2 ^ 32)) s)
    let s := setReg 0x100028 (w32 (2 ^ 31 + kind * 2 ^ 24 + 2 ^ 16 + master * 2 ^ 8 + ch)) s
    let s := enterHalt 2 s
    let s := record 0x1004 ([kind, master, ch, 0] ++ beBytes 4 (addr / 64)) s
    notify .tamperTime ([0x4D, kind, master, ch] ++ beBytes 4 (memStat s)) s

/-! ## Accesses (R459 to R465, R471) -/

/-- What an access meets before any line is touched: nothing, no memory to reach, or the firewall. -/
inductive Gate where
  | open_ | off | wall
  deriving DecidableEq, Repr

def gateOf (s : State) (master ch addr : Nat) (write : Bool) : Gate :=
  if s.mem.halt = true ∨ s.mem.memOff = true ∨ s.mem.keyed = false ∨ (channel s ch).up = false then .off
  else if rights s master (region s addr) write then .open_ else .wall

/-- The answer a master gets. -/
def memAnswer (master : Nat) (ws : List Word) (err : Bool) (s : State) : State := send (.mem master ws err) s

/-- The firewall blocks an access (R471). -/
def wallHit (master ch addr : Nat) (write : Bool) (s : State) : State :=
  memAnswer master (if write then [] else List.replicate 16 0) true
    (record 0x1006 ([master, ch, bit write, 0] ++ beBytes 4 (addr / 64)) (perf 7 5 1 (bump 0x100038 1 s)))

/-- A correctable error (R464): counted and recorded, the line written back. Its subchannel is a free value (log entry 3). -/
def correct (ch addr dev : Nat) (s : State) : State :=
  let (sub, s) := drawBits 1 s
  storeLine ch addr (record 0x1003 ([ch, sub, dev, 0] ++ beBytes 4 (addr / 64)) (perf 7 4 1 (bump (0x100030 + 4 * ch) 1 s)))

/-- The failure that a read of a line meets, as KIND; none where the read succeeds. Given bytes pass with the tag that is due for them. -/
def faultKind (s : State) (ch addr : Nat) (f : MemFault) : Option Nat :=
  match f with
  | .uncorrectable => some 1
  | .tag => some 2
  | .line b t => if t = dueTag s ch (lineBase addr) b then none else some 2
  | .nodeError => some 3
  | .nodeTag => some 4
  | .root none => some 5
  | _ => none

/-- What a sound read does besides: a correction, a root copy rewritten (R462). -/
def repairs (ch addr : Nat) (f : MemFault) (s : State) : State :=
  match f with
  | .correctable dev => correct ch addr dev s
  | .root (some c) => record 0x1002 [ch, c] (bump 0x10003C 1 s)
  | _ => s

/-- What a sound read gives: the line, or the bytes that DDR gave in its place deciphered. -/
def readWords (s : State) (ch addr : Nat) (f : MemFault) : List Word :=
  match f with
  | .line b _ => if b = lineBytes s ch (lineBase addr) then lineWords (channel s ch) (lineBase addr) else decipherLine s ch (lineBase addr) b
  | _ => if region s addr = 1 then packWords (lineBytes s ch (lineBase addr)) else lineWords (channel s ch) (lineBase addr)

/-- A master reads the line at an address (R459): zeros above the initialisation pointer, else the checks and the line. A read of the
sweep that fails is KIND 7. -/
def memRead (master ch addr : Nat) (f : MemFault) (s : State) : State :=
  match gateOf s master ch addr false with
  | .off => memAnswer master [] true (if s.mem.halt = true ∧ faultKind s ch addr f ≠ none then bumpFld 0x100028 23 16 1 s else s)
  | .wall => wallHit master ch addr false s
  | .open_ =>
    if initialised s addr = false then memAnswer master (List.replicate 16 0) false s
    else match faultKind s ch addr f with
      | some k => memAnswer master [] true (integrityFail (if master = 6 ∧ s.mem.rolling = true then 7 else k) master ch addr s)
      | none =>
        let s := perf 7 1 1 (repairs ch addr f s)
        let s := if addr < 0x40000000 then verifyPath ch addr false s else s
        memAnswer master (readWords s ch addr f) false s

def execMemRead (t master ch addr : Nat) (fault : MemFault) (s : State) : Out :=
  ev t (fun s => if ch < 2 then memRead master ch addr fault s else s) s

/-- The failure that stops a write: of its read where it is partial, of the tree where it is whole (R465). -/
def writeFault (s : State) (ch addr : Nat) (whole : Bool) (f : MemFault) : Option Nat :=
  match whole, faultKind s ch addr f with
  | false, some _ => some 6
  | true, some k => if 3 ≤ k then some k else none
  | _, none => none

/-- The channel as a partial write merges with it: the line that its read gave (R465). -/
def mergedLine (ch addr : Nat) (whole : Bool) (f : MemFault) (s : State) : Channel :=
  let c := channel s ch
  match f with
  | .line _ _ => if whole = true ∨ initialised s addr = false then c else { c with data := putWords c.data (lineBase addr) (readWords s ch addr f) }
  | _ => c

/-- A master writes a line, or words of it (R461, R465). -/
def memWrite (master ch addr : Nat) (words : List Word) (whole : Bool) (f : MemFault) (s : State) : State :=
  match gateOf s master ch addr true with
  | .off => memAnswer master [] true s
  | .wall => wallHit master ch addr true s
  | .open_ =>
    match if initialised s addr then writeFault s ch addr whole f else none with
    | some k => memAnswer master [] true (integrityFail k master ch addr s)
    | none =>
      let s := perf 7 2 1 (if whole = true ∨ initialised s addr = false then s else repairs ch addr f s)
      let c := mergedLine ch addr whole f s
      let at_ := if whole then lineBase addr else addr / 4 * 4
      let ws := if whole then (words ++ List.replicate 16 0).take 16 else words.take (16 - addr % 64 / 4)
      memAnswer master [] false (storeLine ch addr (setChannel ch { c with data := putWords c.data at_ ws } s))

def execMemWrite (t master ch addr : Nat) (words : List Word) (whole : Bool) (fault : MemFault) (s : State) : Out :=
  ev t (fun s => if ch < 2 then memWrite master ch addr words whole fault s else s) s

/-! ## Training and initialisation (R451 to R455) -/

/-- The memory key of a start is drawn, of identifier 1 (R456; Table 3.2, step 5). -/
def drawMemKey (s : State) : State :=
  let (k, s) := drawBits 256 (drbgUse s)
  { s with mem := { s.mem with keyed := true, kid := 1, key := k } }

/-- Both channels have trained: the smaller capacity is used of each. -/
def startMemory (s : State) : State :=
  if s.mem.c0.up = true ∧ s.mem.c1.up = true then
    { s with mem := { s.mem with cap := min s.mem.c0.cap s.mem.c1.cap, trainedAt := s.now } }
  else s

/-- An attempt to train a channel ends (R452, R453): the third failure turns the memory off. -/
def trained (ch : Nat) (ok : Bool) (cap : Nat) (s : State) : State :=
  let c := channel s ch
  if s.boot.step < 5 ∨ s.mem.memOff = true ∨ c.up = true ∨ 3 ≤ c.tries then s
  else
    let s := setChannel ch { c with tries := c.tries + 1, up := ok, cap := if ok then (if cap = 2 then 2 else 1) else 0 } s
    if ok then startMemory s
    else if c.tries + 1 < 3 then s
    else
      let off := { s with mem := { s.mem with
        memOff := true, c0 := { s.mem.c0 with up := false }, c1 := { s.mem.c1 with up := false } } }
      record 0x1001 [2 ^ ch, s.mem.c0.tries, s.mem.c1.tries] off

def execDdrTrainingDone (t ch : Nat) (ok : Bool) (cap : Nat) (s : State) : Out :=
  ev t (fun s => if ch < 2 then trained ch ok cap s else s) s

/-- Both channels are initialised (R455). -/
def memInitialised (s : State) : State :=
  if s.mem.cap ≠ 0 then { s with mem := { s.mem with initDone := true } } else s

def execMemInitDone (t : Nat) (s : State) : Out := ev t memInitialised s

/-! ## Key rolls (R468 to R470) -/

/-- A roll starts (R469 step 1). -/
def startRoll (op : Option Nat) (s : State) : State :=
  let (k, s) := drawBits 256 (drbgUse s)
  { s with mem := { s.mem with
    key := k, keyOld := s.mem.key, kidOld := s.mem.kid, kid := s.mem.kid % 15 + 1, rolling := true, rollOp := op, swept := 0, sweptAt := s.now } }

/-- Whether memory is up for a roll. -/
def rollable (s : State) : Bool := s.mem.keyed && decide (s.mem.cap ≠ 0) && !s.mem.halt && !s.mem.memOff

def opMemKeyRoll : Op := { code := 0x0D00, worlds := [0], long := true }

/-- MEM_KEY_ROLL (R468, R472). Before training has ended, it waits for FULL_READY. -/
def ansMemKeyRoll (h : Hdr) (s : State) : Ans :=
  if s.mem.halt = true ∨ s.mem.memOff = true then .fail stState 0
  else if s.mem.cap = 0 then .defer
  else if s.mem.rolling then .fail stBusy 0
  else withDrbg (fun s =>
    let op := nextOp s
    .prog [opIdElem op] (startRoll (some op) (startOp 0x0D00 h.world h.mailbox h.tag s))) s

def execMemKeyRoll (h : Hdr) (b : Body) (s : State) : Out := run (.memKeyRoll h b) opMemKeyRoll h b (ansMemKeyRoll h) s

/-- The automatic roll falls due (R468): one that falls due during a roll is skipped. -/
def rollDue (s : State) : State :=
  match s.mem.due with
  | some d => if s.now < d ∨ rollable s = false ∨ s.mem.rolling = true then s else startRoll none s
  | none => s

def execKeyRollDue (t : Nat) (s : State) : Out := ev t rollDue s

/-- Both sweeps have ended (R469 steps 3 and 4). -/
def sweepEnd (s : State) : State :=
  if s.mem.rolling = false ∨ rollable s = false ∨ sweptBytes s < chanBytes s then s
  else
    let s := flushNodes s
    let (old, op) := (s.mem.kidOld, s.mem.rollOp)
    let s : State := { s with mem := { s.mem with
      rolling := false, kidOld := 0, keyOld := 0, rollOp := none, swept := chanBytes s, rolls := cap 65535 (s.mem.rolls + 1),
      due := some (s.now + fld s 0x100008 23 16 * 3600 * sec) } }
    let s := record 0x1005 [old, s.mem.kid, bit op.isSome] s
    match op with
    | some n => endOp n stOk [] s
    | none => s

def execSweepEnd (t : Nat) (s : State) : Out := ev t sweepEnd s

/-! ## MEM_STATUS (R472) -/

def opMemStatus : Op := { code := 0x0D01, worlds := [0, 1, 2] }

/-- MEM_STATE: eleven registers in one capture, the counters not cleared. -/
def ansMemStatus (s : State) : Ans :=
  .done [elemW 0x0D02 ([0x100004, 0x10000C, 0x100010, 0x100014, 0x100020, 0x100024, 0x100028, 0x100030, 0x100034, 0x100038,
    0x10003C].map (liveWord s))] s

def execMemStatus (h : Hdr) (b : Body) (s : State) : Out := run (.memStatus h b) opMemStatus h b ansMemStatus s

end Sys2Proof.Machine
end

