-- ==== Sys2Proof/Machine/Tamper.lean ====
section
/-! DEFINITION. Tamper and environment monitors (17): alarms and their responses, tests, fuses, configuration, leaving TAMPERED. -/
namespace Sys2Proof.Machine
open Sys2Proof

/-! ## Sources (R473, R476, R477, R479) -/

/-- Sources by supply domain (Table 17.1). -/
def mainSources : List Nat := [2, 3, 4, 7]
def aonSources : List Nat := [8, 9, 10, 11]

/-- EN of a source that no fuse disables, and its response. -/
def sourceOn (s : State) (n : Nat) : Bool := flag s (0x110000 + 4 * n) 4 && !s.tmp.fused.testBit n
def responseOf (s : State) (n : Nat) : Nat := fld s (0x110000 + 4 * n) 2 0

/-- Whether a source is armed (R476). -/
def armed (s : State) (n : Nat) : Bool :=
  if mainSources.contains n then s.boot.supplyOk && !s.boot.held && s.boot.resetN && decide (s.pwr.state ≠ 3)
  else if aonSources.contains n then s.boot.supplyOk else true

/-- The source under test: its sensor is off the outside (R488). -/
def underTest (s : State) (n : Nat) : Bool := match s.tmp.test with | some t => decide (t.left.head? = some n) | none => false

/-- A source raises an alarm: enabled, armed, in its condition, and not yet alarmed for it (R477, R479). -/
def raises (s : State) (n : Nat) : Bool :=
  sourceOn s n && armed s n && !underTest s n && s.tmp.cond.testBit n && !s.tmp.alarmed.testBit n

/-! ## Responses (R478, R480, R482 to R486) -/

/-- The actions of a response (Table 17.2): 0 zeroise root, 1 zeroise keys, 2 halt, 3 freeze, 4 reset, 5 notify. With `again`, the
source caused the last tamper reset and its condition held on: the reset is removed, and halt takes the place of response 3's (R478). -/
def actionsOf (resp : Nat) (again : Bool) : List Nat :=
  match resp with
  | 0 => if again then [0, 1] else [0, 1, 4]
  | 1 => [1, 2]
  | 2 => [2]
  | 3 => if again then [3, 2] else [3, 4]
  | 4 => [3]
  | 5 => [5]
  | _ => []

/-- The root secret is cleared and TAMPERED written into the BBD (R480). -/
def zeroiseRoot (s : State) : State := { s with boot := { s.boot with rootSecret := none, bbdCode := 5 } }

/-- Keys, SAs, memory keys, sessions and tickets go (R480). -/
def zeroiseAll (s : State) : State :=
  let s := abortJobs (fun _ => true) stNotFound s
  let s := zeroiseSas (zeroiseKeys s)
  let waiting := s.cmd.flights.filter fun f => decide (f.await = .start)
  let s := waiting.foldl (fun s f => finish f stAborted 0 [] s) s
  let s := (s.cmd.sessions.map (·.1)).foldl (fun s n => endSession n s) s
  { s with keys := { s.keys with tickets := [] }, mem := { s.mem with keyed := false, key := 0, keyOld := 0 } }

/-- The notification of a tamper (Table 17.3), once for a group (R482). -/
def noteTamper (s : State) : State :=
  let recent := match s.tmp.noteAt with | some t => decide (s.now ≤ t + ms) | none => false
  if recent then s
  else
    let s : State := { s with tmp := { s.tmp with noteAt := some s.now } }
    notify .tamperTime ([0x54, s.tmp.groupBest / 16] ++ beBytes 2 s.tmp.groupBits ++ beBytes 4 (tmpStat s)) s

/-- A tamper halt: Table 16.3, with its own notification (R480, R584). -/
def tamperHalt (s : State) : State :=
  if s.mem.tamperHalt then s
  else
    let s : State := { s with mem := { s.mem with tamperHalt := true } }
    noteTamper (if s.mem.halt then s else enterHalt 3 s)

/-- The datapath is frozen, the jobs aborted (R480). -/
def freeze (s : State) : State :=
  if s.tmp.frozen then s
  else abortJobs (fun _ => true) stAborted (flushDatapath { s with tmp := { s.tmp with frozen := true } })

/-- One action of Table 17.2. -/
def act (n : Nat) (s : State) : State :=
  match n with
  | 0 => zeroiseRoot s
  | 1 => zeroiseAll s
  | 2 => tamperHalt s
  | 3 => freeze s
  | 4 => if s.tmp.resetAt.isSome then s else { s with tmp := { s.tmp with resetAt := some (s.now + 200 * us) } }
  | _ => noteTamper s

/-- The alarm is written to the BBD latch, or counted where it is full (R484). -/
def latchAlarm (n resp : Nat) (onBatt : Bool) (s : State) : State :=
  if 3 < resp then s
  else if s.tmp.latch.length < 8 then
    { s with tmp := { s.tmp with latch := s.tmp.latch ++ [{ source := n, resp := resp, onBatt := onBatt, rtc := rtcNow s }] } }
  else { s with tmp := { s.tmp with overflow := s.tmp.overflow + 1 } }

/-- An alarm is counted. -/
def countAlarm (n : Nat) (s : State) : State :=
  bumpFld (0x110100 + 4 * n) 15 0 1 { s with tmp := { s.tmp with alarmed := Nat.lor s.tmp.alarmed (2 ^ n) } }

/-- The vault domain is unpowered: in SLEEP, or with no supply (R486). -/
def vaultOff (s : State) : Bool := !s.boot.supplyOk || decide (s.pwr.state = 3)

/-- An alarm with the vault domain unpowered (R486). -/
def offAlarm (n : Nat) (s : State) : State :=
  let r := responseOf s n
  let s := latchAlarm n r (!s.boot.supplyOk) (countAlarm n s)
  if r ≤ 1 then zeroiseRoot s else s

/-- The group that alarms detected now belong to: the one of the last 40 ns, or a new one (R482). -/
def joinGroup (l : List Nat) (s : State) : State :=
  let bits := l.foldl (fun a n => Nat.lor a (2 ^ n)) 0
  let best := l.foldl (fun a n => min a (16 * responseOf s n + n)) 127
  let same := decide (s.now < s.tmp.groupAt + 40 * ns) && decide (s.tmp.groupBits ≠ 0)
  { s with tmp := { s.tmp with
    groupAt := if same then s.tmp.groupAt else s.now
    groupBits := if same then Nat.lor s.tmp.groupBits bits else bits
    groupBest := if same then min s.tmp.groupBest best else best } }

/-- The sources that raise an alarm together take the union of their actions in the order of Table 17.2, are recorded and latched in
ascending number (R480 to R485), with the tamper snapshot (Table 19.2); those of the group whose reset it is are its cause (R485). `again` names those that fall under R478. -/
def alarm (l : List Nat) (again : Nat → Bool) (s : State) : State :=
  if l = [] then s
  else if vaultOff s then l.foldl (fun s n => offAlarm n s) s
  else
    let s := joinGroup l (l.foldl (fun s n => countAlarm n s) s)
    let s := if l.any (fun n => decide (responseOf s n ≤ 6)) then snapTrigger 3 (tod s) s else s
    let acts := l.flatMap fun n => actionsOf (responseOf s n) (again n)
    let asks := l.filter fun n => (actionsOf (responseOf s n) (again n)).contains 4
    let s := l.foldl (fun s n => latchAlarm n (responseOf s n) false s) s
    let s := if l.any (fun n => decide (responseOf s n ≤ 4)) then resign 3 true s
      else if l.any (fun n => decide (responseOf s n = 5)) then resign 3 false s else s
    let s := [0, 1, 2, 3, 4, 5].foldl (fun s a => if acts.contains a then act a s else s) s
    let s := if (match s.tmp.resetAt with | some r => decide (s.tmp.groupAt + 200 * us ≤ r) | none => false) then
        { s with tmp := { s.tmp with
          resetSrc := s.tmp.groupBest % 16, resetBits := asks.foldl (fun b n => Nat.lor b (2 ^ n)) s.tmp.resetBits } } else s
    l.foldl (fun s n =>
      let r := responseOf s n
      if r = 7 then s
      else recordResp 0x1101 0 [[n, r] ++ beBytes 2 s.tmp.groupBits ++ beBytes 4 (rtcNow s)] r s) s

/-- Sources that hold their condition and have come to be armed raise their alarm (R477). -/
def rearm (again : Nat → Bool) (s : State) : State := alarm ((List.range 16).filter (raises s)) again s

/-- Sources begin to hold their conditions in one AON clock cycle. -/
def tamperAlarm (sources : Nat) (s : State) : State :=
  rearm (fun _ => false) { s with tmp := { s.tmp with cond := Nat.lor s.tmp.cond (sources % 65536) } }

def execTamperAlarm (t sources : Nat) (s : State) : Out := ev t (tamperAlarm sources) s

/-- A bit of a bitmap cleared. -/
def clearBit (m n : Nat) : Nat := if m.testBit n then m - 2 ^ n else m

/-- A source's condition has been absent for its filter time (R477). -/
def conditionClear (n : Nat) (s : State) : State :=
  { s with tmp := { s.tmp with cond := clearBit s.tmp.cond n, alarmed := clearBit s.tmp.alarmed n } }

def execTamperConditionClear (t source : Nat) (s : State) : Out := ev t (conditionClear source) s

/-- A source with freeze among its actions is in its condition (R481). -/
def freezeHolds (s : State) : Bool :=
  (List.range 16).any fun n => sourceOn s n && s.tmp.cond.testBit n && (actionsOf (responseOf s n) false).contains 3

/-! ## TAMPER_CONFIG (R492) -/

def sourceElem : ElemSpec := els 0x8E01 4 false fun ws => decide (byteAt ws 0 ≤ 15)

def opTamperConfig : Op := { code := 0x0E00, worlds := [0], specs := [sourceElem, el 0x0E02 4] }

/-- A TMP_SOURCE element is applied, with its report. -/
def setSource (e : Elem) (s : State) : State × Body :=
  let w := wordAt e.val 0
  let n := byteAt e.val 0
  let a := 0x110000 + 4 * n
  let asked := word4 n (byteAt e.val 1 % 2) (byteAt e.val 2) 0
  let (en, resp) :=
    if s.tmp.fused.testBit n then (flag s a 4, fld s a 2 0)
    else if n = 15 then (true, 0)
    else (decide (byteAt e.val 1 % 2 = 1), if 7 < byteAt e.val 2 then 0 else byteAt e.val 2)
  let got := word4 n (bit en) resp 0
  (setFld a 2 0 resp (setFld a 4 4 (bit en) s), if asked = got then [] else [asApplied (w32 (0x8E01 * 65536)) w got])

/-- A TMP_SOURCE element of TAMPER_CONFIG, with the event of a change (R492). -/
def applySource (e : Elem) (s : State) : State × Body :=
  let n := byteAt e.val 0
  let a := 0x110000 + 4 * n
  let old := (regWord s a).bits 7 0
  let (t, rep) := setSource e s
  let new := (regWord t a).bits 7 0
  (if old = new then t else record 0x1102 [n, old, new] t, rep)

/-- A TMP_TEMP element is applied, with its report. -/
def setTemp (e : Elem) (s : State) : State × Body :=
  let (hi, lo) := (min 20 (byteAt e.val 0), min 20 (byteAt e.val 1))
  (setFld 0x110040 12 8 hi (setFld 0x110040 4 0 lo s),
    if hi = byteAt e.val 0 ∧ lo = byteAt e.val 1 then [] else [asApplied (w32 (0x0E02 * 65536)) (wordAt e.val 0) (word4 hi lo 0 0)])

/-- A TMP_TEMP element of TAMPER_CONFIG, with the event of a change (R492). -/
def applyTemp (e : Elem) (s : State) : State × Body :=
  let (ohi, olo) := (fld s 0x110040 12 8, fld s 0x110040 4 0)
  let (t, rep) := setTemp e s
  let (hi, lo) := (fld t 0x110040 12 8, fld t 0x110040 4 0)
  (if hi = ohi ∧ lo = olo then t else record 0x1102 [0x10, ohi, olo, hi, lo] t, rep)

/-- An element of TAMPER_CONFIG applied, its reports added. -/
def applyTamperElem (x : State × Body) (e : Elem) : State × Body :=
  let y := if e.typ = 0x8E01 then applySource e x.1 else if e.typ = 0x0E02 then applyTemp e x.1 else (x.1, [])
  (y.1, x.2 ++ y.2)

/-- TAMPER_CONFIG: applied as a whole; in the approved mode nothing that breaks condition 4 (R400). -/
def ansTamperConfig (b : Body) (s : State) : Ans :=
  let (t, rep) := b.foldl applyTamperElem (s, [])
  if s.keys.inForce = true ∧ (unmet t).testBit 4 = true then .fail stNotApproved 0
  else .done rep (settleApproved (rearm (fun _ => false) t))

def execTamperConfig (h : Hdr) (b : Body) (s : State) : Out := run (.tamperConfig h b) opTamperConfig h b (ansTamperConfig b) s

/-! ## TAMPER_TEST (R488, R489) -/

/-- TMP_MASK of a body, and its element. -/
def maskOf (b : Body) : Nat := (wordAt (wordsOf b 0x8E03) 0).bits 15 0
def maskElem (p : Nat → Bool) : ElemSpec := el 0x8E03 4 true fun ws => p ((wordAt ws 0).bits 15 0)

/-- A result of a test (Table 17.4). -/
def testResult (n res time : Nat) : Elem := elemB 0x0E04 ([n, res] ++ beBytes 2 (cap 65535 time))

/-- The longest detection time that passes, in whole microseconds: the filter plus 10 % (Table 17.1, R488). -/
def detectLimit (n : Nat) : Nat :=
  match n with
  | 0 => 34 | 1 => 34 | 5 => 11000 | 6 => 11000 | 7 => 2 | 8 => 1100 | 9 => 11 | 10 => 11 | 12 => 11000 | 13 => 11000 | 14 => 11000
  | _ => 1

/-- Sources that cannot be tested when their turn comes report result 2; the test ends when none is left (R489). -/
def nextTested : Nat → State → State
  | 0, s => s
  | fuel + 1, s =>
    match s.tmp.test with
    | none => s
    | some t =>
      match t.left with
      | [] =>
        let s : State := { s with tmp := { s.tmp with test := none } }
        let mask := fun (r : Nat) => t.results.foldl (fun a e => if byteAt e.val 1 = r then Nat.lor a (2 ^ byteAt e.val 0) else a) 0
        endOp t.op stOk t.results (record 0x1103 (beBytes 2 (Nat.lor (mask 0) (mask 1)) ++ beBytes 2 (mask 1)) s)
      | n :: r =>
        if sourceOn s n = true ∧ s.tmp.cond.testBit n = false then { s with tmp := { s.tmp with test := some { t with at_ := s.now } } }
        else nextTested fuel { s with tmp := { s.tmp with test := some { t with left := r, results := t.results ++ [testResult n 2 0] } } }

def opTamperTest : Op := { code := 0x0E01, worlds := [0, 1], long := true, specs := [maskElem fun m => decide (m ≠ 0)] }

/-- TAMPER_TEST: one test at a time. -/
def ansTamperTest (h : Hdr) (b : Body) (s : State) : Ans :=
  if s.tmp.test.isSome then .fail stBusy 0
  else
    let op := nextOp s
    let s := startOp 0x0E01 h.world h.mailbox h.tag s
    let left := (List.range 16).filter fun n => (maskOf b).testBit n
    .prog [opIdElem op] (nextTested 17 { s with tmp := { s.tmp with test := some { op := op, left := left, named := maskOf b, at_ := s.now } } })

def execTamperTest (h : Hdr) (b : Body) (s : State) : Out := run (.tamperTest h b) opTamperTest h b (ansTamperTest h b) s

/-- The source under test has detected its stimulus after so many microseconds, or not at all (R488, R489). -/
def testDone (detected : Option Nat) (s : State) : State :=
  match s.tmp.test with
  | none => s
  | some t =>
    match t.left with
    | [] => s
    | n :: r =>
      let pass := match detected with | some d => decide (d ≤ detectLimit n) | none => false
      let time := detected.getD 65535
      let s : State := { s with tmp := { s.tmp with
        tested := Nat.lor s.tmp.tested (2 ^ n)
        testFail := if pass then clearBit s.tmp.testFail n else Nat.lor s.tmp.testFail (2 ^ n)
        test := some { t with left := r, results := t.results ++ [testResult n (bit (!pass)) time] } } }
      let s := if pass then s
        else
          let s := record 0x1104 ([n, 0] ++ beBytes 2 (cap 65535 time)) s
          if [2, 3, 5, 6].contains n then katFailure s else s
      nextTested 17 (rearm (fun _ => false) s)

def execTamperTestSourceDone (t : Nat) (detected : Option Nat) (s : State) : Out := ev t (testDone detected) s

/-! ## TAMPER_FUSE and TAMPER_REARM (R490, R491) -/

/-- The lowest source of a mask. -/
def maskSource (m : Nat) : Nat := ((List.range 16).find? fun n => m.testBit n).getD 0

def opTamperFuse : Op :=
  { code := 0x0E02, worlds := [0],
    specs := [maskElem fun m => decide (((List.range 16).filter fun n => m.testBit n).length = 1), ticketElem] }

/-- TAMPER_FUSE: whether the fuse reads blown is an operand. -/
def ansTamperFuse (h : Hdr) (b : Body) (blown : Bool) (s : State) : Ans :=
  let n := maskSource (maskOf b)
  dual 0x0E02 h b (fun own issuer s =>
    if n = 15 ∨ s.tmp.fused.testBit n = true then .fail stState 0
    else if s.keys.inForce = true ∧ [2, 3, 5, 6].contains n = true then .fail stNotApproved 0
    else if blown = false then .fail stState 0
    else .done [] (settleApproved (record 0x1105 [n, own, issuer] { s with tmp := { s.tmp with fused := Nat.lor s.tmp.fused (2 ^ n) } }))) s

def execTamperFuse (h : Hdr) (b : Body) (blown : Bool) (s : State) : Out := run (.tamperFuse h b blown) opTamperFuse h b (ansTamperFuse h b blown) s

def opTamperRearm : Op := { code := 0x0E03, worlds := [0], life := 3, specs := [ticketElem] }

/-- Every source's configuration and the temperature offsets at their reset values. -/
def resetSources (s : State) : State := ((List.range 17).map (0x110000 + 4 * ·)).foldl (fun s a => setReg a (resetWord a) s) s

/-- TAMPER_REARM (R491): the device boots in BLANK 1 ms later. -/
def ansTamperRearm (h : Hdr) (b : Body) (s : State) : Ans :=
  dual 0x0E03 h b (fun own issuer s =>
    if s.tmp.cond.testBit 14 = true ∨ (List.range 16).any (fun n => s.tmp.cond.testBit n && !s.tmp.fused.testBit n && decide (responseOf s n ≤ 1)) = true then
      .fail stState 0
    else
      let s := rearm (fun _ => false) (resetSources (record 0x1106 [own, issuer] s))
      let n := max s.boot.flashCount s.boot.bbdCount + 1
      .done [] { s with boot := { s.boot with
        flashCode := 0, flashCount := n, flashRecOk := true, flashMac := some (lifeMac s 0 n), bbdCode := 0, bbdCount := n, bbdLost := false,
        rootSecret := none,
        warmAt := some (s.now + ms) } }) s

def execTamperRearm (h : Hdr) (b : Body) (s : State) : Out := run (.tamperRearm h b) opTamperRearm h b (ansTamperRearm h b) s

end Sys2Proof.Machine
end

