-- ==== Sys2Proof/Machine/Power.lean ====
section
/-! DEFINITION. Power states, wake sources and brick DVFS (18). -/
namespace Sys2Proof.Machine
open Sys2Proof

/-! ## DVFS (R511, R512) -/

/-- The voltage of a frequency: that of the lowest point of Table 18.7 whose frequency is not below it. -/
def voltsOf (f : Nat) : Nat :=
  if f ≤ 800 then 660 else if f ≤ 1000 then 700 else if f ≤ 1200 then 740 else if f ≤ 1400 then 780 else if f ≤ 1600 then 820 else 860

def dvfsOf (s : State) (b : Nat) : Dvfs := get s.pwr.dvfs b {}
def setDvfs (b : Nat) (d : Dvfs) (s : State) : State := { s with pwr := { s.pwr with dvfs := put s.pwr.dvfs b d } }

/-- Brick logic is powered: in RUN and IDLE (Table 18.1). -/
def bricksOn (s : State) : Bool := decide (s.pwr.state ≤ 1)

/-! ## Cycles counted (R526, Table 19.4) -/

/-- The clock of a performance counter's block in MHz, 0 where its domain is gated or off. -/
def perfClock (s : State) (blk : Nat) : Nat :=
  if blk < 4 then (if s.pwr.state = 0 then (dvfsOf s blk).live else 0)
  else if s.pwr.state = 3 then 0
  else match blk with
    | 4 => if s.pwr.state = 2 then 0 else 1600
    | 5 => 1000
    | 6 => 1200
    | 7 => 1600
    | _ => 0

/-- Cycles of a clock since the instant up to which they are counted. -/
def cyclesSince (s : State) (blk : Nat) : Nat := s.now * perfClock s blk / 1000000 - s.obs.cycAt * perfClock s blk / 1000000

/-- Events that follow the clock are brought up to now: cycles as counted; tiles and lanes busy and instructions retired, which the
spec gives no finer account of, as free values (log entry 3). -/
def perfSettle (s : State) : State :=
  if flag s 0x130050 0 = false then { s with obs := { s.obs with cycAt := s.now } }
  else
    let s := [0, 1, 2, 3, 4, 5, 6, 7].foldl (fun s k => perf k 0 (cyclesSince s k) s) s
    let s := [(0, 9), (1, 9), (2, 9), (3, 9), (5, 2), (6, 1)].foldl (fun s e =>
      if perfClock s e.1 ≠ 0 ∧ (List.range 48).any (fun n => perfOn s n e.1 e.2) = true then
        let (n, s) := drawBits 48 s
        perf e.1 e.2 n s
      else s) s
    { s with obs := { s.obs with cycAt := s.now } }

/-! ## DVFS sequences -/

/-- DVFS_RESULT (Table 18.6). -/
def dvfsResult (d : Dvfs) (fault : Bool) : Elem := elemB 0x0F02 (beBytes 2 d.live ++ beBytes 2 d.vout ++ [bit fault, 0, 0, 0])

/-- A sequence of a brick starts: lowered, the PLL ramps first; raised, the new VOUT is sent first. -/
def beginDvfs (b f : Nat) (s : State) : State :=
  let d := dvfsOf s b
  setDvfs b { d with phase := if f < d.live then 2 else 1, goal := f, since := s.now } s

/-- A request for a frequency: at once where it is the brick's own, stored while the brick is off or in a sequence. -/
def askDvfs (b f : Nat) (s : State) : State :=
  let d := dvfsOf s b
  if bricksOn s = false ∨ d.phase ≠ 0 then setDvfs b { d with stored := some f } s
  else if f = d.live ∧ voltsOf f = d.vout then s
  else beginDvfs b f s

/-- The stored request of a brick is applied (R512). -/
def applyStored (b : Nat) (s : State) : State :=
  match (dvfsOf s b).stored with
  | some f => askDvfs b f (setDvfs b { dvfsOf s b with stored := none } s)
  | none => s

/-- A DVFS_SET that waits on an idle brick completes. -/
def settleDvfs (b : Nat) (fault : Bool) (s : State) : State :=
  let d := dvfsOf s b
  if d.phase = 0 ∧ d.stored = none then finishWhere (fun w => decide (w = .dvfs b)) stOk [dvfsResult d fault] s else s

/-- A sequence ends at a frequency and a voltage; its command completes, then a stored request starts. -/
def endDvfs (b live vout : Nat) (fault : Bool) (s : State) : State :=
  let s := setDvfs b { dvfsOf s b with live := live, vout := vout, phase := 0 } (perfSettle s)
  let s := finishWhere (fun w => decide (w = .dvfs b)) stOk [dvfsResult (dvfsOf s b) fault] s
  applyStored b s

/-- A rail read within 10 mV of the target, in the 2 ms of a raise, lets the PLL ramp up. -/
def voutConfirm (b mv : Nat) (s : State) : State :=
  let d := dvfsOf s b
  if d.phase = 1 ∧ s.now ≤ d.since + 2 * ms ∧ mv ≤ voltsOf d.goal + 10 ∧ voltsOf d.goal ≤ mv + 10 then
    setDvfs b { d with vout := mv, phase := 2, since := s.now } s
  else s

def execDvfsVoutConfirm (t brick mv : Nat) (s : State) : Out := ev t (fun s => if brick < 4 then voutConfirm brick mv s else s) s

/-- The PLL has ramped, at 100 MHz per µs at the most: on a lowering the lower VOUT is sent. -/
def rampDone (b : Nat) (s : State) : State :=
  let d := dvfsOf s b
  if d.phase = 2 ∧ d.since + ((d.goal - d.live) + (d.live - d.goal)) * 10 * ns ≤ s.now then
    endDvfs b d.goal (if d.goal < d.live then voltsOf d.goal else d.vout) false s
  else s

def execPllRampDone (t brick : Nat) (s : State) : Out := ev t (fun s => if brick < 4 then rampDone brick s else s) s

/-- A DVFS fault: a raise not confirmed in 2 ms (cause 0), or an AVSBus transaction failed three times (cause 1). The lower frequency
stays, with its VOUT. -/
def dvfsFault (b cause : Nat) (s : State) : State :=
  let d := dvfsOf s b
  if d.phase = 0 ∨ (cause = 0 ∧ (d.phase ≠ 1 ∨ s.now < d.since + 2 * ms)) then s
  else
    let f := min d.live d.goal
    let s := raise (0x120030 + 4 * b) 31 s
    let s := record 0x1202 ([b, cause] ++ beBytes 2 f ++ beBytes 2 (voltsOf f)) s
    endDvfs b f (voltsOf f) true s

def execDvfsFault (t brick cause : Nat) (s : State) : Out := ev t (fun s => if brick < 4 ∧ cause < 2 then dvfsFault brick cause s else s) s

def opDvfsSet : Op :=
  { code := 0x0F01, worlds := [0], specs := [el 0x8F01 4 true fun ws => decide (byteAt ws 0 ≤ 3)] }

/-- DVFS_SET (R512): commands for one brick follow one another. -/
def ansDvfsSet (b : Body) (s : State) : Ans :=
  let w := wordAt (wordsOf b 0x8F01) 0
  let k := byteAt [w] 0
  let f := Legal.apply (.steps 800 1700 25) 16 (w.bits 15 0)
  let rep := if f = w.bits 15 0 then [] else reportElem 0x8F01 0 w (w.withBits 15 0 f)
  if s.cmd.flights.any (fun x => decide (x.await = .dvfs k)) = true ∨ (bricksOn s = true ∧ (dvfsOf s k).phase ≠ 0) then .hold
  else
    let s := askDvfs k f (setFld (0x120020 + 4 * k) 10 0 f s)
    let d := dvfsOf s k
    if d.phase = 0 ∧ d.stored = none then .done (dvfsResult d false :: rep) s else .waits (.dvfs k) rep s

def execDvfsSet (h : Hdr) (b : Body) (s : State) : Out := run (.dvfsSet h b) opDvfsSet h b (ansDvfsSet b) s

/-! ## Requests and their order (R499 to R502) -/

/-- Long operations that keep a transition from starting. -/
def powerBusy (s : State) : Bool :=
  s.cls.bricks.any (fun e => e.2.rehash.isSome) || s.obs.selftest.isSome || !s.lane.margins.isEmpty || s.tmp.test.isSome

/-- A target that R499 refuses. -/
def powerRefused (s : State) (target : Nat) : Bool :=
  (decide (1 ≤ target) && (leaseBinding s || powerBusy s)) || (decide (2 ≤ target) && s.bnd.joined && decide (s.bnd.role ≠ 0))

/-- A transition starts. Towards STANDBY or SLEEP the line role stops and frames held are discarded (Table 18.3). -/
def beginPower (target : Nat) (s : State) : State :=
  let s := perfSettle s
  let s : State := { s with pwr := { s.pwr with target := some target, queued := none, reqs := s.pwr.reqs.map fun r => { r with waits := false } } }
  if 2 ≤ target ∧ s.pwr.state < 2 then flushDatapath s else s

/-- POWER_RESULT (Table 18.6). -/
def powerResult (final : Nat) (r : PwrReq) : Elem :=
  elemB 0x0F04 [final, bit r.replaced + 2 * bit r.notApplied + 4 * bit r.wakePending, 0, 0]

/-- Every POWER_STATE_SET of the busy period completes, with the same final state (R501). -/
def finishPower (final : Nat) (s : State) : State :=
  let rs := s.pwr.reqs
  let s : State := { s with pwr := { s.pwr with reqs := [] } }
  rs.foldl (fun s r =>
    match s.cmd.flights.find? fun f => decide (f.await = .power) && decide (f.mailbox = r.mailbox) && decide (f.tag = r.tag) with
    | some f => finish f stOk 0 [powerResult final r] s
    | none => s) s

/-- The request that waits is marked. -/
def markQueued (f : PwrReq → PwrReq) (s : State) : State :=
  { s with pwr := { s.pwr with reqs := s.pwr.reqs.map fun r => if r.waits then f { r with waits := false } else r } }

/-- A transition ends (R500, R501): the queued target starts, or is dropped, and with none the commands complete. -/
def powerReached (new : Nat) (s : State) : State :=
  let s := perfSettle s
  let s := record 0x1201 [s.pwr.state, new] { s with pwr := { s.pwr with state := new, target := none } }
  match s.pwr.queued with
  | none => finishPower new s
  | some q =>
    let s : State := { s with pwr := { s.pwr with queued := none } }
    if q = new then finishPower new (markQueued id s)
    else if powerRefused s q then finishPower new (markQueued (fun r => { r with notApplied := true }) s)
    else beginPower q s

def opPowerStateSet : Op :=
  { code := 0x0F00, worlds := [0], specs := [el 0x8F03 4 true fun ws => decide ((wordAt ws 0).toNat ≤ 3)] }

/-- POWER_STATE_SET (R499, R500): refused, started, queued in place of an earlier one, or done where the state is reached. -/
def ansPowerStateSet (h : Hdr) (b : Body) (s : State) : Ans :=
  let target := (wordAt (wordsOf b 0x8F03) 0).toNat
  if powerRefused s target then .fail stState 0
  else
    let req : PwrReq := { mailbox := h.mailbox, tag := h.tag }
    match s.pwr.target with
    | some _ =>
      let s := markQueued (fun r => { r with replaced := true }) s
      .wait .power { s with pwr := { s.pwr with queued := some target, reqs := s.pwr.reqs ++ [{ req with waits := true }] } }
    | none =>
      if target = s.pwr.state then .done [powerResult target req] s
      else .wait .power (beginPower target { s with pwr := { s.pwr with reqs := [req] } })

def execPowerStateSet (h : Hdr) (b : Body) (s : State) : Out := run (.powerStateSet h b) opPowerStateSet h b (ansPowerStateSet h b) s

/-! ## IDLE (R503) -/

/-- Every frame has left the bricks. -/
def bricksEmpty (s : State) : Bool := s.brk.bricks.all fun e => decide (e.2.held = [])

/-- Brick clocks stop once the bricks have finished every frame. -/
def idleEntry (s : State) : State :=
  if s.pwr.state = 0 ∧ s.pwr.target = some 1 ∧ bricksEmpty s = true then powerReached 1 s else s

def execIdleEntryDone (t : Nat) (s : State) : Out := ev t idleEntry s

def idleReturn (s : State) : State := if s.pwr.state = 1 ∧ s.pwr.target = some 0 then powerReached 0 s else s

def execIdleReturnDone (t : Nat) (s : State) : Out := ev t idleReturn s

/-! ## STANDBY (R497, R504, R509, R510) -/

/-- A trunk framer loses what it holds of frames and of its alignment. -/
def clearFramer (x : Trunk) : Trunk :=
  { x with started := false, inFrame := false, good := 0, errWords := 0, dirRun := 0, rxUnits := [], units := [], partial_ := none, runTx := none, group := [], spill := [],
           expBytes := 0, passBytes := 0, ais := [], aisLast := [] }

/-- Keystream banks are zeroised and context caches invalidated; BANKED stays. -/
def coolBrick (x : Brick) : Brick :=
  { x with held := [], cache := [], misses := [], banks := x.banks.map fun e => (e.1, { e.2 with ready := false }) }

/-- Domains 0 to 3 and 8 to 19 go off (Table 18.3), once the bricks have taken every change on its way to their tables (R15). A DVFS sequence under way is stored. -/
def standbyEntry (s : State) : State :=
  if s.pwr.state < 2 ∧ s.pwr.target = some 2 ∧ [0, 1, 2, 3].all (engineIdle s) = true then
    let s : State := { s with brk := { s.brk with bricks := s.brk.bricks.map fun e => (e.1, coolBrick e.2) } }
    let s := ([0, 1, 2, 3, 4, 5, 6, 7, 8, 9, 10, 11, 12, 13, 14, 15, 18, 19] : List Nat).foldl (fun s sp => takeDown sp s) s
    let s : State := { s with
      lane := { s.lane with lanes := s.lane.lanes.map fun e => if e.1 < 32 then (e.1, {}) else e }
      trk := { p0 := clearFramer s.trk.p0, p1 := clearFramer s.trk.p1 } }
    let s := [0, 1, 2, 3].foldl (fun s b =>
      let d := dvfsOf s b
      if d.phase = 0 then s else setDvfs b { d with phase := 0, stored := some (d.stored.getD d.goal) } s) s
    powerReached 2 s
  else s

def execStandbyEntryDone (t : Nat) (s : State) : Out := ev t standbyEntry s

/-- A trunk port returns from STANDBY (R510): counts at their saved ceilings with the next block reserved, raw counters from 0, bins
empty, suspect and partial; the port looks for its alignment. -/
def framerReturn (now sec_ : Nat) (x : Trunk) : Trunk :=
  let empty := fun (_ : PmObj) =>
    let o := newPm sec_ true
    { o with q15 := o.q15.map (fun b => { b with partl := true }), day := o.day.map fun b => { b with partl := true } }
  { resumeCount x with raw := [], rawLatch := [], secCnt := [], pm := x.pm.map (fun e => (e.1, empty e.2)), outSince := some now }

/-- A gate list resumes; a change instant reached during STANDBY takes effect now, LATE (R497). -/
def gateReturn (s : State) (e : Nat) : State :=
  let x := egress s e
  if x.pending.isSome = true ∧ fastDiff x.changeT (fast s) ≤ 0 then changeList e (setEgress e { x with late := true } s)
  else setEgress e { x with entry := gateEntry x.oper (fast s) } s

/-- Every tile passes its test and every banked SA's bank is primed (return step 4). -/
def warmBrick (s : State) (x : Brick) : Brick :=
  { x with
    tiles := x.tiles.map fun e => (e.1, if e.2.failed then e.2 else { e.2 with since := s.now, overdue := false, testing := false })
    banks := x.banks.map fun e =>
      (e.1, { e.2 with ready := true, freeAt := s.now, primed := match saOf s e.2.sa with | some a => primePn a | none => e.2.primed }) }

/-- The return from STANDBY to RUN or IDLE. -/
def standbyReturn (s : State) : State :=
  if s.pwr.state = 2 ∧ (s.pwr.target = some 0 ∨ s.pwr.target = some 1) then
    let s : State := { s with
      brk := { s.brk with bricks := s.brk.bricks.map fun e => (e.1, warmBrick s e.2) }
      trk := { p0 := framerReturn s.now (todSec s) s.trk.p0, p1 := framerReturn s.now (todSec s) s.trk.p1 } }
    let s := [0, 1, 2, 3].foldl gateReturn (powerLanes s)
    let s := powerReached (s.pwr.target.getD 0) s
    [0, 1, 2, 3].foldl (fun s b => if bricksOn s then settleDvfs b false (applyStored b s) else s) s
  else s

def execStandbyReturnDone (t : Nat) (s : State) : Out := ev t standbyReturn s

/-! ## SLEEP (R505, R507) -/

/-- The commit point: records committed, keys and memory key zeroised, time saved, the completions of R501 sent with a queued request
left to wake the device; no frame is taken any more. -/
def sleepCommit (s : State) : State :=
  if s.pwr.state < 3 ∧ s.pwr.target = some 3 ∧ s.pwr.pastCommit = false ∧ halted s = false then
    let queued := s.pwr.queued.isSome
    let s := record 0x1201 [s.pwr.state, 3] s
    let s := zeroiseSas (zeroiseKeys (abortJobs (fun _ => true) stAborted (commitAll s)))
    let s := saveTime { s with mem := { s.mem with keyed := false, key := 0, keyOld := 0 }, eng := { s.eng with pages := [] } }
    let s := finishPower (if queued then 0 else 3) (markQueued (fun r => { r with wakePending := true }) s)
    { s with pwr := { s.pwr with pastCommit := true, wakeNext := queued, queued := none } }
  else s

def execSleepCommitPoint (t : Nat) (s : State) : Out := ev t sleepCommit s

/-! ## Wake sources (R515 to R517) -/

/-- A wake starts from SLEEP: normal regulator mode first, then the cause (R506, R513). -/
def startWake (cause : Nat) (s : State) : State :=
  if s.pwr.state = 3 ∧ s.pwr.waking = false then
    { s with pwr := { s.pwr with waking := true, regLp := false, wakeCause := cause }, boot := { s.boot with releasedAt := s.now + 5 * ms } }
  else s

/-- An enabled wake source acts. -/
def wakeBy (bit_ cause : Nat) (s : State) : State := if flag s 0x120008 bit_ then startWake cause s else s

def execWakeNLow (t : Nat) (s : State) : Out := ev t (wakeBy 1 2) s

/-- The RTC alarm of the registers. -/
def rtcAlarmAt (s : State) : Nat := fld s 0x120010 15 0 * 2 ^ 32 + (regWord s 0x12000C).toNat

/-- The counter has reached the alarm. -/
def rtcWake (s : State) : State := if rtcAlarmAt s ≤ rtcNow s then wakeBy 2 3 s else s

def execRtcAlarm (t : Nat) (s : State) : Out := ev t rtcWake s

/-- An address byte on the slow port in SLEEP: a match wakes (R516). -/
def slowWake (addr : Nat) (s : State) : State := if addr = 0x58 + s.boot.slvAdr % 8 then wakeBy 0 1 s else s

def execSlowPortWake (t addr : Nat) (s : State) : Out := ev t (slowWake addr) s

def opWakeConfig : Op := { code := 0x0F02, worlds := [0], specs := [el 0x8F05 4 true, el 0x0F06 8] }

/-- WAKE_CONFIG (R517). -/
def ansWakeConfig (b : Body) (s : State) : Ans :=
  let s := setFld 0x120008 2 0 ((wordAt (wordsOf b 0x8F05) 0).bits 2 0) s
  let ws := wordsOf b 0x0F06
  .done [] (if hasElem b 0x0F06 then setFld 0x120010 15 0 ((wordAt ws 0).bits 15 0) (setReg 0x12000C (wordAt ws 1) s) else s)

def execWakeConfig (h : Hdr) (b : Body) (s : State) : Out := run (.wakeConfig h b) opWakeConfig h b (ansWakeConfig b) s

end Sys2Proof.Machine
end

