-- ==== Sys2Proof/Machine/Observe.lean ====
section
/-! DEFINITION. Snapshots, performance counters, the event recorder and in-service test (19, 9.9). -/
namespace Sys2Proof.Machine
open Sys2Proof

/-! ## Snapshots (R522 to R525, R542) -/

/-- A rising edge of SNAP_IN after 20 ns high (R522). -/
def snapPin (s : State) : State := snapTrigger 0 (tod s) s

def execSnapInEdge (t : Nat) (s : State) : Out := ev t snapPin s

/-- A trigger of a source reaches the trigger point (R524). -/
def triggered (source : Nat) (s : State) : State := if source ≤ 6 then snapTrigger source (tod s) s else s

def execSnapshotTrigger (t source : Nat) (s : State) : Out := ev t (triggered source) s

def opSnapArm : Op :=
  { code := 0x1000, worlds := [0, 1], specs := [el 0x9001 4, el 0x9002 8, el 0x9003 4, el 0x9004 4] }

/-- SNAP_SRC, SNAP_TIME, SNAP_EVCODE and SNAP_NOW, in this order. -/
def ansSnapArm (b : Body) (s : State) : Ans :=
  let w := wordAt (wordsOf b 0x9001) 0
  let s := if hasElem b 0x9001 then setFld 0x130000 6 5 (w.bits 6 5) (setFld 0x130000 3 0 (w.bits 3 0) s) else s
  let s := if hasElem b 0x9002 then armMatch 6 (bytesNat (wordsOf b 0x9002) 3 5) s else s
  let s := if hasElem b 0x9003 then setFld 0x13000C 15 0 ((wordAt (wordsOf b 0x9003) 0).bits 15 0) s else s
  .done [] (if hasElem b 0x9004 then snapTrigger 5 (tod s) s else s)

def execSnapArm (h : Hdr) (b : Body) (s : State) : Out := run (.snapArm h b) opSnapArm h b (ansSnapArm b) s

/-- The shadow addresses in ascending order. -/
def shadowList : List Nat := ((storedAddrs ++ shownAddrs).flatMap shadowsOf).mergeSort (fun a b => decide (a ≤ b))

/-- The 424 words of a bank in ascending register address (R518, Table 19.7). -/
def snapData (b : SnapBank) : List Word :=
  ((shadowList.map fun a => get b.values a 0) ++ List.replicate 424 0).take 424

/-- A bank is released: EMPTY, its values still readable (R519). -/
def releaseSnap (k : Nat) (s : State) : State := setBank k { snapBank s k with state := 0 } s

/-- The bank that SNAP_BANK names, none where it is EMPTY. -/
def namedBank (s : State) (n : Nat) : Option Nat :=
  let full := fun (k : Nat) => decide ((snapBank s k).state ≠ 0)
  if n ≤ 1 then (if full n then some n else none)
  else if full 0 = true ∧ (full 1 = false ∨ s.obs.bank0.seq < s.obs.bank1.seq) then some 0
  else if full 1 then some 1 else none

def opSnapRead : Op :=
  { code := 0x1001, worlds := [0, 1], halt := true,
    specs := [el 0x9005 4 true fun ws => decide (byteAt ws 0 ≤ 1) || decide (byteAt ws 0 = 0xFF)] }

/-- SNAP_READ: the header and the data, and the release where asked. -/
def ansSnapRead (b : Body) (s : State) : Ans :=
  let ws := wordsOf b 0x9005
  match namedBank s (byteAt ws 0) with
  | none => .fail stNotFound 0
  | some k =>
    let x := snapBank s k
    .done [elemW 0x1006 (snapHeader k x), elemW 0x1007 (snapData x)] (if (byteAt ws 1).testBit 0 then releaseSnap k s else s)

def execSnapRead (h : Hdr) (b : Body) (s : State) : Out := run (.snapRead h b) opSnapRead h b (ansSnapRead b) s

/-! ## Performance counters (R526 to R529) -/

/-- Every counter set to 0. -/
def perfClearAll (s : State) : State := { s with obs := { s.obs with counters := [], cycAt := s.now } }

/-- PERF_SEL as applied: SRC 3 and above replaced by 0, PERIOD_LOG clamped (Table 19.7). -/
def selApplied (w : Word) : Word := (w.withBits 23 16 (if 2 < w.bits 23 16 then 0 else w.bits 23 16)).withBits 7 0 (min 31 (w.bits 7 0))

/-- A PERF_SEL element is applied: the counter's selection, and the counter at 0. -/
def applySel (e : Elem) (s : State) : State × Body :=
  let w := wordAt e.val 0
  let g := selApplied w
  let n := g.bits 31 24
  let a := 0x130100 + 4 * n
  let en := (wordAt e.val 1).bits 24 24
  let s := setFld a 31 31 en (setFld a 30 29 (g.bits 23 16) (setFld a 23 16 (g.bits 15 8) (setFld a 4 0 (g.bits 7 0) s)))
  ({ s with obs := { s.obs with counters := del s.obs.counters n } }, reportElem 0x9008 0 w g)

def opPerfConfig : Op :=
  { code := 0x1002, worlds := [0, 1], specs := [els 0x9008 8 false fun ws => decide (byteAt ws 0 ≤ 47), el 0x1009 4] }

/-- PERF_CONFIG. -/
def ansPerfConfig (b : Body) (s : State) : Ans :=
  let (s, rep) := (elemsOf b 0x9008).foldl (fun x e => let y := applySel e x.1; (y.1, x.2 ++ y.2)) (perfSettle s, [])
  let c := byteAt (wordsOf b 0x1009) 0
  let s := if hasElem b 0x1009 then setFld 0x130050 0 0 (c % 2) s else s
  .done rep (if hasElem b 0x1009 = true ∧ c.testBit 1 = true then perfClearAll s else s)

def execPerfConfig (h : Hdr) (b : Body) (s : State) : Out := run (.perfConfig h b) opPerfConfig h b (ansPerfConfig b) s

/-- A sample's 16 bytes. -/
def sampleBytes (x : Sample) : List Nat := [x.counter, bit x.proc, 0, 0] ++ beBytes 4 x.value ++ [0, 0, 0] ++ beBytes 5 x.stamp

def opPerfRead : Op := { code := 0x1003, worlds := [0, 1] }

/-- PERF_READ: the counters and the samples, whose buffers empty. -/
def ansPerfRead (s : State) : Ans :=
  let s := perfSettle s
  .done [elemW 0x100A ((List.range 48).flatMap fun n => count8 (get s.obs.counters n 0)), elemB 0x100B (s.obs.samples.flatMap sampleBytes)]
    { s with obs := { s.obs with samples := [] } }

def execPerfRead (h : Hdr) (b : Body) (s : State) : Out := run (.perfRead h b) opPerfRead h b ansPerfRead s

/-- The group of a counter: the bricks, the traffic manager, the shared group. -/
def perfGroup (n : Nat) : Nat := min 5 (n / 8)

/-- A counter takes a sample (R528): kept where its group holds fewer than 16, else lost. -/
def takeSample (n value : Nat) (s : State) : State :=
  if 48 ≤ n ∨ flag s 0x130050 0 = false ∨ flag s (0x130100 + 4 * n) 31 = false ∨ fld s (0x130100 + 4 * n) 4 0 = 0 then s
  else if 16 ≤ (s.obs.samples.filter fun x => decide (perfGroup x.counter = perfGroup n)).length then bumpFld 0x130054 31 16 1 s
  else
    let x : Sample := { counter := n, proc := decide (40 ≤ n), value := value % 2 ^ 32, stamp := fast s }
    raise 0x130054 (perfGroup n) { s with obs := { s.obs with samples := s.obs.samples ++ [x] } }

def execPerfSample (t counter value : Nat) (s : State) : Out := ev t (takeSample counter value) s

/-! ## The event recorder (R532 to R537) -/

/-- A commit: 128 records staged, or 1 s since the oldest; up to 128 records into the free slots of the current block (R532). -/
def commitDue (s : State) : State :=
  match s.evr.staged ++ s.evr.ddr with
  | [] => s
  | r :: _ =>
    if 4 ≤ s.boot.step ∧ s.pwr.state < 3 ∧ (128 ≤ s.evr.staged.length ∨ r.at_ + sec ≤ s.now) then commit (128 - s.evr.written % 128) s
    else s

def execRecorderCommit (t : Nat) (s : State) : Out := ev t commitDue s

/-- A bucket below DEPTH gains a token (R535). -/
def refillToken (code : Nat) (s : State) : State :=
  match look s.evr.buckets code with
  | none => s
  | some b =>
    if s.now < b.due then s
    else
      let n := min b.tokens (fld s 0x140000 23 16) + 1
      { s with evr := { s.evr with
        buckets := if fld s 0x140000 23 16 ≤ n then del s.evr.buckets code
                   else put s.evr.buckets code { tokens := n, due := b.due + tokenGap s } } }

def execTokenRefill (t code : Nat) (s : State) : Out := ev t (refillToken code) s

/-- The bytes of EV_EVR_SUPPRESSED. -/
def suppressedData (code count len : Nat) : List Nat := beBytes 2 code ++ beBytes 4 (cap (2 ^ 32 - 1) count) ++ beBytes 2 len

/-- A window of 60 s closes with its record (R535). -/
def closeWindow (code : Nat) (s : State) : State :=
  match look s.evr.windows code with
  | none => s
  | some w =>
    if s.now < w.opened + 60 * sec then s
    else recordResp 0x1301 4 [suppressedData code w.count 60] 7 { s with evr := { s.evr with windows := del s.evr.windows code } }

def execSuppressionWindowClose (t code : Nat) (s : State) : Out := ev t (closeWindow code) s

/-- A record's 32 bytes (Table 19.5). -/
def recBytes (r : Rec) : List Nat :=
  beBytes 4 r.seq ++ beBytes 2 r.code ++ [r.flags, r.epoch] ++ beBytes 4 r.sec ++ beBytes 4 r.ns ++ r.data ++ beBytes 8 r.mac

/-- REC_HEAD (R537): bytes 0 to 55, then both signatures of the device's identity over them. -/
def recHead (nonce : List Word) (s : State) : Elem :=
  let (seq, mac) := match s.evr.circ.getLast? with | some r => (r.seq, r.mac) | none => (0xFFFFFFFF, 0)
  let head := beBytes 4 seq ++ beBytes 8 mac ++ beBytes 4 s.evr.keep.length ++ (unpack nonce).take 32 ++ beBytes 8 s.boot.serial
  elemB 0x1010 (head ++ (unpack (idSign s head) ++ List.replicate 4723 0).take 4723 ++ [0])

def opRecorderRead : Op :=
  { code := 0x1004, worlds := [0, 1, 2], life := 0, halt := true,
    specs := [el 0x900C 8 true fun ws => decide (byteAt ws 0 ≤ 1), el 0x100D 4, el 0x900E 32] }

/-- The records of an area from a SEQ, or from the oldest held; none where the SEQ is not held. -/
def recordsFrom (l : List Rec) (first : Nat) : Option (List Rec) :=
  if first = 0xFFFFFFFF then some l
  else match l.dropWhile fun r => decide (r.seq ≠ first) with
    | [] => none
    | r => some r

/-- RECORDER_READ. -/
def ansRecorderRead (b : Body) (s : State) : Ans :=
  let ws := wordsOf b 0x900C
  let signed := hasElem b 0x900E
  let req := match elemOf b 0x100D with | some e => wordAt e.val 0 | none => 64
  let n := min (Legal.apply (.range 1 240) 32 req.toNat) (if signed then 96 else 240)
  match recordsFrom (if byteAt ws 0 = 0 then s.evr.keep else s.evr.circ) (wordAt ws 1).toNat with
  | none => .fail stNotFound 0
  | some l =>
    let out := l.take n
    let es := [elemB 0x100F (out.flatMap recBytes), elemW 0x1011 [w32 out.length, 0xFFFFFFFF]] ++ reportElem 0x100D 0 req (w32 n)
    if signed then
      withDrbg (fun s => .done (es ++ [recHead (wordsOf b 0x900E) s]) s) s
    else .done es s

def execRecorderRead (h : Hdr) (b : Body) (s : State) : Out := run (.recorderRead h b) opRecorderRead h b (ansRecorderRead b) s

def opRecorderClear : Op := { code := 0x1005, worlds := [0], specs := [ticketElem] }

/-- RECORDER_CLEAR (R536): records committed, the clear record staged and committed, the circulating records before it erased. -/
def ansRecorderClear (h : Hdr) (b : Body) (s : State) : Ans :=
  dual 0x1005 h b (fun own issuer s =>
    let s := commitAll s
    let last := match s.evr.circ.getLast? with | some r => r.seq | none => 0
    let s := commitAll (recordResp 0x1302 4 [[own, issuer, 0, 0] ++ beBytes 4 last] 7 s)
    .done [] { s with evr := { s.evr with circ := s.evr.circ.drop (s.evr.circ.length - 1) } }) s

def execRecorderClear (h : Hdr) (b : Body) (s : State) : Out := run (.recorderClear h b) opRecorderClear h b (ansRecorderClear h b) s

/-! ## In-service test: units (Table 19.6, Table 19.7) -/

/-- Units by their bit in ST_SCOPE: 6b + t tiles, 24 to 31 lanes, 32 and 33 pipes, 34 to 37 cipher cores, 38 and 39 hash units, 40 DRBG
instance 0. -/
def unitBits : List Nat := List.range 41

/-- A unit has failed or is withheld. -/
def unitOut (s : State) (u : Nat) : Bool :=
  if u < 24 then (tile s (u / 6) (u % 6)).failed
  else if u < 32 then (get s.eng.lanes (u - 24) {}).withheld
  else if u < 34 then (get s.eng.pipes (u - 32) {}).withheld
  else if u < 38 then s.eng.cores.contains (u - 34)
  else if u < 40 then s.eng.hashes.contains (u - 38)
  else s.eng.failed

/-- The interval of a unit (Table 19.6); DRBG instance 0 is tested at every reseed, at the latest every second (R421). -/
def unitInterval (u : Nat) : Nat := if u < 34 then 60 * sec else if u < 40 then 10 * sec else sec

/-- When a unit was last fully tested. -/
def testedAt (s : State) (u : Nat) : Nat :=
  if u < 24 then (tile s (u / 6) (u % 6)).since else get s.obs.lastPass u s.boot.releasedAt

/-! ## SELFTEST_RUN (R540, R541) -/

/-- The names of the units of a mask in ascending order. -/
def unitsOf (m : Nat) : List Nat := unitBits.filter fun u => m.testBit u

/-- At the end of a FULL test tables, SC and SA entries, queue entries and gate lists hold their reset values (R541). -/
def clearTables (s : State) : State :=
  let s := zeroiseSas s
  { s with
    cls := { bricks := s.cls.bricks.map fun e => (e.1, { seed0 := e.2.seed0, seed1 := e.2.seed1 }) }
    sas := { s.sas with scs := [], cas := [] }
    que := { s.que with queues := [], egress := [] }
    brk := { s.brk with bricks := s.brk.bricks.map fun e => (e.1, { e.2 with cache := [], misses := [] }) } }

/-- The DEFERRED_UNTIL element 10 s ahead (R540). -/
def tenSeconds (s : State) : Elem :=
  let t := fastAhead s (10 * sec)
  { typ := 0x7F02, len := 8, val := [w32 (t / 2 ^ 32), w32 (t % 2 ^ 32)] }

/-- A self-test ends once every unit has its result. Units that have found no idle window in 10 s are deferred. -/
def settleSelftest (s : State) : State :=
  match s.obs.selftest with
  | none => s
  | some x =>
    let late := !x.full && decide (x.at_ + 10 * sec ≤ s.now)
    let due := if late then (unitsOf x.left).filter fun u => !(decide (u < 24) && (tile s (u / 6) (u % 6)).testing) else []
    let x := due.foldl (fun (x : SelfTest) u => { x with results := put x.results u 3, left := clearBit x.left u }) x
    if x.left ≠ 0 then { s with obs := { s.obs with selftest := some x } }
    else
      let n := fun (r : Nat) => (x.results.filter fun e => decide (e.2 = r)).length
      let s := record 0x1308 [n 0, n 1, n 2, n 3, bit x.full] { s with obs := { s.obs with selftest := none } }
      let s := if x.full then clearTables s else s
      if n 3 = x.results.length then endOp x.op stDeferred [tenSeconds s] s
      else endOp x.op stOk ((unitsOf x.units).map fun u => elemB 0x1013 [u, get x.results u 0, 0, 0]) s

/-- A unit's test ends with a result: 0 pass, 1 fail. -/
def unitResult (u r : Nat) (s : State) : State :=
  match s.obs.selftest with
  | none => s
  | some x =>
    settleSelftest (if x.left.testBit u then
        { s with obs := { s.obs with selftest := some { x with results := put x.results u r, left := clearBit x.left u } } } else s)

/-- The units and FULL that ST_SCOPE names. -/
def scopeUnits (ws : List Word) : Nat := (bytesNat ws 0 8) % 2 ^ 41
def scopeFull (ws : List Word) : Bool := (bytesNat ws 0 8).testBit 48

def opSelftestRun : Op :=
  { code := 0x1006, worlds := [0, 1], long := true, specs := [el 0x9012 8 true fun ws => decide (scopeUnits ws ≠ 0)] }

/-- SELFTEST_RUN: FULL in service state TEST alone, over every unit; one self-test at a time. -/
def ansSelftestRun (h : Hdr) (b : Body) (s : State) : Ans :=
  let full := scopeFull (wordsOf b 0x9012)
  if full = true ∧ svcState s ≠ 2 then .fail stState 0
  else if s.obs.selftest.isSome then .fail stBusy 0
  else
    let units := if full then 2 ^ 41 - 1 else scopeUnits (wordsOf b 0x9012)
    let op := nextOp s
    let s := startOp 0x1006 h.world h.mailbox h.tag s
    let out := (unitsOf units).filter fun u => unitOut s u
    let x : SelfTest := { op := op, at_ := s.now, units := units, left := out.foldl clearBit units,
                          results := out.foldl (fun m u => put m u 2) [], full := full }
    .prog [opIdElem op] (settleSelftest { s with obs := { s.obs with selftest := some x } })

def execSelftestRun (h : Hdr) (b : Body) (s : State) : Out := run (.selftestRun h b) opSelftestRun h b (ansSelftestRun h b) s

/-- A self-test asks for a unit. -/
def asked (s : State) (u : Nat) : Bool := match s.obs.selftest with | some x => x.left.testBit u | none => false

/-- The test of a unit may run: in-service tests on, or a self-test that asks for it. -/
def testOn (s : State) (u : Nat) : Bool := flag s 0x130400 0 || asked s u

/-! ## Tiles (R271 to R273) -/

/-- The other bulk tiles of a brick give its COMMIT: 0.128 × f Gb/s each. -/
def wholeTest (s : State) (b k : Nat) : Bool :=
  let n := ((List.range 6).filter fun j => decide (j ≠ k) && bulkTile s b j).length
  decide (fld s (0x070008 + 0x100 * b) 25 16 * 1000 ≤ n * 128 * (dvfsOf s b).live)

/-- A tile's test starts in an idle window: whole, or in 128 segments (R271, R272). -/
def tileTestStart (b k : Nat) (s : State) : State :=
  let x := tile s b k
  let whole := decide (x.role = 0) && wholeTest s b k
  let idle := tileFree s b k &&
    (if x.role = 0 then whole || (brick s b).held.all (fun h => decide (h.stage ≠ .dispatch))
     else (brick s b).banks.all fun e => decide (e.1 / 16 ≠ k) || e.2.ready)
  let s := settleSelftest s
  if s.boot.step < 8 ∨ s.pwr.state ≠ 0 ∨ testOn s (6 * b + k) = false ∨ x.failed = true ∨ x.testing = true ∨ 3 ≤ x.role ∨ idle = false then s
  else setTile b k { x with testing := true, segments := if whole then 0 else 128, testAt := s.now } s

def execTileTestStart (t brick tile : Nat) (s : State) : Out :=
  ev t (fun s => if brick < 4 ∧ tile < 6 then tileTestStart brick tile s else s) s

/-- The keystream banks of an express tile are lost. -/
def loseBanks (b k : Nat) (s : State) : State :=
  let l := ((brick s b).banks.filter fun e => decide (e.1 / 16 = k)).map fun e => e.2.sa
  let s := setBrick b { brick s b with banks := (brick s b).banks.filter fun e => decide (e.1 / 16 ≠ k) } s
  { s with sas := { s.sas with sas := s.sas.sas.map fun e => if l.contains e.1 then (e.1, { e.2 with banked := false }) else e } }

/-- A tile fails its test: removed from its role until a reset, recorded, a resign condition (R273). -/
def tileFails (b k : Nat) (s : State) : State :=
  let s := setTile b k { tile s b k with role := 3, failed := true, ok := false, testing := false } s
  resign 1 false (kindFailed 0 (record 0x0902 [b, k] (loseBanks b k s)))

/-- A tile's test is over: 2,048 bc of it have run. -/
def tileTestDone (b k : Nat) (ok : Bool) (s : State) : State :=
  let x := tile s b k
  if x.testing = false ∨ s.now < x.testAt + 2048 * bc s b then s
  else if ok then
    unitResult (6 * b + k) 0 (setTile b k { x with testing := false, segments := 0, since := s.now, overdue := false } s)
  else unitResult (6 * b + k) 1 (tileFails b k s)

def execTileTestDone (t brick tile : Nat) (ok : Bool) (s : State) : Out :=
  ev t (fun s => if brick < 4 ∧ tile < 6 then tileTestDone brick tile ok s else s) s

/-! ## Vault units (R538, R539) -/

/-- A vault unit stands idle. -/
def unitIdle (s : State) (u : Nat) : Bool :=
  if u < 32 then decide (laneJobs s 0 (u - 24) = [])
  else if u < 34 then decide (laneJobs s 1 (u - 32) = [])
  else if u < 38 then s.eng.jobs.all fun e => !(decide (e.2.engine = 2) && e.2.lane.isSome)
  else true

/-- A vault unit fails its test: withheld until reset, or for the DRBG the source held failed (R408, R414, R422, R539). -/
def unitFails (u : Nat) (s : State) : State :=
  if u < 32 then
    drainOut 0 (kindFailed 1 (record 0x0B02 [u - 24] (setUnit14 0 (u - 24) { unitOf14 s 0 (u - 24) with withheld := true } s)))
  else if u < 34 then
    drainOut 1 (kindFailed 2 (record 0x0B04 [u - 32] (setUnit14 1 (u - 32) { unitOf14 s 1 (u - 32) with withheld := true } s)))
  else if u < 38 then
    drainOut 2 (kindFailed 3 (record 0x1307 [u] { s with eng := { s.eng with cores := (u - 34) :: s.eng.cores } }))
  else if u < 40 then
    drainOut 3 (kindFailed 4 (record 0x1307 [u] { s with eng := { s.eng with hashes := (u - 38) :: s.eng.hashes } }))
  else
    let (test, s) := drawBits 8 s
    let s : State := { s with eng := { s.eng with failed := true, srcOk := false, startup := false, d0 := { s.eng.d0 with ok := false } } }
    kindFailed 5 (record 0x0B06 [test, cap 255 s.eng.fails] s)

/-- A vault unit's in-service test runs on idle time and passes or fails. -/
def istRun (u : Nat) (ok : Bool) (s : State) : State :=
  let s := settleSelftest s
  if u < 24 ∨ 41 ≤ u ∨ s.boot.step < 6 ∨ s.pwr.state = 3 ∨ testOn s u = false ∨ unitOut s u = true ∨ unitIdle s u = false then s
  else if ok then
    unitResult u 0 { s with obs := { s.obs with lastPass := put s.obs.lastPass u s.now, overdue := s.obs.overdue.filter fun v => decide (v ≠ u) } }
  else unitResult u 1 (unitFails u s)

def execIstInterval (t unit : Nat) (ok : Bool) (s : State) : Out := ev t (istRun unit ok) s

/-- A unit's overdue mark. -/
def overdueOf (s : State) (u : Nat) : Bool := if u < 24 then (tile s (u / 6) (u % 6)).overdue else s.obs.overdue.contains u

/-- A unit not fully tested within its interval is recorded once and keeps working (R273, R538). -/
def istOverdue (u : Nat) (s : State) : State :=
  let s := settleSelftest s
  if 41 ≤ u ∨ s.boot.step < 8 ∨ s.pwr.state = 3 ∨ (u < 24 ∧ s.pwr.state ≠ 0) ∨ flag s 0x130400 0 = false ∨ unitOut s u = true ∨ overdueOf s u = true ∨
      s.now < testedAt s u + unitInterval u then s
  else
    let age := cap (2 ^ 32 - 1) ((s.now - testedAt s u) / sec)
    record 0x0903 ([u, 0, 0, 0] ++ beBytes 4 age)
      (if u < 24 then setTile (u / 6) (u % 6) { tile s (u / 6) (u % 6) with overdue := true } s
       else { s with obs := { s.obs with overdue := u :: s.obs.overdue } })

def execEvIstOverdue (t unit : Nat) (s : State) : Out := ev t (istOverdue unit) s

end Sys2Proof.Machine
end

