-- ==== Sys2Proof/Machine/Boot.lean ====
section
/-! DEFINITION. Images and banks, the reset kinds and what survives each, the boot to FULL_READY, SLEEP and the wake from it (03, 18). -/
namespace Sys2Proof.Machine
open Sys2Proof

/-! ## Banks and image slots (R79, R80) -/

def flashBank (s : State) (b : Bool) : Bank := if b then s.boot.bankB else s.boot.bankA
def setFlashBank (b : Bool) (x : Bank) (s : State) : State :=
  if b then { s with boot := { s.boot with bankB := x } } else { s with boot := { s.boot with bankA := x } }

/-- The bank that is not committed. -/
def spare (s : State) : Bool := !s.boot.committedB

/-- The areas of the flash (Table 3.3): offset, size. Boot control, reserved, bank A, bank B, persistent keys (two halves), persistent records,
reserved, recorder keep area, recorder circulating area. -/
def flashAreas : List (Nat × Nat) :=
  [(0x00000000, 0x40000), (0x00040000, 0xC0000), (0x00100000, 0x1800000), (0x01900000, 0x1800000), (0x03100000, 0x400000),
   (0x03500000, 0x200000), (0x03700000, 0x100000), (0x03800000, 0x40000), (0x03840000, 0x400000)]

/-- The size of a slot by KIND: command firmware 1, vault firmware 2 (Table 3.3). -/
def slotSize (kind : Nat) : Nat := if kind = 1 then 16 * 1048576 else 8 * 1048576

/-- Where a slot lies in the flash (Table 3.3): in its bank, the command image first. -/
def slotOffset (bankB : Bool) (kind : Nat) : Nat :=
  (flashAreas.getD (if bankB then 3 else 2) (0, 0)).1 + (if kind = 1 then 0 else slotSize 1)

/-- A header word of the image of manufacture (Table 3.4): MAGIC, FORMAT and KIND, SVN and BUILD; the rest the spec does not give. -/
def factoryWord (kind : Nat) (x : ImageSlot) (i : Nat) : Word :=
  match i with
  | 0 => 0x54494D47
  | 1 => w32 (0x10000 + kind)
  | 2 => w32 (x.svn * 2 ^ 16)
  | 6 => w32 (x.build / 2 ^ 32)
  | 7 => w32 x.build
  | _ => Config.factoryWord kind i

/-- A word of a slot of a KIND: all ones where erased, the image of manufacture's where it never was. -/
def slotWord (kind : Nat) (x : ImageSlot) (i : Nat) : Word := if x.known then get x.words i 0xFFFFFFFF else factoryWord kind x i

def slotPut (m : KMap Word) (i : Nat) (w : Word) : KMap Word := if w = 0xFFFFFFFF then del m i else put m i w

/-- The SVN and BUILD of the image in a slot (Table 3.4). -/
def slotSvn (x : ImageSlot) : Nat := if x.known then (slotWord 0 x 2).bits 31 16 else x.svn
def slotBuild (x : ImageSlot) : Nat := if x.known then (slotWord 0 x 6).toNat * 2 ^ 32 + (slotWord 0 x 7).toNat else x.build

/-- The header checks of R80 on a slot that IMAGE_WRITE has filled; the image of manufacture passes them (log entry 24). -/
def headerOk (kind : Nat) (x : ImageSlot) : Bool :=
  !x.known || (decide (slotWord kind x 0 = 0x54494D47) && decide (slotWord kind x 1 = w32 (0x10000 + kind)) && decide (1 ≤ slotSvn x) &&
    decide (slotSvn x ≤ 64) && decide ((slotWord kind x 3).toNat ≤ slotSize kind - 0x1300))

/-- Both images of a bank are acceptable and carry one SVN (R80), `ok` being the verdict of digests and signatures. -/
def bankOk (ok : Bool) (x : Bank) (min : Nat) : Bool :=
  ok && headerOk 1 x.cmd && headerOk 2 x.vlt && decide (slotSvn x.cmd = slotSvn x.vlt) && decide (min ≤ slotSvn x.cmd)

/-- Bytes 0 to 127 of a slot's header. -/
def headBytesOf (kind : Nat) (x : ImageSlot) : List Nat := unpack ((List.range 32).map fun i => slotWord kind x i)

/-- M3 of a bank (R81): M0 is 48 zero bytes, then the ROM identity digest, the command header and the vault header are chained. -/
def measure3 (x : Bank) : List Word :=
  let m1 := Config.sha384 (List.replicate 48 0 ++ Config.romDigest)
  let m2 := Config.sha384 (m1 ++ headBytesOf 1 x.cmd)
  packWords (Config.sha384 (m2 ++ headBytesOf 2 x.vlt))

/-! ## IMAGE_WRITE, IMAGE_ACTIVATE, IMAGE_STATUS (R83, R84) -/

/-- The element that runs past the slot. -/
def imageCheck (b : Body) : Option Nat :=
  let off := (wordAt (wordsOf b 0x8202) 0).toNat
  let size := slotSize (wordAt (wordsOf b 0x8201) 0).toNat
  let len := match elemOf b 0x8203 with | some e => e.len | none => 0
  if size ≤ off then some (elemIndex b 0x8202) else if size < off + len then some (elemIndex b 0x8203) else none

def opImageWrite : Op :=
  { code := 0x0200, worlds := [0, 1], rom := true, check := imageCheck,
    specs := [el 0x8201 4 true (fun ws => decide (wordAt ws 0 = 1) || decide (wordAt ws 0 = 2)),
              el 0x8202 4 true (fun ws => decide ((wordAt ws 0).toNat % 4 = 0)), elv 0x8203 4 8172 true] }

/-- Bytes written into a slot at an offset; at offset 0 the slot is erased first. -/
def writeSlot (x : ImageSlot) (off len : Nat) (ws : List Word) : ImageSlot :=
  let start := if off = 0 then [] else x.words
  let put1 := fun (a : KMap Word × Nat) (w : Word) =>
    let i := off / 4 + a.2
    let left := len - 4 * a.2
    let w := if 4 ≤ left then w else ((get a.1 i 0xFFFFFFFF).withBits 31 (32 - 8 * left) (w.bits 31 (32 - 8 * left)))
    (slotPut a.1 i w, a.2 + 1)
  { x with words := ((ws.take ((len + 3) / 4)).foldl put1 (start, 0)).1, known := x.known || decide (off = 0) }

/-- IMAGE_WRITE: into the spare bank, which is not bootable from then on. -/
def ansImageWrite (b : Body) (s : State) : Ans :=
  if s.boot.trialBoot then .fail stState 0
  else
    let x := flashBank s (spare s)
    let off := (wordAt (wordsOf b 0x8202) 0).toNat
    let (len, ws) := match elemOf b 0x8203 with | some e => (e.len, e.val) | none => (0, [])
    let x := if (wordAt (wordsOf b 0x8201) 0).toNat = 1 then { x with cmd := writeSlot x.cmd off len ws }
      else { x with vlt := writeSlot x.vlt off len ws }
    .done [] (setFlashBank (spare s) { x with spoiled := true, m3 := [] } s)

def execImageWrite (h : Hdr) (b : Body) (s : State) : Out := run (.imageWrite h b) opImageWrite h b (ansImageWrite b) s

def opImageActivate : Op := { code := 0x0201, worlds := [0, 1], rom := true, long := true }

/-- A slot whose image has been checked. -/
def settleSlot (x : ImageSlot) : ImageSlot := { x with svn := slotSvn x, build := slotBuild x }

/-- IMAGE_ACTIVATE steps 1 and 2: the spare bank is checked, `ok` being the verdict of its digests and signatures; re-sealing starts. One
that arrives while another is re-sealing is answered ST_BUSY (log entry 26). -/
def ansImageActivate (h : Hdr) (ok : Bool) (s : State) : Ans :=
  if s.boot.resealing.isSome then .fail stBusy 0
  else
    let op := nextOp s
    let x := flashBank s (spare s)
    let s := startOp 0x0201 h.world h.mailbox h.tag s
    if bankOk ok x s.boot.minSvn = false then .prog [opIdElem op] (endOp op stAuth [] s)
    else
      let s := setFlashBank (spare s) { x with cmd := settleSlot x.cmd, vlt := settleSlot x.vlt, spoiled := false } s
      .prog [opIdElem op] { s with boot := { s.boot with resealing := some op } }

def execImageActivate (h : Hdr) (b : Body) (ok : Bool) (s : State) : Out := run (.imageActivate h b ok) opImageActivate h b (ansImageActivate h ok) s

/-- The persistent keys the firmware running holds, as records sealed for another M3 (R84 step 2). -/
def resealFor (m3 : List Word) (s : State) : KMap SealedKey :=
  match kPersist s m3 with
  | some u => (s.keys.keys.filter fun e => e.2.persistent).map fun e => (e.1, { key := e.2, under := u })
  | none => []

/-- The journal records which bank is committed and whether a trial is pending, in both copies (R79, 3.4). -/
def writeJournal (s : State) : State :=
  let e := (s.boot.committedB, s.boot.trialPending)
  { s with boot := { s.boot with journal0 := s.boot.journal0 ++ [e], journal1 := s.boot.journal1 ++ [e] } }

/-- IMAGE_ACTIVATE steps 2 to 4: the spare half holds the keys re-sealed for the spare bank, the trial record is written, the operation
ends, a command warm reset follows 1 ms later. -/
def resealDone (s : State) : State :=
  match s.boot.resealing with
  | none => s
  | some op =>
    endOp op stOk [] (writeJournal { s with
      keys := { s.keys with spareHalf := resealFor (measure3 (flashBank s (spare s))) s }
      boot := { s.boot with resealing := none, trialPending := true, warmAt := some (s.now + ms) } })

def execImageResealDone (t : Nat) (s : State) : Out := ev t resealDone s

def opImageStatus : Op := { code := 0x0202, worlds := [0, 1, 2], ready := 0, rom := true }

/-- The flags of a bank in IMAGE_STATUS: committed, running, on trial, not bootable. -/
def bankFlags (s : State) (b : Bool) : Nat :=
  bit (s.boot.committedB == b) + 2 * bit (s.boot.runningB == b && !s.boot.romRecovery) + 4 * bit (s.boot.trialBoot && s.boot.runningB == b) +
    8 * bit (flashBank s b).spoiled

/-- IMAGE_STATUS: the flags, SVN and BUILD identifiers of bank A, then of bank B (log entry 8). -/
def ansImageStatus (s : State) : Ans :=
  let one := fun (b : Bool) =>
    let x := flashBank s b
    [w32 (bankFlags s b), w32 x.cmd.svn, w32 (x.cmd.build / 2 ^ 32), w32 x.cmd.build, w32 (x.vlt.build / 2 ^ 32), w32 x.vlt.build]
  .done [rawElem 1 (one false ++ one true)] s

def execImageStatus (h : Hdr) (b : Body) (s : State) : Out := run (.imageStatus h b) opImageStatus h b ansImageStatus s

/-- R84 step 5: after 60 s of FULL_READY the trial bank is committed, the minimum SVN advances, the re-sealed half is current. -/
def trialCommit (s : State) : State :=
  match s.boot.fullAt with
  | some f =>
    if s.boot.trialBoot = true ∧ f + 60 * sec ≤ s.now then
      writeJournal { s with
        boot := { s.boot with committedB := s.boot.runningB, trialBoot := false, minSvn := max s.boot.minSvn (runBank s).cmd.svn }
        keys := { s.keys with half := s.keys.spareHalf, spareHalf := [], halfRecs := s.keys.spareHalf.length } }
    else s
  | none => s

def execTrialCommit (t : Nat) (s : State) : Out := ev t trialCommit s

/-! ## What survives (R91, Table 0.7, Table 3.9) -/

/-- The classes that hold their value through a loss: S and P as stated, B always. -/
def classKept (keepS keepP : Bool) (c : RClass) : Bool :=
  match c with
  | .w => false
  | .s => keepS
  | .p => keepP
  | .b => true

/-- Registers after a loss: each field of a class that is kept holds its value, every other takes its reset value. -/
def keepRegs (keep : RClass → Bool) (m : KMap Word) : KMap Word :=
  m.filterMap fun e =>
    let w := wordOf (fieldsAt e.1) fun f => if keep f.cls then e.2.bits f.hi f.lo else f.reset
    if w = resetWord e.1 then none else some (e.1, w)

/-- What is left of the key store: the flash; slots and cache are lost, volatile indices start again (R375, R382). -/
def keepKeys (k : KeySt) : KeySt :=
  { half := k.half, spareHalf := k.spareHalf
    gens := k.gens.filter fun e => decide (e.1 < 16384)
    halfRecs := k.halfRecs, life := k.life, changeRec := k.changeRec, changePending := k.changePending, officers := k.officers }

/-- The domain's persistent records (R426 to R446): sessions, deliveries, nonces, members and what waits are lost. -/
def keepDomain (d : DksSt) : DksSt :=
  { enrolled := d.enrolled, replica := d.replica, device := d.device, domain := d.domain, gen := d.gen, version := d.version, roster := d.roster,
    services := d.services, domainKeys := d.domainKeys, pendKeys := d.pendKeys, txnKey := d.txnKey, pendingPkg := d.pendingPkg,
    rollover := d.rollover, rolling := d.rolling, distKeys := d.distKeys, distDig := d.distDig, txn := d.txn, txnSeen := d.txnSeen,
    groups := d.groups, anchors := d.anchors, serviceCert := d.serviceCert, tenants := d.tenants }

/-- Windows of suppression closed by a loss that keeps the staging SRAM: code, count, length in whole seconds rounded up (R535). -/
def closeAll (now : Nat) (l : KMap SupWindow) : List (Nat × Nat × Nat) :=
  l.map fun e => (e.1, e.2.count, (now - e.2.opened + sec - 1) / sec)

/-- The recorder after a loss: flash and the next SEQ stay, staging where its SRAM is kept, the RS region is lost; the chain goes on
from the last record left (R530, R534). -/
def keepRecorder (now : Nat) (sram : Bool) (e : EvrSt) : EvrSt :=
  let staged := if sram then e.staged else []
  { staged := staged, keep := e.keep, circ := e.circ, nextSeq := e.nextSeq, written := e.written, lastSeq := e.lastSeq
    lastMac := match (e.circ ++ staged).getLast? with | some r => r.mac | none => 0
    carried := if sram then e.carried ++ closeAll now e.windows else [] }

/-- Every unit after a loss of state. Battery-backed state, flash, fuses and what the outside holds stay. -/
def loseState (keepS keepP : Bool) (s : State) : State :=
  let b := s.boot
  { now := s.now, freeCount := s.freeCount, pending := s.pending, sent := s.sent
    regs := keepRegs (classKept keepS keepP) s.regs
    boot := { b with
      held := true, step := 0, romRecovery := false, fullAt := none, resealing := none, warmAt := none, recoveryUntil := none,
      recoveryFallback := false, bbdInitBoot := false }
    lane := { refOk := s.lane.refOk }
    time := { epoch := s.time.epoch, rtc := s.time.rtc, rtcAt := s.time.rtcAt, savedTod := s.time.savedTod, savedRtc := s.time.savedRtc }
    brk := { nextId := s.brk.nextId }
    keys := keepKeys s.keys
    dks := keepDomain s.dks
    tmp := { cond := s.tmp.cond, alarmed := s.tmp.alarmed, fused := s.tmp.fused, latch := s.tmp.latch, overflow := s.tmp.overflow }
    pwr := { wakeCause := if keepP then s.pwr.wakeCause else 0 }
    obs := { bank0 := if keepS then s.obs.bank0 else {}, bank1 := if keepS then s.obs.bank1 else {},
             nextSeq := if keepP then s.obs.nextSeq else 1, cycAt := s.now }
    evr := keepRecorder s.now keepS s.evr }

/-! ## Reset kinds (R88 to R91) -/

/-- The kind of the reset sequence or boot in progress (R89): none once FULL_READY has been reached, or the boot has come as far as it goes
with MEM_OFF or in ROM recovery, and none in SLEEP. -/
def kindInProgress (s : State) : Option Nat :=
  if 10 ≤ s.boot.step ∨ (s.mem.memOff = true ∧ 8 ≤ s.boot.step) ∨ s.boot.romRecovery = true ∨ s.pwr.state = 3 then none else s.boot.kind

/-- A reset of a kind, numbered in the order of Table 3.7 and as its bit of `GLB_RESET_CAUSE`: 0 power-on, 1 brown-out, 2 pin, 3 command
warm, 4 and 5 the watchdogs of command processor and vault, 6 tamper. In a sequence or boot in progress, the kind earlier in the table
applies (R89). The device is held until RESET_RELEASE. -/
def resetBy (kind : Nat) (s : State) : State :=
  let applied := match kindInProgress s with | some k => min k kind | none => kind
  let halt := halted s
  let s := if applied = 0 then saveTime s else s
  let (src, bits) := (s.tmp.resetSrc, s.tmp.resetBits)
  let s := loseState (decide (2 ≤ applied)) (decide (1 ≤ applied)) s
  let s : State := { s with boot := { s.boot with
    kind := some applied, supplyOk := s.boot.supplyOk && decide (2 ≤ kind), supplyLost := if kind ≤ 1 then s.now else s.boot.supplyLost,
    resetN := s.boot.resetN && decide (3 ≤ kind) } }
  if applied = 0 then s
  else
    let s := raise 0x000050 applied s
    let s := if halt then raise 0x000050 7 s else s
    if applied = 6 then setFld 0x000050 15 12 src { s with tmp := { s.tmp with lastBits := bits } } else s

def execPowerOnReset (t : Nat) (s : State) : Out := ev t (resetBy 0) s

def execBrownOutReset (t : Nat) (s : State) : Out := ev t (resetBy 1) s

def execPinReset (t : Nat) (s : State) : Out := ev t (resetBy 2) s

/-- A command warm reset starts once its wait is over (R57, R84, R387, R491). -/
def warmReset (s : State) : State :=
  match s.boot.warmAt with
  | some w => if w ≤ s.now then resetBy 3 s else s
  | none => s

def execCommandWarmReset (t : Nat) (s : State) : Out := ev t warmReset s

def execWatchdogReset (t : Nat) (vault : Bool) (s : State) : Out := ev t (resetBy (if vault then 5 else 4)) s

/-- A tamper reset starts 200 µs after detection (R480). -/
def tamperReset (s : State) : State :=
  match s.tmp.resetAt with
  | some w => if w ≤ s.now then resetBy 6 s else s
  | none => s

def execTamperReset (t : Nat) (s : State) : Out := ev t tamperReset s

/-- HALT_RESET seconds after detection, where it is not 0, a command warm reset ends the halt (R467). -/
def haltReset (s : State) : State :=
  let n := fld s 0x100000 13 8
  if halted s = true ∧ 1 ≤ n ∧ s.mem.haltAt + n * sec ≤ s.now then resetBy 3 s else s

def execHaltResetTimer (t : Nat) (s : State) : Out := ev t haltReset s

/-- A load above 3 mA in low-power mode takes AON to a power-on reset (R514). -/
def aonBrownout (s : State) : State := if s.pwr.regLp then resetBy 0 s else s

def execAonBrownout (t : Nat) (s : State) : Out := ev t aonBrownout s

/-! ## The lifecycle at a boot (R75, R386 to R388) -/

/-- A battery-backed domain that has lost power or failed its check is initialised (R75). -/
def initBbd (s : State) : State :=
  if s.boot.bbdLost = false then s
  else
    { s with
      regs := keepRegs (fun c => decide (c ≠ .b)) s.regs
      boot := { s.boot with
        bbdLost := false, bbdInitBoot := true, rootSecret := none, bbdCode := if s.boot.flashCode = 0 then 0 else 5,
        bbdCount := s.boot.flashCount }
      time := { s.time with epoch := 0, rtc := 0, rtcAt := s.now, savedTod := 0, savedRtc := 0 }
      tmp := { s.tmp with latch := [], overflow := 0 }
      evr := { s.evr with nextSeq := match s.evr.circ.getLast? with | some r => seqAfter r.seq | none => 0 } }

/-- The lifecycle record in flash authenticates under K_record (R388). -/
def lifeRecOk (s : State) : Bool :=
  s.boot.flashRecOk && (match s.boot.flashMac with | none => true | some m => decide (m = lifeMac s s.boot.flashCode s.boot.flashCount))

/-- The state the device boots in (R388): with the decommission fuse blown DECOMMISSIONED; where flash is exactly one change ahead of what the
BBD holds, the new state; where both agree, that one; else TAMPERED. -/
def bootLife (s : State) : Nat :=
  let b := s.boot
  if b.decomFuse then 4
  else if lifeRecOk s = false then 5
  else if b.bbdCode = b.flashCode ∧ b.bbdCount = b.flashCount then b.bbdCode
  else if b.flashCount = b.bbdCount + 1 ∧ s.keys.changeRec.1 = b.bbdCode then b.flashCode
  else 5

/-- What a transition destroys (R386, Table 13.7). -/
def destroy (old new : Nat) (s : State) : State :=
  let s : State := { s with keys := { s.keys with keys := [], gens := [], halfRecs := 0, half := [], spareHalf := [] } }
  if new = 4 then
    { s with
      boot := { s.boot with rootSecret := none, decomFuse := true }
      keys := { s.keys with officers := [] }
      dks := {}
      evr := { s.evr with staged := [], keep := [], circ := [], written := 0, nextSeq := 0, lastMac := 0, carried := [] } }
  else if old = 0 ∧ new = 1 then
    let (r, s) := drawBits 256 s
    { s with boot := { s.boot with rootSecret := some r } }
  else s

/-- The device takes the lifecycle state of this boot; where it is another than before, the transition's destruction is completed. -/
def settleLife (s : State) : State :=
  let new := bootLife s
  let s := if new = s.keys.life then s else destroy s.keys.life new s
  { s with
    keys := { s.keys with life := new }
    boot := { s.boot with bbdCode := new, bbdCount := if new = s.boot.flashCode then s.boot.flashCount else s.boot.bbdCount } }

/-! ## Release of reset (R72, R74, R92, R534) -/

/-- EV_EVR_BOOT, the first record of a boot, and those of the windows closed by the reset (R534, R535). -/
def recordBoot (s : State) : State :=
  let last := match s.evr.circ.getLast? with | some r => r.seq | none => 0xFFFFFFFF
  let none_ := decide (s.evr.circ = [])
  let data := beBytes 2 (regWord s 0x000050).toNat ++ beBytes 4 last ++ [bit none_ + 2 * bit s.boot.bbdInitBoot, 0]
  let s := recordResp 0x1303 4 [data] 7 s
  let l := s.evr.carried
  l.foldl (fun s e => recordResp 0x1301 4 [suppressedData e.1 e.2.1 (cap 65535 e.2.2)] 7 s) { s with evr := { s.evr with carried := [] } }

/-- The device starts Table 3.2 at step 1: the BBD and the lifecycle are checked, a new epoch begins, the boot record is staged, the main
tamper sources are armed, and time of day restarts from the save. -/
def startBoot (cause : Nat) (s : State) : State :=
  let s : State := { s with
    boot := { s.boot with held := false, step := 1, supplyOk := true, resetN := true }
    lane := if s.boot.resetN then s.lane else { s.lane with refOk := [0, 1, 2, 3, 4, 5, 6, 7, 8] } }
  let s := settleLife (initBbd s)
  let old := s.time.epoch
  let new := epochAfter old
  let again := s.tmp.lastBits
  let s := recordBoot { s with time := { s.time with epoch := new } }
  let s : State := { s with tmp := { s.tmp with alarmed := mainSources.foldl clearBit s.tmp.alarmed, lastBits := 0 } }
  let s := rearm (fun n => again.testBit n) s
  newEpoch old new (if s.boot.bbdInitBoot then 3 else cause) 0xFF 0 (restoreTime s)

/-- The boot that starts is the trial where one is pending; a trial that was not committed falls back: FALLBACK is set, its half
discarded (R84 step 4, R85). -/
def beginTrial (s : State) : State :=
  let fell := s.boot.trialBoot
  let s := if fell then raise 0x000054 2 s else s
  let s : State := { s with
    boot := { s.boot with trialBoot := s.boot.trialPending, trialPending := false, recoveryFallback := fell }
    keys := { s.keys with spareHalf := if fell then [] else s.keys.spareHalf } }
  if s.boot.trialBoot then writeJournal s else s

/-- Every group has been within tolerance for 10 ms and RESET_N is high: a device held in reset is released, and the SLV_ADR balls are
sampled (R72, R74). -/
def release (balls : Nat) (s : State) : State :=
  if s.boot.held = true ∧ (s.boot.supplyOk = true ∨ s.boot.supplyLost + 10 * ms ≤ s.now) then
    startBoot 1 (beginTrial { s with boot := { s.boot with releasedAt := s.now, slvAdr := balls % 8 } })
  else s

def execResetRelease (t balls : Nat) (s : State) : Out := ev t (release balls) s

/-! ## The boot (R76 to R85, Table 3.2) -/

/-- Whether a bank is bootable: accepted, as `ok` and the header say, and not marked by IMAGE_WRITE (R80, R83). -/
def bootable (s : State) (b ok : Bool) : Bool := bankOk ok (flashBank s b) s.boot.minSvn && !(flashBank s b).spoiled

/-- The bank's measurement is computed. -/
def measureBank (b : Bool) (s : State) : State := setFlashBank b { flashBank s b with m3 := measure3 (flashBank s b) } s

/-- The persistent keys that the firmware running can open: the records of its half sealed under its own K_persist (R82, R374). They wait to be
reloaded (R382). -/
def openKeys (s : State) : State :=
  match kPersist s (runBank s).m3 with
  | none => s
  | some u =>
    { s with keys := { s.keys with
      keys := ((halfInUse s).filter fun e => decide (e.2.under = u)).map fun e => (e.1, { e.2.key with place := 2, erasing := false, fresh := false }) } }

/-- The vault derives its working keys (step 5): K_cache from the root secret and a boot nonce; the slot permutation key, mask and tag key, and the
mask of the SA store, are drawn (R373, R379, R211). -/
def bootKeys (s : State) : State :=
  let (nonce, s) := drawBits 256 s
  let (perm, s) := drawBits 256 s
  let (mask, s) := drawBits 256 s
  let (tag, s) := drawBits 256 s
  let (store, s) := drawBits 256 s
  let cache := match s.boot.rootSecret with
    | some r => kdf (beBytes 32 r) "TIRIQUE CACHE" (unpack (runBank s).m3 ++ [s.keys.life] ++ beBytes 32 nonce)
    | none => 0
  { s with keys := { s.keys with cacheKey := cache, permKey := perm, slotMask := mask, tagKey := tag }, sas := { s.sas with mask := store } }

/-- Both firmware images start (steps 4 and 5): the source and the DRBG run, the vault's keys and the memory key are drawn, lanes are
powered. -/
def startFirmware (s : State) : State :=
  let s : State := { s with
    boot := { s.boot with step := 5 }
    eng := { s.eng with srcOk := true, d0 := { s.eng.d0 with ok := true, last := s.now }, d1 := { s.eng.d1 with ok := true, last := s.now } } }
  let s := powerLanes (drawMemKey (bootKeys (openKeys s)))
  if s.boot.certsOk then s else record Config.certEvent [] s

/-- The boot ROM selects a bank and starts it: in a trial the spare one. A trial bank that is not bootable falls back; with no bootable bank
it enters ROM recovery. `okA` and `okB` are its verdicts of digests and signatures. -/
def imageBoot (okA okB : Bool) (s : State) : State :=
  if s.boot.held = true ∨ s.boot.romRecovery = true ∨ s.boot.step < 1 ∨ 4 ≤ s.boot.step then s
  else
    let can := fun (b : Bool) => bootable s b (if b then okB else okA)
    let want := if s.boot.trialBoot then spare s else s.boot.committedB
    let failed := s.boot.trialBoot && !can want
    let s1 := if failed then
        raise 0x000054 2 { s with
          boot := { s.boot with trialBoot := false, recoveryFallback := true }
          keys := { s.keys with spareHalf := [] } }
      else s
    let go := fun (b : Bool) => startFirmware (measureBank b { s1 with boot := { s1.boot with runningB := b } })
    if can want then go want
    else if can (!want) then go (!want)
    else { s1 with boot := { s1.boot with romRecovery := true } }

def execImageBoot (t : Nat) (okA okB : Bool) (s : State) : Out := ev t (imageBoot okA okB) s

/-- Step 6: the vault's first known-answer tests pass, sessions are accepted. -/
def vaultKat (s : State) : State :=
  if s.boot.step = 5 then
    { s with
      boot := { s.boot with step := 6 }
      obs := { s.obs with lastPass := (List.range 17).foldl (fun m i => put m (24 + i) s.now) s.obs.lastPass } }
  else s

def execVaultKatPass (t : Nat) (s : State) : Out := ev t vaultKat s

/-- Tiles of a brick in the roles of Table 9.1 at their reset configuration. -/
def freshTiles (s : State) (b : Nat) : KMap Tile :=
  (List.range 6).map fun k => (k, { role := if k = 0 ∧ flag s (0x070000 + 0x100 * b) 0 = true then 1 else 0, ok := true, since := s.now })

/-- Step 8: tiles have passed their tests, the datapath runs, table seeds are drawn (R76, R182). -/
def expressReady (s : State) : State :=
  if s.boot.step = 6 then
    let s := [0, 1, 2, 3].foldl (fun s b => setBrick b { brick s b with tiles := freshTiles s b } s) s
    drawSeeds { s with boot := { s.boot with step := 8 } }
  else s

def execExpressReady (t : Nat) (s : State) : Out := ev t expressReady s

/-- Persistent keys are reloaded into slots in order, into the sealed cache where the slots are full (step 9). -/
def reloadKeys (s : State) : State :=
  let one := fun (a : KMap Key × Nat) (e : Nat × Key) =>
    let n := keySlots e.2
    if e.2.place ≠ 2 then (a.1 ++ [e], a.2)
    else if a.2 + n ≤ 8192 then (a.1 ++ [(e.1, { e.2 with place := 0 })], a.2 + n)
    else (a.1 ++ [(e.1, { e.2 with place := 1 })], a.2)
  { s with keys := { s.keys with keys := (s.keys.keys.foldl one ([], slotsUsed s)).1 } }

/-- The alarm latch is copied into records in entry order and cleared (R487). -/
def copyLatch (s : State) : State :=
  let s := s.tmp.latch.foldl (fun s e => let w := latchWords e; record 0x1107 (beBytes 4 w.1 ++ beBytes 4 w.2) s) s
  { s with tmp := { s.tmp with latch := [], overflow := 0 } }

/-- At the first boot in TAMPERED a TAMPERED record joins flash (R487); a lifecycle change that has completed is recorded (R387). -/
def recordLife (s : State) : State :=
  let s := if s.keys.life = 5 ∧ (s.boot.flashCode ≠ 5 ∨ lifeRecOk s = false ∨ s.boot.flashCount ≠ s.boot.bbdCount) then
      { s with boot := { s.boot with flashCode := 5, flashCount := s.boot.bbdCount, flashRecOk := true,
                                      flashMac := some (lifeMac s 5 s.boot.bbdCount) } } else s
  if s.keys.changePending then
    let (old, own, issuer) := s.keys.changeRec
    let s : State := { s with keys := { s.keys with changePending := false } }
    if s.keys.life = 5 then s else record 0x0D01 [old, s.keys.life, own, issuer] s
  else s

/-- A rollover that the reset cut goes on (Table 15.7): before COMMIT it is aborted, after it the commit notes are sent again. -/
def resumeRollover (s : State) : State :=
  match s.dks.rollover with
  | none => s
  | some r => if r.step < 7 then dropRollover r s else 
      let note := noteWords 0x5444434D s.dks.gen r.handles r.handles s
      settleRollover (pump (deliverTo 6 r.group (fun _ => note) (otherDevices s) s))

/-- Steps 9 and 10: keys are reloaded, the latch is copied, staged records are committed, services start, FULL_READY is set. With MEM_OFF
FULL_READY is never set (R453). -/
def fullReady (s : State) : State :=
  if s.boot.step = 8 ∧ s.mem.memOff = false then
    let s := commitAll (recordLife (copyLatch (reloadKeys s)))
    let s : State := { s with
      boot := { s.boot with step := 10, kind := none, fullAt := some s.now }
      mem := { s.mem with due := some (s.now + fld s 0x100008 23 16 * 3600 * sec) } }
    settleApproved (resumeRollover s)
  else s

def execFullReady (t : Nat) (s : State) : Out := ev t fullReady s

/-- RECOVERY_WINDOW seconds after a takeover (R86). -/
def windowExpiry (s : State) : State :=
  match s.boot.recoveryUntil with
  | some u => if u ≤ s.now then { s with boot := { s.boot with recoveryUntil := none } } else s
  | none => s

def execRecoveryWindowExpiry (t : Nat) (s : State) : Out := ev t windowExpiry s

/-! ## SLEEP reached, the wake (R498, R505 to R507, R515) -/

/-- SLEEP is reached after its commit point, unless a halt has begun, which ends only with a reset (R88): classes S and W are lost, P and B kept.
A queued request, or an alarm already due, wakes at once. -/
def sleepReached (s : State) : State :=
  if s.pwr.pastCommit = true ∧ s.pwr.state ≠ 3 ∧ halted s = false then
    let next := s.pwr.wakeNext
    let s := loseState false true s
    let s : State := { s with pwr := { s.pwr with state := 3, regLp := true }, boot := { s.boot with held := false, kind := none } }
    if next then startWake 4 s else rtcWake s
  else s

def execSleepReached (t : Nat) (s : State) : Out := ev t sleepReached s

/-- The domains are powered again: the device boots in RUN, `GLB_RESET_CAUSE` unchanged (R506). -/
def wakeDone (s : State) : State :=
  if s.pwr.waking then
    let cause := s.pwr.wakeCause
    record 0x1203 [cause] (startBoot 2 { s with pwr := { wakeCause := cause } })
  else s

def execWakeDone (t : Nat) (s : State) : Out := ev t wakeDone s

end Sys2Proof.Machine
end

