-- ==== Sys2Proof/Machine/RegAccess.lean ====
section
/-! DEFINITION. Register access (02, 20): ID_READ, DEVICE_STATUS, REG_READ, REG_WRITE with what each register's write does, the
indirect windows, and the rows that are one write of one register. -/
namespace Sys2Proof.Machine
open Sys2Proof

/-! ## ID_READ and DEVICE_STATUS (R558, R559) -/

def allWorldClasses : List Nat := [0, 1, 2, 3, 4]

def opIdRead : Op :=
  { code := 0x0100, worlds := allWorldClasses, life := 0, ready := 0, halt := true, sess0 := true, rom := true,
    specs := [el 0x0110 4 false fun ws => decide ((wordAt ws 0).toNat ≤ 1)] }

/-- ID_INFO (Table 20.8). -/
def idInfo (s : State) : Elem :=
  elemB 0x0111 (unpack [liveWord s 0, liveWord s 4] ++ beBytes 8 s.boot.serial ++ beBytes 6 s.boot.mac ++ [0, 0] ++
    beBytes 8 (runBank s).cmd.build ++ beBytes 8 (runBank s).vlt.build ++
    unpack [liveWord s 0x54, liveWord s 0x0C0000, liveWord s 0x48])

/-- ID_CERTS: both lengths 0 where the certificates are reported absent. -/
def idCerts (s : State) : Elem :=
  let a := if s.boot.certsOk then Config.certBytes 0 else []
  let b := if s.boot.certsOk then Config.certBytes 1 else []
  elemB 0x0113 (beBytes 2 a.length ++ beBytes 2 b.length ++ a ++ b)

def ansIdRead (b : Body) (s : State) : Ans :=
  if (wordAt (wordsOf b 0x0110) 0).toNat = 1 then .done [idCerts s] s
  else .done [idInfo s, { typ := 0x0112, len := 48, val := (runBank s).m3 }] s

def execIdRead (h : Hdr) (b : Body) (s : State) : Out := run (.idRead h b) opIdRead h b (ansIdRead b) s

def opDeviceStatus : Op := { code := 0x0101, worlds := [0, 1, 2], life := 0, ready := 0, halt := true }

/-- The registers of DEV_STATUS in order. -/
def statusAddrs : List Nat :=
  [0x28, 0x48, 0x50, 0x54, 0x60, 0x2C, 0x120000, 0x0B0004, 0x0C0000, 0x0C0004, 0x040000, 0x110044, 0x110048, 0x100004]

def ansDeviceStatus (s : State) : Ans := .done [elemW 0x0114 (statusAddrs.map (liveWord s))] s

def execDeviceStatus (h : Hdr) (b : Body) (s : State) : Out := run (.deviceStatus h b) opDeviceStatus h b ansDeviceStatus s

/-! ## REG_READ (R66) -/

def addrElem : ElemSpec := el 0x8101 4 true fun ws => decide ((wordAt ws 0).bits 1 0 = 0)

/-- The address that ADDR gives: bits [31:24] are ignored. -/
def addrOf (b : Body) : Nat := (wordAt (wordsOf b 0x8101) 0).bits 23 0

def opRegRead : Op := { code := 0x0102, worlds := [0, 1, 2], life := 0, ready := 0, specs := [addrElem, el 0x0104 4] }

/-- The addresses of a range. -/
def addrRange (a n : Nat) : List Nat := (List.range n).map fun i => a + 4 * i

/-- Whether the audit world may not read an address (R550). -/
def auditBarred (a : Nat) : Bool :=
  (decide (0x130010 ≤ a) && decide (a ≤ 0x13037C)) ||
    (blockExists a && decide (0x8000 ≤ a % 0x10000) && decide (a % 0x10000 ≤ 0xFBFC))

/-- The rows of performance counters: reading one brings the counts that follow the clock up to now. -/
def countsCycles (a : Nat) : Bool := decide (0x130200 ≤ a) && decide (a ≤ 0x13037C)

/-- Registers are read in ascending order, each with the effect of its read. -/
def readAll : List Nat → State → List Word × State
  | [], s => ([], s)
  | a :: r, s =>
    let w := readWord s a
    let (ws, s) := readAll r (readEffect a s)
    (w :: ws, s)

/-- REG_READ. The checks come in the order world, range, domain. Without COUNT, to which the spec gives no default, one register is read (log
entry 32). -/
def ansRegRead (h : Hdr) (b : Body) (s : State) : Ans :=
  let req := match elemOf b 0x0104 with | some e => wordAt e.val 0 | none => 1
  let n := Legal.apply (.range 1 64) 32 req.toNat
  let l := addrRange (addrOf b) n
  if h.world = 2 ∧ l.any auditBarred = true then .fail stWrongWorld 0
  else if l.all blockExists = false then .fail stNotFound 0
  else if l.any (domainDown s) = true then .fail stState 0
  else
    let s := if l.any countsCycles then perfSettle s else s
    let (ws, s) := readAll l s
    .done (elemW 0x8102 ws :: reportElem 0x0104 0 req (w32 n)) s

def execRegRead (h : Hdr) (b : Body) (s : State) : Out := run (.regRead h b) opRegRead h b (ansRegRead h b) s

/-! ## The indirect windows (20.4) -/

/-- A window's first address and its number of entries. -/
def winBase (w : RegWin) : Nat := match w with | .que => 0x0A7000 | .trk0 => 0x097000 | .trk1 => 0x097100
def winCount (w : RegWin) : Nat := match w with | .que => 16384 | _ => 257

/-- The window whose control register an address is. -/
def winAt (a : Nat) : Option RegWin := [RegWin.que, .trk0, .trk1].find? fun w => decide (a = winBase w + 0x40)

/-- The entry of a raw counter table as window DATA: `n` counters of an object. -/
def rawData (x : Trunk) (obj n : Nat) : List Word :=
  (List.range n).flatMap fun i => let v := get x.rawLatch (8 * obj + i) 0; [w32 v, w32 (v / 2 ^ 32 % 2 ^ 16)]

/-- The sixteen words of an entry (Table 20.3). -/
def winEntry (s : State) (w : RegWin) (i : Nat) : List Word :=
  let l := match w with
    | .que => queueWords s i
    | .trk0 => rawData s.trk.p0 i (if i = 0 then 8 else 5)
    | .trk1 => rawData s.trk.p1 i (if i = 0 then 8 else 5)
  (l ++ List.replicate 16 0).take 16

/-- The writable bits of an entry's words (Table 11.3). -/
def winMask (i : Nat) : Word := match i with | 0 => 0x0003FFFF | 1 => 0x00FFFFFF | 2 => 0xFFFFFFFF | _ => 0

/-- An entry is captured into DATA. -/
def capture (w : RegWin) (i : Nat) (s : State) : State :=
  ((winEntry s w i).zipIdx).foldl (fun s e => setReg (winBase w + 4 * e.2) e.1 s) s

/-- A queue takes the writable fields of DATA in one commit (R554, R326). -/
def commitQueue (q : Nat) (s : State) : State :=
  let d := fun (i : Nat) => regWord s (winBase .que + 4 * i)
  let s := setQueue q { queueEntry s q with limit := limitApplied (d 0) } s
  reshape q ((d 1).bits 23 0) (boundsApplied (d 2)) s

/-- The reports of the writable words of DATA that a write changed (R548). -/
def winReports (old new : State) (w : RegWin) : Body :=
  (List.range 3).flatMap fun i =>
    let a := winBase w + 4 * i
    if (regWord old a ^^^ regWord new a) &&& winMask i = 0 then [] else [asApplied (w32 (0xFF000000 + a)) (regWord old a) (regWord new a)]

/-- GO runs the operation that the control register names (R554). -/
def winGo (w : RegWin) (s : State) : State × Body :=
  let c := regWord s (winBase w + 0x40)
  let i := c.bits 23 0
  let op := c.bits 30 28
  let t := capture w i (if op = 1 then commitQueue i s else s)
  let t := setReg (winBase w + 0x44) (w32 (2 ^ 30 + op * 2 ^ 28 + c.bits 27 24 * 2 ^ 24 + i)) t
  (t, if op = 1 then winReports s t w else [])

/-! ## One register written (R60, R62, R67, R548) -/

/-- The word a write asks for: the bits of its mask, the others as they stand. -/
def askedWord (s : State) (a : Nat) (req mask : Word) : Word := (liveWord s a &&& ~~~ mask) ||| (req &&& mask)

/-- A stored word with its writable fields taken from a word, clamped, and its W1C bits cleared by ones. -/
def mergeWord (a : Nat) (old w ones : Word) : Word :=
  (fieldsAt a).foldl (fun x f =>
    match f.acc with
    | .rw => x.withBits f.hi f.lo (f.legal.apply (f.hi + 1 - f.lo) (w.bits f.hi f.lo))
    | .rws => x.withBits f.hi f.lo (f.legal.apply (f.hi + 1 - f.lo) (w.bits f.hi f.lo))
    | .w1c => x &&& ~~~ (ones &&& Word.mask f.hi f.lo)
    | _ => x) old

/-- The index of an address in an array of registers. -/
def slotOf (a base stride count : Nat) : Option Nat :=
  if base ≤ a ∧ (a - base) % stride = 0 ∧ (a - base) / stride < count then some ((a - base) / stride) else none

/-- The largest RESERVED, in units of 16 cells, that keeps the sum within 196,608 cells (R320). -/
def reservedRoom (s : State) (a : Nat) : Nat := 12288 - (reservedCells s / 16 - fld s a 14 0)

/-- RESERVED yields to its LIMIT and to the bound of R320. -/
def yieldReserved (s : State) (a : Nat) (x : Word) : Word :=
  x.withBits 14 0 (min (x.bits 14 0) (min (x.bits 30 16) (reservedRoom s a)))

/-- The fields that yield in a combination that is not legal (R62). -/
def yielded (s : State) (a : Nat) (x : Word) : Word :=
  if a = 0x000040 then
    (x.withBits 3 3 (bit (x.bit 3 && x.bit 0 && x.bit 1))).withBits 2 2 (bit (x.bit 2 && x.bit 0 == x.bit 1))
  else if a = 0x000048 then (if s.keys.life = 3 then x else x.withBits 16 16 0)
  else if (slotOf a 0x011004 0x20 36).isSome then
    (if 64 < x.bits 20 16 + x.bits 14 8 + x.bits 4 0 then x.withBits 14 8 (64 - x.bits 20 16 - x.bits 4 0) else x)
  else match slotOf a 0x020080 4 2 with
  | some p => x.withBits 7 0 (Nat.land (x.bits 7 0) (255 - fld s (0x020008 + 0x10 * p) 23 16))
  | none =>
  match slotOf a 0x090000 0x100 2 with
  | some p => if lpTrunk s p then x else x.withBits 1 1 0
  | none =>
    if (slotOf a 0x0A0010 4 4).isSome ∨ (0x0A0100 ≤ a ∧ a < 0x0A0180 ∧ a % 4 = 0) then yieldReserved s a x
    else if a = 0x0B0000 then (if s.boot.grade = 1 then x.withBits 7 0 (min 105 (x.bits 7 0)) else x)
    else if a = 0x0C0100 then (if isReplica s then x else x.withBits 29 29 0)
    else x

/-- A quad's lane map or polarity has changed: its port's links restart (R101). -/
def mapChanged (q : Nat) (s : State) : State :=
  if q = 8 then restartLink 17 (restartLink 16 (laneOut 1 (laneOut 0 s)))
  else if portEnabled s (q / 2) then (spsOf (q / 2)).foldl (fun s sp => restartLink sp s) s else s

/-- A bond lane's enable has changed (R110). -/
def bondLaneSet (l : Nat) (on : Bool) (s : State) : State :=
  if on then setBondLane l { bondLane s l with searching := true, aligned := false, rxBuf := [] } (setLane (32 + l) (fun y => { y with powered := true }) s)
  else setLane (32 + l) (fun _ => {}) (laneOut l s)

/-- ENABLE of a port has changed (R114, R117). -/
def portSet (p : Nat) (on : Bool) (s : State) : State :=
  if on then
    let s := if p < 2 then { s with port := { s.port with live := put s.port.live p (fld s (0x020000 + 0x10 * p) 5 4) } } else s
    if p < 4 then (List.range 8).foldl (fun s i => setLane (8 * p + i) (fun y => { y with test := none }) s) s else s
  else (spsOf p).foldl (fun s sp => portDown sp false s) s

/-- Classes that have become express lose their PFC_HONOUR bits, with a report for that register (R124). -/
def honourYields (p : Nat) (s : State) : State × Body :=
  let a := 0x020080 + 4 * p
  let t := setReg a (yielded s a (regWord s a)) s
  (t, if p < 2 then reportReg a (regWord s a) (regWord t a) else [])

/-- MM_EN or VERIFY_DIS of a port has changed: verification starts on its sub-ports with a link (R128). -/
def mergeChanged (p : Nat) (s : State) : State :=
  (spsOf p).foldl (fun s sp => if (subPort s sp).link then startVerify sp s else s) s

/-- Frames that have waited for the new MAX_RES are discarded (R321). -/
def ageAll (s : State) : State :=
  ((s.que.frames ++ s.que.hold).map (·.id)).foldl (fun s n => frameAged n s) s

/-- The due time of an automatic roll follows a change of INTERVAL (R468). -/
def dueChanged (old : Nat) (s : State) : State :=
  match s.mem.due with
  | none => s
  | some d => rollDue { s with mem := { s.mem with due := some (d - old * 3600 * sec + fld s 0x100008 23 16 * 3600 * sec) } }

/-- A write of `TMU_MATCH_HI` (R145): an armed instant that is reached fires first; then the write arms, where it counts as arming, or
disarms. `ones` are the bits written as 1. -/
def writeMatch (n : Nat) (before : State) (ones : Word) (s : State) : State :=
  let a := matchHi n
  let due := (matchOf s n).armed && decide (fastDiff (matchOf s n).instant (fast s) ≤ matchLead n)
  let arm := flag s a 31
  let s := if due then setFld a 31 31 (bit arm) (fireMatch n false false s) else s
  let s := if due = true ∧ ones.bit 30 = true then setFld a 30 30 0 s else s
  let i := fld s a 7 0 * 2 ^ 32 + (regWord s (a - 4)).toNat
  if arm then
    (if due = true ∨ flag before a 31 = false ∨ (matchOf s n).instant ≠ i then armMatch n i s else s)
  else disarm n s

/-- A frozen datapath resumes (R481). -/
def unfreeze (s : State) : State := bondResume (record 0x1108 [] { s with tmp := { s.tmp with frozen := false } })

/-- A write with no report of its own. -/
def quiet (s : State) : State × Body := (s, [])

/-- What a write does beside the value it stores: `old` is the state before, `ones` the bits written as 1. -/
def afterWrite (a : Nat) (old : State) (ones : Word) (s : State) : State × Body :=
  let changed := fun (hi lo : Nat) => decide (fld old a hi lo ≠ fld s a hi lo)
  match a / 0x10000 with
  | 0x00 =>
    if a = 0x000040 then
      quiet (if ones.bit 9 = true ∧ flag s a 8 = false then setFld a 8 8 1 { s with brk := { s.brk with flow := flowWanted s } } else s)
    else if a = 0x000048 then quiet (if ones.bit 17 then { s with boot := { s.boot with recoveryFallback := false } } else s)
    else quiet s
  | 0x01 =>
    match slotOf a 0x010000 4 9, slotOf a 0x011008 0x20 36 with
    | some q, _ => quiet (if changed 15 0 then mapChanged q s else s)
    | none, some n =>
      let turned := flag s a 16 && (!flag old a 16 || !flag old a 12 && flag s a 12)
      if (get s.lane.lanes n {}).cdrLock = false then quiet s
      else if turned then quiet (adaptLane n s)
      else quiet (if flag s a 16 then s else setLane n (fun y => { y with ctleLive := fld s a 11 8 }) s)
    | none, none =>
      if a = 0x010200 then
        quiet ([0, 1].foldl (fun s l => if flag old a l = flag s a l then s else bondLaneSet l (flag s a l) s) s)
      else quiet s
  | 0x02 =>
    match slotOf a 0x020000 0x10 6, slotOf a 0x020008 0x10 4 with
    | some p, _ => quiet (if changed 0 0 then portSet p (flag s a 0) s else s)
    | none, some p =>
      let (s, rep) := if p < 2 ∧ changed 23 16 = true then honourYields p s else (s, [])
      (if changed 0 0 || changed 2 2 then mergeChanged p s else s, rep)
    | none, none => quiet s
  | 0x04 =>
    match slotOf a 0x040204 8 8 with
    | some n => quiet (writeMatch n old ones s)
    | none => quiet s
  | 0x07 =>
    match slotOf a 0x070000 0x100 4 with
    | some b => quiet (if changed 0 0 then setBrick b { brick s b with change := some (flag s a 0) } s else s)
    | none => quiet s
  | 0x09 =>
    match slotOf a 0x090000 0x100 2 with
    | some p => quiet (if changed 1 1 then powerLanes (restartLink (18 + p) s) else s)
    | none => match winAt a with
      | some w => if ones.bit 31 then winGo w s else quiet s
      | none => quiet s
  | 0x0A =>
    if a = 0x0A0000 then quiet (if changed 25 16 then ageAll s else s)
    else match winAt a with
      | some w => if ones.bit 31 then winGo w s else quiet s
      | none => quiet s
  | 0x10 =>
    if a = 0x100008 then quiet (if changed 23 16 then dueChanged (fld old a 23 16) s else s)
    else if a = 0x100028 then quiet (if ones.bit 31 then setReg a 0 s else s)
    else quiet s
  | 0x12 =>
    match slotOf a 0x120020 4 4 with
    | some b => quiet (askDvfs b (fld s a 10 0) s)
    | none => quiet s
  | 0x13 =>
    if a = 0x130004 then
      let s := if ones.bit 2 then snapTrigger 5 (tod s) s else s
      quiet (if ones.bit 1 then releaseSnap (fld s a 0 0) s else s)
    else if a = 0x130050 then quiet (if ones.bit 1 then perfClearAll s else s)
    else quiet s
  | _ => quiet s

/-- The bytes a sweep has reached, held at their count so far before its rate changes. -/
def holdSwept (s : State) : State :=
  if s.mem.rolling then { s with mem := { s.mem with swept := sweptBytes s, sweptAt := s.now } } else s

/-- What must be brought up to now before a register changes: the rate of time, the sweep, the counts that follow a clock. -/
def beforeWrite (a : Nat) (s : State) : State :=
  if a = 0x040030 then rebase s
  else if a = 0x100008 then
    holdSwept s
  else if a = 0x130050 ∨ (slotOf a 0x130100 4 48).isSome = true then perfSettle s
  else s

/-- The report of a register's writable bits (R548). -/
def reportWrite (a : Nat) (asked : Word) (s : State) : Body :=
  if (asked ^^^ liveWord s a) &&& rwMask a = 0 then [] else reportReg a asked (liveWord s a)

/-- The report of a bit written as 1 that was ignored or not applied (R58). -/
def reportBit (a i : Nat) (asked : Word) : Body := reportReg a asked (asked.withBits i i 0)

/-- A tamper source or the temperature offsets written as registers: as TAMPER_CONFIG applies them; only the
command's change is an event (R492). -/
def writeTamper (a : Nat) (asked : Word) (s : State) : State :=
  if a = 0x110040 then
    (setTemp { typ := 0x0E02, len := 4, val := [word4 (asked.bits 12 8) (asked.bits 4 0) 0 0] } s).1
  else
    (setSource { typ := 0x8E01, len := 4, val := [word4 ((a - 0x110000) / 4) (asked.bits 4 4) (asked.bits 2 0) 0] } s).1

/-- One register is written. -/
def writeOne (a : Nat) (req mask : Word) (s : State) : State × Body :=
  let asked := askedWord s a req mask
  let ones := req &&& mask
  if a = 0x040030 ∧ servoSrc s ≠ 0 then (s, reportWrite a asked s)
  else if a = 0x04003C then
    if ones.bit 0 then
      let (t, done) := hostStep s
      (t, if done then [] else reportBit a 0 asked)
    else (s, [])
  else if a = 0x040040 then
    let t := writeServo asked s
    (t, reportWrite a asked t)
  else if a = matchHi 7 ∧ s.dks.snapArmed = true then
    let t := setReg a (regWord s a &&& ~~~ (ones &&& Word.mask 30 30)) s
    (t, reportWrite a asked t)
  else if (slotOf a 0x110000 4 17).isSome then
    let t := writeTamper a asked s
    (rearm (fun _ => false) t, reportWrite a asked t)
  else if a = 0x110044 then
    if ones.bit 0 = true ∧ s.tmp.frozen = true then
      (if freezeHolds s then (s, reportBit a 0 asked) else (unfreeze s, []))
    else (s, [])
  else
    let s0 := beforeWrite a s
    let s1 := setReg a (yielded s0 a (mergeWord a (regWord s0 a) asked ones)) s0
    let (t, rep) := afterWrite a s0 ones s1
    (t, reportWrite a asked t ++ rep)

/-! ## REG_WRITE (R67) -/

def opRegWrite : Op :=
  { code := 0x0103, worlds := [0, 1],
    specs := [addrElem, { typ := 0x8102, len := fun n => decide (4 ≤ n) && decide (n ≤ 256) && decide (n % 4 = 0), req := true },
      el 0x8103 4] }

/-- The writes of a body: address and word. -/
def writesOf (b : Body) : List (Nat × Word) :=
  let ws := (wordsOf b 0x8102).take (match elemOf b 0x8102 with | some e => e.len / 4 | none => 0)
  ws.zipIdx.map fun e => (addrOf b + 4 * e.2, e.1)

/-- MASK of a body, all ones where it is absent. -/
def writeMask (b : Body) : Word := match elemOf b 0x8103 with | some e => wordAt e.val 0 | none => 0xFFFFFFFF

/-- The status that refuses a write of a window's GO (R555). -/
def goRefused (s : State) (mask : Word) (x : Nat × Word) : Option Nat :=
  match winAt x.1 with
  | none => none
  | some w =>
    if ((x.2 &&& mask).bit 31) = false then none
    else
      let c := mergeWord x.1 (regWord s x.1) (askedWord s x.1 x.2 mask) 0
      if winCount w ≤ c.bits 23 0 then some stNotFound
      else if c.bits 30 28 = 1 ∧ w ≠ .que then some stState
      else none

/-- Registers are written in ascending order. -/
def writeAll (mask : Word) : List (Nat × Word) → State → State × Body
  | [], s => (s, [])
  | x :: r, s =>
    let (s, rep) := writeOne x.1 x.2 mask s
    let (s, more) := writeAll mask r s
    (s, rep ++ more)

/-- REG_WRITE: all or nothing; in the approved mode nothing that breaks a condition of it (R400). -/
def ansRegWrite (b : Body) (s : State) : Ans :=
  let l := writesOf b
  let mask := writeMask b
  if l.all (fun x => blockExists x.1) = false then .fail stNotFound 0
  else if l.any (fun x => domainDown s x.1) = true then .fail stState 0
  else match l.findSome? (goRefused s mask) with
    | some st => .fail st 0
    | none =>
      let (t, rep) := writeAll mask l s
      if s.keys.inForce = true ∧ unmet t ≠ 0 then .fail stNotApproved 0 else .done rep (settleApproved t)

def execRegWrite (h : Hdr) (b : Body) (s : State) : Out := run (.regWrite h b) opRegWrite h b (ansRegWrite b) s

/-! ## Rows that are one write of one register -/

/-- The body of a write of one register. -/
def writeBody (a : Nat) (w : Word) : Body := [elemW 0x8101 [w32 a], elemW 0x8102 [w]]

/-- The body of a write of the bits of a mask. -/
def bitsBody (a : Nat) (w mask : Word) : Body := [elemW 0x8101 [w32 a], elemW 0x8102 [w], elemW 0x8103 [mask]]

/-- A REG_WRITE of a body. -/
def runWrite (i : Instr) (h : Hdr) (b : Body) (s : State) : Out := run i opRegWrite h b (ansRegWrite b) s

def execDataflowApply (h : Hdr) (value : Word) (s : State) : Out := runWrite (.dataflowApply h value) h (writeBody 0x000040 (value ||| 0x200)) s
def execRecoveryClr (h : Hdr) (s : State) : Out := runWrite (.recoveryClr h) h (bitsBody 0x000048 0x20000 0x20000) s
def execTestReq (h : Hdr) (on : Bool) (s : State) : Out := runWrite (.testReq h on) h (bitsBody 0x000048 (if on then 0x10000 else 0) 0x10000) s
def execTmuStepGo (h : Hdr) (s : State) : Out := runWrite (.tmuStepGo h) h (writeBody 0x04003C 1) s
def execMatchArm (h : Hdr) (n hi : Nat) (s : State) : Out := runWrite (.matchArm h n hi) h (bitsBody (matchHi (n % 8)) (w32 (2 ^ 31 + hi % 256)) 0x800000FF) s
def execMatchDisarm (h : Hdr) (n hi : Nat) (s : State) : Out := runWrite (.matchDisarm h n hi) h (bitsBody (matchHi (n % 8)) (w32 (hi % 256)) 0x800000FF) s
def execExpressEnSet (h : Hdr) (brick : Nat) (s : State) : Out := runWrite (.expressEnSet h brick) h (bitsBody (0x070000 + 0x100 * (brick % 4)) 1 1) s
def execExpressEnClear (h : Hdr) (brick : Nat) (s : State) : Out := runWrite (.expressEnClear h brick) h (bitsBody (0x070000 + 0x100 * (brick % 4)) 0 1) s
def execTxFirWrite (h : Hdr) (lane : Nat) (value : Word) (s : State) : Out := runWrite (.txFirWrite h lane value) h (writeBody (0x011004 + 0x20 * (lane % 36)) value) s
def execRxEqWrite (h : Hdr) (lane : Nat) (value : Word) (s : State) : Out := runWrite (.rxEqWrite h lane value) h (writeBody (0x011008 + 0x20 * (lane % 36)) value) s
def execLaneMapWrite (h : Hdr) (quad : Nat) (value : Word) (s : State) : Out := runWrite (.laneMapWrite h quad value) h (writeBody (0x010000 + 4 * (quad % 9)) value) s
def execBondLaneEnable (h : Hdr) (value : Word) (s : State) : Out := runWrite (.bondLaneEnable h value) h (writeBody 0x010200 value) s
def execPortEnable (h : Hdr) (port : Nat) (s : State) : Out := runWrite (.portEnable h port) h (bitsBody (0x020000 + 0x10 * (port % 6)) 1 1) s
def execPortDisable (h : Hdr) (port : Nat) (s : State) : Out := runWrite (.portDisable h port) h (bitsBody (0x020000 + 0x10 * (port % 6)) 0 1) s
def execExpressMaskWrite (h : Hdr) (port : Nat) (value : Word) (s : State) : Out :=
  runWrite (.expressMaskWrite h port value) h (bitsBody (0x020008 + 0x10 * (port % 4)) value 0x00FF0000) s
def execMaxResWrite (h : Hdr) (e : Nat) (value : Word) (s : State) : Out := runWrite (.maxResWrite h e value) h (writeBody 0x0A0000 value) s
def execRollIntervalWrite (h : Hdr) (value : Word) (s : State) : Out := runWrite (.rollIntervalWrite h value) h (bitsBody 0x100008 value 0x00FF0000) s
def execFrozenClear (h : Hdr) (s : State) : Out := runWrite (.frozenClear h) h (bitsBody 0x110044 1 1) s
def execSnapTriggerWrite (h : Hdr) (s : State) : Out := runWrite (.snapTriggerWrite h) h (bitsBody 0x130004 4 4) s
def execSnapRelease (h : Hdr) (sel : Nat) (s : State) : Out := runWrite (.snapRelease h sel) h (writeBody 0x130004 (w32 (2 + sel % 2))) s
def execPerfClear (h : Hdr) (s : State) : Out := runWrite (.perfClear h) h (bitsBody 0x130050 2 2) s
def execPerfRun (h : Hdr) (run_ : Bool) (s : State) : Out := runWrite (.perfRun h run_) h (bitsBody 0x130050 (if run_ then 1 else 0) 1) s
def execPwrDvfsWrite (h : Hdr) (brick : Nat) (value : Word) (s : State) : Out := runWrite (.pwrDvfsWrite h brick value) h (writeBody (0x120020 + 4 * (brick % 4)) value) s

/-- A write of GO with OP read. -/
def execWinGoRead (h : Hdr) (win : RegWin) (index tag : Nat) (s : State) : Out :=
  runWrite (.winGoRead h win index tag) h (writeBody (winBase win + 0x40) (w32 (2 ^ 31 + tag % 16 * 2 ^ 24 + index % 2 ^ 24))) s

/-- A write of DATA and then GO with OP write, as one REG_WRITE of 17 words. -/
def execWinGoWrite (h : Hdr) (win : RegWin) (index tag : Nat) (data : List Word) (s : State) : Out :=
  runWrite (.winGoWrite h win index tag data) h [elemW 0x8101 [w32 (winBase win)],
    elemW 0x8102 ((data ++ List.replicate 16 0).take 16 ++ [w32 (2 ^ 31 + 2 ^ 28 + tag % 16 * 2 ^ 24 + index % 2 ^ 24)])] s

/-! ## DATAFLOW_REMAP (R17, R18) -/

/-- The reorder buffers of the ports whose data flow changes are empty. -/
def flowDrained (s : State) : Bool :=
  s.brk.bricks.all fun e => e.2.held.all fun h => h.gone || !(portsChanging s).contains h.port

/-- A line port takes its new mode: its framer starts anew, COMPAT yields outside trunk mode, its link restarts (R17, R307). -/
def lineMode (p : Nat) (s : State) : State :=
  let x := clearFramer (trunk s p)
  let s := setTrunk p { x with
    lof := false, labelFault := false, dirConflict := false, rdiRx := false, outSince := if lpTrunk s p then some s.now else none } s
  restartLink (18 + p) (if lpTrunk s p then s else setFld (trkCfg p) 1 1 0 s)

/-- The banks that no longer lie on their SA's tile are released, and given on (R253, R263). -/
def rehomeBanks (s : State) : State :=
  let away := fun (b : Nat) (e : Nat × KsBank) => match saOf s e.2.sa with | some a => decide (bankHome s a ≠ (b, e.1 / 16)) | none => true
  let gone := [0, 1].flatMap fun b => ((brick s b).banks.filter (away b)).map fun e => e.2.sa
  let s := [0, 1].foldl (fun t b => setBrick b { brick t b with banks := (brick s b).banks.filter fun e => !away b e } t) s
  let s : State := { s with sas := { s.sas with sas := s.sas.sas.map fun e => if gone.contains e.1 then (e.1, { e.2 with banked := false }) else e } }
  fillBanks 1 0 (fillBanks 0 1 (fillBanks 0 0 s))

/-- B0 gives tile 1 the twin's role in protected-line mode with its express lane on (R264); the banks follow. -/
def twinTile (s : State) : State :=
  let x := tile s 0 1
  let on := protLine s && flag s 0x070000 0
  rehomeBanks (if x.failed = true ∨ (on = false ∧ x.role ≠ 2) then s else setTile 0 1 { x with role := if on then 2 else 0 } s)

/-- The applied data flow: frames queued for changed egresses are discarded and counted, the bricks re-mapped, the ports reopened. -/
def remap (s : State) : State :=
  if flag s 0x000040 8 = false ∨ flowDrained s = false then s
  else
    let chg := portsChanging s
    let was := fld s 0x000040 7 4
    let new := s.brk.flow
    let s := ((s.que.frames ++ s.que.hold).filter fun h => chg.contains h.eport && !h.gone).foldl (fun s h => discardAt h s) s
    let s := [0, 1].foldl (fun s p => if chg.contains (2 + p) then dropUnits p s else s) s
    let s := setFld 0x000040 8 8 0 (setFld 0x000040 7 4 new s)
    let s := if was.testBit 2 = new.testBit 2 then s
      else { s with brk := { s.brk with seqs := [], streams := [] } }
    let s := [0, 1].foldl (fun s p => if was.testBit p = new.testBit p then s else lineMode p s) s
    settleFaults (twinTile (powerLanes s))

def execDataflowRemap (t : Nat) (s : State) : Out := ev t remap s

end Sys2Proof.Machine
end

