-- ==== Sys2Proof/Machine/Dispatch.lean ====
section
/-! DEFINITION. One arm per command: a direct call of its meaning. -/
namespace Sys2Proof.Machine
open Sys2Proof

def exec (i : Instr) (s : State) : Host.Outcome State Fault Refusal :=
  match i with
  | .sessionChallenge h b => Sys2Proof.Machine.execSessionChallenge h b s
  | .sessionOpen h b cred challenge pub ek ok => Sys2Proof.Machine.execSessionOpen h b cred challenge pub ek ok s
  | .sessionClose h b => Sys2Proof.Machine.execSessionClose h b s
  | .nop h b => Sys2Proof.Machine.execNop h b s
  | .opStatus h b op => Sys2Proof.Machine.execOpStatus h b op s
  | .cmdAbort h b target => Sys2Proof.Machine.execCmdAbort h b target s
  | .eventSubscribe h b mailbox classes => Sys2Proof.Machine.execEventSubscribe h b mailbox classes s
  | .idRead h b => Sys2Proof.Machine.execIdRead h b s
  | .deviceStatus h b => Sys2Proof.Machine.execDeviceStatus h b s
  | .regRead h b => Sys2Proof.Machine.execRegRead h b s
  | .regWrite h b => Sys2Proof.Machine.execRegWrite h b s
  | .deviceReset h b => Sys2Proof.Machine.execDeviceReset h b s
  | .imageWrite h b => Sys2Proof.Machine.execImageWrite h b s
  | .imageActivate h b ok => Sys2Proof.Machine.execImageActivate h b ok s
  | .imageResealDone t => Sys2Proof.Machine.execImageResealDone t s
  | .imageStatus h b => Sys2Proof.Machine.execImageStatus h b s
  | .trialCommit t => Sys2Proof.Machine.execTrialCommit t s
  | .lanePrbs h b => Sys2Proof.Machine.execLanePrbs h b s
  | .laneMargin h b => Sys2Proof.Machine.execLaneMargin h b s
  | .laneMarginGroupDone t => Sys2Proof.Machine.execLaneMarginGroupDone t s
  | .captureRead h b => Sys2Proof.Machine.execCaptureRead h b s
  | .portStatsRead h b => Sys2Proof.Machine.execPortStatsRead h b s
  | .timeRead h b => Sys2Proof.Machine.execTimeRead h b s
  | .timeEpochNew h b => Sys2Proof.Machine.execTimeEpochNew h b s
  | .ptpConfig h b => Sys2Proof.Machine.execPtpConfig h b s
  | .tableInsert h b => Sys2Proof.Machine.execTableInsert h b s
  | .tableDelete h b => Sys2Proof.Machine.execTableDelete h b s
  | .tableRead h b => Sys2Proof.Machine.execTableRead h b s
  | .tableRehash h b => Sys2Proof.Machine.execTableRehash h b s
  | .rehashSwap t brick => Sys2Proof.Machine.execRehashSwap t brick s
  | .lpmAdd h b => Sys2Proof.Machine.execLpmAdd h b s
  | .lpmDelete h b => Sys2Proof.Machine.execLpmDelete h b s
  | .scCreate h b => Sys2Proof.Machine.execScCreate h b s
  | .scDelete h b => Sys2Proof.Machine.execScDelete h b s
  | .saInstall h b => Sys2Proof.Machine.execSaInstall h b s
  | .keyBusTransferDone t => Sys2Proof.Machine.execKeyBusTransferDone t s
  | .saSwitchTx h b => Sys2Proof.Machine.execSaSwitchTx h b s
  | .switchCommit t sc => Sys2Proof.Machine.execSwitchCommit t sc s
  | .saErase h b => Sys2Proof.Machine.execSaErase h b s
  | .saZeroise t entry => Sys2Proof.Machine.execSaZeroise t entry s
  | .saRead h b => Sys2Proof.Machine.execSaRead h b s
  | .mkaConfig h b => Sys2Proof.Machine.execMkaConfig h b s
  | .pathConfig h b => Sys2Proof.Machine.execPathConfig h b s
  | .trunkPmRead h b => Sys2Proof.Machine.execTrunkPmRead h b s
  | .queueConfig h b => Sys2Proof.Machine.execQueueConfig h b s
  | .shaperSet h b => Sys2Proof.Machine.execShaperSet h b s
  | .gclWrite h b => Sys2Proof.Machine.execGclWrite h b s
  | .gclCommit h b => Sys2Proof.Machine.execGclCommit h b s
  | .bondConfigJoin h b => Sys2Proof.Machine.execBondConfigJoin h b s
  | .bondConfigLeave h b => Sys2Proof.Machine.execBondConfigLeave h b s
  | .bondForce h b => Sys2Proof.Machine.execBondForce h b s
  | .bondResign h b => Sys2Proof.Machine.execBondResign h b s
  | .bondStatus h b => Sys2Proof.Machine.execBondStatus h b s
  | .keyGenerate h b => Sys2Proof.Machine.execKeyGenerate h b s
  | .keyImportWrapped h b kwpOk valid typ use own value => Sys2Proof.Machine.execKeyImportWrapped h b kwpOk valid typ use own value s
  | .keyExportWrapped h b => Sys2Proof.Machine.execKeyExportWrapped h b s
  | .keyErase h b => Sys2Proof.Machine.execKeyErase h b s
  | .keyAttest h b => Sys2Proof.Machine.execKeyAttest h b s
  | .lifecycleChange h b => Sys2Proof.Machine.execLifecycleChange h b s
  | .officerEnrol h b => Sys2Proof.Machine.execOfficerEnrol h b s
  | .officerRevoke h b => Sys2Proof.Machine.execOfficerRevoke h b s
  | .dualAuthorise h b => Sys2Proof.Machine.execDualAuthorise h b s
  | .debugEnable h b => Sys2Proof.Machine.execDebugEnable h b s
  | .sign h b => Sys2Proof.Machine.execSign h b s
  | .verify h b verdict bad => Sys2Proof.Machine.execVerify h b verdict bad s
  | .kemEncap h b bad => Sys2Proof.Machine.execKemEncap h b bad s
  | .kemDecap h b => Sys2Proof.Machine.execKemDecap h b s
  | .keyAgree h b bad => Sys2Proof.Machine.execKeyAgree h b bad s
  | .hash h b => Sys2Proof.Machine.execHash h b s
  | .drbgRead h b => Sys2Proof.Machine.execDrbgRead h b s
  | .vciPageAssign h b => Sys2Proof.Machine.execVciPageAssign h b s
  | .domainEnrolChallenge h b ok serial idDig => Sys2Proof.Machine.execDomainEnrolChallenge h b ok serial idDig s
  | .domainEnrolPrepare h b => Sys2Proof.Machine.execDomainEnrolPrepare h b s
  | .domainEnrolAdmit h b sigOk => Sys2Proof.Machine.execDomainEnrolAdmit h b sigOk s
  | .domainEnrolAccept h b sigOk => Sys2Proof.Machine.execDomainEnrolAccept h b sigOk s
  | .domainEnrolRevoke h b => Sys2Proof.Machine.execDomainEnrolRevoke h b s
  | .domainEnrolRosterDelta h b sigOk => Sys2Proof.Machine.execDomainEnrolRosterDelta h b sigOk s
  | .domainKeyDistribute h b bundle => Sys2Proof.Machine.execDomainKeyDistribute h b bundle s
  | .domainRollover h b => Sys2Proof.Machine.execDomainRollover h b s
  | .rolloverDeadline t => Sys2Proof.Machine.execRolloverDeadline t s
  | .groupPolicySet h b => Sys2Proof.Machine.execGroupPolicySet h b s
  | .gdoiMemberAdd h b => Sys2Proof.Machine.execGdoiMemberAdd h b s
  | .gdoiMemberRemove h b => Sys2Proof.Machine.execGdoiMemberRemove h b s
  | .tenantCreate h b => Sys2Proof.Machine.execTenantCreate h b s
  | .tenantRateSet h b => Sys2Proof.Machine.execTenantRateSet h b s
  | .domainSnapshot h b => Sys2Proof.Machine.execDomainSnapshot h b s
  | .memKeyRoll h b => Sys2Proof.Machine.execMemKeyRoll h b s
  | .memStatus h b => Sys2Proof.Machine.execMemStatus h b s
  | .tamperConfig h b => Sys2Proof.Machine.execTamperConfig h b s
  | .tamperTest h b => Sys2Proof.Machine.execTamperTest h b s
  | .tamperTestSourceDone t detected => Sys2Proof.Machine.execTamperTestSourceDone t detected s
  | .tamperFuse h b blown => Sys2Proof.Machine.execTamperFuse h b blown s
  | .tamperRearm h b => Sys2Proof.Machine.execTamperRearm h b s
  | .powerStateSet h b => Sys2Proof.Machine.execPowerStateSet h b s
  | .dvfsSet h b => Sys2Proof.Machine.execDvfsSet h b s
  | .wakeConfig h b => Sys2Proof.Machine.execWakeConfig h b s
  | .snapArm h b => Sys2Proof.Machine.execSnapArm h b s
  | .snapRead h b => Sys2Proof.Machine.execSnapRead h b s
  | .perfConfig h b => Sys2Proof.Machine.execPerfConfig h b s
  | .perfRead h b => Sys2Proof.Machine.execPerfRead h b s
  | .recorderRead h b => Sys2Proof.Machine.execRecorderRead h b s
  | .recorderClear h b => Sys2Proof.Machine.execRecorderClear h b s
  | .selftestRun h b => Sys2Proof.Machine.execSelftestRun h b s
  | .dataflowApply h value => Sys2Proof.Machine.execDataflowApply h value s
  | .dataflowRemap t => Sys2Proof.Machine.execDataflowRemap t s
  | .recoveryClr h => Sys2Proof.Machine.execRecoveryClr h s
  | .testReq h on => Sys2Proof.Machine.execTestReq h on s
  | .tmuStepGo h => Sys2Proof.Machine.execTmuStepGo h s
  | .matchArm h n hi => Sys2Proof.Machine.execMatchArm h n hi s
  | .matchDisarm h n hi => Sys2Proof.Machine.execMatchDisarm h n hi s
  | .expressEnSet h brick => Sys2Proof.Machine.execExpressEnSet h brick s
  | .expressEnClear h brick => Sys2Proof.Machine.execExpressEnClear h brick s
  | .expressRoleSwitch t brick => Sys2Proof.Machine.execExpressRoleSwitch t brick s
  | .txFirWrite h lane value => Sys2Proof.Machine.execTxFirWrite h lane value s
  | .rxEqWrite h lane value => Sys2Proof.Machine.execRxEqWrite h lane value s
  | .laneMapWrite h quad value => Sys2Proof.Machine.execLaneMapWrite h quad value s
  | .bondLaneEnable h value => Sys2Proof.Machine.execBondLaneEnable h value s
  | .portEnable h port => Sys2Proof.Machine.execPortEnable h port s
  | .portDisable h port => Sys2Proof.Machine.execPortDisable h port s
  | .expressMaskWrite h port value => Sys2Proof.Machine.execExpressMaskWrite h port value s
  | .maxResWrite h e value => Sys2Proof.Machine.execMaxResWrite h e value s
  | .rollIntervalWrite h value => Sys2Proof.Machine.execRollIntervalWrite h value s
  | .frozenClear h => Sys2Proof.Machine.execFrozenClear h s
  | .snapTriggerWrite h => Sys2Proof.Machine.execSnapTriggerWrite h s
  | .snapRelease h sel => Sys2Proof.Machine.execSnapRelease h sel s
  | .perfClear h => Sys2Proof.Machine.execPerfClear h s
  | .perfRun h run => Sys2Proof.Machine.execPerfRun h run s
  | .pwrDvfsWrite h brick value => Sys2Proof.Machine.execPwrDvfsWrite h brick value s
  | .winGoRead h win index tag => Sys2Proof.Machine.execWinGoRead h win index tag s
  | .winGoWrite h win index tag data => Sys2Proof.Machine.execWinGoWrite h win index tag data s
  | .slowBlockWrite t bytes pecOk => Sys2Proof.Machine.execSlowBlockWrite t bytes pecOk s
  | .slowSubmit t pecOk => Sys2Proof.Machine.execSlowSubmit t pecOk s
  | .slowBlockRead t => Sys2Proof.Machine.execSlowBlockRead t s
  | .slowStatusRead t => Sys2Proof.Machine.execSlowStatusRead t s
  | .slowPortTimeout t => Sys2Proof.Machine.execSlowPortTimeout t s
  | .powerOnReset t => Sys2Proof.Machine.execPowerOnReset t s
  | .brownOutReset t => Sys2Proof.Machine.execBrownOutReset t s
  | .pinReset t => Sys2Proof.Machine.execPinReset t s
  | .commandWarmReset t => Sys2Proof.Machine.execCommandWarmReset t s
  | .watchdogReset t vault => Sys2Proof.Machine.execWatchdogReset t vault s
  | .tamperReset t => Sys2Proof.Machine.execTamperReset t s
  | .resetRelease t balls => Sys2Proof.Machine.execResetRelease t balls s
  | .imageBoot t okA okB => Sys2Proof.Machine.execImageBoot t okA okB s
  | .vaultKatPass t => Sys2Proof.Machine.execVaultKatPass t s
  | .ddrTrainingDone t ch ok cap => Sys2Proof.Machine.execDdrTrainingDone t ch ok cap s
  | .memInitDone t => Sys2Proof.Machine.execMemInitDone t s
  | .expressReady t => Sys2Proof.Machine.execExpressReady t s
  | .fullReady t => Sys2Proof.Machine.execFullReady t s
  | .linkUp t sp => Sys2Proof.Machine.execLinkUp t sp s
  | .linkDown t sp localFault => Sys2Proof.Machine.execLinkDown t sp localFault s
  | .remoteFaultRx t sp => Sys2Proof.Machine.execRemoteFaultRx t sp s
  | .refLoss t quad => Sys2Proof.Machine.execRefLoss t quad s
  | .mmVerifyAttempt t sp answered => Sys2Proof.Machine.execMmVerifyAttempt t sp answered s
  | .macControlRx t sp frame => Sys2Proof.Machine.execMacControlRx t sp frame s
  | .pauseWatchdogTrip t sp cls => Sys2Proof.Machine.execPauseWatchdogTrip t sp cls s
  | .pauseWatchdogEnd t sp cls => Sys2Proof.Machine.execPauseWatchdogEnd t sp cls s
  | .counterPoll t => Sys2Proof.Machine.execCounterPoll t s
  | .clearFrameRx t sp frame => Sys2Proof.Machine.execClearFrameRx t sp frame s
  | .lineFrameRx t port frame => Sys2Proof.Machine.execLineFrameRx t port frame s
  | .stagingRelease t id => Sys2Proof.Machine.execStagingRelease t id s
  | .contextFetchDone t id => Sys2Proof.Machine.execContextFetchDone t id s
  | .bulkDispatch t id => Sys2Proof.Machine.execBulkDispatch t id s
  | .expressLaneStart t id => Sys2Proof.Machine.execExpressLaneStart t id s
  | .primingDone t brick bank => Sys2Proof.Machine.execPrimingDone t brick bank s
  | .tileFinish t id => Sys2Proof.Machine.execTileFinish t id s
  | .tagResult t id ok => Sys2Proof.Machine.execTagResult t id ok s
  | .reorderRelease t id => Sys2Proof.Machine.execReorderRelease t id s
  | .duplicateDiscard t id => Sys2Proof.Machine.execDuplicateDiscard t id s
  | .heldCopyRelease t stream => Sys2Proof.Machine.execHeldCopyRelease t stream s
  | .learnApply t brick => Sys2Proof.Machine.execLearnApply t brick s
  | .tombstoneFree t brick => Sys2Proof.Machine.execTombstoneFree t brick s
  | .agerVisit t brick way => Sys2Proof.Machine.execAgerVisit t brick way s
  | .expressHoldEnter t id => Sys2Proof.Machine.execExpressHoldEnter t id s
  | .egressSelect t sp => Sys2Proof.Machine.execEgressSelect t sp s
  | .frameTxDone t sp => Sys2Proof.Machine.execFrameTxDone t sp s
  | .frameAged t id => Sys2Proof.Machine.execFrameAged t id s
  | .shaperUpdate t => Sys2Proof.Machine.execShaperUpdate t s
  | .gateEntryChange t e => Sys2Proof.Machine.execGateEntryChange t e s
  | .gclChangeInstant t e => Sys2Proof.Machine.execGclChangeInstant t e s
  | .onestepDispatch t n => Sys2Proof.Machine.execOnestepDispatch t n s
  | .onestepRelease t n => Sys2Proof.Machine.execOnestepRelease t n s
  | .retireTimerExpiry t entry => Sys2Proof.Machine.execRetireTimerExpiry t entry s
  | .tileTestStart t brick tile => Sys2Proof.Machine.execTileTestStart t brick tile s
  | .tileTestDone t brick tile ok => Sys2Proof.Machine.execTileTestDone t brick tile ok s
  | .evIstOverdue t unit => Sys2Proof.Machine.execEvIstOverdue t unit s
  | .mkpduRx t ca info => Sys2Proof.Machine.execMkpduRx t ca info s
  | .mkaHello t ca => Sys2Proof.Machine.execMkaHello t ca s
  | .mkaPeerLost t ca sci => Sys2Proof.Machine.execMkaPeerLost t ca sci s
  | .mkaRekeyInterval t ca => Sys2Proof.Machine.execMkaRekeyInterval t ca s
  | .courseHeaderTx t port => Sys2Proof.Machine.execCourseHeaderTx t port s
  | .directorySlotBuild t port => Sys2Proof.Machine.execDirectorySlotBuild t port s
  | .runStart t port path => Sys2Proof.Machine.execRunStart t port path s
  | .courseHeaderRx t port hdr => Sys2Proof.Machine.execCourseHeaderRx t port hdr s
  | .trunkKeyEngage t port => Sys2Proof.Machine.execTrunkKeyEngage t port s
  | .phaseSwitch t port => Sys2Proof.Machine.execPhaseSwitch t port s
  | .phaseOldKeyErase t port => Sys2Proof.Machine.execPhaseOldKeyErase t port s
  | .trunkCountCeiling t port => Sys2Proof.Machine.execTrunkCountCeiling t port s
  | .directorySlotRx t port group bytes => Sys2Proof.Machine.execDirectorySlotRx t port group bytes s
  | .unitRx t port path unit => Sys2Proof.Machine.execUnitRx t port path unit s
  | .passUnitRx t port path unit => Sys2Proof.Machine.execPassUnitRx t port path unit s
  | .lofDeclare t port => Sys2Proof.Machine.execLofDeclare t port s
  | .lofClear t port => Sys2Proof.Machine.execLofClear t port s
  | .pathAisTimeout t port path => Sys2Proof.Machine.execPathAisTimeout t port path s
  | .aisInsert t port path => Sys2Proof.Machine.execAisInsert t port path s
  | .pmSecond t port => Sys2Proof.Machine.execPmSecond t port s
  | .bondBlockRx t lane blk => Sys2Proof.Machine.execBondBlockRx t lane blk s
  | .bondLaneInFrame t lane => Sys2Proof.Machine.execBondLaneInFrame t lane s
  | .bondLaneOutOfFrame t lane => Sys2Proof.Machine.execBondLaneOutOfFrame t lane s
  | .bondLinkStateChange t => Sys2Proof.Machine.execBondLinkStateChange t s
  | .helloRx t m => Sys2Proof.Machine.execHelloRx t m s
  | .leaseTx t => Sys2Proof.Machine.execLeaseTx t s
  | .leaseRx t m => Sys2Proof.Machine.execLeaseRx t m s
  | .leaseAckRx t m => Sys2Proof.Machine.execLeaseAckRx t m s
  | .leaseFence t => Sys2Proof.Machine.execLeaseFence t s
  | .leaseExpiry t => Sys2Proof.Machine.execLeaseExpiry t s
  | .resignRx t m => Sys2Proof.Machine.execResignRx t m s
  | .fencedRx t m => Sys2Proof.Machine.execFencedRx t m s
  | .resignCondition t cause => Sys2Proof.Machine.execResignCondition t cause s
  | .mirrorRx t m => Sys2Proof.Machine.execMirrorRx t m s
  | .mirrorAckRx t m => Sys2Proof.Machine.execMirrorAckRx t m s
  | .mirrorRetransmit t => Sys2Proof.Machine.execMirrorRetransmit t s
  | .mirrorGapTimeout t => Sys2Proof.Machine.execMirrorGapTimeout t s
  | .syncReqRx t m => Sys2Proof.Machine.execSyncReqRx t m s
  | .snapshotEndRx t m => Sys2Proof.Machine.execSnapshotEndRx t m s
  | .syncDoneRx t m => Sys2Proof.Machine.execSyncDoneRx t m s
  | .syncAckRx t m => Sys2Proof.Machine.execSyncAckRx t m s
  | .ptpMessageRx t port msg => Sys2Proof.Machine.execPtpMessageRx t port msg s
  | .ptpMessageTx t port kind dep => Sys2Proof.Machine.execPtpMessageTx t port kind dep s
  | .syncTimeout t => Sys2Proof.Machine.execSyncTimeout t s
  | .ref10mFault t => Sys2Proof.Machine.execRef10mFault t s
  | .ref10mRestore t => Sys2Proof.Machine.execRef10mRestore t s
  | .ppsInEdge t => Sys2Proof.Machine.execPpsInEdge t s
  | .ppsInMissing t => Sys2Proof.Machine.execPpsInMissing t s
  | .ppsOutEdge t => Sys2Proof.Machine.execPpsOutEdge t s
  | .ppsOutWidthEnd t => Sys2Proof.Machine.execPpsOutWidthEnd t s
  | .timeSave t => Sys2Proof.Machine.execTimeSave t s
  | .matchFire t n => Sys2Proof.Machine.execMatchFire t n s
  | .kilnYieldPoint t lane => Sys2Proof.Machine.execKilnYieldPoint t lane s
  | .kilnJobEnd t lane fault kat => Sys2Proof.Machine.execKilnJobEnd t lane fault kat s
  | .latticeJobEnd t pipe fault kat => Sys2Proof.Machine.execLatticeJobEnd t pipe fault kat s
  | .keyReload t handle ok => Sys2Proof.Machine.execKeyReload t handle ok s
  | .drbgReseed t inst => Sys2Proof.Machine.execDrbgReseed t inst s
  | .rngHealthFail t test => Sys2Proof.Machine.execRngHealthFail t test s
  | .rngStartupDone t => Sys2Proof.Machine.execRngStartupDone t s
  | .istInterval t unit ok => Sys2Proof.Machine.execIstInterval t unit ok s
  | .ticketExpiry t ticket => Sys2Proof.Machine.execTicketExpiry t ticket s
  | .sessionIdleTimeout t session => Sys2Proof.Machine.execSessionIdleTimeout t session s
  | .challengeExpiry t => Sys2Proof.Machine.execChallengeExpiry t s
  | .dksRetry t device => Sys2Proof.Machine.execDksRetry t device s
  | .ephemeralKeyRotate t => Sys2Proof.Machine.execEphemeralKeyRotate t s
  | .tekNextGenerate t group => Sys2Proof.Machine.execTekNextGenerate t group s
  | .tekExpiry t group => Sys2Proof.Machine.execTekExpiry t group s
  | .gdoiMessageRx t msg => Sys2Proof.Machine.execGdoiMessageRx t msg s
  | .arpRequestRx t ip mac => Sys2Proof.Machine.execArpRequestRx t ip mac s
  | .memRead t master ch addr fault => Sys2Proof.Machine.execMemRead t master ch addr fault s
  | .memWrite t master ch addr words whole fault => Sys2Proof.Machine.execMemWrite t master ch addr words whole fault s
  | .haltResetTimer t => Sys2Proof.Machine.execHaltResetTimer t s
  | .keyRollDue t => Sys2Proof.Machine.execKeyRollDue t s
  | .sweepEnd t => Sys2Proof.Machine.execSweepEnd t s
  | .tamperAlarm t sources => Sys2Proof.Machine.execTamperAlarm t sources s
  | .idleEntryDone t => Sys2Proof.Machine.execIdleEntryDone t s
  | .idleReturnDone t => Sys2Proof.Machine.execIdleReturnDone t s
  | .standbyEntryDone t => Sys2Proof.Machine.execStandbyEntryDone t s
  | .standbyReturnDone t => Sys2Proof.Machine.execStandbyReturnDone t s
  | .sleepCommitPoint t => Sys2Proof.Machine.execSleepCommitPoint t s
  | .sleepReached t => Sys2Proof.Machine.execSleepReached t s
  | .wakeNLow t => Sys2Proof.Machine.execWakeNLow t s
  | .rtcAlarm t => Sys2Proof.Machine.execRtcAlarm t s
  | .slowPortWake t addr => Sys2Proof.Machine.execSlowPortWake t addr s
  | .wakeDone t => Sys2Proof.Machine.execWakeDone t s
  | .dvfsVoutConfirm t brick mv => Sys2Proof.Machine.execDvfsVoutConfirm t brick mv s
  | .dvfsFault t brick cause => Sys2Proof.Machine.execDvfsFault t brick cause s
  | .aonBrownout t => Sys2Proof.Machine.execAonBrownout t s
  | .snapInEdge t => Sys2Proof.Machine.execSnapInEdge t s
  | .snapshotTrigger t source => Sys2Proof.Machine.execSnapshotTrigger t source s
  | .perfSample t counter value => Sys2Proof.Machine.execPerfSample t counter value s
  | .recorderCommit t => Sys2Proof.Machine.execRecorderCommit t s
  | .tokenRefill t code => Sys2Proof.Machine.execTokenRefill t code s
  | .suppressionWindowClose t code => Sys2Proof.Machine.execSuppressionWindowClose t code s
  | .recoveryWindowExpiry t => Sys2Proof.Machine.execRecoveryWindowExpiry t s
  | .slewEnd t => Sys2Proof.Machine.execSlewEnd t s
  | .domainPeerCompletionRx t device status handle words => Sys2Proof.Machine.execDomainPeerCompletionRx t device status handle words s
  | .tamperConditionClear t source => Sys2Proof.Machine.execTamperConditionClear t source s
  | .pauseTimeExpiry t sp cls => Sys2Proof.Machine.execPauseTimeExpiry t sp cls s
  | .remoteFaultClear t sp => Sys2Proof.Machine.execRemoteFaultClear t sp s
  | .refRestore t quad => Sys2Proof.Machine.execRefRestore t quad s
  | .pllRampDone t brick => Sys2Proof.Machine.execPllRampDone t brick s
  | .vciJobEnd t page => Sys2Proof.Machine.execVciJobEnd t page s
  | .mgmtPortFrameRx t mp frame => Sys2Proof.Machine.execMgmtPortFrameRx t mp frame s
  | .unknownOpcodeFrame h b opcode => Sys2Proof.Machine.execUnknownOpcodeFrame h b opcode s

end Sys2Proof.Machine
end

