-- ==== Sys2Proof/Safety.lean ====
section
/-! DEFINITION. What counts as a good state: the register store and the external memory in their one canonical form. -/
namespace Sys2Proof.Machine
open Sys2Proof

/-- The register store is canonical: addresses strictly rising, no entry equal to the register's reset word. -/
def Regs.wf (m : KMap Word) : Bool := wfTable m && m.all fun e => decide (e.2 ≠ resetWord e.1)

/-- A channel's memory is canonical: addresses strictly rising, no entry equal to the 0 that an unlisted byte reads as. -/
def Memory.wf (m : List Host.Cell) : Bool := wfTable m && m.all fun e => decide (e.2 ≠ 0)

/-- The invariant of every step: equal register contents and equal memory contents are equal data. -/
structure Canon (s : State) : Prop where
  regs : Regs.wf s.regs = true
  mem0 : Memory.wf s.mem.c0.data = true
  mem1 : Memory.wf s.mem.c1.data = true

/-- The parts of the state that a command may change beside time and the queue: the free values used, what has been sent, the registers,
and each unit; `ddr` is the data of both memory channels, `mem` everything else of the memory controller with it. -/
inductive Part where
  | freeCount | sent | regs | cmd | boot | lane | port | time | cls | sas | brk
  | trk | que | bnd | keys | eng | dks | mem | tmp | pwr | obs | evr | ddr
  deriving DecidableEq, Repr

/-- Two states agree on a part. -/
def Part.same (s t : State) : Part → Prop
  | .freeCount => s.freeCount = t.freeCount
  | .sent => s.sent = t.sent
  | .regs => s.regs = t.regs
  | .cmd => s.cmd = t.cmd
  | .boot => s.boot = t.boot
  | .lane => s.lane = t.lane
  | .port => s.port = t.port
  | .time => s.time = t.time
  | .cls => s.cls = t.cls
  | .sas => s.sas = t.sas
  | .brk => s.brk = t.brk
  | .trk => s.trk = t.trk
  | .que => s.que = t.que
  | .bnd => s.bnd = t.bnd
  | .keys => s.keys = t.keys
  | .eng => s.eng = t.eng
  | .dks => s.dks = t.dks
  | .mem => s.mem = t.mem
  | .tmp => s.tmp = t.tmp
  | .pwr => s.pwr = t.pwr
  | .obs => s.obs = t.obs
  | .evr => s.evr = t.evr
  | .ddr => s.mem.c0.data = t.mem.c0.data ∧ s.mem.c1.data = t.mem.c1.data

/-- What answering a command may change: sent frames, registers, the commands in flight and the sessions, snapshots and
counters, the event recorder. -/
def answering : List Part := [.sent, .regs, .cmd, .obs, .evr]

/-- Every part but those listed. -/
def allBut (l : List Part) : List Part :=
  [.freeCount, .sent, .regs, .cmd, .boot, .lane, .port, .time, .cls, .sas, .brk, .trk, .que, .bnd, .keys, .eng, .dks, .mem, .tmp, .pwr,
    .obs, .evr, .ddr].filter fun p => !l.contains p

/-- The parts of the state a command may change, whatever its operands: every other part it leaves as it is. -/
def touches : Instr → List Part
  | .sessionChallenge .. | .sessionOpen .. => answering ++ [.freeCount, .eng]
  | .sessionClose .. | .nop .. | .opStatus .. | .eventSubscribe .. | .idRead .. | .deviceStatus .. | .imageStatus ..
  | .portStatsRead .. | .timeRead .. | .tableRead .. | .saRead .. | .trunkPmRead .. | .bondStatus .. | .memStatus .. | .wakeConfig ..
  | .snapRead .. | .unknownOpcodeFrame .. => answering
  | .cmdAbort .. => answering ++ [.cls, .keys, .dks]
  | .regRead .. => answering ++ [.freeCount, .port, .time]
  | .regWrite .. | .dataflowApply .. | .recoveryClr .. | .testReq .. | .tmuStepGo .. | .matchArm .. | .matchDisarm ..
  | .expressEnSet .. | .expressEnClear .. | .txFirWrite .. | .rxEqWrite .. | .laneMapWrite .. | .bondLaneEnable .. | .portEnable ..
  | .portDisable .. | .expressMaskWrite .. | .maxResWrite .. | .rollIntervalWrite .. | .frozenClear .. | .snapTriggerWrite ..
  | .snapRelease .. | .perfClear .. | .perfRun .. | .pwrDvfsWrite .. | .winGoRead .. | .winGoWrite .. => allBut [.ddr]
  | .deviceReset .. | .imageWrite .. | .imageActivate .. => answering ++ [.boot]
  | .imageResealDone .. => [.sent, .regs, .cmd, .boot, .keys, .obs]
  | .trialCommit .. => [.boot, .keys]
  | .lanePrbs .. => answering ++ [.freeCount, .lane]
  | .laneMargin .. => answering ++ [.lane]
  | .laneMarginGroupDone .. => [.freeCount, .sent, .regs, .cmd, .lane, .obs]
  | .captureRead .. => answering ++ [.port]
  | .timeEpochNew .. => answering ++ [.time, .trk]
  | .ptpConfig .. => answering ++ [.time, .sas, .brk]
  | .tableInsert .. | .tableDelete .. | .tableRehash .. | .lpmAdd .. | .lpmDelete .. => answering ++ [.cls]
  | .rehashSwap .. => [.sent, .regs, .cmd, .cls, .obs]
  | .scCreate .. | .saSwitchTx .. | .saErase .. => answering ++ [.lane, .sas, .brk, .bnd]
  | .scDelete .. | .mkaConfig .. => answering ++ [.lane, .cls, .sas, .brk, .bnd]
  | .saInstall .. => answering ++ [.sas, .keys, .dks]
  | .keyBusTransferDone .. => answering ++ [.lane, .sas, .brk, .trk, .bnd, .keys]
  | .switchCommit .. => [.sent, .regs, .cmd, .lane, .sas, .brk, .bnd, .obs]
  | .saZeroise .. => [.sent, .regs, .cmd, .lane, .sas, .bnd, .obs]
  | .pathConfig .. => answering ++ [.lane, .port, .sas, .brk, .trk, .que, .bnd, .keys, .dks]
  | .queueConfig .. | .shaperSet .. | .gclWrite .. | .gclCommit .. => answering ++ [.que]
  | .bondConfigJoin .. | .bondConfigLeave .. | .bondForce .. | .helloRx .. => allBut [.time, .dks, .mem, .tmp, .ddr]
  | .bondResign .. | .refLoss .. | .leaseFence .. | .resignCondition ..
    => answering ++ [.lane, .port, .sas, .brk, .trk, .que, .bnd, .keys]
  | .keyGenerate .. | .sign .. | .kemEncap .. | .kilnJobEnd .. | .latticeJobEnd .. => answering ++ [.freeCount, .lane, .keys, .eng, .dks]
  | .keyImportWrapped .. | .keyExportWrapped .. | .rolloverDeadline .. | .domainPeerCompletionRx .. => answering ++ [.keys, .dks]
  | .keyErase .. | .officerEnrol .. | .officerRevoke .. | .recorderClear .. => answering ++ [.keys]
  | .keyAttest .. | .tenantCreate .. => answering ++ [.keys, .eng, .dks]
  | .lifecycleChange .. => answering ++ [.boot, .keys]
  | .dualAuthorise .. => answering ++ [.freeCount, .keys]
  | .debugEnable .. => answering ++ [.lane, .sas, .brk, .trk, .bnd, .keys, .eng, .dks]
  | .verify .. | .kemDecap .. | .keyAgree .. | .keyReload .. | .vciJobEnd .. => answering ++ [.lane, .keys, .eng, .dks]
  | .hash .. | .domainEnrolAccept .. | .domainEnrolRevoke .. | .domainEnrolRosterDelta .. | .gdoiMemberAdd .. | .gdoiMemberRemove ..
  | .tenantRateSet .. => answering ++ [.dks]
  | .drbgRead .. | .domainEnrolChallenge .. => answering ++ [.freeCount, .eng, .dks]
  | .vciPageAssign .. | .recorderRead .. => answering ++ [.eng]
  | .domainEnrolPrepare .. | .domainRollover .. | .groupPolicySet .. => answering ++ [.freeCount, .keys, .eng, .dks]
  | .domainEnrolAdmit .. => answering ++ [.eng, .dks]
  | .domainKeyDistribute .. => answering ++ [.freeCount, .lane, .sas, .bnd, .keys, .eng, .dks]
  | .domainSnapshot .. | .snapArm .. => answering ++ [.time, .dks]
  | .memKeyRoll .. => answering ++ [.freeCount, .eng, .mem]
  | .tamperConfig .. | .tamperTestSourceDone .. | .tamperRearm .. | .tamperAlarm .. => allBut [.freeCount, .time, .cls, .pwr, .ddr]
  | .tamperTest .. => answering ++ [.tmp]
  | .tamperFuse .. => answering ++ [.keys, .tmp]
  | .powerStateSet .. | .idleEntryDone .. | .idleReturnDone .. => answering ++ [.freeCount, .port, .brk, .que, .pwr]
  | .dvfsSet .. => answering ++ [.pwr]
  | .perfConfig .. | .perfRead .. => answering ++ [.freeCount]
  | .selftestRun .. | .tileTestStart .. | .evIstOverdue .. => answering ++ [.lane, .cls, .sas, .brk, .trk, .que, .bnd, .keys]
  | .dataflowRemap .. => answering ++ [.lane, .port, .sas, .brk, .trk, .que]
  | .expressRoleSwitch .. => [.sas, .brk]
  | .slowBlockWrite .. | .slowSubmit .. | .slowPortTimeout .. | .sessionIdleTimeout .. | .challengeExpiry .. => [.cmd]
  | .slowBlockRead .. => [.sent, .cmd]
  | .slowStatusRead .. | .arpRequestRx .. => [.sent]
  | .powerOnReset .. | .brownOutReset .. | .pinReset .. | .commandWarmReset .. | .watchdogReset .. | .tamperReset ..
  | .haltResetTimer .. | .sleepReached .. | .aonBrownout .. => allBut [.freeCount, .sent]
  | .resetRelease .. => allBut [.cls, .pwr, .ddr]
  | .imageBoot .. => [.freeCount, .regs, .boot, .lane, .sas, .keys, .eng, .mem, .obs, .evr]
  | .vaultKatPass .. => [.boot, .obs]
  | .ddrTrainingDone .. => [.regs, .mem, .obs, .evr]
  | .memInitDone .. => [.mem]
  | .expressReady .. => [.freeCount, .boot, .cls, .brk]
  | .fullReady .. => answering ++ [.boot, .keys, .dks, .mem, .tmp]
  | .linkUp .. => [.freeCount, .lane, .port]
  | .linkDown .. => answering ++ [.lane, .port, .brk, .trk, .que]
  | .remoteFaultRx .. | .mmVerifyAttempt .. | .pauseWatchdogEnd .. | .pauseTimeExpiry .. | .remoteFaultClear .. => [.port]
  | .macControlRx .. | .mgmtPortFrameRx .. => [.sent, .regs, .cmd, .port, .obs]
  | .pauseWatchdogTrip .. => [.regs, .port, .obs, .evr]
  | .counterPoll .. => [.regs, .port]
  | .clearFrameRx .. => answering ++ [.freeCount, .lane, .port, .time, .cls, .sas, .brk, .trk, .que, .bnd, .keys]
  | .lineFrameRx .. => answering ++ [.freeCount, .lane, .port, .cls, .sas, .brk, .trk, .que, .bnd, .keys]
  | .stagingRelease .. | .contextFetchDone .. | .bulkDispatch .. | .expressLaneStart .. | .unitRx ..
    => answering ++ [.freeCount, .lane, .port, .sas, .brk, .trk, .que, .bnd, .keys]
  | .primingDone .. => [.brk]
  | .tileFinish .. | .reorderRelease .. | .heldCopyRelease .. => [.brk, .que]
  | .tagResult .. => answering ++ [.lane, .port, .time, .cls, .sas, .brk, .trk, .que, .bnd, .keys]
  | .duplicateDiscard .. => [.regs, .brk, .que, .obs, .evr]
  | .learnApply .. | .tombstoneFree .. | .agerVisit .. => [.sent, .regs, .cmd, .lane, .cls, .bnd, .obs]
  | .expressHoldEnter .. | .frameAged .. => [.sent, .regs, .cmd, .port, .brk, .trk, .que, .obs]
  | .egressSelect .. => answering ++ [.port, .time, .brk, .trk, .que]
  | .frameTxDone .. | .gateEntryChange .. => [.sent, .regs, .cmd, .port, .que, .obs]
  | .shaperUpdate .. | .gclChangeInstant .. => [.que]
  | .onestepDispatch .. | .ptpMessageTx .. => answering ++ [.freeCount, .lane, .port, .time, .sas, .brk, .trk, .bnd, .keys]
  | .onestepRelease .. => answering ++ [.port, .time]
  | .retireTimerExpiry .. => [.sent, .regs, .lane, .sas, .brk, .bnd, .obs, .evr]
  | .tileTestDone .. | .mirrorRx .. | .snapshotEndRx .. => answering ++ [.lane, .port, .cls, .sas, .brk, .trk, .que, .bnd, .keys]
  | .mkpduRx .. => answering ++ [.freeCount, .lane, .port, .sas, .bnd, .keys]
  | .mkaHello .. => [.sent, .regs, .cmd, .port, .sas, .obs]
  | .mkaPeerLost .. => answering ++ [.freeCount, .lane, .port, .cls, .sas, .brk, .bnd, .keys]
  | .mkaRekeyInterval .. => answering ++ [.freeCount, .port, .sas, .keys]
  | .courseHeaderTx .. => [.freeCount, .sent, .regs, .cmd, .lane, .sas, .trk, .bnd, .keys, .obs]
  | .directorySlotBuild .. => [.sent, .brk, .trk, .que, .obs]
  | .runStart .. => [.regs, .brk, .trk, .que, .obs]
  | .courseHeaderRx .. => answering ++ [.freeCount, .port, .time, .brk, .trk, .que, .dks]
  | .trunkKeyEngage .. | .aisInsert .. | .pmSecond .. => [.trk]
  | .phaseSwitch .. => [.sent, .regs, .cmd, .trk, .obs]
  | .phaseOldKeyErase .. => [.regs, .trk, .keys, .obs, .evr]
  | .trunkCountCeiling .. => [.sent, .regs, .cmd, .lane, .sas, .trk, .bnd, .keys, .obs]
  | .directorySlotRx .. => [.regs, .brk, .trk, .que, .obs, .evr]
  | .passUnitRx .. => answering ++ [.port, .brk, .trk, .que]
  | .lofDeclare .. => [.regs, .port, .trk, .obs, .evr]
  | .lofClear .. | .pathAisTimeout .. => [.port, .trk]
  | .bondBlockRx .. => [.freeCount, .sent, .regs, .lane, .bnd]
  | .bondLaneInFrame .. => [.freeCount, .lane]
  | .bondLaneOutOfFrame .. | .refRestore .. => [.lane]
  | .bondLinkStateChange .. => [.freeCount, .sent, .lane, .bnd, .eng, .obs]
  | .leaseTx .. | .mirrorRetransmit .. => [.sent, .regs, .lane, .bnd]
  | .leaseRx .. | .mirrorGapTimeout .. | .syncDoneRx .. | .syncAckRx .. => answering ++ [.lane, .bnd]
  | .leaseAckRx .. | .mirrorAckRx .. | .syncReqRx .. => answering ++ [.lane, .sas, .trk, .bnd, .keys]
  | .leaseExpiry .. | .resignRx .. | .fencedRx ..
    => answering ++ [.freeCount, .boot, .lane, .port, .cls, .sas, .brk, .trk, .bnd, .keys, .pwr]
  | .ptpMessageRx .. | .ppsInEdge .. => answering ++ [.freeCount, .time, .trk, .que, .dks]
  | .syncTimeout .. | .timeSave .. | .slewEnd .. => [.time]
  | .ref10mFault .. | .ref10mRestore .. => [.regs, .time, .obs, .evr]
  | .ppsInMissing .. => answering ++ [.time]
  | .ppsOutEdge .. | .ppsOutWidthEnd .. => [.sent, .time]
  | .matchFire .. => [.regs, .time, .dks, .obs, .evr]
  | .kilnYieldPoint .. => [.regs, .lane, .eng, .obs]
  | .drbgReseed .. | .rngStartupDone .. => [.eng]
  | .rngHealthFail .. => answering ++ [.keys, .eng]
  | .istInterval .. => answering ++ [.freeCount, .lane, .cls, .sas, .brk, .trk, .que, .bnd, .keys, .eng, .dks]
  | .ticketExpiry .. => [.keys]
  | .dksRetry .. => answering ++ [.freeCount, .keys, .dks]
  | .ephemeralKeyRotate .. => [.freeCount, .dks]
  | .tekNextGenerate .. => [.freeCount, .sent, .keys, .eng, .dks]
  | .tekExpiry .. => [.keys, .dks]
  | .gdoiMessageRx .. => [.sent, .regs, .dks]
  | .memRead .. => allBut [.boot, .time, .cls, .tmp, .pwr, .ddr]
  | .memWrite .. => allBut [.boot, .time, .cls, .tmp, .pwr]
  | .keyRollDue .. => [.freeCount, .eng, .mem, .obs]
  | .sweepEnd .. => answering ++ [.mem]
  | .standbyEntryDone .. | .standbyReturnDone .. => answering ++ [.freeCount, .lane, .port, .brk, .trk, .que, .pwr]
  | .sleepCommitPoint .. => answering ++ [.lane, .time, .sas, .brk, .trk, .bnd, .keys, .eng, .dks, .mem, .pwr]
  | .wakeNLow .. | .rtcAlarm .. | .slowPortWake .. => [.boot, .pwr]
  | .wakeDone .. => allBut [.cls, .ddr]
  | .dvfsVoutConfirm .. => [.pwr]
  | .dvfsFault .. => answering ++ [.freeCount, .pwr]
  | .snapInEdge .. | .snapshotTrigger .. | .suppressionWindowClose .. => [.regs, .obs, .evr]
  | .perfSample .. => [.regs, .obs]
  | .recorderCommit .. | .tokenRefill .. => [.evr]
  | .recoveryWindowExpiry .. => [.boot]
  | .tamperConditionClear .. => [.tmp]
  | .pllRampDone .. => [.freeCount, .sent, .regs, .cmd, .pwr, .obs]

/-! ## A command that starts

The statements about a command say what it does once it starts: `starts` is the condition, on the state and the frame alone. -/

/-- The flight of a command frame, with the objects its body names (R52). -/
def flightFor (op : Op) (h : Hdr) (b : Body) : Flight := { flightOf h op.code .start with names := namesOf b }

/-- A command frame has arrived: time is at its instant and its transport has given it up. -/
def arrived (h : Hdr) (s : State) : State := takeFrame h (tick h.t s)

/-- The session of the frame has accepted its SEQUENCE (R45). -/
def accepted (op : Op) (h : Hdr) (b : Body) (s : State) : State :=
  match identify op h b (arrived h s) with
  | .inl (u, _) => u
  | .inr _ => arrived h s

/-- The command is among those in flight: the state its effect starts from. -/
def begun (op : Op) (h : Hdr) (b : Body) (s : State) : State := enlist (flightFor op h b) (accepted op h b s)

/-- The frame passes the steps of R49 up to the length check. -/
def wellFramed (h : Hdr) : Bool :=
  decide (h.magic = 0x41504653) && !h.flags.testBit 7 && decide (h.version = 1) && decide (h.length % 4 = 0) &&
    decide (h.length ≤ 8192) && decide (h.length = h.bodyBytes)

/-- The frame passes the other steps of R49, the lifecycle and the readiness it awaits, and is admitted (R51, R76). -/
def passes (op : Op) (h : Hdr) (b : Body) (s : State) : Bool :=
  match identify op h b (arrived h s) with
  | .inr _ => false
  | .inl (u, w) =>
    decide (postChecks op h b w (isBootstrap u h.session) u = none) && decide (awaits u op = none) &&
      admits u (flightFor op h b)

/-- The command may start at once: its turn has come, a command slot is free, no earlier command waits for an object it names, the domains
it needs are on, and no limit on long operations or lifecycle change stands in its way (R15, R29, R52, R54). -/
def startsNow (op : Op) (h : Hdr) (b : Body) (s : State) : Bool :=
  (op.urgent || turnCome s (flightFor op h b)) && fenceClear s (flightFor op h b) && slotFree s (flightFor op h b) &&
    !behindHeld (flightFor op h b) s && !(decide (s.pwr.state = 2) && op.far b) && !(op.long && decide (32 ≤ opsRunning s)) &&
    !(op.vault && s.keys.changing)

/-- The port or the slow port takes the frame as a command frame: it is received, not too long, and of the command EtherType (R34, R35, R37,
R119). -/
def taken (op : Op) (h : Hdr) (b : Body) (s : State) : Bool :=
  takesCommands s && viaLive s h.via && !viaOversize s h && viaTakes s h op.code b && decide (s.cmd.turn = none)

/-- The frame arrives, is a command of an opcode that the device takes, passes every check and starts at once. -/
def starts (op : Op) (h : Hdr) (b : Body) (s : State) : Bool :=
  taken op h b (tick h.t s) && wellFramed h && passes op h b s && startsNow op h b (begun op h b s)

/-- The command's completion is sent with ST_OK and result elements, and it leaves the commands in flight. -/
def completed (op : Op) (h : Hdr) (e : Body) (s : State) : State := finish (flightOf h op.code .start) stOk 0 e s

/-- The command's first completion is sent with ST_IN_PROGRESS, and it leaves the commands in flight (R54). -/
def inProgress (op : Op) (h : Hdr) (e : Body) (s : State) : State := finish (flightOf h op.code .start) stInProgress 0 e s

/-- The command stays in flight, waiting. -/
def waiting (op : Op) (h : Hdr) (a : Await) (s : State) : State := setAwait (flightOf h op.code .start) a s

/-! ## What other rows wait for -/

/-- A bond message under K_mac reaches its rule: it is heard, this bond's and this peer's, authentic, after a handshake, of this format
(R347, R350). -/
def trusted (typ : Nat) (s : State) (m : BondRx) : Bool :=
  hears s m && s.bnd.joined && !strangeType m && s.bnd.shaken && bondMacOk s typ m && helloFits s m && decide (m.format = 1)

/-- A domain command is taken: the device is no bond standby for it, and the tables it needs are in memory (R450, R453). -/
def domainTakes (h : Hdr) (s : State) : Bool := !domainStandby s h && !s.mem.memOff

/-- The state in which the vault work of a domain command runs, where it may run at once (15.6). -/
def domainWork (s : State) : Option State :=
  if latticeOut s || engineOut s 0 then none
  else (takeSlot 3 s).bind fun v => if drbgOut v || v.eng.startup then none else some (reseed0 (drbgUse v))

/-- The command runs as a REG_WRITE of a body: where its addresses exist, their domains are up, no GO is refused and no condition of the
approved mode would be broken, it completes with the reports of its writes, and the registers are written (R67). -/
def writesRegisters (i : Instr) (h : Hdr) (b : Body) : Prop :=
  ∀ s u t r, starts opRegWrite h b s = true → u = begun opRegWrite h b s → (∀ x ∈ writesOf b, blockExists x.1 = true) →
    (∀ x ∈ writesOf b, domainDown u x.1 = false) → (∀ x ∈ writesOf b, goRefused u (writeMask b) x = none) →
    writeAll (writeMask b) (writesOf b) u = (t, r) → (u.keys.inForce = true → unmet t = 0) →
    exec i s = .next (completed opRegWrite h r (settleApproved t))

end Sys2Proof.Machine
end

