-- ==== Sys2Proof/Certificates/Slice0/Obligations.lean ====
section
/-! DEFINITION. The statements for the provers. A command's clauses say what it does once it starts: `starts op h b s` is a condition on the
state and the frame alone, `begun op h b s` the state once the command is in flight, and `completed`, `inProgress` and `waiting` say how it is
answered. An event's clauses say what the row does at its instant. -/
open Sys2Proof Sys2Proof.Machine

/-- A step takes the command at the front of the queue and runs it on the state with the queue's rest. With an empty queue the block takes the turn
of a command in flight that can go on, and with none parked it idles (log entries 11, 13: the model's choice). -/
def Obligations.StepRunsFrontCommand : Prop :=
  (∀ c r s, s.pending = c :: r → step s = exec c { s with pending := r }) ∧
  (∀ c s, step { s with pending := c :: s.pending } = exec c s) ∧
  (∀ s, s.pending = [] → step s = idle exec s) ∧ (∀ s, s.pending = [] → s.cmd.parked = [] → step s = .next s)

/-- The state at reset holds its registers and memory in canonical form, every register at its reset word, no command and nothing sent. Values that
the field maps state: the EtherType, the idle timeout of 900 s, the recovery window, the FIR of main and auxiliary lanes, the lane maps, the
cause of a power-on, the roll interval, the brick frequency. That unlisted memory reads 0 is the model's choice (log entry 1). -/
def Obligations.ResetIsCanonical : Prop :=
  Canon State.reset ∧ State.reset.pending = [] ∧ State.reset.sent = [] ∧ State.reset.cmd.flights = [] ∧ State.reset.cmd.sessions = [] ∧
  (∀ a, regWord State.reset a = resetWord a) ∧ (∀ ch a, ddrByte (channel State.reset ch) a = 0) ∧
  fld State.reset 0x1F0000 15 0 = 0x88B5 ∧ fld State.reset 0x1F0008 11 0 = 899 ∧ fld State.reset 0x000048 15 8 = 30 ∧
  (∀ n, n < 32 → fld State.reset (0x011004 + 0x20 * n) 20 16 = 8 ∧ fld State.reset (0x011004 + 0x20 * n) 14 8 = 52 ∧
    fld State.reset (0x011004 + 0x20 * n) 4 0 = 4) ∧
  (∀ n, 32 ≤ n → n < 36 → fld State.reset (0x011004 + 0x20 * n) 14 8 = 56 ∧ fld State.reset (0x011004 + 0x20 * n) 4 0 = 0) ∧
  (∀ q, q < 9 → fld State.reset (0x010000 + 4 * q) 15 8 = 0xE4 ∧ fld State.reset (0x010000 + 4 * q) 7 0 = 0xE4) ∧
  flag State.reset 0x000050 0 = true ∧ fld State.reset 0x100008 23 16 = 24 ∧ (∀ b, b < 4 → fld State.reset (0x120020 + 4 * b) 10 0 = 1600)

/-- From every state whose registers and memory are in canonical form a step answers a next state that has them so: it takes one command from the
queue, adds none, and time does not go back. -/
def Obligations.StepsKeepCanonicalForm : Prop :=
  ∀ s, Canon s → ∃ t, step s = .next t ∧ Canon t ∧ t.pending = s.pending.tail ∧ s.now ≤ t.now

/-- Frame: every command answers a next state that differs from the one before in no part but those listed for its row, whatever its operands; the
queue is left alone. -/
def Obligations.CommandsTouchOnlyTheirParts : Prop :=
  ∀ i s, Canon s → ∃ t, exec i s = .next t ∧ t.pending = s.pending ∧ ∀ p, p ∉ touches i → Part.same s t p

/-- Frame of the rows that only answer: NOP, the status and read commands, subscriptions and SESSION_CLOSE leave every register as it is but the
Apfesia counters of the sub-ports, `OBS_SNAP_STAT` and the recorder's counts of lost and suppressed events. -/
def Obligations.AnswersLeaveRegisters : Prop :=
  ∀ i s t a, touches i = answering → (∀ h b, i ≠ .perfConfig h b) → (∀ h b, i ≠ .wakeConfig h b) → exec i s = .next t →
    a / 0x1000 ≠ 0x21 → a ≠ 0x130008 → a ≠ 0x14000C → a ≠ 0x140010 → regWord t a = regWord s a

/-- R45: after any commands a session has accepted, in the order of their acceptance, it accepts a SEQUENCE exactly where the rule says; every other
is rejected with ST_REPLAY. -/
def Obligations.SequenceAcceptance : Prop :=
  (∀ (x0 x : Session) (l : List Nat) (n t m : Nat), x0.high = 0 → x0.seen = [] → (∀ v ∈ l, v ≤ 0xFFFFFFFF) →
    (∀ k v, l[k]? = some v → seqOk ((l.take k).foldl (fun y v => seqTake y v t) x0) v = true) → x = l.foldl (fun y v => seqTake y v t) x0 →
    m = l.foldl max 0 → (seqOk x n = true ↔ n ≠ 0 ∧ m ≠ 0xFFFFFFFF ∧ (m < n ∨ (n < m ∧ m ≤ n + 64 ∧ n ∉ l)))) ∧
  (∀ i op h b m s x, taken op h b (tick h.t s) = true → wellFramed h = true → h.session ≠ 0 →
    look (arrived h s).cmd.sessions h.session = some x → x.closing = false → macGood x.key op h b = true → seqOk x h.sequence = false →
    run i op h b m s = .next (rejectPlain (flightOf h op.code .start) stReplay 0 (arrived h s))) ∧
  (∀ op h b s x, h.session ≠ 0 → look (arrived h s).cmd.sessions h.session = some x → x.closing = false → macGood x.key op h b = true →
    seqOk x h.sequence = true → look (accepted op h b s).cmd.sessions h.session = some (seqTake x h.sequence (arrived h s).now))

/-- Frames that fail the first checks of R49, and sessions that are not open (parts of R44, R50), longer than the port takes (parts of R120) or on a
port that is down (parts of R117): a frame without the magic, or a completion, is discarded; a version or length fault and a session that is not
open are answered with a plain rejection and change nothing else. -/
def Obligations.FramesRejected : Prop :=
  (∀ i op h b m s, (tick h.t s).cmd.turn = none → takesCommands (tick h.t s) = false ∨ viaLive (tick h.t s) h.via = false →
    run i op h b m s = .next (tick h.t s)) ∧
  (∀ i op h b m s, (tick h.t s).cmd.turn = none → takesCommands (tick h.t s) = true → viaLive (tick h.t s) h.via = true →
    viaOversize (tick h.t s) h = true → run i op h b m s = .next (oversize h (tick h.t s))) ∧
  (∀ i op h b m s, taken op h b (tick h.t s) = true → h.magic ≠ 0x41504653 ∨ h.flags.testBit 7 = true →
    run i op h b m s = .next (arrived h s)) ∧
  (∀ i op h b m s, taken op h b (tick h.t s) = true → h.magic = 0x41504653 → h.flags.testBit 7 = false → h.version ≠ 1 →
    run i op h b m s = .next (rejectPlain (flightOf h op.code .start) stBadVersion 1 (arrived h s))) ∧
  (∀ i op h b m s, taken op h b (tick h.t s) = true → h.magic = 0x41504653 → h.flags.testBit 7 = false → h.version = 1 →
    h.length % 4 ≠ 0 ∨ 8192 < h.length ∨ h.length ≠ h.bodyBytes →
    run i op h b m s = .next (rejectPlain (flightOf h op.code .start) stBadLength 0 (arrived h s))) ∧
  (∀ i op h b m s, taken op h b (tick h.t s) = true → wellFramed h = true →
    h.session = 0 ∧ op.sess0 = false ∨ h.session ≠ 0 ∧ look (arrived h s).cmd.sessions h.session = none →
    run i op h b m s = .next (rejectPlain (flightOf h op.code .start) stNoSession 0 (arrived h s))) ∧
  (∀ i op h b m s x, taken op h b (tick h.t s) = true → wellFramed h = true → h.session ≠ 0 →
    look (arrived h s).cmd.sessions h.session = some x → x.closing = false → macGood x.key op h b = false →
    run i op h b m s = .next (rejectPlain (flightOf h op.code .start) stBadMac 0 (arrived h s))) ∧
  (∀ f st d s t, t = rejectPlain f st d s → t.cmd.sessions = s.cmd.sessions ∧ t.cmd.flights = s.cmd.flights ∧ t.keys = s.keys ∧
    t.sas = s.sas ∧ t.que = s.que ∧ t.cls = s.cls)

/-- R57: DEVICE_RESET sends its completion; 1 ms later the device performs a command warm reset, and every other command in flight is lost without
completion. -/
def Obligations.DeviceResetWarms : Prop :=
  (∀ h b s u, starts opDeviceReset h b s = true → u = begun opDeviceReset h b s → exec (.deviceReset h b) s =
    .next (completed opDeviceReset h [] { u with boot := { u.boot with warmAt := some (u.now + ms) } })) ∧
  (∀ t s u w, u = tick t s → u.boot.warmAt = some w → u.now < w → exec (.commandWarmReset t) s = .next u) ∧
  (∀ t s u w, u = tick t s → u.boot.warmAt = some w → w ≤ u.now → ∃ v, exec (.commandWarmReset t) s = .next v ∧
    v.cmd.flights = [] ∧ v.sent = s.sent ∧ v.boot.held = true ∧ (kindInProgress u = none → flag v 0x000050 3 = true))

/-- R502: a reset of any kind ends every transition and discards the queued request; the device comes up in RUN; POWER_STATE_SET commands in flight
are lost without completion. -/
def Obligations.ResetsEndTransitions : Prop :=
  ∀ k s v, v = resetBy k s → v.pwr.state = 0 ∧ v.pwr.target = none ∧ v.pwr.queued = none ∧ v.pwr.reqs = [] ∧ v.cmd.flights = [] ∧ v.sent = s.sent

/-- R514: a load above 3 mA in low-power mode browns out AON: a power-on reset, class P and class S fields lost, POR set, the BBD's state
unaffected. -/
def Obligations.OverloadInLowPower : Prop :=
  (∀ t s u, u = tick t s → u.pwr.regLp = true → ∃ v, exec (.aonBrownout t) s = .next v ∧ v.boot.held = true ∧ flag v 0x000050 0 = true ∧
    (Canon s → ∀ a f, f ∈ fieldsAt a → f.cls = .p ∨ f.cls = .s ∨ f.cls = .w → fld v a f.hi f.lo = fld State.reset a f.hi f.lo) ∧
    (Canon s → ∀ a f, f ∈ fieldsAt a → f.cls = .b → fld v a f.hi f.lo = fld s a f.hi f.lo) ∧
    v.boot.rootSecret = s.boot.rootSecret ∧ v.boot.bbdCode = s.boot.bbdCode ∧ v.boot.bbdCount = s.boot.bbdCount ∧
    v.time.epoch = s.time.epoch ∧ v.time.rtc = s.time.rtc ∧ v.tmp.latch = s.tmp.latch ∧ v.evr.nextSeq = s.evr.nextSeq) ∧
  (∀ t s u, u = tick t s → u.pwr.regLp = false → exec (.aonBrownout t) s = .next u)

/-- What each reset leaves in registers (parts of R88, R91): a warm reset keeps fields of classes S, P and B, brown-out keeps P and B, a power-on
keeps B; every other field takes its reset value. In a reset or boot in progress the kind earlier in Table 3.7 applies (parts of R89). -/
def Obligations.ResetsKeepTheirClasses : Prop :=
  ∀ k n s a f, Canon s → f ∈ fieldsAt a → a ≠ 0x000050 → k ≤ 6 →
    n = (match kindInProgress s with | some j => min j k | none => k) →
    fld (resetBy k s) a f.hi f.lo =
      (if f.cls = .b ∨ (f.cls = .p ∧ 1 ≤ n) ∨ (f.cls = .s ∧ 2 ≤ n) then fld s a f.hi f.lo else fld State.reset a f.hi f.lo)

/-- A write to external memory (parts of R455, R461): the bytes of the words stored read back, every other byte of both channels reads as before;
where a partial write merges with a line that DDR gave changed, the bytes of that line may change with it (parts of R465). -/
def Obligations.MemoryWritesAndFrame : Prop :=
  (∀ t m ch a ws whole f s v x c, exec (.memWrite t m ch a ws whole f) s = .next v → c < 2 → c ≠ ch ∨ x / 64 ≠ a / 64 →
    ddrByte (channel v c) x = ddrByte (channel s c) x) ∧
  (∀ t m ch a ws f s v x c, (∀ y r, f ≠ .line y r) → exec (.memWrite t m ch a ws false f) s = .next v → c < 2 →
    c ≠ ch ∨ x < a / 4 * 4 ∨ a / 4 * 4 + 4 * min ws.length (16 - a % 64 / 4) ≤ x →
    ddrByte (channel v c) x = ddrByte (channel s c) x) ∧
  (∀ t m ch a ws s u v k w j, Canon s → u = tick t s → ch < 2 → gateOf u m ch a true = .open_ → a % 64 / 4 + ws.length ≤ 16 →
    exec (.memWrite t m ch a ws false .none) s = .next v → ws[k]? = some w → j < 4 →
    ddrByte (channel v ch) (a / 4 * 4 + 4 * k + j) = BitVec.ofNat 8 (w.toNat / 2 ^ (8 * (3 - j)))) ∧
  (∀ t m ch a ws s u v k j w, Canon s → u = tick t s → ch < 2 → gateOf u m ch a true = .open_ → ws.length = 16 →
    exec (.memWrite t m ch a ws true .none) s = .next v → ws[k]? = some w → j < 4 →
    ddrByte (channel v ch) (a / 64 * 64 + 4 * k + j) = BitVec.ofNat 8 (w.toNat / 2 ^ (8 * (3 - j)))) ∧
  (∀ t m ch a f s v c x, exec (.memRead t m ch a f) s = .next v → ddrByte (channel v c) x = ddrByte (channel s c) x)

/-- R479: a source disabled or fused raises no alarm and is not stimulated; its condition is still shown in `TMP_COND`, except for a fused one,
whose bit reads 0. -/
def Obligations.DisabledSourcesRaiseNothing : Prop :=
  (∀ t n s u, u = tick t s → n < 16 → sourceOn u n = false → (∀ k, k < 16 → raises u k = false) →
    exec (.tamperAlarm t (2 ^ n)) s = .next { u with tmp := { u.tmp with cond := Nat.lor u.tmp.cond (2 ^ n) } }) ∧
  (∀ h b s u n, starts opTamperTest h b s = true → u = begun opTamperTest h b s → n < 16 → maskOf b = 2 ^ n → sourceOn u n = false →
    u.tmp.test = none → ∃ v, exec (.tamperTest h b) s = .next (inProgress opTamperTest h [opIdElem (nextOp u)] v) ∧
      v.tmp.test = none ∧ v.tmp.tested = u.tmp.tested ∧ v.tmp.cond = u.tmp.cond) ∧
  (∀ s n, n < 16 → regWord s 0x110048 = 0 → s.tmp.fused.testBit n = false → (readWord s 0x110048).bit n = s.tmp.cond.testBit n) ∧
  (∀ s n, n < 16 → regWord s 0x110048 = 0 → s.tmp.fused.testBit n = true → (readWord s 0x110048).bit n = false)

/-- Sessions (parts of R43 to R47): a challenge is drawn, a session opens under it, a session closes, an idle session and an old challenge end. -/
def Obligations.SessionCommandsComplete : Prop :=
  (∀ h b s u c v, starts opSessionChallenge h b s = true → u = begun opSessionChallenge h b s → drbgOut u = false →
    drawBits 256 (drbgUse u) = (c, v) →
    exec (.sessionChallenge h b) s = .next (completed opSessionChallenge h [rawElem 1 (words8 c)]
      { v with cmd := { v.cmd with challenges := v.cmd.challenges ++ [(c, v.now)] } })) ∧
  (∀ h b cred challenge pub ek ok s u v n key el w, starts opSessionOpen h b s = true → u = begun opSessionOpen h b s →
    kilnOut u = false → latticeOut u = false → drbgOut u = false →
    (∃ c ∈ u.cmd.challenges, c.1 = challenge ∧ u.now ≤ c.2 + 30 * sec) → ok = true → cred ≠ .bootstrap →
    credWorld u h.via cred = some h.world → u.cmd.sessions.length < 256 → n = freeSession u.cmd.sessions →
    v = { u with cmd := { u.cmd with challenges := u.cmd.challenges.filter fun c => decide (c.1 ≠ challenge) } } →
    sessionAgree challenge pub ek (drbgUse v) = ((key, el), w) →
    exec (.sessionOpen h b cred challenge pub ek ok) s = .next (completed opSessionOpen h (rawElem 1 [w32 n] :: el)
      { w with cmd := { w.cmd with
        sessions := put w.cmd.sessions n { cred := cred, world := h.world, last := u.now, via := h.via, key := key } } })) ∧
  (∀ h b s u x, starts opSessionClose h b s = true → u = begun opSessionClose h b s → look u.cmd.sessions h.session = some x →
    exec (.sessionClose h b) s = .next (settleCloses (waiting opSessionClose h .close
      { u with cmd := { u.cmd with sessions := put u.cmd.sessions h.session { x with closing := true } } }))) ∧
  (∀ t n s x, look (tick t s).cmd.sessions n = some x → x.last + (fld (tick t s) 0x1F0008 11 0 + 1) * sec ≤ (tick t s).now →
    flightsOf (tick t s) n = [] → exec (.sessionIdleTimeout t n) s = .next (endSession n (tick t s))) ∧
  (∀ t s u, u = tick t s → exec (.challengeExpiry t) s = .next { u with cmd := { u.cmd with
    challenges := u.cmd.challenges.filter fun c => decide (u.now < c.2 + 30 * sec) } })

/-- The commands that every world has (parts of R54, R55, R57, R59, R69), and a frame of an undefined opcode (parts of R49, R70). -/
def Obligations.CommonCommandsComplete : Prop :=
  (∀ h b s u, starts opNop h b s = true → u = begun opNop h b s → exec (.nop h b) s = .next (completed opNop h [] u)) ∧
  (∀ h b n s u o k, k = { opOpStatus with also := [operandElem 1 [w32 n]] } → starts k h b s = true → u = begun k h b s →
    look u.cmd.ops n = some o → (worldClass h.world < 3 ∨ o.world = h.world) →
    exec (.opStatus h b n) s = .next (completed opOpStatus h (rawElem 1 [w32 n, w32 (bit o.done), w32 o.status] :: o.elems) u)) ∧
  (∀ h b target s u f k, k = { opCmdAbort with also := [operandElem 1 [w32 target]] } → starts k h b s = true → u = begun k h b s →
    u.cmd.flights.find? (fun f => decide (f.mailbox = h.mailbox) && decide (f.tag = target) && decide (f.tag ≠ h.tag)) = some f →
    f.await = .start → exec (.cmdAbort h b target) s = .next (completed opCmdAbort h [] (finish f stAborted 0 [] u))) ∧
  (∀ h b mailbox classes s u k, k = { opEventSubscribe with also := subscribeElems mailbox classes } → starts k h b s = true →
    u = begun k h b s → mailboxWorld mailbox = h.world →
    exec (.eventSubscribe h b mailbox classes) s = .next (completed opEventSubscribe h [] { u with cmd := { u.cmd with
      subs := (u.cmd.subs.filter fun x => decide (x.mailbox ≠ mailbox) || decide (x.session ≠ h.session)) ++
        [{ mailbox := mailbox, session := h.session, classes := classes, via := h.via }] } })) ∧
  (∀ h b s u, starts opDeviceReset h b s = true → u = begun opDeviceReset h b s →
    exec (.deviceReset h b) s = .next (completed opDeviceReset h [] { u with boot := { u.boot with warmAt := some (u.now + ms) } })) ∧
  (∀ h b opcode s u w, takesCommands (tick h.t s) = true → viaLive (tick h.t s) h.via = true → viaOversize (tick h.t s) h = false →
    viaTakes (tick h.t s) h opcode b = true → wellFramed h = true →
    identify (opUnknown opcode) h b (arrived h s) = .inl (u, w) → worldClass h.world ≠ 5 → mailboxWorld h.mailbox = h.world →
    w.getD h.world = h.world → h.tag ≠ 0xFFFF → (∀ g ∈ u.cmd.flights, g.mailbox ≠ h.mailbox ∨ g.tag ≠ h.tag) → opcode ∉ opcodes →
    exec (.unknownOpcodeFrame h b opcode) s = .next (reject (flightOf h opcode .start) stUnknownOpcode 0 u))

/-- The slow port (parts of R37, R38, R572): blocks join the inbound frame, a frame is submitted and taken only as the command whose header and body
are its bytes, completions are read 255 bytes at a time, the status byte is read, and a timeout discards the partial frame. -/
def Obligations.SlowPortTransfers : Prop :=
  (∀ t l s u, u = tick t s → slowRuns u = true → 0 < l.length → l.length ≤ 255 → u.cmd.slowIn.length + l.length ≤ 8240 →
    exec (.slowBlockWrite t l true) s = .next { u with cmd := { u.cmd with slowIn := u.cmd.slowIn ++ l } }) ∧
  (∀ t l s u, u = tick t s → slowRuns u = true → 0 < l.length → l.length ≤ 255 →
    exec (.slowBlockWrite t l false) s = .next { u with cmd := { u.cmd with slowIn := [] } }) ∧
  (∀ t s u, u = tick t s → slowRuns u = true → u.cmd.slowPos = 0 →
    exec (.slowSubmit t true) s = .next { u with cmd := { u.cmd with slowIn := [], slowFrame := some u.cmd.slowIn } }) ∧
  (∀ t s u, u = tick t s → slowRuns u = true → u.cmd.slowPos ≠ 0 →
    exec (.slowSubmit t true) s = .next { u with cmd := { u.cmd with
      slowIn := [], slowFrame := some u.cmd.slowIn, slowOut := u.cmd.slowOut.drop 1, slowPos := 0 } }) ∧
  (∀ h op b s l, h.via = .slow → takesCommands s = true → s.cmd.slowFrame = some l →
    (taken op h b s = true ↔ s.cmd.turn = none ∧ l.length = 48 + h.bodyBytes ∧
      (headBytes h op.code ++ b.flatMap elemBytes).isPrefixOf l = true)) ∧
  (∀ t s u c r, u = tick t s → slowRuns u = true → u.cmd.slowOut = c :: r → u.cmd.slowPos + 255 < c.length →
    exec (.slowBlockRead t) s = .next (send (.slow ((c.drop u.cmd.slowPos).take 255))
      { u with cmd := { u.cmd with slowPos := u.cmd.slowPos + 255 } })) ∧
  (∀ t s u c r, u = tick t s → slowRuns u = true → u.cmd.slowOut = c :: r → u.cmd.slowPos ≤ c.length → c.length ≤ u.cmd.slowPos + 255 →
    exec (.slowBlockRead t) s = .next (send (.slow (c.drop u.cmd.slowPos)) { u with cmd := { u.cmd with slowOut := r, slowPos := 0 } })) ∧
  (∀ t s u, u = tick t s → slowRuns u = true →
    exec (.slowStatusRead t) s = .next (send (.slow [bit (!u.cmd.slowOut.isEmpty) + 2 * bit (!u.cmd.slowIn.isEmpty)]) u)) ∧
  (∀ t s u, u = tick t s → exec (.slowPortTimeout t) s = .next { u with cmd := { u.cmd with slowIn := [] } })

/-- ID_READ, DEVICE_STATUS and REG_READ (parts of R66, R558, R559): what each returns; a range is read in ascending order into one VALUES element. -/
def Obligations.RegisterReadsComplete : Prop :=
  (∀ h b s u, starts opIdRead h b s = true → u = begun opIdRead h b s → wordAt (wordsOf b 0x0110) 0 = 1 →
    exec (.idRead h b) s = .next (completed opIdRead h [idCerts u] u)) ∧
  (∀ h b s u, starts opIdRead h b s = true → u = begun opIdRead h b s → wordAt (wordsOf b 0x0110) 0 ≠ 1 →
    exec (.idRead h b) s = .next (completed opIdRead h [idInfo u, { typ := 0x0112, len := 48, val := (runBank u).m3 }] u)) ∧
  (∀ h b s u, starts opDeviceStatus h b s = true → u = begun opDeviceStatus h b s →
    exec (.deviceStatus h b) s = .next (completed opDeviceStatus h [elemW 0x0114 (statusAddrs.map (liveWord u))] u)) ∧
  (∀ h b s u n l v, starts opRegRead h b s = true → u = begun opRegRead h b s → 1 ≤ n → n ≤ 64 → elemOf b 0x0104 = some (elemW 0x0104 [w32 n]) →
    l = addrRange (addrOf b) n → (∀ a ∈ l, blockExists a = true) → (∀ a ∈ l, domainDown u a = false) →
    (h.world = 2 → ∀ a ∈ l, auditBarred a = false) → v = (if l.any countsCycles then perfSettle u else u) →
    exec (.regRead h b) s = .next (completed opRegRead h [elemW 0x8102 (readAll l v).1] (readAll l v).2)) ∧
  (∀ h b s u, starts opRegRead h b s = true → u = begun opRegRead h b s → h.world ≠ 2 → blockExists (addrOf b) = false →
    exec (.regRead h b) s = .next (finish (flightOf h 0x0102 .start) stNotFound 0 [] u)) ∧
  (∀ s a, fieldsAt a = [] → roWord s a = 0 → a % 0x10000 < 0x8000 → look s.regs a = none → readWord s a = 0)

/-- REG_WRITE and every row that is one REG_WRITE of a fixed body (parts of R67, R553, R554): registers are written in ascending order, each as
`writeOne` says, and the command completes with what was applied. -/
def Obligations.RegisterWritesComplete : Prop :=
  (∀ h b, writesRegisters (.regWrite h b) h b) ∧
  (∀ h w, writesRegisters (.dataflowApply h w) h (writeBody 0x000040 (w ||| 0x200))) ∧
  (∀ h, writesRegisters (.recoveryClr h) h (bitsBody 0x000048 0x20000 0x20000)) ∧
  (∀ h, writesRegisters (.testReq h true) h (bitsBody 0x000048 0x10000 0x10000)) ∧
  (∀ h, writesRegisters (.testReq h false) h (bitsBody 0x000048 0 0x10000)) ∧
  (∀ h, writesRegisters (.tmuStepGo h) h (writeBody 0x04003C 1)) ∧
  (∀ h n hi, n < 8 → hi < 256 → writesRegisters (.matchArm h n hi) h (bitsBody (0x040204 + 8 * n) (w32 (2 ^ 31 + hi)) 0x800000FF)) ∧
  (∀ h n hi, n < 8 → hi < 256 → writesRegisters (.matchDisarm h n hi) h (bitsBody (0x040204 + 8 * n) (w32 hi) 0x800000FF)) ∧
  (∀ h b, b < 4 → writesRegisters (.expressEnSet h b) h (bitsBody (0x070000 + 0x100 * b) 1 1)) ∧
  (∀ h b, b < 4 → writesRegisters (.expressEnClear h b) h (bitsBody (0x070000 + 0x100 * b) 0 1)) ∧
  (∀ h n w, n < 36 → writesRegisters (.txFirWrite h n w) h (writeBody (0x011004 + 0x20 * n) w)) ∧
  (∀ h n w, n < 36 → writesRegisters (.rxEqWrite h n w) h (writeBody (0x011008 + 0x20 * n) w)) ∧
  (∀ h q w, q < 9 → writesRegisters (.laneMapWrite h q w) h (writeBody (0x010000 + 4 * q) w)) ∧
  (∀ h w, writesRegisters (.bondLaneEnable h w) h (writeBody 0x010200 w)) ∧
  (∀ h p, p < 6 → writesRegisters (.portEnable h p) h (bitsBody (0x020000 + 0x10 * p) 1 1)) ∧
  (∀ h p, p < 6 → writesRegisters (.portDisable h p) h (bitsBody (0x020000 + 0x10 * p) 0 1)) ∧
  (∀ h p w, p < 4 → writesRegisters (.expressMaskWrite h p w) h (bitsBody (0x020008 + 0x10 * p) w 0x00FF0000)) ∧
  (∀ h e w, writesRegisters (.maxResWrite h e w) h (writeBody 0x0A0000 w)) ∧
  (∀ h w, writesRegisters (.rollIntervalWrite h w) h (bitsBody 0x100008 w 0x00FF0000)) ∧
  (∀ h, writesRegisters (.frozenClear h) h (bitsBody 0x110044 1 1)) ∧
  (∀ h, writesRegisters (.snapTriggerWrite h) h (bitsBody 0x130004 4 4)) ∧
  (∀ h k, k < 2 → writesRegisters (.snapRelease h k) h (writeBody 0x130004 (w32 (2 + k)))) ∧
  (∀ h, writesRegisters (.perfClear h) h (bitsBody 0x130050 2 2)) ∧
  (∀ h, writesRegisters (.perfRun h true) h (bitsBody 0x130050 1 1)) ∧
  (∀ h, writesRegisters (.perfRun h false) h (bitsBody 0x130050 0 1)) ∧
  (∀ h b w, b < 4 → writesRegisters (.pwrDvfsWrite h b w) h (writeBody (0x120020 + 4 * b) w)) ∧
  (∀ h w i tag, i < 2 ^ 24 → tag < 16 →
    writesRegisters (.winGoRead h w i tag) h (writeBody (winBase w + 0x40) (w32 (2 ^ 31 + tag * 2 ^ 24 + i)))) ∧
  (∀ h w i tag d, i < 2 ^ 24 → tag < 16 → d.length = 16 → writesRegisters (.winGoWrite h w i tag d) h
    [elemW 0x8101 [w32 (winBase w)], elemW 0x8102 (d ++ [w32 (2 ^ 31 + 2 ^ 28 + tag * 2 ^ 24 + i)])])

/-- What single registers do when they are written (parts of R16, R59 to R62, R79, R145, R481, R512, R519, R527, R554); a write of a window's GO
that is refused changes nothing (parts of R555). -/
def Obligations.RegisterRowsTakeEffect : Prop :=
  (∀ s t r, Canon s → s.keys.life = 3 → writeOne 0x000048 0x10000 0x10000 s = (t, r) → flag t 0x000048 16 = true ∧ r = []) ∧
  (∀ s t r, Canon s → s.keys.life ≠ 3 → writeOne 0x000048 0x10000 0x10000 s = (t, r) → flag t 0x000048 16 = false ∧ r ≠ []) ∧
  (∀ s t r, writeOne 0x000048 0x20000 0x20000 s = (t, r) → t.boot = { s.boot with recoveryFallback := false }) ∧
  (∀ s w t r, Canon s → writeOne 0x100008 w 0x00FF0000 s = (t, r) → fld t 0x100008 23 16 = max 1 (min 168 (w.bits 23 16)) ∧
    fld t 0x100008 6 0 = fld s 0x100008 6 0) ∧
  (∀ s t r, Canon s → writeOne 0x130050 1 1 s = (t, r) → flag t 0x130050 0 = true) ∧
  (∀ s t r, writeOne 0x130050 2 2 s = (t, r) → t.obs.counters = [] ∧ t.obs.cycAt = s.now) ∧
  (∀ s k t r, Canon s → k < 2 → writeOne 0x130004 (w32 (2 + k)) 0xFFFFFFFF s = (t, r) →
    t.obs = (releaseSnap k s).obs ∧ fld t 0x130004 0 0 = k) ∧
  (∀ s, s.tmp.frozen = true → freezeHolds s = false → writeOne 0x110044 1 1 s = (unfreeze s, [])) ∧
  (∀ s, s.tmp.frozen = true → freezeHolds s = true → writeOne 0x110044 1 1 s = (s, [asApplied 0xFF110044 (askedWord s 0x110044 1 1)
    ((askedWord s 0x110044 1 1).withBits 0 0 0)])) ∧
  (∀ s, servoSrc s = 0 → s.time.stepAvail = true → writeOne 0x04003C 1 0xFFFFFFFF s =
    (stepTod ((signedOf 32 (regWord s 0x040034).toNat * 1000000000 + signedOf 32 (regWord s 0x040038).toNat) * 65536) s, [])) ∧
  (∀ s w, servoSrc s ≠ 0 → (writeOne 0x040030 w 0xFFFFFFFF s).1 = s) ∧
  (∀ s n hi i t r, Canon s → n < 8 → hi < 256 → s.dks.snapArmed = false → i = hi * 2 ^ 32 + (regWord s (matchHi n - 4)).toNat →
    0 < fastDiff i (fast s) → flag s (matchHi n) 31 = false → (matchOf s n).armed = false → writeOne (matchHi n) (w32 (2 ^ 31 + hi)) 0x800000FF s = (t, r) →
    matchOf t n = { armed := true, instant := i } ∧ flag t (matchHi n) 31 = true ∧ fld t (matchHi n) 29 28 = 0 ∧
      flag t (matchHi n) 30 = flag s (matchHi n) 30) ∧
  (∀ s n hi t r, Canon s → n < 8 → hi < 256 → s.dks.snapArmed = false → flag s (matchHi n) 31 = true →
    matchLead n < fastDiff (matchOf s n).instant (fast s) → (matchOf s n).instant = hi * 2 ^ 32 + (regWord s (matchHi n - 4)).toNat →
    writeOne (matchHi n) (w32 (2 ^ 31 + hi)) 0x800000FF s = (t, r) → t.time = s.time) ∧
  (∀ s n hi t r, Canon s → n < 8 → hi < 256 → s.dks.snapArmed = false → writeOne (matchHi n) (w32 hi) 0x800000FF s = (t, r) →
    (matchOf t n).armed = false ∧ flag t (matchHi n) 31 = false) ∧
  (∀ s b t r, Canon s → b < 4 → flag s (0x070000 + 0x100 * b) 0 = false → writeOne (0x070000 + 0x100 * b) 1 1 s = (t, r) →
    flag t (0x070000 + 0x100 * b) 0 = true ∧ (brick t b).change = some true ∧ r = []) ∧
  (∀ s w i tag t r, Canon s → i < winCount w → tag < 16 →
    writeOne (winBase w + 0x40) (w32 (2 ^ 31 + tag * 2 ^ 24 + i)) 0xFFFFFFFF s = (t, r) → regWord t (winBase w + 0x44) =
      w32 (2 ^ 30 + tag * 2 ^ 24 + i) ∧ ∀ k, k < 16 → regWord t (winBase w + 4 * k) = (winEntry s w i).getD k 0) ∧
  (∀ h w i tag s u b, i < 2 ^ 24 → tag < 16 → b = writeBody (winBase w + 0x40) (w32 (2 ^ 31 + tag * 2 ^ 24 + i)) →
    starts opRegWrite h b s = true → u = begun opRegWrite h b s → domainDown u (winBase w + 0x40) = false → winCount w ≤ i →
    exec (.winGoRead h w i tag) s = .next (finish (flightOf h 0x0103 .start) stNotFound 0 [] u)) ∧
  (∀ h w i tag d s u b, i < winCount w → tag < 16 → d.length = 16 → w ≠ .que →
    b = [elemW 0x8101 [w32 (winBase w)], elemW 0x8102 (d ++ [w32 (2 ^ 31 + 2 ^ 28 + tag * 2 ^ 24 + i)])] →
    starts opRegWrite h b s = true → u = begun opRegWrite h b s → (∀ x ∈ writesOf b, domainDown u x.1 = false) →
    exec (.winGoWrite h w i tag d) s = .next (finish (flightOf h 0x0103 .start) stState 0 [] u))

/-- R98: `LNE_TX_FIR` takes its three fields within their legal values, and MAIN yields where they exceed 64 together; the other registers stay as
they are. -/
def Obligations.TransmitFirYields : Prop :=
  ∀ s n w a t r post main pre, Canon s → n < 36 → a = 0x011004 + 0x20 * n → writeOne a w 0xFFFFFFFF s = (t, r) →
    post = min 16 (w.bits 20 16) → pre = min 16 (w.bits 4 0) → main = max 32 (min 64 (w.bits 14 8)) →
    fld t a 20 16 = post ∧ fld t a 4 0 = pre ∧ fld t a 14 8 = (if 64 < pre + main + post then 64 - pre - post else main) ∧
    32 ≤ fld t a 14 8 ∧ (64 < pre + main + post → r = [asApplied (w32 (0xFF000000 + a)) w (regWord t a)]) ∧
    (w = regWord t a → r = []) ∧ (∀ c, c ≠ a → regWord t c = regWord s c) ∧ t.lane = s.lane

/-- A change of the data flow (parts of R16 to R18): APPLY takes the values that the fields then have; with its buffers drained they are copied,
CHANGE_PENDING falls, and a change of PROT_LINE starts the streams anew; until then the row does nothing. -/
def Obligations.DataflowChanges : Prop :=
  (∀ s w t r, Canon s → flag s 0x000040 8 = false → writeOne 0x000040 (w ||| 0x200) 0xFFFFFFFF s = (t, r) →
    flag t 0x000040 8 = true ∧ t.brk.flow = flowWanted t ∧ fld t 0x000040 7 4 = fld s 0x000040 7 4) ∧
  (∀ t s u, u = tick t s → (flag u 0x000040 8 = false ∨ flowDrained u = false) → exec (.dataflowRemap t) s = .next u) ∧
  (∀ t s u, Canon s → u = tick t s → flag u 0x000040 8 = true → flowDrained u = true → ∃ v, exec (.dataflowRemap t) s = .next v ∧
    flag v 0x000040 8 = false ∧ fld v 0x000040 7 4 = u.brk.flow % 16 ∧ fld v 0x000040 3 0 = fld u 0x000040 3 0 ∧ v.brk.flow = u.brk.flow ∧
    ((fld u 0x000040 7 4).testBit 2 ≠ u.brk.flow.testBit 2 → v.brk.seqs = [] ∧ v.brk.streams = []))

/-- Firmware images (parts of R79 to R86): the spare bank is written, checked, re-sealed and put on trial; status is read; the trial is committed
after 60 s of FULL_READY. `ok` is the verdict of digests and signatures, an operand (log entry 5). -/
def Obligations.ImagesRun : Prop :=
  (∀ h b s u x off e, starts opImageWrite h b s = true → u = begun opImageWrite h b s → u.boot.trialBoot = false → x = flashBank u (spare u) →
    off = (wordAt (wordsOf b 0x8202) 0).toNat → elemOf b 0x8203 = some e → exec (.imageWrite h b) s = .next (completed opImageWrite h []
      (setFlashBank (spare u) { cmd := if wordAt (wordsOf b 0x8201) 0 = 1 then writeSlot x.cmd off e.len e.val else x.cmd,
                                vlt := if wordAt (wordsOf b 0x8201) 0 = 1 then x.vlt else writeSlot x.vlt off e.len e.val,
                                spoiled := true, m3 := [] } u))) ∧
  (∀ h b s u x, starts opImageActivate h b s = true → u = begun opImageActivate h b s → u.boot.resealing = none → x = flashBank u (spare u) →
    bankOk true x u.boot.minSvn = true → ∃ v, exec (.imageActivate h b true) s = .next (inProgress opImageActivate h [opIdElem (nextOp u)] v) ∧
      v.boot.resealing = some (nextOp u) ∧ (flashBank v (spare v)).spoiled = false ∧ v.boot.committedB = u.boot.committedB) ∧
  (∀ h b s u, starts opImageActivate h b s = true → u = begun opImageActivate h b s → u.boot.resealing = none →
    exec (.imageActivate h b false) s = .next (inProgress opImageActivate h [opIdElem (nextOp u)]
      (endOp (nextOp u) stAuth [] (startOp 0x0201 h.world h.mailbox h.tag u)))) ∧
  (∀ t s u op, u = tick t s → u.boot.resealing = some op → ∃ v, exec (.imageResealDone t) s = .next (endOp op stOk [] v) ∧
    v.boot.trialPending = true ∧ v.boot.resealing = none ∧ v.boot.warmAt = some (u.now + ms) ∧ v.boot.committedB = u.boot.committedB ∧
    v.keys.spareHalf = resealFor (measure3 (flashBank u (spare u))) u) ∧
  (∀ h b s u, starts opImageStatus h b s = true → u = begun opImageStatus h b s → ∃ ws,
    exec (.imageStatus h b) s = .next (completed opImageStatus h [rawElem 1 ws] u) ∧
      wordAt ws 1 = w32 u.boot.bankA.cmd.svn ∧ wordAt ws 7 = w32 u.boot.bankB.cmd.svn) ∧
  (∀ t s u f, u = tick t s → u.boot.fullAt = some f → u.boot.trialBoot = true → f + 60 * sec ≤ u.now → ∃ v,
    exec (.trialCommit t) s = .next v ∧ v.boot.committedB = u.boot.runningB ∧ v.boot.trialBoot = false ∧
      v.boot.minSvn = max u.boot.minSvn (runBank u).cmd.svn ∧ v.keys.half = u.keys.spareHalf)

/-- Reset kinds (parts of R88 to R91, R467, R480, R514): each kind has its cause bit, in a reset or boot in progress the kind earlier in Table 3.7
applies, and the device is held afterwards with sessions, tables, queues and the wire's SAs lost. -/
def Obligations.ResetKindsAct : Prop :=
  (∀ t s u, u = tick t s → exec (.powerOnReset t) s = .next (resetBy 0 u)) ∧
  (∀ t s u, u = tick t s → exec (.brownOutReset t) s = .next (resetBy 1 u)) ∧
  (∀ t s u, u = tick t s → exec (.pinReset t) s = .next (resetBy 2 u)) ∧
  (∀ t s u w, u = tick t s → u.boot.warmAt = some w → w ≤ u.now → exec (.commandWarmReset t) s = .next (resetBy 3 u)) ∧
  (∀ t s u, u = tick t s → exec (.watchdogReset t false) s = .next (resetBy 4 u)) ∧
  (∀ t s u, u = tick t s → exec (.watchdogReset t true) s = .next (resetBy 5 u)) ∧
  (∀ t s u w, u = tick t s → u.tmp.resetAt = some w → w ≤ u.now → exec (.tamperReset t) s = .next (resetBy 6 u)) ∧
  (∀ t s u n, u = tick t s → n = fld u 0x100000 13 8 → 1 ≤ n → halted u = true → u.mem.haltAt + n * sec ≤ u.now →
    exec (.haltResetTimer t) s = .next (resetBy 3 u)) ∧
  (∀ t s u, u = tick t s → u.pwr.regLp = true → exec (.aonBrownout t) s = .next (resetBy 0 u)) ∧
  (∀ j k s, kindInProgress s = some j → (resetBy k s).boot.kind = some (min j k) ∧ (resetBy k s).regs = (resetBy (min j k) s).regs) ∧
  (∀ k s, kindInProgress s = none → (resetBy k s).boot.kind = some k) ∧
  (∀ k s v, v = resetBy k s → v.boot.held = true ∧ v.boot.step = 0 ∧ v.cmd = ({} : CmdSt) ∧ v.port = ({} : PortSt) ∧ v.sas = ({} : SasSt) ∧
    v.que = ({} : QueSt) ∧ v.bnd = ({} : BndSt) ∧ v.mem = ({} : MemSt) ∧ v.eng = ({} : EngSt) ∧ v.now = s.now ∧ v.sent = s.sent) ∧
  (∀ k s, (resetBy k s).keys.keys = [] ∧ (resetBy k s).keys.half = s.keys.half ∧ (resetBy k s).keys.spareHalf = s.keys.spareHalf) ∧
  (∀ k s, (resetBy k s).keys.life = s.keys.life ∧ (resetBy k s).boot.bankA = s.boot.bankA ∧ (resetBy k s).boot.bankB = s.boot.bankB ∧
    (resetBy k s).tmp.fused = s.tmp.fused ∧ (resetBy k s).tmp.latch = s.tmp.latch ∧ (resetBy k s).evr.circ = s.evr.circ ∧
    (resetBy k s).evr.keep = s.evr.keep ∧ (resetBy k s).evr.nextSeq = s.evr.nextSeq ∧ (resetBy k s).time.epoch = s.time.epoch)

/-- The boot (parts of R72 to R86, Table 3.2): release, bank choice, the vault's tests, the datapath, FULL_READY; ROM recovery with no bootable
bank; the recovery window's end; SLEEP reached and the wake from it (parts of R498, R505 to R507, R515). -/
def Obligations.BootRuns : Prop :=
  (∀ t balls s u, u = tick t s → u.boot.held = true → (u.boot.supplyOk = true ∨ u.boot.supplyLost + 10 * ms ≤ u.now) →
    exec (.resetRelease t balls) s = .next (startBoot 1 (beginTrial { u with boot := { u.boot with
      releasedAt := u.now, slvAdr := balls % 8 } }))) ∧
  (∀ t balls s u, u = tick t s → u.boot.supplyOk = false → u.now < u.boot.supplyLost + 10 * ms → exec (.resetRelease t balls) s = .next u) ∧
  (∀ s v, v = beginTrial s → v.boot.trialBoot = s.boot.trialPending ∧ v.boot.trialPending = false ∧ v.boot.recoveryFallback = s.boot.trialBoot ∧
    (s.boot.trialBoot = true → v.keys.spareHalf = []) ∧ (s.boot.trialBoot = false → v.keys = s.keys)) ∧
  (∀ t okA okB s u, u = tick t s → u.boot.held = false → u.boot.romRecovery = false → 1 ≤ u.boot.step → u.boot.step < 4 →
    u.boot.trialBoot = false → u.boot.committedB = false → bootable u false okA = true →
    exec (.imageBoot t okA okB) s = .next (startFirmware (measureBank false { u with boot := { u.boot with runningB := false } }))) ∧
  (∀ t okA okB s u, u = tick t s → u.boot.held = false → u.boot.romRecovery = false → 1 ≤ u.boot.step → u.boot.step < 4 →
    u.boot.trialBoot = true → u.boot.committedB = false → bootable u true okB = true →
    exec (.imageBoot t okA okB) s = .next (startFirmware (measureBank true { u with boot := { u.boot with runningB := true } }))) ∧
  (∀ t okA okB s u, Canon s → u = tick t s → u.boot.held = false → u.boot.romRecovery = false → 1 ≤ u.boot.step → u.boot.step < 4 →
    u.boot.trialBoot = true → u.boot.committedB = false → bootable u true okB = false → bootable u false okA = true →
    ∃ v, exec (.imageBoot t okA okB) s = .next v ∧ v.boot.runningB = false ∧ v.boot.trialBoot = false ∧ v.boot.recoveryFallback = true ∧
      v.boot.step = 5 ∧ flag v 0x000054 2 = true) ∧
  (∀ t okA okB s u, u = tick t s → u.boot.held = false → u.boot.romRecovery = false → 1 ≤ u.boot.step → u.boot.step < 4 →
    bootable u false okA = false → bootable u true okB = false → ∃ v, exec (.imageBoot t okA okB) s = .next v ∧
      v.boot.romRecovery = true ∧ v.boot.step = u.boot.step) ∧
  (∀ t s u, u = tick t s → u.boot.step = 5 → ∃ v, exec (.vaultKatPass t) s = .next v ∧ v.boot.step = 6 ∧
    (∀ i, i < 17 → get v.obs.lastPass (24 + i) 0 = u.now)) ∧
  (∀ t s u, u = tick t s → u.boot.step = 6 → ∃ v, exec (.expressReady t) s = .next v ∧ v.boot.step = 8 ∧
    (∀ b k, b < 4 → k < 6 → (get (brick v b).tiles k {}).ok = true)) ∧
  (∀ t s u w v, u = tick t s → u.boot.step = 8 → u.mem.memOff = false → w = commitAll (recordLife (copyLatch (reloadKeys u))) →
    v = resumeRollover { w with boot := { w.boot with step := 10, kind := none, fullAt := some w.now },
                                mem := { w.mem with due := some (w.now + fld w 0x100008 23 16 * 3600 * sec) } } →
    exec (.fullReady t) s = .next (settleApproved v)) ∧
  (∀ t s u w, u = tick t s → u.boot.recoveryUntil = some w → w ≤ u.now →
    exec (.recoveryWindowExpiry t) s = .next { u with boot := { u.boot with recoveryUntil := none } }) ∧
  (∀ t s u v, u = tick t s → u.pwr.pastCommit = true → u.pwr.state ≠ 3 → halted u = false → u.pwr.wakeNext = true → v = loseState false true u →
    exec (.sleepReached t) s = .next (startWake 4 { v with
      pwr := { v.pwr with state := 3, regLp := true }, boot := { v.boot with held := false, kind := none } })) ∧
  (∀ t s u v, u = tick t s → u.pwr.pastCommit = true → u.pwr.state ≠ 3 → halted u = false → u.pwr.wakeNext = false → v = loseState false true u →
    exec (.sleepReached t) s = .next (rtcWake { v with
      pwr := { v.pwr with state := 3, regLp := true }, boot := { v.boot with held := false, kind := none } })) ∧
  (∀ t s u, u = tick t s → u.pwr.waking = true →
    exec (.wakeDone t) s = .next (record 0x1203 [u.pwr.wakeCause] (startBoot 2 { u with pwr := { wakeCause := u.pwr.wakeCause } })))

/-- Lanes (parts of R96, R102 to R109): test patterns start and stop on free lanes, a margin measurement runs as a long operation of which each
group of four lanes is an event; a bond link lane enters and leaves frame, a marker and a data block pass, a reference is restored. -/
def Obligations.LanesRun : Prop :=
  (∀ h b s u t es act pat, starts opLanePrbs h b s = true → u = begun opLanePrbs h b s →
    (∀ n ∈ maskLanes (wordsOf b 0x8304), laneFree u n = true ∧ patternFor n pat.toNat = pat.toNat) →
    act = wordAt (wordsOf b 0x0303) 0 → pat = wordAt (wordsOf b 0x0302) 0 → act.toNat ≤ 3 →
    (maskLanes (wordsOf b 0x8304)).foldl
      (fun acc n => ((prbsLane n act.toNat (patternFor n pat.toNat) acc.1).1, acc.2 ++ [(prbsLane n act.toNat (patternFor n pat.toNat) acc.1).2]))
      (u, []) = (t, es) →
    exec (.lanePrbs h b) s = .next (completed opLanePrbs h es t)) ∧
  (∀ n pattern s, (prbsLane n 1 pattern s).1 = setLane n (fun _ => { get s.lane.lanes n {} with
    test := some (1, pattern), errored := 0, compared := 0, checkLock := false, powered := true, cdrLock := false, adaptDone := false }) s) ∧
  (∀ n action pattern s l, action ≠ 0 → l = get (prbsLane n action pattern s).1.lane.lanes n {} →
    l.test = some (action, pattern) ∧ l.errored = 0 ∧ l.compared = 0 ∧ l.powered = true) ∧
  (∀ n pattern s, (get (prbsLane n 0 pattern s).1.lane.lanes n {}).test = none) ∧
  (∀ h b s u v, starts opLaneMargin h b s = true → u = begun opLaneMargin h b s → elemOf b 0x0306 = none →
    (∀ m ∈ u.lane.margins, ∀ l ∈ maskLanes (wordsOf b 0x8304), l ∉ m.lanes) → v = startOp 0x0301 h.world h.mailbox h.tag u →
    exec (.laneMargin h b) s = .next (inProgress opLaneMargin h [opIdElem (nextOp u)] { v with lane := { v.lane with
      margins := v.lane.margins ++ [{ op := nextOp u, lanes := maskLanes (wordsOf b 0x8304), target := 6 }] } })) ∧
  (∀ t s u m r v es, u = tick t s → u.lane.margins = m :: r → m.lanes.length ≤ 4 →
    m.lanes.foldl (fun acc n => ((marginElem n acc.1).1, acc.2 ++ [(marginElem n acc.1).2])) (u, []) = (v, es) →
    exec (.laneMarginGroupDone t) s = .next (endOp m.op stOk (m.results ++ es) { v with lane := { v.lane with margins := r } })) ∧
  (∀ t l s u, u = tick t s → l < 2 → bondLaneMay u l = true → exec (.bondLaneInFrame t l) s =
    .next (setBondLane l { bondLane u l with inFrame := true, good := 0, errored := 0, sendRdi := false, searching := false }
      (lockLane (physRx u (32 + l)) u))) ∧
  (∀ t l s u, u = tick t s → l < 2 → exec (.bondLaneOutOfFrame t l) s = .next (setBondLane l { bondLane u l with
    inFrame := false, good := 0, errored := 0, sendRdi := true, searching := true, aligned := false, fill := 8 } u)) ∧
  (∀ t l b s u v x bits n c e, u = tick t s → l < 2 → bondLaneMay u l = true →
    v = (List.range b.reads).foldl (fun s _ => sendBlock l s) u → x = bondLane v l → x.inFrame = false →
    destuff x.rxRun x.rxLast b.bits = (bits, n, c, e) → exec (.bondBlockRx t l b) s = .next (takeBlocks l (b.bits.length / 66 + 2)
      (setBondLane l { x with rxBuf := x.rxBuf ++ bits, rxRun := n, rxLast := c } v))) ∧
  (∀ l blk s m, l < 2 → bondLaneMay s l = true → markerOf blk = some m → m.2 = ((bondLane s l).count + 1) % 65536 →
    (bondLane s l).inFrame = false → (bondLane s l).good = 2 → (bondLane (markerBlock l blk s) l).inFrame = true) ∧
  (∀ l blk s, l < 2 → (∀ m, markerOf blk = some m → m.2 ≠ ((bondLane s l).count + 1) % 65536) → (bondLane s l).inFrame = true →
    (bondLane (markerBlock l blk s) l).inFrame = decide ((bondLane s l).errored < 3)) ∧
  (∀ l blk s h, l < 2 → (bondLane s l).inFrame = true → blk.take 2 = [h, h] → plainBlock l blk s =
    blockError l (setBondLane l { bondLane s l with rxScr := (scramble (bondLane s l).rxScr (blk.drop 2)).2 } s)) ∧
  (∀ l s x, l < 2 → x = bondLane s l → x.txPos = 0 → ∃ v, sendBlock l s = send (.block l (stuff x.txRun x.txLast ([true, false] ++
      bitsLsb [0xB1, 2 * bit x.sendRdi + l, x.txCount / 256 % 256, x.txCount % 256, 0x5A, 0x3C, 0xC3, 0xA5])).1) v ∧
    (bondLane v l).txPos = 1 ∧ (bondLane v l).txCount = (x.txCount + 1) % 65536 ∧ (bondLane v l).txScr = 32767) ∧
  (∀ t q s u, u = tick t s → q < 9 → q ∉ u.lane.refOk →
    exec (.refRestore t q) s = .next { u with lane := { u.lane with refOk := q :: u.lane.refOk } })

/-- The line codes of the bond lanes (parts of R102 to R104, Table 4.2): what is stuffed is destuffed to the same bits with no lane error, a
scrambled payload is descrambled to itself from the same state, a marker as sent reads as its remote defect and frame count. -/
def Obligations.LineCodesInvert : Prop :=
  (∀ run last bits, run < 31 → destuff run last (stuff run last bits).1 = (bits, (stuff run last bits).2.1, (stuff run last bits).2.2, false)) ∧
  (∀ st bits, (scramble st (scramble st bits).1).1 = bits ∧ (scramble st bits).1.length = bits.length) ∧
  (∀ l r c, l < 2 → c < 65536 → markerOf ([true, false] ++ bitsLsb [0xB1, 2 * bit r + l, c / 256 % 256, c % 256, 0x5A, 0x3C, 0xC3, 0xA5]) =
    some (r, c)) ∧
  (∀ bs : List Nat, (∀ b ∈ bs, b < 256) → bytesLsb bs.length (bitsLsb bs) = bs)

/-- Links (parts of R114, R128): a sub-port's link comes up, remote fault is received and clears, a verify attempt is answered or fails, each a
VERIFY_TIME after the one before. -/
def Obligations.LinksComeUp : Prop :=
  (∀ t sp s u, u = tick t s → linkMay u sp = true → (subPort u sp).link = false →
    exec (.linkUp t sp) s = .next (startVerify sp ((lanesOf u sp).foldl (fun s l => lockLane (physRx s l) s)
      (setSub sp { subPort u sp with link := true, localFault := false } u)))) ∧
  (∀ t sp s u, u = tick t s → sp < 20 → (subPort u sp).link = true →
    exec (.remoteFaultRx t sp) s = .next (setSub sp { subPort u sp with remoteFault := true } u)) ∧
  (∀ t sp s u, u = tick t s → sp < 20 →
    exec (.remoteFaultClear t sp) s = .next (setSub sp { subPort u sp with remoteFault := false } u)) ∧
  (∀ t sp ok s u x, u = tick t s → x = subPort u sp → sp < 20 → spPort sp < 4 → x.link = true → x.verify = 1 →
    flag u (0x020008 + 0x10 * spPort sp) 0 = true → flag u (0x020008 + 0x10 * spPort sp) 2 = false →
    exec (.mmVerifyAttempt t sp ok) s = .next (if ok = true then setSub sp { x with verify := 2 } u
      else if u.now < x.verifyAt + fld u (0x020008 + 0x10 * spPort sp) 15 8 * ms then u
      else setSub sp { x with attempts := x.attempts + 1, verifyAt := u.now, verify := if 2 ≤ x.attempts then 3 else 1 } u))

/-- Pause (parts of R123 to R125): a PFC frame sets the pause of its enabled classes, which an express class never obeys, a PAUSE frame of all, the
time runs out, the watchdog trips and ends. -/
def Obligations.PauseIsHonoured : Prop :=
  (∀ t sp f i s u v, u = tick t s → sp < 16 → (subPort u sp).link = true → v = subCount sp 7 1 (countRx sp f u) →
    failedRx sp f (rxStamp (countRx sp f u) sp) (countRx sp f u) = none → f.pause = some i → i.pfc = true → exec (.macControlRx t sp f) s =
      .next (i.times.foldl (fun s e => if e.1 < 8 ∧ flag s (0x020080 + 4 * spPort sp) e.1 = true then pauseClass sp e.1 e.2 true s else s) v)) ∧
  (∀ t sp f i c d r s u v, u = tick t s → sp < 16 → (subPort u sp).link = true → v = subCount sp 7 1 (countRx sp f u) →
    failedRx sp f (rxStamp (countRx sp f u) sp) (countRx sp f u) = none → f.pause = some i → i.pfc = false → i.times = (c, d) :: r →
    flag v (0x020080 + 4 * spPort sp) 8 = true → exec (.macControlRx t sp f) s =
      .next ((List.range 8).foldl (fun s k => pauseClass sp k d false s) v)) ∧
  (∀ t sp f s u v, u = tick t s → 16 ≤ sp → sp < 18 → (subPort u sp).link = true → v = rxDrop sp (countRx sp f u) →
    failedRx sp f (rxStamp v sp) v = none → f.pause = none → exec (.macControlRx t sp f) s = .next (subCount sp 7 1 v)) ∧
  (∀ sp c d pfc s p, p = get (subPort s sp).pause c {} → s.now < p.ignore → pauseClass sp c d pfc s = s) ∧
  (∀ sp c d s, (get (subPort s sp).pause c {}).ignore ≤ s.now → 0 < d → paused (pauseClass sp c d false s) sp c = true) ∧
  (∀ sp c d s, (get (subPort s sp).pause c {}).ignore ≤ s.now → 0 < d →
    paused (pauseClass sp c d true s) sp c = (!(fld s (0x020008 + 0x10 * spPort sp) 23 16).testBit c ||
      decide (s.now < (get (subPort s sp).pause c {}).until_))) ∧
  (∀ t sp c s u p, u = tick t s → p = get (subPort u sp).pause c {} → paused u sp c = false → p.since.isSome = true →
    exec (.pauseTimeExpiry t sp c) s =
      .next (setSub sp { subPort u sp with pause := put (subPort u sp).pause c { p with since := none } } u)) ∧
  (∀ t sp c s u p t0, u = tick t s → p = get (subPort u sp).pause c {} → p.since = some t0 → sp < 16 → paused u sp c = true →
    t0 + wdTime u sp ≤ u.now → exec (.pauseWatchdogTrip t sp c) s = .next (record Config.pauseTripEvent [spPort sp, spIdx sp, c]
      (setSub sp { subPort u sp with pause := put (subPort u sp).pause c { ignore := u.now + 10 * wdTime u sp } } u))) ∧
  (∀ t sp c s u p, u = tick t s → p = get (subPort u sp).pause c {} → p.ignore ≠ 0 → p.ignore ≤ u.now →
    exec (.pauseWatchdogEnd t sp c) s =
      .next (setSub sp { subPort u sp with pause := put (subPort u sp).pause c { p with ignore := 0 } } u))

/-- Capture and counters (parts of R127, R132, R135, R136): CAPTURE_READ takes entries from the head of the queue, PORT_STATS_READ returns totals, a
poll adds every sub-port counter to its total, a management port discards and counts what is no command. -/
def Obligations.PortCountersAndCapture : Prop :=
  (∀ h b s u n, starts opCaptureRead h b s = true → u = begun opCaptureRead h b s → elemOf b 0x0312 = some n → 1 ≤ (wordAt n.val 0).toNat →
    (wordAt n.val 0).toNat ≤ 3 → exec (.captureRead h b) s = .next (completed opCaptureRead h
      ((u.port.capture.take (wordAt n.val 0).toNat).map captureElem ++
        [elemW 0x0314 [w32 (u.port.capture.drop (wordAt n.val 0).toNat).length, w32 (fld u 0x020100 31 16)]])
      (setFld 0x020100 31 16 0 { u with port := { u.port with capture := u.port.capture.drop (wordAt n.val 0).toNat } }))) ∧
  (∀ h b s u sp, starts (opPortStatsRead s) h b s = true → u = begun (opPortStatsRead s) h b s →
    portElem u (wordsOf b 0x8311) = some sp → sp < 18 →
    exec (.portStatsRead h b) s = .next (completed (opPortStatsRead s) h
      [elemW 0x0315 ((List.range 12).flatMap fun i => count8 (get u.port.totals (16 * sp + i) 0))] u)) ∧
  (∀ h b s u sp, starts (opPortStatsRead s) h b s = true → u = begun (opPortStatsRead s) h b s →
    portElem u (wordsOf b 0x8311) = some sp → 18 ≤ sp →
    exec (.portStatsRead h b) s = .next (completed (opPortStatsRead s) h
      [elemW 0x0315 ([0, 1].flatMap fun tx => (List.range 25).flatMap fun i =>
        count8 (get u.port.line (64 * (sp - 18) + 32 * tx + i) 0))] u)) ∧
  (∀ t s u, u = tick t s → 5 ≤ u.boot.step → u.pwr.state < 3 → exec (.counterPoll t) s = .next (pollCounters u)) ∧
  (∀ t k f s u, u = tick t s → (subPort u (16 + k % 2)).link = true → portEnabled u (spPort (16 + k % 2)) = true → f.etype ≠ 0x8808 →
    (f.etype ≠ fld u 0x1F0000 15 0 ∨ 1 < f.tags.length ∨ f.fcsOk = false) →
    exec (.mgmtPortFrameRx t k f) s = .next (rxDrop (16 + k % 2) (countRx (16 + k % 2) f u)))

/-- Time of day (parts of R140, R142, R162 to R164, R171): it is read, a new epoch begins, a comparator fires, synchronism is lost, a slew ends, the
time is saved. -/
def Obligations.TimeRuns : Prop :=
  (∀ h b s u, starts opTimeRead h b s = true → u = begun opTimeRead h b s → exec (.timeRead h b) s = .next (completed opTimeRead h
    [elemB 0x0401 (beBytes 6 (todSec u) ++ beBytes 4 (todNs u) ++ beBytes 2 (todFrac u)), elemW 0x0402 [w32 u.time.epoch],
      elemW 0x0403 [liveWord u 0x040000], elemB 0x0404 (signedBytes 8 u.time.offset), elemW 0x0405 [regWord u 0x040030]] u)) ∧
  (∀ h b s u, starts opTimeEpochNew h b s = true → u = begun opTimeEpochNew h b s → exec (.timeEpochNew h b) s =
    .next (completed opTimeEpochNew h [elemW 0x0402 [w32 (epochAfter u.time.epoch)]]
      (newEpoch u.time.epoch (epochAfter u.time.epoch) 0 (credOf u h.session) (wordAt (wordsOf b 0x8406) 0) u))) ∧
  (∀ t n s u, u = tick t s → n < 6 → (matchOf u n).armed = true → fastDiff (matchOf u n).instant (fast u) ≤ 0 →
    exec (.matchFire t n) s = .next (raise (matchHi n) 30 (disarm n u))) ∧
  (∀ t n s u, u = tick t s → n < 8 → (matchOf u n).armed = true → fastDiff (matchOf u n).instant (fast u) ≤ matchLead n →
    exec (.matchFire t n) s = .next (fireMatch n false false u)) ∧
  (∀ t s u, u = tick t s → u.time.sync = true → (∀ l, u.time.lastMeas = some l → l + 10 * sec ≤ u.now) →
    exec (.syncTimeout t) s = .next { u with time := { u.time with sync := false } }) ∧
  (∀ t s u v, u = tick t s → u.time.slewing = true → u.time.slewGoal * 10000000 ≤ (u.now - u.time.slewAt) * 65536 → v = rebase u →
    exec (.slewEnd t) s = .next { v with time := { v.time with slewing := false, slewGoal := 0 } }) ∧
  (∀ t s u, u = tick t s → u.time.running = true → rtcNow u % 32768 = 0 → exec (.timeSave t) s =
    .next { u with time := { u.time with savedTod := todAgo u (rtcPast u), savedRtc := rtcNow u } })

/-- The time pins (parts of R169, R170, R173, R174): the 10 MHz reference fails and returns, PPS_IN edges and their absence, PPS_OUT. -/
def Obligations.TimePinsAct : Prop :=
  (∀ t s u, u = tick t s → u.time.refSel = 1 → exec (.ref10mFault t) s =
    .next (record 0x0603 [0, 0] { u with time := { u.time with ref10Ok := false, refSel := 0 } })) ∧
  (∀ t s u, u = tick t s → u.time.refSel = 0 → fld u 0x040040 5 4 = 1 → exec (.ref10mRestore t) s =
    .next (record 0x0603 [1, 1] { u with time := { u.time with ref10Ok := true, refSel := 1 } })) ∧
  (∀ t s u, u = tick t s → u.time.refSel = 0 → fld u 0x040040 5 4 ≠ 1 → exec (.ref10mRestore t) s =
    .next { u with time := { u.time with ref10Ok := true } }) ∧
  (∀ t s u, u = tick t s → flag u 0x040050 7 = false → u.time.stepAvail = true → servoSrc u ≠ 2 → exec (.ppsInEdge t) s =
    .next { u with time := { u.time with ppsInEdge := some u.now, ppsLost := false, ppsInOk := true } }) ∧
  (∀ t s u, u = tick t s → flag u 0x040050 7 = true → u.time.stepAvail = true → servoSrc u ≠ 2 → exec (.ppsInEdge t) s =
    .next { u with time := { u.time with
      ppsInEdge := some u.now, ppsLost := false, ppsStamp := todNs u * 4 + todFrac u / 16384, ppsSec := todSec u % 2 ^ 32, ppsInOk := true } }) ∧
  (∀ t s u e, u = tick t s → u.time.running = true → u.time.ppsLost = false → e = u.time.ppsInEdge.getD u.time.ppsFrom → e + 1500 * ms ≤ u.now →
    servoSrc u ≠ 2 → exec (.ppsInMissing t) s =
    .next { u with time := { u.time with ppsLost := true, ppsInOk := false } }) ∧
  (∀ t s u e, u = tick t s → u.time.running = true → u.time.ppsLost = false → e = u.time.ppsInEdge.getD u.time.ppsFrom → e + 1500 * ms ≤ u.now →
    servoSrc u = 2 → exec (.ppsInMissing t) s =
    .next (timeFault 2 u.time.offset { u with time := { u.time with ppsLost := true, ppsInOk := false } })) ∧
  (∀ t s u, u = tick t s → wholeSecond u = true → fld u 0x040050 9 8 = 1 ∨ (fld u 0x040050 9 8 = 2 ∧ u.time.sync = true) →
    (∀ e, u.time.ppsLast = some e → e + 500 * ms ≤ u.now) → exec (.ppsOutEdge t) s = .next (send (.pulse 0 true) { u with time :=
      { u.time with ppsOut := true, ppsLast := some u.now, ppsFall := some (u.now + fld u 0x040050 19 10 * ms) } })) ∧
  (∀ t s u f, u = tick t s → u.time.ppsFall = some f → f ≤ u.now → u.time.ppsOut = true →
    exec (.ppsOutWidthEnd t) s = .next (send (.pulse 0 false) { u with time := { u.time with ppsOut := false, ppsFall := none } }))

/-- PTP (parts of R150 to R160): a configuration is replaced whole, messages are received and used, messages are sent on clear and line ports, and a
one-step frame is injected, dispatched and released. That Announce feeds the best master clock algorithm as IEEE 1588-2019 has it is log entry
36. -/
def Obligations.PtpRuns : Prop :=
  (∀ h b s u c kept ports, starts (opPtpConfig s) h b s = true → u = begun (opPtpConfig s) h b s →
    c = clockApplied (if hasElem b 0x0410 then wordAt (wordsOf b 0x0410) 0 else word4 0 2 0 0) →
    kept = (if c.bits 31 24 = 1 then (elemsOf b 0x8411).take 1 else elemsOf b 0x8411) →
    ports = kept.map (fun e => { ptpPortOf (ptpPortApplied u (c.bits 23 16) e.val) with since := u.now }) →
    (∀ k ∈ ptpScs u ports, scHeld u k = false) → (∀ q ∈ ports, ptpPortOk u q = true) → hasElem b 0x0412 = false →
    ∃ r, exec (.ptpConfig h b) s = .next (completed (opPtpConfig s) h r (fillBanks 1 0 (fillBanks 0 0 (freeReserved 1 (freeReserved 0
      { u with time := { u.time with ptpType := c.bits 31 24, ptpProfile := c.bits 23 16, ptpDomain := c.bits 15 8,
                                     ptpPrio1 := c.bits 7 0, ptpPorts := ports, ptpIn := [] } })))))) ∧
  (∀ t p m s u v q a, u = tick t s → ptpPort u p = some q → takeArrival p u = some (a, v) → p < 2 ∨ lpTrunk v (p - 2) = false →
    m.domain ≠ v.time.ptpDomain →
    exec (.ptpMessageRx t p m) s = .next { v with time := { v.time with ptpDiscard := v.time.ptpDiscard + 1 } }) ∧
  (∀ t p m s u v q a, u = tick t s → ptpPort u p = some q → takeArrival p u = some (a, v) → p < 2 ∨ lpTrunk v (p - 2) = false →
    m.domain = v.time.ptpDomain → m.kind = 1 → m.clock.id ≠ clockId v → m.clock.steps < 255 → bestOf v q = none →
    exec (.ptpMessageRx t p m) s =
      .next (runBmca (updPtp q.port (fun x => { x with best := some (m.clock, m.source), bestAt := v.now }) v))) ∧
  (∀ t p m s u v q a c, u = tick t s → ptpPort u p = some q → takeArrival p u = some (a, v) → p < 2 ∨ lpTrunk v (p - 2) = false →
    m.domain = v.time.ptpDomain → m.kind = 0 → q.state = 1 → q.best = some (c, m.source) → m.twoStep = false →
    exec (.ptpMessageRx t p m) s = .next (syncMeasured q ((a : Int) - m.time - m.corr) v)) ∧
  (∀ t p m s u v q a c x y, u = tick t s → ptpPort u p = some q → takeArrival p u = some (a, v) → p < 2 ∨ lpTrunk v (p - 2) = false →
    m.domain = v.time.ptpDomain → m.kind = 2 → q.state = 1 → q.best = some (c, m.source) → q.rxSync = some (m.seq, x, y) →
    exec (.ptpMessageRx t p m) s = .next (syncMeasured q ((x : Int) - m.time - y - m.corr) v)) ∧
  (∀ q d s, q.state = 1 → servoSrc s = 1 → 1 ≤ s.time.ptpProfile → syncMeasured q d s =
    measure (d - q.linkDelay) (updPtp q.port (fun x => { x with syncDiff := some d, rxSync := none }) s)) ∧
  (∀ t p k d s u q m, u = runBmca (tick t s) → ptpPort u p = some q → p < 2 → q.port = p → dataHeld u = false → ptpSends u q k = true →
    ptpMsgOf u q k = some m → stepOf u q ≠ 1 ∨ (k ≠ 0 ∧ k ≠ 6) → canSend u (spKey p q.sub) = true →
    exec (.ptpMessageTx t p k d) s = .next (sendPtp (spKey p q.sub) q.transport m none
      (if [0, 3, 5, 6].contains k then some (txStampTod u p) else none) (updPtp p (ptpSent m (txStampTod u p)) u))) ∧
  (∀ t p k d s u v q m e n, u = runBmca (tick t s) → ptpPort u p = some q → 2 ≤ p → lpTrunk u (p - 2) = false → dataHeld u = false →
    ptpSends u q k = true → ptpMsgOf u q k = some m → stepOf u q ≠ 1 ∨ (k ≠ 0 ∧ k ≠ 6) → canSend u (spKey p q.sub) = true →
    ptpProtect q u = (v, some (some (e, n))) →
    exec (.ptpMessageTx t p k d) s = .next (sendPtp (spKey p q.sub) q.transport m (some (e, n))
      (if [0, 3, 5, 6].contains k then some (txStampTod v p) else none) (updPtp p (ptpSent m (txStampTod v p)) v))) ∧
  (∀ t p k d s u q m, u = runBmca (tick t s) → ptpPort u p = some q → p < 2 ∨ lpTrunk u (p - 2) = false → dataHeld u = false →
    ptpSends u q k = true → ptpMsgOf u q k = some m → stepOf u q = 1 → k = 0 ∨ k = 6 →
    exec (.ptpMessageTx t p k d) s = .next (inject q m d u)) ∧
  (∀ q m d s, 4000 ≤ stampDiff s d → has s.time.oneSteps q.port = false → ∃ x, look (inject q m d s).time.oneSteps q.port = some x ∧
    x.tDep = d % 2 ^ 42 ∧ x.tRel = unsignedOf 42 ((d : Int) - (txDelayOf s q.port : Nat) - txCorr s q.port) ∧ x.dispatched = false) ∧
  (∀ t p s u x q v sa, u = tick t s → look u.time.oneSteps p = some x → x.dispatched = false → ptpPort u p = some q →
    stampDiff u x.tRel * 250 ≤ (fld u 0x040060 9 0 * bc u (feeder p) : Nat) → stepOf u q ≠ 0 → ptpProtect q u = (v, some sa) →
    exec (.onestepDispatch t p) s = .next { v with time := { v.time with
      oneSteps := put v.time.oneSteps p { x with
        dispatched := true, sa := sa, msg := oneStepWritten v x,
        atRelease := decide ((32 * bc v (feeder p) : Nat) ≤ stampDiff u x.tRel * 250) } } }) ∧
  (∀ t p s u x a v, u = tick t s → look u.time.oneSteps p = some x → stampDiff u x.tRel ≤ 0 → -2 ≤ stampDiff u x.tRel →
    x.disturbed = false → x.dispatched = true → x.atRelease = true → macBusy u x.port = false → canSend u x.port = true →
    a = 0x040104 + 0x10 * spPort x.port → v = { u with time := { u.time with oneSteps := del u.time.oneSteps p } } →
    exec (.onestepRelease t p) s = .next (sendPtp x.port x.transport x.msg x.sa none (setReg a (regWord u a + 1) v)))

/-- The flow and VLAN tables (parts of R178, R183 to R191, R200): entries are inserted, read and deleted, at once where the write engine is free and
else in their turn; a copy with new seeds starts and ends. -/
def Obligations.TableCommandsComplete : Prop :=
  (∀ h b s u k w, starts opTableInsert h b s = true → u = begun opTableInsert h b s → k = tabBrick b → engineIdle u k = true → tabTable b = 0 →
    w = vlanApplied (wordAt (wordsOf b 0x8504) 0) → vlanStanding u k w = some false → ∃ r,
    exec (.tableInsert h b) s = .next (completed opTableInsert h r (setVlan k (tabIndex b) w u))) ∧
  (∀ h b s u k x e f, starts opTableInsert h b s = true → u = begun opTableInsert h b s → k = tabBrick b → engineIdle u k = true →
    tabTable b ≠ 0 → e = staticEntry b → scStanding u (brickSc k e.sc) = some false → x = tabs u k → findFlow x e.key = none →
    freeWay x (keyWays x e.key) = some f →
    exec (.tableInsert h b) s = .next (completed opTableInsert h [] (setTables k (flowPut (cuckooDepth u k) f e x) u))) ∧
  (∀ h b s u k x e w o, starts opTableInsert h b s = true → u = begun opTableInsert h b s → k = tabBrick b → engineIdle u k = true →
    tabTable b ≠ 0 → e = staticEntry b → scStanding u (brickSc k e.sc) = some false → x = tabs u k → findFlow x e.key = some (w, o) →
    exec (.tableInsert h b) s = .next (completed opTableInsert h [] (setTables k (flowPut (cuckooDepth u k) w e x) u))) ∧
  (∀ h b s u k x e, starts opTableInsert h b s = true → u = begun opTableInsert h b s → k = tabBrick b → engineIdle u k = false →
    tabTable b ≠ 0 → e = staticEntry b → scStanding u (brickSc k e.sc) = some false → x = tables u k →
    exec (.tableInsert h b) s = .next (setReport (flightOf h 0x0500 .start) [] (waiting opTableInsert h (.table k x.nextJob)
      (setTables k { x with nextJob := x.nextJob + 1, work := x.work ++ [.insert x.nextJob e] } u)))) ∧
  (∀ h b s u k, starts opTableDelete h b s = true → u = begun opTableDelete h b s → k = tabBrick b → engineIdle u k = true → tabTable b = 0 →
    exec (.tableDelete h b) s = .next (completed opTableDelete h [] (setVlan k (tabIndex b) 0 u))) ∧
  (∀ h b s u k x w e, starts opTableDelete h b s = true → u = begun opTableDelete h b s → k = tabBrick b → engineIdle u k = true →
    tabTable b ≠ 0 → x = tabs u k → findFlow x (tabKey b) = some (w, e) →
    exec (.tableDelete h b) s = .next (completed opTableDelete h [] (setTables k (flowDel w x) u))) ∧
  (∀ h b s u x, starts opTableRead h b s = true → u = begun opTableRead h b s → tabTable b = 0 → x = tabs u (tabBrick b) →
    entryHeld x true (tabIndex b) = false →
    exec (.tableRead h b) s = .next (completed opTableRead h [elemW 0x8504 [get x.vlan (tabIndex b) 0]] u)) ∧
  (∀ h b s u x w e, starts opTableRead h b s = true → u = begun opTableRead h b s → tabTable b ≠ 0 → x = tabs u (tabBrick b) →
    entryHeld x false (tabKey b) = false → findFlow x (tabKey b) = some (w, e) →
    exec (.tableRead h b) s = .next (completed opTableRead h [flowElem e] u)) ∧
  (∀ h b s u k x a c, starts opTableRehash h b s = true → u = begun opTableRehash h b s → k = tabBrick b → x = tables u k → x.rehash = none →
    a = wordAt (wordsOf b 0x8507) 0 → c = (if a = wordAt (wordsOf b 0x8507) 1 then a ^^^ 1 else wordAt (wordsOf b 0x8507) 1) →
    ∃ r, exec (.tableRehash h b) s = .next (inProgress opTableRehash h (opIdElem (nextOp u) :: r) (setTables k
      { x with rehash := some { op := nextOp u, seed0 := a.toNat, seed1 := c.toNat, start := u.now } }
      (startOp 0x0503 h.world h.mailbox h.tag u)))) ∧
  (∀ t k s u x r y, u = tick t s → k < 4 → x = tabs u k → x.rehash = some r → x.chain = none → y = copyTo (cuckooDepth u k) 65536 x r →
    y.bad = false → exec (.rehashSwap t k) s = .next (endOp r.op stOk [] (setFld (0x050004 + 0x100 * k) 24 24 0 (setTables k
      { x with flow := y.shadow, seed0 := r.seed0, seed1 := r.seed1, rehash := none, bank := !x.bank } u)))) ∧
  (∀ t k s u x r y, u = tick t s → k < 4 → x = tabs u k → x.rehash = some r → x.chain = none → y = copyTo (cuckooDepth u k) 65536 x r →
    y.bad = true → exec (.rehashSwap t k) s = .next (endOp r.op stNoSpace [] (setTables k { x with rehash := none } u)))

/-- Prefixes, learning and ageing (parts of R183 to R188, R192 to R198): prefixes are added and removed, a learn message is applied in its turn, a
chain ends with its tombstone freed, the ager visits the ways that are due. -/
def Obligations.PrefixesLearningAgeing : Prop :=
  (∀ h b s u x f n a w, starts opLpmAdd h b s = true → u = begun opLpmAdd h b s → x = tables u (tabBrick b) → prefixOf b = (f, n, a) →
    w = wordAt (wordsOf b 0x8509) 0 → (∀ o ∈ x.lpm, ¬ (o.family = f ∧ o.len = n ∧ o.addr = a)) →
    exec (.lpmAdd h b) s = .next (
      if lpmFits (x.lpm ++ [{ family := f, len := n, addr := a, action := w.bits 3 2, cls := w.bits 18 16 }]) = true then
        completed opLpmAdd h [] (setTables (tabBrick b) { x with
          lpm := x.lpm ++ [{ family := f, len := n, addr := a, action := w.bits 3 2, cls := w.bits 18 16 }] } u)
      else finish (flightOf h opLpmAdd.code .start) stNoSpace 0 [] u)) ∧
  (∀ h b s u x f n a w, starts opLpmAdd h b s = true → u = begun opLpmAdd h b s → x = tables u (tabBrick b) → prefixOf b = (f, n, a) →
    w = wordAt (wordsOf b 0x8509) 0 → (∃ o ∈ x.lpm, o.family = f ∧ o.len = n ∧ o.addr = a) →
    exec (.lpmAdd h b) s = .next (completed opLpmAdd h [] (setTables (tabBrick b) { x with lpm := x.lpm.map fun o =>
      if (decide (o.family = f) && decide (o.len = n) && decide (o.addr = a)) = true then
        { family := f, len := n, addr := a, action := w.bits 3 2, cls := w.bits 18 16 } else o } u))) ∧
  (∀ h b s u x f n a, starts opLpmDelete h b s = true → u = begun opLpmDelete h b s → x = tables u (tabBrick b) → prefixOf b = (f, n, a) →
    (∃ o ∈ x.lpm, o.family = f ∧ o.len = n ∧ o.addr = a) → exec (.lpmDelete h b) s = .next (completed opLpmDelete h []
      (setTables (tabBrick b) { x with lpm := x.lpm.filter fun o => !(o.family == f && o.len == n && o.addr == a) } u))) ∧
  (∀ t k s u m r, u = tick t s → k < 2 → u.pwr.state < 2 → (tables u k).work = .learn m :: r → engineFree u k = true →
    exec (.learnApply t k) s = .next (serveAll k (applyLearn m (setTables k { tables u k with work := r } u)))) ∧
  (∀ m s x w e, x = tabs s m.brick → m.remove = true → m.mirrored = true → findFlow x m.key = some (w, e) → e.static = false →
    applyLearn m s = setTables m.brick (flowDel w x) s) ∧
  (∀ m s x w c, x = tabs s m.brick → m.remove = false → m.mirrored = true → scOf s (scKey m.brick false m.sc) = some c → c.deleting = false →
    findFlow x m.key = none → freeWay x (keyWays x m.key) = some w → applyLearn m s =
      setTables m.brick (flowPut (cuckooDepth s m.brick) w { key := m.key, sc := m.sc, static := false, hit := true } x) s) ∧
  (∀ t k s u x c w a, u = tick t s → x = tabs u k → x.chain = some c → c.held = some (w, a) → a + 8 * bc u k ≤ u.now → c.moves = [] →
    c.void = false → c.origin = none → exec (.tombstoneFree t k) s = .next (serveAll k (setTables k
      { flowPut (cuckooDepth u k) c.way c.entry { x with flow := del x.flow w } with chain := none } u))) ∧
  (∀ t k s u x c w a, u = tick t s → x = tabs u k → x.chain = some c → c.held = some (w, a) → u.now < a + 8 * bc u k →
    exec (.tombstoneFree t k) s = .next u) ∧
  (∀ t k w s u, u = tick t s → k < 4 → exec (.agerVisit t k w) s = .next (if visitDue u (sweepOn u k) w = true then
    agerAct k w (setTables k { sweepOn u k with visited := w + 1 } u) else setTables k (sweepOn u k) u)) ∧
  (∀ b w s x e, x = tabs s b → look x.flow w = some e → e.static = false → e.tomb = false → flag s (0x050000 + 0x100 * b) 16 = true →
    standby s = false → s.pwr.state < 2 → agerAct b w s =
      (if e.hit = true then setTables b (flowPut (cuckooDepth s b) w { e with hit := false, age := 0 } x) s
       else if e.age < 15 then setTables b (flowPut (cuckooDepth s b) w { e with age := e.age + 1 } x) s
       else addWork b (.aged e.key) s)) ∧
  (∀ b key s x w e, 2 ≤ b → x = tabs s b → findFlow x key = some (w, e) → e.static = false → e.hit = false → 15 ≤ e.age →
    agedOut b key s = bump (0x05001C + 0x100 * b) 1 (setTables b (flowDel w x) s)) ∧
  (∀ b key s x w e, x = tabs s b → findFlow x key = some (w, e) → e.hit = true → agedOut b key s = s)

/-- The SC and SA commands (parts of R207 to R213, R226, R227, R231, R236): SCs are created and deleted, SAs installed, switched, erased and read, a
CA is configured. -/
def Obligations.ChannelCommandsComplete : Prop :=
  (∀ h b s u key cfg, starts opScCreate h b s = true → u = begun opScCreate h b s → key = refKey b → standby u = false → scBusy u key = false →
    inCa u key = false → scOf u key = none → cfg = cfgApplied (scRx key) (wordAt (wordsOf b 0x8602) 0) → ∃ r c,
    c.cfg = cfg ∧ c.sci = (if cfg.bit 29 then 0 else bytesNat (wordsOf b 0x8603) 0 8) ∧
    c.window = min (wordAt (wordsOf b 0x0604) 0).toNat (2 ^ 30) ∧ c.ans = [] ∧
    exec (.scCreate h b) s = .next (completed opScCreate h r (considerAuto key (mirrorSc key true (setSc key c u))))) ∧
  (∀ h b s u key c, starts opScDelete h b s = true → u = begun opScDelete h b s → key = refKey b → standby u = false → scBusy u key = false →
    scOf u key = some c → c.deleting = false → ptpTxSc u key = false → ptpRxSc u key = false → inCa u key = false → c.ans = [] →
    exec (.scDelete h b) s = .next (completed opScDelete h [] (beginDelete key u))) ∧
  (∀ h b s u key c, starts opScDelete h b s = true → u = begun opScDelete h b s → key = refKey b → standby u = false → scBusy u key = false →
    scOf u key = some c → c.deleting = false → ptpTxSc u key = false → ptpRxSc u key = false → inCa u key = false → c.ans ≠ [] →
    exec (.scDelete h b) s = .next (waiting opScDelete h (.zeroised (c.ans.map (·.2)) (some key)) (beginDelete key u))) ∧
  (∀ h b s u key c k n v init iv handle, starts opSaInstall h b s = true → u = begun opSaInstall h b s → key = refKey b → standby u = false →
    scBusy u key = false → scOf u key = some c → c.deleting = false → c.xpn = false →
    init = (if hasElem b 0x8609 then bytesNat (wordsOf b 0x8609) 0 8 else 1) → init ≤ c.pnEnd → inCa u key = false →
    entryOn c (anOf b) = none → handle = (wordAt (wordsOf b 0x8608) 0).toNat → scRx key = true →
    keyFor u h.world handle [uDecrypt] mBus = .ok k → k.alg = c.suite % 2 + 1 →
    freeEntry u = some n → takeSlot 0 u = some v → iv = ivBase c (wordAt (wordsOf b 0x860A) 0) (wordsOf b 0x860B) →
    exec (.saInstall h b) s = .next (waiting opSaInstall h (.keyBus n) (touchKey handle { v with sas := { v.sas with
      bus := v.sas.bus ++ [{ scKey := key, entry := n, handle := handle, rewrite := false,
                             sa := newSa key (anOf b) handle (maskedKey v (c.suite % 2 = 1) k.value) init c iv none }] } }))) ∧
  (∀ h b s u key c e a t x l, starts opSaSwitchTx h b s = true → u = begun opSaSwitchTx h b s → key = refKey b → standby u = false →
    scBusy u key = false → scOf u key = some c → c.deleting = false → inCa u key = false → scRx key = false → entryOn c (anOf b) = some e →
    saOf u e = some a → a.st = 0 → t = beginSwitch key (anOf b) u → saOf t e = some x → x.st = 1 →
    l = (match activeTx u c with | some (_, o) => o.pn - 1 | none => 0) → exec (.saSwitchTx h b) s = .next (completed opSaSwitchTx h
      [elemW 0x060D [w32 (l / 2 ^ 32), w32 l, w32 (a.pn / 2 ^ 32), w32 a.pn]] t)) ∧
  (∀ h b s u key c e a t x, starts opSaSwitchTx h b s = true → u = begun opSaSwitchTx h b s → key = refKey b → standby u = false →
    scBusy u key = false → scOf u key = some c → c.deleting = false → inCa u key = false → scRx key = false → entryOn c (anOf b) = some e →
    saOf u e = some a → a.st = 0 → t = beginSwitch key (anOf b) u → saOf t e = some x → x.st ≠ 1 →
    exec (.saSwitchTx h b) s = .next (waiting opSaSwitchTx h (.switch key) t)) ∧
  (∀ h b s u key c e a, starts opSaErase h b s = true → u = begun opSaErase h b s → key = refKey b → standby u = false → scBusy u key = false →
    scOf u key = some c → c.deleting = false → entryOn c (anOf b) = some e → saOf u e = some a → inCa u key = false →
    a.rx = true ∨ a.st ≠ 1 → a.st ≠ 3 → exec (.saErase h b) s = .next (waiting opSaErase h (.zeroised [e] none) (beginErase e u))) ∧
  (∀ h b s u key c e a, starts opSaRead h b s = true → u = begun opSaRead h b s → key = refKey b → scBusy u key = false →
    scOf u key = some c → hasElem b 0x8607 = true → entryOn c (anOf b) = some e → saOf u e = some a →
    exec (.saRead h b) s = .next (completed opSaRead h ([saState e a, counterElem (if scRx key then 3 else 2) 0 a.counters] ++
      (if scRx key then [elemB 0x0610 (bitmapBytes a.bitmap)] else [])) u)) ∧
  (∀ h b s u ca x k, starts opMkaConfig h b s = true → u = begun opMkaConfig h b s → ca = caRef b → standby u = false →
    (∀ f ∈ u.cmd.flights, f.await ≠ .caDeleted ca) → mkaAction b = 1 → look u.sas.cas ca = none → hasElem b 0x0623 = false →
    x = { ckn := (elemOf b 0x8621).toList, cak := (wordAt (wordsOf b 0x8622) 0).toNat,
          txSc := bytesNat (wordsOf b 0x8624) 0 2, rxSc := bytesNat (wordsOf b 0x8624) 2 2, lastHello := u.now, lastSak := u.now } →
    (∀ n ∈ caScs ca x, has u.sas.scs n = false ∧ ∀ e ∈ u.sas.cas, e.1 ≠ ca → n ∉ caScs e.1 e.2) →
    keyFor u h.world x.cak [uDerive] mCore = .ok k → k.alg = 1 ∨ k.alg = 2 → exec (.mkaConfig h b) s =
      .next (completed opMkaConfig h [] (mkaSc ca x false x.txSc (ownSci u (ca / 128)) (setCa ca x u))))

/-- The timers of SAs and of MKA (parts of R226, R229, R231, R235 to R238, R254): a switch commits, a retired SA is erased, an erased one zeroised,
a bank becomes ready, hellos are sent, peers join and are lost, SAKs are renewed. -/
def Obligations.ChannelTimersRun : Prop :=
  (∀ t key s u c n, u = tick t s → scOf u key = some c → c.pending = some n →
    exec (.switchCommit t key) s = .next (beginSwitch key n u)) ∧
  (∀ key n s c e k, scOf s key = some c → entryOn c n = some e → bankOf s e = some k →
    (get (brick s k.1).banks k.2 { sa := e, primed := 0 }).ready = true → beginSwitch key n s = commitSwitch key n s) ∧
  (∀ t e s u a d, u = tick t s → saOf u e = some a → a.retireAt = some d → a.st = 2 → d ≤ u.now →
    exec (.retireTimerExpiry t e) s = .next (beginErase e (record 0x0803 (saEvent e a) u))) ∧
  (∀ t e s u a, u = tick t s → saOf u e = some a → a.st = 3 → refCount u e = 0 → (∀ c, scOf u a.scKey = some c → c.deleting = false) →
    ∃ v, exec (.saZeroise t e) s = .next v ∧ v = settleErasures e { u with
      sas := { u.sas with
        sas := del u.sas.sas e,
        scs := upd u.sas.scs a.scKey fun c => if entryOn c a.an = some e then { c with ans := del c.ans a.an } else c },
      bnd := { u.bnd with rxCeil := del u.bnd.rxCeil e, rxAsked := del u.bnd.rxAsked e } }) ∧
  (∀ t k n s u, u = tick t s → exec (.primingDone t k n) s =
    .next (setBrick k { brick u k with banks := upd (brick u k).banks n fun x => { x with ready := true } } u)) ∧
  (∀ t ca m s u x, u = tick t s → look u.sas.cas ca = some x → x.deleting = false → mkaRuns u (ca / 128) = true → m.icvOk = true →
    (∀ p ∈ x.peers, p.sci ≠ m.sci) → m.live = true → x.peers.length < 16 →
    exec (.mkpduRx t ca m) s = .next (joinPeer ca x m u)) ∧
  (∀ t ca s u x, u = tick t s → look u.sas.cas ca = some x → x.deleting = false → mkaRuns u (ca / 128) = true →
    x.lastHello + x.hello * ms ≤ u.now → exec (.mkaHello t ca) s =
      .next (sendMkpdu ca x none { u with sas := { u.sas with cas := put u.sas.cas ca { x with lastHello := u.now } } })) ∧
  (∀ t ca n s u x p y z, u = tick t s → look u.sas.cas ca = some x → x.deleting = false → mkaRuns u (ca / 128) = true →
    x.peers.find? (fun q => decide (q.sci = n)) = some p → p.last + 3 * x.hello * ms ≤ u.now →
    y = { x with peers := x.peers.filter fun q => decide (q.sci ≠ n) } → z = { y with server := isServer u ca y } →
    exec (.mkaPeerLost t ca n) s = .next (distributeSak ca (beginDelete (scKey (ca / 128) true p.sc)
      (record 0x0804 ([2 + ca / 128, ca % 128] ++ beBytes 2 p.sc) (setCa ca z u))))) ∧
  (∀ t ca s u x y v w, u = tick t s → look u.sas.cas ca = some x → x.rekey ≠ 0 → x.lastSak + x.rekey * sec ≤ u.now → x.deleting = false →
    x.peers ≠ [] → isServer u ca x = true → mkaRuns u (ca / 128) = true → u.eng.failed = false →
    y = nextSak u x → (v, w) = drawBits (sakBits y) u → exec (.mkaRekeyInterval t ca) s =
      .next (sendMkpdu ca y (some (y.an, y.keyNum, Config.keyWrap (kekOf w y) (beBytes (sakBits y / 8) v)))
        (installSak ca y v (record 0x0805 (sakEvent ca y 0) w))))

/-- Frames that arrive (parts of R119, R177 to R180, R203, R242, R580): on a clear sub-port and on a line port a frame is counted, classified and
takes its path. -/
def Obligations.FramesArrive : Prop :=
  (∀ t sp f s u v r w n k, u = tick t s → sp < 16 → subExists u sp = true → (subPort u sp).link = true → f.etype ≠ 0x8808 →
    isCommand u (spPort sp) (spIdx sp) f = false → v = countRx sp f u → 64 ≤ f.len → f.len ≤ frameMax v (spPort sp) →
    takesNone v (spPort sp) = false → isPtp f = false → isGdoi v sp f = false → resolveTx (spPort sp) (spIdx sp) f (perf (spPort sp) 1 1 v) = (r, w) →
    r.sc = none → n = w.brk.nextId → k = { w with brk := { w.brk with nextId := n + 1 } } →
    exec (.clearFrameRx t sp f) s = .next (clearChosen
      { id := n, brick := spPort sp, port := spPort sp, sub := spIdx sp, frame := f, stamp := rxStamp k sp, drop := r.drop, missed := r.missed,
        cls := r.cls, sc := none, express := false, stage := .staging, eport := 2 + spPort sp, chan := 511, outLen := f.len, secy := r.secy,
        clear := fld k (0x060000 + 4 * spPort sp) 3 2 }
      sp r k)) ∧
  (∀ t sp f s u v, u = tick t s → sp < 16 → subExists u sp = true → (subPort u sp).link = true → f.etype ≠ 0x8808 →
    isCommand u (spPort sp) (spIdx sp) f = false → v = countRx sp f u → f.len < 64 ∨ frameMax v (spPort sp) < f.len →
    exec (.clearFrameRx t sp f) s = .next (failFrame sp f v)) ∧
  (∀ h sp r s, r.drop = none → r.sc = none → expressFit s h.brick r.cls h.frame.len none 0 = false →
    clearChosen h sp r s = stage h (fallback h.brick r.cls s)) ∧
  (∀ h s, stagedBytes s h.brick + h.frame.len ≤ 98304 → stage h s = enterBrick { h with stage := .staging } s) ∧
  (∀ h s, 98304 < stagedBytes s h.brick + h.frame.len → stage h s = perf h.brick 10 1 (rxDrop h.ingress s)) ∧
  (∀ t p f s u v r w n k, u = tick t s → p < 2 → lpTrunk u p = false → (subPort u (18 + p)).link = true → f.etype ≠ 0x8808 →
    f.etype ≠ 0x888E → v = countRx (18 + p) f u → 64 ≤ f.len → f.len ≤ frameMax v (2 + p) → takesNone v (2 + p) = false →
    hasSecTag v p f = false → isPtp f = false → resolveRx (2 + p) f (perf (2 + p) 1 1 v) = (r, w) → r.sc = none →
    n = w.brk.nextId → k = { w with brk := { w.brk with nextId := n + 1 } } →
    exec (.lineFrameRx t p f) s = .next (lineChosen
      { id := n, brick := 2 + p, port := 2 + p, sub := 0, frame := f, stamp := rxStamp k (18 + p), drop := r.drop, cls := r.cls, sc := none,
        express := false, stage := .staging, eport := p, esub := r.sub, chan := r.sub, outLen := f.len, secy := r.secy,
        clear := fld k (0x060000 + 4 * p) 3 2 }
      (18 + p) r false k)) ∧
  (∀ t p f s u v g, u = tick t s → p < 2 → lpTrunk u p = false → (subPort u (18 + p)).link = true → f.etype ≠ 0x8808 → f.etype ≠ 0x888E →
    v = countRx (18 + p) f u → 64 ≤ f.len → f.len ≤ frameMax v (2 + p) → takesNone v (2 + p) = false → hasSecTag v p f = true →
    f.sec = some g → badTag f g = true → f.fcsOk = true → exec (.lineFrameRx t p f) s = .next (secyCount p 2 v))

/-- Frames in a brick (parts of R246 to R248, R257, R583): staging is left, a context arrives, a frame is dispatched, finishes in its tile, leaves
the reorder buffer, starts in the express lane, and the express role changes. -/
def Obligations.BrickFramesAdvance : Prop :=
  (∀ t id s u h, u = tick t s → frameOf u id = some h → h.stage = .staging → h.frame.fcsOk = true → h.drop = none →
    parserFull u h.brick h.sc = false → bulkInUse u h.brick < 1472 → h.missed = false →
    exec (.stagingRelease t id) s = .next (atContext id (updFrame id (fun x => { x with missed := false }) u))) ∧
  (∀ t id s u h key x v, u = tick t s → frameOf u id = some h → h.sc = some key → h.stage = .miss → x = brick u h.brick →
    (x.misses.take 8).contains key = true → v = setBrick h.brick { x with
      misses := x.misses.filter (· ≠ key), cache := if 4096 < (x.cache ++ [key]).length then (x.cache ++ [key]).drop 1 else x.cache ++ [key] } u →
    exec (.contextFetchDone t id) s =
      .next ((x.held.filter fun y => decide (y.stage = .miss) && decide (y.sc = some key)).foldl (fun s y => contextKnown y.id s) v)) ∧
  (∀ t id s u h k, u = tick t s → frameOf u id = some h → h.stage = .dispatch →
    (∀ y ∈ (brick u h.brick).held, y.stage = .dispatch → h.disp ≤ y.disp) → bulkEntries u h.brick < 1472 → dataHeld u = false →
    nextTile u h.brick = some k → exec (.bulkDispatch t id) s = .next (dispatch h k u)) ∧
  (∀ h k s c v, h.sc = none → h.sa = none → admitCells { h with tagRes := some true } h.frame.len s = .inl c →
    v = perf 4 1 (cellsOf c) { s with que := { s.que with cells := s.que.cells ++ [c] } } → dispatch h k s =
      updFrame h.id (fun _ => { h with tagRes := some true, stage := .tile, tile := some k })
        (setBrick h.brick { brick v h.brick with last := k } v)) ∧
  (∀ t id s u h, u = tick t s → frameOf u id = some h → h.stage = .laneWait → behind u h = false → h.brick < 2 → h.sc = none →
    exec (.expressLaneStart t id) s = .next (updFrame h.id (fun x => { x with stage := .tile, tile := some 0 }) u)) ∧
  (∀ t id s u, u = tick t s → exec (.tileFinish t id) s = .next (updFrame id (fun h =>
    if h.stage = .tile then { h with stage := .done, tile := none } else if h.stage = .queue then { h with tile := none } else h) u)) ∧
  (∀ t id s u h v, u = tick t s → [0, 1, 2, 3].findSome? (heldBy u · id) = some h → mayRelease u h = true → h.express = false →
    h.gone = false → v = leaveBrick id u → exec (.reorderRelease t id) s =
      .next { v with que := { v.que with frames := v.que.frames ++ [{ h with stage := .queue, queuedAt := v.now }] } }) ∧
  (∀ t k s u v, u = tick t s → k < 4 → (brick u k).change = some true → tileFree u k 0 = true → (k = 0 → protLine u = false) →
    v = setTileRole k 0 1 (setBrick k { brick u k with change := none } u) →
    exec (.expressRoleSwitch t k) s = .next (fillBanks k 1 (fillBanks k 0 v))) ∧
  (∀ t k s u v, u = tick t s → 0 < k → k < 4 → (brick u k).change = some false → (∀ h ∈ (brick u k).held, h.express = true → h.gone = true) →
    v = setTileRole k 0 0 (setBrick k { brick u k with change := none } u) → exec (.expressRoleSwitch t k) s = .next (dropBanks k v))

/-- Tag results, duplicate discard and the express hold (parts of R222, R224, R259 to R262, R267, R268, R322): what a verified and a failed tag do,
a copy that passes, is marked or is held, a frame that enters its hold. -/
def Obligations.TagsAndCopiesAct : Prop :=
  (∀ t id s u h e key c, u = tick t s → frameOf u id = some h → h.sa = some e → h.sc = some key → 2 ≤ h.brick → h.tagRes = none →
    h.stage = .tile → scOf u key = some c → exec (.tagResult t id true) s = .next (tagOk h e key c u)) ∧
  (∀ t id s u h e key c, u = tick t s → frameOf u id = some h → h.sa = some e → h.sc = some key → 2 ≤ h.brick → h.tagRes = none →
    h.stage = .tile → scOf u key = some c → exec (.tagResult t id false) s = .next (tagFail h e key c u)) ∧
  (∀ n q ok s x, x = stream s n → x.pending = none → ok = true → 0 < seqDiff q x.high → seqDiff q x.high < 1024 → ddResult n q ok s =
    setStream n { x with high := q, bitmap := (x.bitmap * 2 ^ (seqDiff q x.high).toNat + 1) % 2 ^ 1024 } s) ∧
  (∀ t id s u h n q, u = tick t s → frameOf u id = some h → h.seq = some (n, q) → 2 ≤ h.brick → h.eligible = false → h.gone = false →
    seqMarked (stream u n) q = true → exec (.duplicateDiscard t id) s = .next (ddCount 2 (setGone id u))) ∧
  (∀ t id s u h n q, u = tick t s → frameOf u id = some h → h.seq = some (n, q) → 2 ≤ h.brick → h.eligible = false → h.gone = false →
    seqMarked (stream u n) q = false → (stream u n).pending = none → -1024 < seqDiff q (stream u n).high →
    exec (.duplicateDiscard t id) s =
      .next (ddCount (if h.port - 2 = 0 then 0 else 1) (passCopy id n q (h.port - 2) h.tagRes.isSome u))) ∧
  (∀ t n s u x id h q, u = tick t s → x = stream u n → x.heldSeq = some id → x.pending = none → frameOf u id = some h → h.seq = some (n, q) →
    seqMarked x q = true → exec (.heldCopyRelease t n) s = .next (setGone id (setStream n { x with heldSeq := none } u))) ∧
  (∀ t n s u x id h q, u = tick t s → x = stream u n → x.heldSeq = some id → x.pending = none → frameOf u id = some h → h.seq = some (n, q) →
    seqMarked x q = false → h.tagRes.isSome = true → exec (.heldCopyRelease t n) s =
      .next (updFrame id (fun y => { y with eligible := true }) (setStream n { x with heldSeq := none } u))) ∧
  (∀ t id s u h y, u = tick t s → frameOf u id = some h → h.express = true → h.eligible = true → h.gone = false → h.stage = .tile →
    (∀ x ∈ u.que.hold, x.id ≠ id) → h.brick < 2 → h.eport < 2 → sinks u h.egress = false → (holdOf u h.eport).length < 64 →
    total (holdOf u h.eport) (·.outLen) + h.outLen ≤ 32768 →
    y = { h with stage := .queue, queuedAt := u.now, wholeAt := u.now + h.frame.len * ingressByte u h } →
    canSend (intoHold y u) h.egress = false → exec (.expressHoldEnter t id) s = .next (intoHold y u))

/-- Trunk headers and keys (parts of R282 to R291, R302): a header is sent and received, the key engages, the phase switches, the old key is erased,
the count is advanced, loss of frame is declared and clears. -/
def Obligations.TrunkHeadersRun : Prop :=
  (∀ t p s u v x w, u = tick t s → framerRuns u p = true → v = sendGroup p u → x = trunk v p → x.started = true →
    flag v (trkCfg p) 2 = false → w = beginCourse p ((x.course + 1) % 64) 0 (setTrunk p { x with
      gridErr := x.gridErr + (courseTime v p : Int) - unitTime v (v.now - x.lastDep), lastDep := v.now } v) →
    exec (.courseHeaderTx t p) s =
      .next (sendTrunk p ((courseHdr w p).wire (trkCompat w p)) (setTrunk p { trunk w p with bip := 0 } w))) ∧
  (∀ t p r s u x ok h, u = tick t s → p < 2 → lpTrunk u p = true → (subPort u (18 + p)).link = true → 8 ≤ u.boot.step → x = trunk u p →
    x.inFrame = false → soughtHeader (blockBytes r.blocks) = (true, ok, h) → (ok || trkCompat u p) = true → legalJust h.just = true → x.good = 0 →
    exec (.courseHeaderRx t p r) s = .next (setTrunk p { x with good := 1, next := (h.course + 1) % 64 } u)) ∧
  (∀ t p r s u x ok h, u = tick t s → p < 2 → lpTrunk u p = true → (subPort u (18 + p)).link = true → 8 ≤ u.boot.step → x = trunk u p →
    x.inFrame = false → soughtHeader (blockBytes r.blocks) = (true, ok, h) → (ok || trkCompat u p) = true → legalJust h.just = true → x.good = 2 →
    h.course = x.next → exec (.courseHeaderRx t p r) s = .next (goodHeader p h r (setTrunk p { x with
      good := 3, next := (h.course + 1) % 64, inFrame := true, inSince := u.now, errWords := 0, outSince := none, courseErr := false,
      badGroups := [] } u))) ∧
  (∀ t p r s u x ok h, u = tick t s → p < 2 → lpTrunk u p = true → (subPort u (18 + p)).link = true → 8 ≤ u.boot.step → x = trunk u p →
    x.inFrame = false → soughtHeader (blockBytes r.blocks) = (false, ok, h) →
    exec (.courseHeaderRx t p r) s = .next (setTrunk p { x with good := 0 } u)) ∧
  (∀ t p s u x, u = tick t s → p < 2 → x = trunk u p → 3 ≤ x.dirRun → has x.keys x.phase = true → x.dirConflict = false →
    exec (.trunkKeyEngage t p) s = .next (setTrunk p { x with keyed := true } u)) ∧
  (∀ t p s u x ph, u = tick t s → p < 2 → x = trunk u p → x.wantPhase = some ph → has x.keys ph = true →
    exec (.phaseSwitch t p) s = .next (settleTrunkCmds (setTrunk p { x with
      wantPhase := none, phase := ph, newRun := 0, oldPhase := if has x.keys (1 - ph) then some (1 - ph) else none } u))) ∧
  (∀ t p s u x o, u = tick t s → p < 2 → x = trunk u p → x.oldPhase = some o → 64 ≤ x.newRun →
    exec (.phaseOldKeyErase t p) s = .next (record 0x0A06 [2 + p, x.phase, o] (setTrunk p { x with
      keys := del x.keys o, oldPhase := none, newRun := 0, keyed := false, dirRun := 0, dirConflict := false } u))) ∧
  (∀ t p s u x k, u = tick t s → p < 2 → x = trunk u p → look x.keys x.phase = some k → k.ceiling ≤ k.count → k.asked = none →
    exec (.trunkCountCeiling t p) s = .next (requestCeil 6 (2 * p + x.phase) (k.ceiling + 2 ^ 20) (.trunkCeil p x.phase (k.ceiling + 2 ^ 20))
      (setTrunk p { x with keys := put x.keys x.phase { k with asked := some (k.ceiling + 2 ^ 20) } } u))) ∧
  (∀ t p s u x t0, u = tick t s → p < 2 → lpTrunk u p = true → x = trunk u p → x.outSince = some t0 → x.lof = false →
    t0 + fld u (trkCfg p) 15 8 * us ≤ u.now →
    exec (.lofDeclare t p) s = .next (settleFaults (record 0x0A01 [2 + p, 0, 0] (setTrunk p { x with lof := true } u)))) ∧
  (∀ t p s u x, u = tick t s → p < 2 → x = trunk u p → x.lof = true → x.inFrame = true → x.inSince + 100 * us ≤ u.now →
    exec (.lofClear t p) s = .next (settleFaults (setTrunk p { x with lof := false } u))) ∧
  (∀ t b r s u p ph, u = tick t s → u.sas.bus = b :: r → b.trunk = some (p, ph) → exec (.keyBusTransferDone t) s =
    .next (settleKeyErase (commitTrunkKey p ph b { u with sas := { u.sas with bus := r } })))

/-- Trunk slots and units (parts of R289, R293, R296 to R303, R337): the scheduler fills a directory slot, a run starts, directory slots, dropped
and passed units are received, path AIS is inserted and times out. -/
def Obligations.TrunkUnitsRun : Prop :=
  (∀ t p s u v x w k l q, u = tick t s → framerRuns u p = true → x = trunk u p → x.started = true → x.dirGroup < 8 → x.maskKeyed = true →
    u.pwr.state = 0 → v = setTrunk p { trunk (sendGroup p u) p with dirGroup := x.dirGroup + 1 } (sendGroup p u) → v.pwr.state = 0 →
    namePositions p ((List.range (if x.dirGroup = 7 then 30 else 31)).map (32 * x.dirGroup + 2 + ·)) v = (l, w) →
    k = sendTrunk p (slotWire w p (32 * x.dirGroup + 1) (dirContent (l.map fun e => (e.1.path, e.2)))) w →
    q = (l.map (·.1)).flatMap (fun o =>
      if o.pos = 16 ∧ x.just = 0xFF then [] else if o.pos = 15 ∧ x.just = 1 then [o, { pos := 256 }] else [o]) →
    exec (.directorySlotBuild t p) s = .next (runOn p 0 (setTrunk p { trunk k p with group := q } k))) ∧
  (∀ p pos s x, x = trunk s p → fixedAt x pos = none → ¬ (pos = 16 ∧ x.just = 0xFF) → x.spill = [] → x.partial_ = none →
    nextUnit p s = none → namePosition p pos s = (({ pos := pos }, false), s)) ∧
  (∀ t p n s u v y, u = tick t s → framerRuns u p = true → (trunk u p).maskKeyed = true → (trunk u p).runTx = none →
    hasFixed (trunk u p) n = true → u.pwr.state = 0 → pathUnit p n u = some (y, v) → y.len ≤ 2068 →
    exec (.runStart t p n) s = .next (runOn p (posNow v p) (setTrunk p { trunk v p with runTx := some y } v))) ∧
  (∀ t p g bs s u x c v, u = tick t s → receives u p = true → x = trunk u p → c = courseNow x →
    v = setTrunk p { x with rxUnits := advanceRx c (32 * g + 1) x.rxUnits } u → exec (.directorySlotRx t p g bs) s =
      .next (match (rxContent v p [(c, 32 * g + 1)] bs).bind readDir with
        | some l => (if g = 7 then l.take 30 else l).foldl (fun s n => rawCount p (1 + n % 256) 3 1 s) v
        | none => abortUnits p (fun y => y.left.any (inGroup c g)) (erroredCourse p (rawCount p 0 1 1 (trkCount p 1
            (setTrunk p { trunk v p with badGroups := g :: (trunk v p).badGroups } v)))))) ∧
  (∀ t p n y s u c, u = tick t s → receives u p = true → look (trunk u p).paths n = some c → c.rxMode = 1 → exec (.unitRx t p n y) s =
    .next (match readUnit u p c y with
      | .idle => u
      | .ais => aisOn p n u
      | .bad => countUnit p n 1 (trkCount p 5 (aisOff p n u))
      | .unit len b =>
        if takesNone (beginRx p n ((len + 87) / 64) (runs c y) y.at_ (aisOff p n u)) (2 + p) = true then
          rxDrop (18 + p) (beginRx p n ((len + 87) / 64) (runs c y) y.at_ (aisOff p n u))
        else unitFrame p n c (unitClear y.frame len b) (beginRx p n ((len + 87) / 64) (runs c y) y.at_ (aisOff p n u)))) ∧
  (∀ s p c y, y.at_ = [] → readUnit s p c y = .idle) ∧
  (∀ s p c y, rxKey s p = none → readUnit s p c y = .idle) ∧
  (∀ t p n y s u c, u = tick t s → receives u p = true → addDrop u = true → look (trunk u p).paths n = some c → c.rxMode = 2 →
    takesNone u (2 + p) = false → exec (.passUnitRx t p n y) s = .next (match readUnit u p c y with
      | .idle => u
      | .ais => setTrunk (1 - p) { trunk u (1 - p) with units := (trunk u (1 - p)).units ++
          [{ path := n, slots := 1, passed := true, cls := c.cls, ais := true, content := aisContent }] } u
      | .bad => countUnit p n 1 (trkCount p 5 u)
      | .unit len b => passOn (1 - p)
          { path := n, slots := (len + 87) / 64, len := len + 24, passed := true, cls := c.cls, content := b, byRun := runs c y,
            readyAt := if runs c y then u.now else u.now + unitSpan u p (y.at_.take ((len + 87) / 64)) }
          (beginRx p n ((len + 87) / 64) (runs c y) y.at_ u))) ∧
  (∀ q y s x, sinks s (18 + q) = false → x = trunk s q → x.passBytes + 64 * y.whole ≤ 262144 →
    passOn q y s = setTrunk q { x with passBytes := x.passBytes + 64 * y.whole, units := x.units ++ [y] } s) ∧
  (∀ q y s, sinks s (18 + q) = false → 262144 < (trunk s q).passBytes + 64 * y.whole → passOn q y s = trkCount q 7 s) ∧
  (∀ t p n s u, u = tick t s → p < 2 → get (trunk u p).aisLast n 0 + 350 * us ≤ u.now → (trunk u p).ais.contains n = true →
    exec (.pathAisTimeout t p n) s = .next (settleFaults (setTrunk p { trunk u p with ais := (trunk u p).ais.filter (· ≠ n) } u))) ∧
  (∀ t p n s u c, u = tick t s → p < 2 → flag u (trkCfg p) 3 = true → (trunk u p).lof = true ∨ (trunk u p).labelFault = true →
    addDrop u = true → framerRuns u (1 - p) = true → look (trunk u p).paths n = some c → c.rxMode = 2 →
    exec (.aisInsert t p n) s = .next (setTrunk (1 - p) { trunk u (1 - p) with
      units := (trunk u (1 - p)).units ++ [{ path := n, slots := 1, ais := true, content := aisContent }] } u)) ∧
  (∀ t sp f s u, u = tick t s → sp < 18 → exec (.linkDown t sp f) s = .next (linkDown sp f u))

/-- Trunk commands and seconds (parts of R290, R309 to R312): path configuration applies its elements or installs keys, performance data are kept by
the second and read. -/
def Obligations.TrunkCommandsComplete : Prop :=
  (∀ h b s u v w r r' y, starts opPathConfig h b s = true → u = begun opPathConfig h b s → standby u = false →
    elemsOf b 0x8703 = [] → elemOf b 0x8704 = none → applyElems applyTrunkElem (elemsOf b 0x8701) u = some (v, r) →
    applyElems applyPathElem (elemsOf b 0x8702) v = some (w, r') → y = settleFaults (yieldPasses w) →
    exec (.pathConfig h b) s = .next (completed opPathConfig h (r ++ yieldReports b w (yieldPasses w)) (mirror 8 (.path (appliedElems y b)) y))) ∧
  (∀ ws s p, p = byteAt ws 0 - 2 → byteAt ws 1 % 2 ≠ trkDir s p → (trunk s p).keys ≠ [] → applyTrunkElem ws s = none) ∧
  (∀ h b s u v e p y, starts opPathConfig h b s = true → u = begun opPathConfig h b s → standby u = false →
    elemsOf b 0x8701 = [] → elemsOf b 0x8702 = [] → elemOf b 0x8704 = none → elemsOf b 0x8703 = [e] → p = byteAt e.val 0 - 2 → p < 2 →
    applyKeyElem h.world e.val u = .inl v → y = settleFaults (yieldPasses v) → exec (.pathConfig h b) s =
      .next (setReport (flightFor opPathConfig h b) (yieldReports b v (yieldPasses v))
        (waiting opPathConfig h (.trunkKeys (bit (decide (p = 0)) + 2 * bit (decide (p = 1)))) (mirror 8 (.path (appliedElems y b)) y)))) ∧
  (∀ h b s u ws o x, starts opTrunkPmRead h b s = true → u = begun opTrunkPmRead h b s → ws = wordsOf b 0x8705 → byteAt ws 3 = 2 →
    x = trunk u (byteAt ws 0 - 2) → o = (if byteAt ws 1 = 0 then 0 else 1 + byteAt ws 2) →
    exec (.trunkPmRead h b) s = .next (completed opTrunkPmRead h [rawPmElem x o] u)) ∧
  (∀ h b s u ws o x, starts opTrunkPmRead h b s = true → u = begun opTrunkPmRead h b s → ws = wordsOf b 0x8705 → byteAt ws 3 = 0 →
    x = trunk u (byteAt ws 0 - 2) → rawMode u (byteAt ws 0 - 2) = false → byteAt ws 1 = 0 → look x.pm 0 = some o →
    exec (.trunkPmRead h b) s = .next (completed opTrunkPmRead h (o.q15.zipIdx.map fun e => binElem e.2 e.1) u)) ∧
  (∀ t p s u, u = tick t s → p < 2 → lpTrunk u p = true → u.time.running = true → rawMode u p = true → (trunk u p).inFrame = true →
    (trunk u p).lof = false → (trunk u p).secCnt = [] → ∃ v, exec (.pmSecond t p) s = .next v ∧
      (trunk v p).pm = [] ∧ (trunk v p).secCnt = [] ∧ (trunk v p).rawLatch = (trunk v p).raw ∧ (trunk v p).rawSec = todSec u)

/-- The queue and gate commands (parts of R314, R326, R331, R341, R342): limits and shapers of a run of queues, gate lists written and committed. -/
def Obligations.QueueCommandsComplete : Prop :=
  (∀ h b s u e w qs rep, starts opQueueConfig h b s = true → u = begun opQueueConfig h b s → queuesNamed b = (qs, rep) →
    elemOf b 0x0803 = some e → w = wordAt e.val 0 → ∃ r, exec (.queueConfig h b) s = .next (completed opQueueConfig h r
      (qs.foldl (fun s q => setQueue q { queueEntry s q with limit := max 1 (w.bits 17 0) } s) u))) ∧
  (∀ h b s u qs rep, starts opQueueConfig h b s = true → u = begun opQueueConfig h b s → queuesNamed b = (qs, rep) → elemOf b 0x0803 = none →
    exec (.queueConfig h b) s = .next (completed opQueueConfig h
      ((qs.take 256).map (fun q => elemW 0x0805 (queueWords u q ++ [w32 (queueCells u q), 0])) ++ rep) u)) ∧
  (∀ h b s u v qs rep, starts opShaperSet h b s = true → u = begun opShaperSet h b s → queuesNamed b = (qs, rep) →
    v = boundsApplied (wordAt (wordsOf b 0x8804) 1) → exec (.shaperSet h b) s = .next (completed opShaperSet h
      (rep ++ reportElem 0x8804 1 (wordAt (wordsOf b 0x8804) 1) v)
      (qs.foldl (fun s q => reshape q ((wordAt (wordsOf b 0x8804) 0).bits 23 0) v s) u))) ∧
  (∀ q rate v s x, x = queueEntry s q → ¬ (x.rate = rate ∧ x.hi = v.bits 31 16 ∧ x.lo = signedOf 16 (v.bits 15 0)) →
    reshape q rate v s = setQueue q { x with rate := rate, hi := v.bits 31 16, lo := signedOf 16 (v.bits 15 0), clampNext := true } s) ∧
  (∀ h b s u e first ws, starts opGclWrite h b s = true → u = begun opGclWrite h b s → e = gclEgress b →
    first = (wordAt (wordsOf b 0x8807) 0).toNat → ws = wordsOf b 0x8808 → ∃ r, exec (.gclWrite h b) s = .next (completed opGclWrite h r
      (setEgress e { egress u e with admin := (List.range (ws.length / 2)).foldl (fun m i => put m (first + i)
        (byteAt ws (8 * i), Legal.apply (.range 8 1000000000) 32 (wordAt ws (2 * i + 1)).toNat)) (egress u e).admin } u))) ∧
  (∀ h b s u e x ws base g, starts opGclCommit h b s = true → u = begun opGclCommit h b s → e = gclEgress b → x = egress u e →
    ws = wordsOf b 0x8809 → base = bytesNat (wordsOf b 0x880A) 0 8 % 2 ^ 40 → 0 < fastDiff base (fast u) →
    g = { entries := (List.range (Legal.apply (.range 1 1024) 16 ((wordAt ws 1).bits 31 16))).map (adminEntry x),
          cycle := Legal.apply (.range 1000 1000000000) 32 (wordAt ws 0).toNat, base := base, enable := (wordAt ws 1).bit 8 } →
    ∃ r, exec (.gclCommit h b) s = .next (completed opGclCommit h (elemW 0x080B [w32 (base / 2 ^ 32), w32 base] :: r)
      (setEgress e { x with pending := some g, changeT := base, late := false } u)))

/-- The egress of frames (parts of R319, R321 to R336): a frame is selected and starts, its last byte leaves, a frame ages, credits are updated, a
gate list passes to its next entry, a pending list takes effect. -/
def Obligations.EgressRuns : Prop :=
  (∀ t sp s u f, u = tick t s → sp < 16 → sinks u sp = false → canSend u sp = true → (∀ h ∈ waitingAt u sp, tooLong u h = false) →
    (subPort u sp).tx = none → (∀ o ∈ oneStepsOf u sp, 0 < stampDiff u o.2.tRel) → (subPort u sp).suspended = none →
    pick u sp 0 (fun _ => true) = some f → exec (.egressSelect t sp) s = .next (startFrame sp u.now f u)) ∧
  (∀ t sp s u, u = tick t s → sp < 16 → sinks u sp = true →
    exec (.egressSelect t sp) s = .next ((waitingAt u sp).foldl (fun s h => discardAt h s) u)) ∧
  (∀ s sp d c h, holdHead s sp c = none → (queueHeads s sp c).find? (mayStart s sp d) = some h → classPick s sp d c = some h) ∧
  (∀ s sp d c h, holdHead s sp c = some h → mayStart s sp d h = true → classPick s sp d c = some h) ∧
  (∀ t sp s u x h, u = tick t s → sp < 20 → (subPort u sp).tx = some x → x.started + x.remain * byteTime u sp ≤ u.now → x.parts = 0 →
    frameOf u x.id = some h → exec (.frameTxDone t sp) s =
      .next (leaveQueues x.id (send (.fcs sp x.id (fcsOf (x.stomp || h.stomp) (onWire x.len h.out)))
        (countTx sp x.len h.frame.dst (x.stomp || h.stomp) (setSub sp { subPort u sp with tx := none } u))))) ∧
  (∀ t id s u h, u = tick t s → (u.que.frames ++ u.que.hold).find? (fun h => decide (h.id = id)) = some h → h.gone = false →
    h.queuedAt + fld u 0x0A0000 25 16 * ms ≤ u.now →
    exec (.frameAged t id) s = .next (perf 4 5 1 (queCount h.eport 3 (discardAt h u)))) ∧
  (∀ t s u, u = tick t s → exec (.shaperUpdate t) s =
    .next (u.que.queues.foldl (fun s e => setQueue e.1 (shape (queueWaits s e.1) e.2) s) u)) ∧
  (∀ x : Queue, x.rate ≠ 0 → x.clampNext = false → x.credit < (x.hi : Int) * 65536 → shape true x = { x with
    credit := min ((x.hi : Int) * 65536) (x.credit + ((x.rate * 256 * 65536 + x.rem) / 10000000 : Nat)),
    rem := (x.rate * 256 * 65536 + x.rem) % 10000000, clampNext := false }) ∧
  (∀ t e s u, u = tick t s → e < 4 → (∀ sp ∈ spsOf e, (subPort u sp).tx = none) →
    exec (.gateEntryChange t e) s = .next (setEgress e { egress u e with entry := gateEntry (egress u e).oper (fast u) } u)) ∧
  (∀ t e s u, u = tick t s → e < 4 → fastDiff (egress u e).changeT (fast u) ≤ 0 →
    exec (.gclChangeInstant t e) s = .next (changeList e u))

/-- The bond commands and the session (parts of R346 to R350, R358, R363): a bond is joined, left, forced, resigned and read; a session starts; a
HELLO is accepted. -/
def Obligations.BondSessions : Prop :=
  (∀ h b s u ws k v, starts opBondConfig h b s = true → u = begun opBondConfig h b s → ws = wordsOf b 0x8901 → byteAt ws 0 = 1 →
    keyFor u h.world (wordAt ws 2).toNat [uDerive] mCore = .ok k → u.bnd.role = 0 → v = dropBond u → ∃ r,
    exec (.bondConfigJoin h b) s = .next (completed opBondConfig h r (greet (setRole 2 0 (touchKey (wordAt ws 2).toNat { v with
      bnd := { v.bnd with joined := true, bond := bytesNat ws 2 2, peer := bytesNat ws 4 2, secondary := decide (byteAt ws 1 ≠ 0),
                          key := (wordAt ws 2).toNat } }))))) ∧
  (∀ h b s u, starts opBondConfig h b s = true → u = begun opBondConfig h b s → byteAt (wordsOf b 0x8901) 0 = 0 →
    ¬ (u.bnd.role = 1 ∧ u.bnd.inSync = true) →
    exec (.bondConfigLeave h b) s = .next (completed opBondConfig h [] (setRole 0 0 (dropBond u)))) ∧
  (∀ h b s u, starts opBondConfig h b s = true → u = begun opBondConfig h b s → byteAt (wordsOf b 0x8901) 0 = 2 → 2 ≤ u.bnd.role →
    exec (.bondForce h b) s =
      .next (completed opBondConfig h [] (takeover 9 (record 0x0C07 (bondEvent (credOf u h.session) 0 u) u)))) ∧
  (∀ h b s u v, starts opBondResign h b s = true → u = begun opBondResign h b s → u.bnd.role = 1 → u.bnd.inSync = true →
    v = fenceOff 0 4 u → exec (.bondResign h b) s = .next (completed opBondResign h []
      (sendBond 10 0 [0, 0, 0, 0, 0, 0, 0, 0] [] 3 (record 0x0C02 (bondEvent 0 0 v) v)))) ∧
  (∀ h b s u q, starts opBondStatus h b s = true → u = begun opBondStatus h b s → u.bnd.role = 0 → u.bnd.inSync = false →
    u.bnd.resync = false → q = u.bnd.acked → exec (.bondStatus h b) s = .next (completed opBondStatus h
      [elemW 0x0902 [liveWord u 0x0B0004, liveWord u 0x0B0008, w32 (q / 2 ^ 32), w32 q, w32 0]] u)) ∧
  (∀ t s u, u = tick t s → bondMode u ≠ 0 → u.bnd.linkUp = false → u.bnd.joined = true →
    exec (.bondLinkStateChange t) s = .next (startSession { u with bnd := { u.bnd with linkUp := true } })) ∧
  (∀ t s u, u = tick t s → bondMode u = 0 → u.bnd.linkUp = true →
    exec (.bondLinkStateChange t) s = .next { u with bnd := { u.bnd with linkUp := false } }) ∧
  (∀ t m s u, u = tick t s → hears u m = true → u.bnd.joined = true → helloFits u m = true → strangeType m = false → bondMacOk u 1 m = true → m.format = 1 →
    u.bnd.shaken = false → u.bnd.nonce ≠ none → u.bnd.peerNonce = none → exec (.helloRx t m) s = .next (settleRoles { u with
      bnd := { u.bnd with peerNonce := some (beNat (m.body.take 32)), peerRole := m.body.getD 32 0, peerPref := m.body.getD 33 0,
                          shaken := true } })) ∧
  (∀ t m s u, u = tick t s → hears u m = true → u.bnd.joined = true → helloFits u m = true → strangeType m = true ∨ bondMacOk u 1 m = false →
    exec (.helloRx t m) s = .next (record 0x0C08 ([m.lane % 2, m.typ.getD 1] ++ beBytes 2 m.bond ++ beBytes 2 m.sender) (bump 0x0B0010 1 u)))

/-- The lease (parts of R351 to R356, R363, R368): it is sent, accepted, acknowledged and renewed; its end fences the active and lets the standby
take over; so do RESIGN, FENCED, the loss of QA and a resign condition. The mirror (parts of R359 to R362, R367): records are applied in order
and acknowledged, acknowledgements bring ceilings into force, messages are sent again, a gap ends the sync, a resynchronisation runs to its end. -/
def Obligations.LeaseAndMirrorRun : Prop :=
  (∀ t s u n, u = tick t s → u.bnd.role = 1 → u.bnd.shaken = true → bondMode u ≠ 0 → u.bnd.leaseAt = none → u.bnd.leaseNo ≤ u.bnd.ackNo →
    n = u.bnd.leaseNo + 1 → exec (.leaseTx t) s = .next (sendBond 2 n [bit u.bnd.inSync, 0, 0, 0, 0, 0, 0, 0] [] 3 { u with
      bnd := { u.bnd with leaseNo := n, leaseAt := some u.now, dNow := fld u 0x0B0000 15 12,
                          leases := (n, u.now) :: u.bnd.leases.filter fun e => decide (u.bnd.ackNo < e.1) } })) ∧
  (∀ t m s u, u = tick t s → trusted 2 u m = true → 3 ≤ u.bnd.role → u.bnd.lastLease < m.number → exec (.leaseRx t m) s =
    .next (sendBond 3 m.number [u.bnd.role, 0, 0, 0, 0, 0, 0, 0] [] 3 { u with
      bnd := { u.bnd with lastLease := m.number, tRx := u.now, dNow := fld u 0x0B0000 15 12 } })) ∧
  (∀ t m s u a, u = tick t s → trusted 3 u m = true → u.bnd.role = 1 → u.bnd.ackNo < m.number → m.number = u.bnd.leaseNo →
    u.bnd.leases.find? (fun e => decide (e.1 = m.number)) = some (m.number, a) → m.body.getD 0 0 = 5 → u.now ≤ a + 250 * us →
    exec (.leaseAckRx t m) s = .next { u with bnd := { u.bnd with
      ackNo := m.number, slowRun := 0, tAck := max u.bnd.tAck a, leases := u.bnd.leases.filter fun e => decide (m.number < e.1) } }) ∧
  (∀ t s u v, u = tick t s → leaseBinding u = true → u.bnd.role = 1 → u.bnd.tAck + 3 * leaseD u / 4 ≤ u.now → v = fenceOff 6 5 u →
    exec (.leaseFence t) s = .next (sendBond 11 0 [6, 0, 0, 0, 0, 0, 0, 0] [] 3 v)) ∧
  (∀ t s u, u = tick t s → u.bnd.role = 5 → u.bnd.tRx + leaseD u + leaseD u / 8 ≤ u.now →
    exec (.leaseExpiry t) s = .next (takeover 1 u)) ∧
  (∀ t s u, u = tick t s → (refLoss 8 u).bnd.role = 1 → exec (.refLoss t 8) s = .next (fence 6 5 (refLoss 8 u))) ∧
  (∀ t q s u, u = tick t s → q ≠ 8 → exec (.refLoss t q) s = .next (refLoss q u)) ∧
  (∀ t m s u, u = tick t s → trusted 10 u m = true → u.bnd.acted.contains 10 = false → u.bnd.role = 5 →
    exec (.resignRx t m) s = .next (takeover 2 { u with bnd := { u.bnd with acted := 10 :: u.bnd.acted } })) ∧
  (∀ t m s u, u = tick t s → trusted 11 u m = true → u.bnd.acted.contains 11 = false → u.bnd.role = 5 →
    exec (.fencedRx t m) s = .next (takeover 3 { u with bnd := { u.bnd with acted := 11 :: u.bnd.acted } })) ∧
  (∀ t s u v, u = tick t s → u.mem.halt = true → u.bnd.role = 1 → v = fenceOff 2 4 u → exec (.resignCondition t 2) s =
    .next (sendBond 10 0 [2, 0, 0, 0, 0, 0, 0, 0] [] 3 (record 0x0C02 (bondEvent 2 0 v) v))) ∧
  (∀ t m s u r, u = tick t s → trusted 4 u m = true → u.bnd.role = 5 → u.bnd.based = true → u.bnd.early = [] → m.recs = [r] →
    u.bnd.applied < r.seq → exec (.mirrorRx t m) s = .next (absorb { u with bnd := { u.bnd with early := [r] } })) ∧
  (∀ n r s, s.bnd.early = [r] → r.seq = s.bnd.applied + 1 → drainRecs (n + 1) s =
    drainRecs n (applyRec r.body { s with bnd := { s.bnd with applied := r.seq, early := [] } })) ∧
  (∀ t m s u, u = tick t s → trusted 5 u m = true → u.bnd.role = 1 → u.bnd.acked < m.number → exec (.mirrorAckRx t m) s =
    .next (releaseCeils m.number { u with bnd := { u.bnd with
      acked := m.number, unacked := u.bnd.unacked.filter fun x => decide (m.number < x.last) } })) ∧
  (∀ t s u x, u = tick t s → mirrorOn u = true → bondMode u ≠ 0 → u.bnd.unacked = [x] → x.sent + 50 * us ≤ u.now → ∃ v,
    v = { u with bnd := { u.bnd with unacked := [{ x with sent := u.now }] } } ∧ exec (.mirrorRetransmit t) s =
      .next (bump 0x0B001C 1 (sendBond 4 ((x.recs.head?.map (·.seq)).getD x.last) [] x.recs (mirrorLane v) v))) ∧
  (∀ t s u g, u = tick t s → u.bnd.gapSince = some g → g + ms ≤ u.now → u.bnd.role = 5 →
    exec (.mirrorGapTimeout t) s = .next (syncReq (setRole 3 7 (record 0x0C05 (bondEvent 0 0 u) u)))) ∧
  (∀ t m s u, u = tick t s → trusted 6 u m = true → u.bnd.role = 1 → ∃ v, exec (.syncReqRx t m) s =
    .next (sendBond 7 0 (beBytes 8 (v.bnd.nextSeq - 1)) [] (mirrorLane v) v)) ∧
  (∀ t m s u, u = tick t s → trusted 7 u m = true → u.bnd.role = 4 → exec (.snapshotEndRx t m) s = .next (absorb { u with
    bnd := { u.bnd with snapEnd := some (beNat (m.body.take 8)), based := true,
                        applied := if u.bnd.based then u.bnd.applied else beNat (m.body.take 8) } })) ∧
  (∀ t m s u v, u = tick t s → trusted 8 u m = true → u.bnd.role = 1 → u.bnd.resync = true → v = { u with
    bnd := { u.bnd with resync := false, inSync := true, syncNo := u.bnd.leaseNo, tAck := if u.bnd.ackNo = 0 then u.now else u.bnd.tAck } } →
    exec (.syncDoneRx t m) s = .next (sendBond 9 0 [] [] (mirrorLane v) v)) ∧
  (∀ t m s u v, u = tick t s → trusted 9 u m = true → u.bnd.role = 4 → v = setRole 5 6 u →
    exec (.syncAckRx t m) s = .next (record 0x0C04 (bondEvent 0 0 v) v))

/-- The key commands (parts of R383, R384, R391): keys are generated, imported, exported, erased and attested. -/
def Obligations.KeyCommandsComplete : Prop :=
  (∀ h b s u ty us rep x y v w n, starts opKeyGenerate h b s = true → u = begun opKeyGenerate h b s →
    attrsFor u h.world true (wordAt (wordsOf b 0x8A01) 0) (wordAt (wordsOf b 0x8A01) 1) = some (ty, us, rep) → notApproved u ty us = false →
    drbgOut u = false → u.eng.startup = false → generateCycles (ty.bits 31 24) = none → drawBits (ty.bits 15 0) (reseed0 (drbgUse u)) = (x, y) →
    engineOut y 3 = false → takeSlot h.world y = some v → storeValue ty us h.world x v = some (w, n) →
    exec (.keyGenerate h b) s = .next (completed opKeyGenerate h (elemW 0x8A02 [w32 n] :: rep) w)) ∧
  (∀ h b s u ty us rep a c e x y v p r, starts opKeyGenerate h b s = true → u = begun opKeyGenerate h b s →
    attrsFor u h.world true (wordAt (wordsOf b 0x8A01) 0) (wordAt (wordsOf b 0x8A01) 1) = some (ty, us, rep) → notApproved u ty us = false →
    drbgOut u = false → u.eng.startup = false → generateCycles (ty.bits 31 24) = some (e, c) →
    drawBits (ty.bits 15 0) (reseed0 (drbgUse u)) = (x, y) → prioOf y h.world b = (p, r) →
    submit { engine := e, work := if isRsa (ty.bits 31 24) then 1 else 0, prio := p, world := h.world, cycles := c,
             result := .key ty us h.world x (publicElem (ty.bits 31 24) x :: rep ++ r) } y = .wait a v →
    exec (.keyGenerate h b) s = .next (waiting opKeyGenerate h a v)) ∧
  (∀ j s n v, engineOut s j.engine = false → takeSlot j.world s = some v → j.key = none → j.key2 = none → j.engine = 0 → n = v.eng.nextJob →
    submit j s = .wait (.job n) (fillUnits 0 { v with eng := { v.eng with nextJob := n + 1, jobs := put v.eng.jobs n j } })) ∧
  (∀ h b ty us own x s u k ty' us' rep v w n, starts opKeyImport h b s = true → u = begun opKeyImport h b s →
    keyFor u h.world (wordAt (wordsOf b 0x8A04) 0).toNat [uUnwrap] mCmd = .ok k → k.alg = 2 → algCodes.contains (ty.bits 31 24) = true →
    hasElem b 0x8A01 = false → attrsFor u h.world false ty us = some (ty', us', rep) → notApproved u ty' us' = false →
    engineOut (touchKey (wordAt (wordsOf b 0x8A04) 0).toNat u) 2 = false →
    takeSlot h.world (touchKey (wordAt (wordsOf b 0x8A04) 0).toNat u) = some v → storeValue ty' us' h.world x v = some (w, n) →
    exec (.keyImportWrapped h b true true ty us own x) s =
      .next (completed opKeyImport h (elemW 0x8A02 [w32 n] :: (importReports ty own ty' h.world ++ rep)) w)) ∧
  (∀ h b s u key wrap k x v, starts opKeyExport h b s = true → u = begun opKeyExport h b s → key = (wordAt (wordsOf b 0x8A02) 0).toNat →
    wrap = (wordAt (wordsOf b 0x8A04) 0).toNat → keyFor u h.world key [] mCmd = .ok k → keyFor u h.world wrap [uWrap] mCmd = .ok x →
    k.use.bit 6 = true → x.alg = 2 → engineOut u 2 = false → takeSlot h.world u = some v →
    exec (.keyExportWrapped h b) s = .next (completed opKeyExport h
      [{ typ := 0x8A05, len := (12 + materialLen k.alg + 7) / 8 * 8 + 8,
         val := Config.kwp x.value (unpack k.record ++ Config.material k.alg k.value) }] (touchKey wrap (touchKey key v)))) ∧
  (∀ h b s u key k, starts opKeyErase h b s = true → u = begun opKeyErase h b s → key = (wordAt (wordsOf b 0x8A02) 0).toNat →
    keyNamed u h.world key = .ok k → keyIdle u key = true →
    exec (.keyErase h b) s = .next (completed opKeyErase h [] (eraseKey key u))) ∧
  (∀ h b s u key k, starts opKeyErase h b s = true → u = begun opKeyErase h b s → key = (wordAt (wordsOf b 0x8A02) 0).toNat →
    keyNamed u h.world key = .ok k → keyIdle u key = false →
    exec (.keyErase h b) s = .next (waiting opKeyErase h (.keyErase key) (setKey key { k with erasing := true } u))) ∧
  (∀ h b s u, starts (opKeyAttest b) h b s = true → u = begun (opKeyAttest b) h b s → attestKind b = 1 → drbgOut u = false →
    u.eng.startup = false → exec (.keyAttest h b) s = .next (completed (opKeyAttest b) h
      [{ typ := 0x0A08, len := 4907, val := attestWords 1 0 [0, 0, 0] (List.replicate 48 0) ((List.range 8).map fun i => wordAt (wordsOf b 0x8A06) i)
           (drbgUse u) }] (drbgUse u))) ∧
  (∀ k n, isSymmetric k.alg = true → commitOf k n = hmac384 (beBytes ((k.typ.bits 15 0) / 8) k.value) (ascii "TIRIQUE KEY COMMIT" ++ unpack n)) ∧
  (∀ k n, isSymmetric k.alg = false → commitOf k n = Config.sha384 (unpack (Config.publicKey k.alg k.value)))

/-- Lifecycle, officers and dual control (parts of R386 to R398): what each command of dual control does once its tickets are good, the ticket
itself, and its expiry. -/
def Obligations.DualControlCompletes : Prop :=
  (∀ h b s u o id v, starts opDualAuthorise h b s = true → u = begun opDualAuthorise h b s → officerOf u h.session = some o →
    u.keys.tickets.length < 16 → drawBits 32 u = (id, v) → exec (.dualAuthorise h b) s = .next (completed opDualAuthorise h
      [elemW 0x8A0A [w32 id]] (record 0x0D04 ([o, 0] ++ beBytes 2 (bytesNat (wordsOf b 0x8A0D) 0 2) ++ beBytes 4 id) { v with
        keys := { v.keys with tickets := v.keys.tickets ++ [{
          id := id, issuer := o, opcode := bytesNat (wordsOf b 0x8A0D) 0 2, digest := (List.range 12).map fun i => wordAt (wordsOf b 0x8A0D) (1 + i), issued := v.now }] } }))) ∧
  (∀ h b s u g l i v w, starts opLifecycleChange h b s = true → u = begun opLifecycleChange h b s →
    g = (wordAt (wordsOf b 0x8A09) 0).toNat → ticketsFor 0x0A05 1 h b u = some (i :: l) → v = useTickets b u → transition v.keys.life g = true →
    ¬ (g = 1 ∧ v.keys.life = 0 ∧ cryptoOfficers v < 2) → v.keys.inForce = false → w = startOp 0x0A05 h.world h.mailbox h.tag v →
    exec (.lifecycleChange h b) s = .next (inProgress opLifecycleChange h [opIdElem (nextOp v)] { w with
      keys := { w.keys with changing := true, changePending := true, changeRec := (w.keys.life, credOf u h.session, i) },
      boot := { w.boot with flashCode := g, flashCount := w.boot.bbdCount + 1,
                            flashMac := some (lifeMac w g (w.boot.bbdCount + 1)), warmAt := some (w.now + ms) } })) ∧
  (∀ h b s u l i ws v, starts opOfficerEnrol h b s = true → u = begun opOfficerEnrol h b s → isBootstrap u h.session = false →
    ticketsFor 0x0A06 1 h b u = some (i :: l) → ws = wordsOf b 0x8A0B → v = useTickets b u → has v.keys.officers (byteAt ws 0) = false →
    exec (.officerEnrol h b) s = .next (completed opOfficerEnrol h [] (record 0x0D02 [byteAt ws 0, byteAt ws 1, credOf u h.session, i]
      { v with keys := { v.keys with officers := put v.keys.officers (byteAt ws 0) {
        role := byteAt ws 1, cred := ws, mac := hmac384 (beBytes 32 (kRecord v)) (unpack ws) } } }))) ∧
  (∀ h b s u l i id v o w, starts opOfficerRevoke h b s = true → u = begun opOfficerRevoke h b s →
    ticketsFor 0x0A07 1 h b u = some (i :: l) → id = (wordAt (wordsOf b 0x8A0C) 0).toNat → v = useTickets b u →
    look v.keys.officers id = some o → w = { v with keys := { v.keys with
      officers := del v.keys.officers id, tickets := v.keys.tickets.filter fun t => decide (t.issuer ≠ id) } } →
    v.keys.life = 0 ∨ 2 ≤ cryptoOfficers w → exec (.officerRevoke h b) s = .next (completed opOfficerRevoke h []
      (endCred (.officer id) h.mailbox h.tag (record 0x0D03 [id, o.role, credOf u h.session, i] w)))) ∧
  (∀ h b s u i j v c, starts opDebugEnable h b s = true → u = begun opDebugEnable h b s → ticketsFor 0x0A09 2 h b u = some [i, j] →
    u.boot.debugFused = false → u.keys.life = 3 → c = (wordAt (wordsOf b 0x8A0E) 0).bits 1 0 →
    v = zeroiseSas (zeroiseKeys (abortJobs (fun _ => true) stNotFound (useTickets b u))) →
    exec (.debugEnable h b) s = .next (completed opDebugEnable h [] (settleApproved (record 0x0D05 [credOf u h.session, i, j, c]
      { v with keys := { v.keys with debugOpen := true, debugScope := c } })))) ∧
  (∀ t n s u, u = tick t s → exec (.ticketExpiry t n) s = .next { u with keys := { u.keys with
    tickets := u.keys.tickets.filter fun x => decide (x.id ≠ n) || decide (u.now ≤ x.issued + 120 * sec) } }) ∧
  (∀ opc dig own id s t, ticketOk s opc dig own id = some t → t ∈ s.keys.tickets ∧ t.id = id ∧ s.now ≤ t.issued + 120 * sec ∧
    t.opcode = opc ∧ t.digest = dig ∧ own ≠ some t.issuer)

/-- The engine commands (parts of R401, R402, R410 to R419, R421, R423 to R425): signatures, verification, key encapsulation and agreement, raw
blocks, hashes, random bytes, and the pages of tenants. -/
def Obligations.EngineCommandsComplete : Prop :=
  (∀ h b s u hd k a v sc, starts opSign h b s = true → u = begun opSign h b s → hd = (wordAt (wordsOf b 0x8A02) 0).toNat → sc = schemeOf b →
    sc < 8 → keyFor u h.world hd [uSign] mCmd = .ok k → schemeFits sc k.alg = true → signDraws sc = false →
    signJob h b k.alg hd u = .wait a v → exec (.sign h b) s = .next (waiting opSign h a v)) ∧
  (∀ h b s u hd k a v sc, starts opSign h b s = true → u = begun opSign h b s → hd = (wordAt (wordsOf b 0x8A02) 0).toNat → sc = schemeOf b →
    sc < 8 → keyFor u h.world hd [uSign] mCmd = .ok k → schemeFits sc k.alg = true → signDraws sc = true → drbgOut u = false →
    u.eng.startup = false → signJob h b k.alg hd (drbgUse u) = .wait a v → exec (.sign h b) s = .next (waiting opSign h a v)) ∧
  (∀ h b vd bad s u hd k a v p r, starts opVerify h b s = true → u = begun opVerify h b s → hd = (wordAt (wordsOf b 0x8A02) 0).toNat →
    elemOf b 0x8B06 = none → schemeOf b < 8 → keyFor u h.world hd [uVerify] mCmd = .ok k → schemeFits (schemeOf b) k.alg = true →
    isCurve k.alg = false → (elemOf b 0x8B04).map (·.len) = some (signatureLen k.alg (algBits k.alg / 8)) → prioOf u h.world b = (p, r) →
    submit { engine := (verifyCycles k.alg (algBits k.alg / 8 / 8)).1, key := some hd, prio := p, world := h.world,
             cycles := (verifyCycles k.alg (algBits k.alg / 8 / 8)).2,
             bad := if (verifyCycles k.alg (algBits k.alg / 8 / 8)).1 = 0 then checkStatus k.alg bad else 0,
             result := .reply (elemW 0x0B07 [w32 (bit vd)] :: r) } u = .wait a v →
    exec (.verify h b vd bad) s = .next (waiting opVerify h a v)) ∧
  (∀ h b s u hd k a v ty us rep w p r x c z, starts opKemEncap h b s = true → u = begun opKemEncap h b s →
    hd = (wordAt (wordsOf b 0x8A02) 0).toNat → hasElem b 0x8B0C = false → elemOf b 0x8B06 = none →
    keyFor u h.world hd [uEncrypt] mCmd = .ok k → isMlKem k.alg = true → secretAttrs u h.world b = some (ty, us, rep) → drbgOut u = false →
    u.eng.startup = false → prioOf (drbgUse u) h.world b = (p, r) → drawBits 256 (drbgUse u) = (x, w) →
    Config.kemEncap (Config.publicKey k.alg k.value) x = (c, z) →
    submit { engine := 1, key := some hd, prio := p, world := h.world, cycles := encapCycles k.alg, bad := 0,
             result := .key ty us h.world z ({ typ := 0x0B09, len := ciphertextLen k.alg, val := c } :: rep ++ r) } w = .wait a v →
    exec (.kemEncap h b .ok) s = .next (waiting opKemEncap h a v)) ∧
  (∀ h b s u hd k a v ty us rep p r, starts opKemDecap h b s = true → u = begun opKemDecap h b s → hd = (wordAt (wordsOf b 0x8A02) 0).toNat →
    hasElem b 0x8B0C = false → keyFor u h.world hd [uDecrypt] mCmd = .ok k → isMlKem k.alg = true →
    (elemOf b 0x8B08).map (·.len) = some (ciphertextLen k.alg) → secretAttrs u h.world b = some (ty, us, rep) →
    prioOf u h.world b = (p, r) → submit { engine := 1, key := some hd, prio := p, world := h.world, cycles := decapCycles k.alg,
                                           result := .key ty us h.world (Config.kemDecap k.alg k.value (wordsOf b 0x8B08)) (rep ++ r) } u = .wait a v →
    exec (.kemDecap h b) s = .next (waiting opKemDecap h a v)) ∧
  (∀ h b s u a v, starts opKemDecap h b s = true → u = begun opKemDecap h b s → hasElem b 0x8B0C = true →
    ansBlocks h b uDecrypt u = .wait a v → exec (.kemDecap h b) s = .next (waiting opKemDecap h a v)) ∧
  (∀ h b bad s u hd k a v ty us rep p r, starts opKeyAgree h b s = true → u = begun opKeyAgree h b s →
    hd = (wordAt (wordsOf b 0x8A02) 0).toNat → elemOf b 0x8B0A = none → keyFor u h.world hd [uDerive] mCmd = .ok k → isCurve k.alg = true →
    (peerOf b).map (·.1) = some k.alg → isSymmetric (byteAt (wordsOf b 0x8A01) 0) = true →
    attrsFor u h.world false (wordAt (wordsOf b 0x8A01) 0) (wordAt (wordsOf b 0x8A01) 1) = some (ty, us, rep) → prioOf u h.world b = (p, r) →
    submit { engine := 0, key := some hd, key2 := none, prio := p, world := h.world, cycles := agreeCycles k.alg,
             bad := if bad = .point then stPoint else 0, result := .key ty us h.world (agreedValue k none ty b) (rep ++ r) } u = .wait a v →
    exec (.keyAgree h b bad) s = .next (waiting opKeyAgree h a v)) ∧
  (∀ h b s u v m f, starts opHash h b s = true → u = begun opHash h b s → engineOut u 3 = false → takeSlot h.world u = some v →
    elemOf b 0x8B02 = some m → hashFinal b = f → ¬ (hashAlg b = 1 ∧ f = true ∧ hasElem b 0x8B0F = false) → exec (.hash h b) s = .next (completed opHash h
      [elemW (if f then 0x0B11 else 0x0B10) ((List.range (if f then digestLen (hashAlg b) / 4 else 64)).map
        (Config.hashWord (hashAlg b) (wordsOf b 0x8B0F) m.len m.val f))] v)) ∧
  (∀ h b s u v e w, starts opDrbgRead h b s = true → u = begun opDrbgRead h b s → elemOf b 0x0B12 = none → drbgOut u = false →
    u.eng.startup = false → takeSlot h.world (drbgUse u) = some v → drawElem 0x0B13 32 v = (e, w) →
    exec (.drbgRead h b) s = .next (completed opDrbgRead h [e] w)) ∧
  (∀ h b s u p t, starts opVciPageAssign h b s = true → u = begun opVciPageAssign h b s → p = byteAt (wordsOf b 0x8B14) 0 →
    t = byteAt (wordsOf b 0x8B14) 1 → t ≠ 0xFF → has u.dks.tenants t = true → has u.eng.pages p = false → (∀ e ∈ u.eng.pages, e.2 ≠ t) →
    exec (.vciPageAssign h b) s = .next (completed opVciPageAssign h []
      (record 0x0B07 [p, t] { u with eng := { u.eng with pages := put u.eng.pages p t } })))

/-- Vault jobs and the entropy source (parts of R403, R404, R407 to R409, R417, R420 to R422): a job ends, yields, is reloaded; the source fails,
restarts and reseeds. -/
def Obligations.VaultJobsRun : Prop :=
  (∀ t k kat s u id j v, u = tick t s → k < 8 → (laneJobs u 0 k).find? (fun e => !e.2.suspended) = some (id, j) → j.cycles + 256 ≤ cyclesRun u j →
    j.work = 0 → v = bump 0x0D0010 1 u → exec (.kilnJobEnd t k none kat) s = .next (fillUnits 0 (resumeJob k (deliver id j v)))) ∧
  (∀ t k kat s u id j, u = tick t s → k < 2 → (laneJobs u 1 k).find? (fun e => !e.2.suspended) = some (id, j) →
    j.cycles + 256 ≤ cyclesRun u j → j.work = 0 →
    exec (.latticeJobEnd t k none kat) s = .next (fillUnits 1 (deliver id j (bump 0x0E0010 1 u)))) ∧
  (∀ t k kat s u id j n v, u = tick t s → k < 2 → (laneJobs u 1 k).find? (fun e => !e.2.suspended) = some (id, j) →
    j.cycles + 256 ≤ cyclesRun u j → j.work = 2 → drawBits 10 (bump 0x0E0010 1 u) = (n, v) → exec (.latticeJobEnd t k none kat) s =
      .next (fillUnits 1 (deliver id j (perf 5 5 (1 + n % 1000) (bump 0x0E0014 (1 + n % 1000) v))))) ∧
  (∀ t k c kat s u id j, u = tick t s → k < 2 → (laneJobs u 1 k).find? (fun e => !e.2.suspended) = some (id, j) →
    j.cycles + 256 ≤ cyclesRun u j → j.work = 0 → exec (.latticeJobEnd t k (some c) kat) s =
      .next (fillUnits 1 (unitFault 1 k c kat (endJob id stEngineFault [] (bump 0x0E0010 1 u))))) ∧
  (∀ t k s u id j, u = tick t s → k < 2 → (laneJobs u 1 k).find? (fun e => !e.2.suspended) = some (id, j) →
    cyclesRun u j < j.cycles + 256 → ∀ f kat, exec (.latticeJobEnd t k f kat) s = .next u) ∧
  (∀ id j es s, j.bad = 0 → j.result = .reply es → deliver id j s = endJob id stOk es s) ∧
  (∀ id j ty us ow x es s v n, j.bad = 0 → j.result = .key ty us ow x es → storeValue ty us ow x s = some (v, n) →
    deliver id j s = endJob id stOk (elemW 0x8A02 [w32 n] :: es) v) ∧
  (∀ t k s u x qid q v, u = tick t s → (yielding u).find? (fun y => decide (y.1 = k)) = some x → nextQueued u 0 = some (qid, q) →
    (∀ e ∈ u.eng.jobs, e.2.engine = 0 → e.2.lane.isSome = true → e.2.suspended = false → e.2.prio < q.prio) →
    (∀ y ∈ yielding u, yieldsBefore x y = true) → v = putJob x.2.1 { x.2.2 with suspended := true, done := cyclesRun u x.2.2 } u →
    exec (.kilnYieldPoint t k) s = .next (perf 5 1 1 (perf 5 3 1 (bump 0x0D0014 1
      (putJob qid { q with lane := some k, start := v.now + 64 * vc, displaced := true } v))))) ∧
  (∀ t p s u id j, u = tick t s → (pageJobs u p).find? (fun e => e.2.lane.isSome) = some (id, j) → u.eng.cores = [] →
    (j.cycles + 3) / 4 ≤ (u.now - j.start) / vc → pageLeaving (fillPage p (deliver id j u)) p = false →
    exec (.vciJobEnd t p) s = .next (fillPage p (deliver id j u))) ∧
  (∀ t n s u k, u = tick t s → look u.keys.keys n = some k → k.place = 0 →
    exec (.keyReload t n true) s = .next (setKey n { k with fresh := false } u)) ∧
  (∀ t n s u k, u = tick t s → look u.keys.keys n = some k → exec (.keyReload t n false) s = .next (keyFails n u)) ∧
  (∀ t s u, u = tick t s → u.eng.srcOk = true →
    exec (.drbgReseed t 0) s = .next { u with eng := { u.eng with d0 := { u.eng.d0 with requests := 0, last := u.now } } }) ∧
  (∀ t n s u, u = tick t s → u.eng.lastFail = none → exec (.rngHealthFail t n) s = .next (record 0x0B05 [n, cap 255 (u.eng.fails + 1)]
    { u with eng := { u.eng with srcOk := false, startup := !u.eng.failed, fails := u.eng.fails + 1, lastFail := some u.now } })) ∧
  (∀ t s u, u = tick t s → u.eng.failed = false → exec (.rngStartupDone t) s = .next { u with eng := { u.eng with
    srcOk := true, startup := false, d0 := { u.eng.d0 with ok := true }, d1 := { u.eng.d1 with ok := true } } })

/-- Enrolment (parts of R426, R429 to R431): what each action of DOMAIN_ENROL does. -/
def Obligations.EnrolmentCompletes : Prop :=
  (∀ h b serial dig s u v n w, starts opEnrolChallenge h b s = true → u = begun opEnrolChallenge h b s → domainTakes h u = true →
    isService u = true → domainWork u = some v → drawWords 8 v = (n, w) →
    exec (.domainEnrolChallenge h b true serial dig) s = .next (completed opEnrolChallenge h [elemW 0x8C04 n] { w with
      dks := { w.dks with nonces := (w.dks.nonces.filter fun x => decide (w.now ≤ x.at_ + 300 * sec)) ++
        [{ nonce := n, serial := serial, idDig := dig, at_ := w.now }] } })) ∧
  (∀ h b s u v w hs, starts opEnrolPrepare h b s = true → u = begun opEnrolPrepare h b s → domainTakes h u = true → domainWork u = some v →
    storeAll [(0x13, uDerive), (0x31, uDecrypt)] (eraseAll v.dks.distKeys v) = some (w, hs) → ∃ e t,
    exec (.domainEnrolPrepare h b) s = .next (completed opEnrolPrepare h [e] t) ∧ e.typ = 0x8C06 ∧ e.len = 6571 ∧ t.dks.distKeys = hs) ∧
  (∀ h b s u v n d, starts opEnrolAdmit h b s = true → u = begun opEnrolAdmit h b s → domainTakes h u = true → isService u = true →
    domainWork u = some v → v.dks.nonces.find? (fun x => decide (x.nonce = digestWords (wordsOf b 0x8C06) 32 8) && !x.used &&
      decide (v.now ≤ x.at_ + 300 * sec)) = some n →
    digestWords (wordsOf b 0x8C06) 1748 8 =
      digestWords (packWords (Config.sha384 (unpack ((wordsOf b 0x8C06).take 416)))) 0 8 →
    byteAt (wordsOf b 0x8C06) 1670 = 1 ∨ byteAt (wordsOf b 0x8C06) 1670 = 2 →
    fld v 0x0C0100 23 16 ≤ bytesNat (wordsOf b 0x8C06) 1682 2 → bytesNat (wordsOf b 0x8C06) 24 4 = v.dks.domain →
    admitId v b (bytesNat (wordsOf b 0x8C06) 8 8) = .inl d →
    (∀ e ∈ v.dks.roster, e.2.role = 0 ∨ e.2.revoked = true ∨ e.1 = v.dks.device ∨ e.1 = d) → ∃ m t, m.typ = 0x8C07 ∧
    exec (.domainEnrolAdmit h b true) s = .next (completed opEnrolAdmit h [m, distResult []] t) ∧
    (look t.dks.roster d).map (fun r => (r.serial, r.revoked)) = some (bytesNat (wordsOf b 0x8C06) 8 8, false)) ∧
  (∀ h b s u v m, starts opEnrolAccept h b s = true → u = begun opEnrolAccept h b s → domainTakes h u = true →
    m = membershipOf (wordsOf b 0x8C07) → bytesNat (wordsOf b 0x8C07) 72 8 = u.boot.serial →
    digestWords (wordsOf b 0x8C07) 24 12 = u.dks.distDig → u.dks.distKeys ≠ [] →
    u.dks.enrolled = false ∨ u.dks.domain ≠ m.domain ∨ u.dks.device = m.device → engineOut u 0 = false → takeSlot 3 u = some v →
    exec (.domainEnrolAccept h b true) s = .next (completed opEnrolAccept h [] (takeMembership m { v with dks := { v.dks with pendingPkg := none } }))) ∧
  (∀ h b s u r d v, starts opEnrolRevoke h b s = true → u = begun opEnrolRevoke h b s → domainTakes h u = true → isService u = true →
    d = deviceWord b → look u.dks.roster d = some r →
    v = { u with dks := { (setRoster d { r with revoked := true } u).dks with
      clients := u.dks.clients.filter fun x => decide (x ≠ d) } } →
    exec (.domainEnrolRevoke h b) s = .next (completed opEnrolRevoke h []
      (pump (sendDelta 0 d (otherReplicas v) (endCred (.device d) h.mailbox h.tag v))))) ∧
  (∀ h b s u ws v d w, starts opEnrolDelta h b s = true → u = begun opEnrolDelta h b s → domainTakes h u = true → ws = wordsOf b 0x8C09 →
    isReplica u = true → u.dks.gen < bytesNat ws 12 4 ∨ u.dks.gen = bytesNat ws 12 4 ∧ u.dks.version < bytesNat ws 16 8 →
    engineOut u 0 = false → takeSlot 3 u = some v → d = bytesNat ws 64 2 % 1024 →
    w = { v with dks := { v.dks with
      roster := put v.dks.roster d (deltaEntry ws), version := bytesNat ws 16 8,
      replica := if d = v.dks.device then (deltaEntry ws).role else v.dks.replica } } →
    exec (.domainEnrolRosterDelta h b true) s = .next (completed opEnrolDelta h []
      (if (deltaEntry ws).revoked = true then endCred (.device d) h.mailbox h.tag w else w)))

/-- Distribution and rollover (parts of R428, R432 to R435, R444 to R447): the service starts a distribution, a target stores its bundle, a rollover
starts and commits or aborts at its deadline, a target answers, is tried again, the ephemeral key rotates. -/
def Obligations.DistributionRuns : Prop :=
  (∀ h b x s u v w k y, starts opDomainKeyDistribute h b s = true → u = begun opDomainKeyDistribute h b s → domainTakes h u = true →
    h.world = 0 → isService u = true → distKind b = 2 ∨ distKind b = 0 → distB b = 0xFFFF → isTarget u (distA b) = true →
    domainWork u = some v → storeKey (typeApplied 2) ((distUse v (distKind b) true).withBits 5 5 1) 0 v = some (w, k) →
    y = deliverBundles (distKind b) w.dks.nextSvc (keyContent w k) [distA b] w →
    exec (.domainKeyDistribute h b x) s = .next (waiting opDomainKeyDistribute h (.svc y.dks.nextSvc)
      (startSvc (distKind b) [] { id := 0, kind := distKind b, key := some k } y))) ∧
  (∀ h b x s u v w k, starts opDomainKeyDistribute h b s = true → u = begun opDomainKeyDistribute h b s → domainTakes h u = true →
    h.world = 3 → u.dks.enrolled = true → fromReplica u h.session = true → engineOut u 0 = false → takeSlot 3 u = some v →
    distKind b = 2 ∨ distKind b = 0 → bundleOk v x = true → x.policy = none →
    storeValue (typeApplied 2) (distUse v (distKind b) (decide (distA b = v.dks.device))) 0 x.value
      { v with dks := { v.dks with txnSeen := put v.dks.txnSeen x.sender x.txn } } = some (w, k) →
    exec (.domainKeyDistribute h b (some x)) s = .next (completed opDomainKeyDistribute h [ownResult w k] w)) ∧
  (∀ h b s u i l v w hs d rep x y, starts opDomainRollover h b s = true → u = begun opDomainRollover h b s → domainTakes h u = true →
    ticketsFor 0x0C02 1 h b u = some (i :: l) → rollParams b = (d, false, rep) → isService (useTickets b u) = true →
    (useTickets b u).dks.rollover = none → domainWork (useTickets b u) = some v →
    storeAll [(0x11, uSign), (0x39, uSign)] v = some (w, hs) → x = startOp 0x0C02 h.world h.mailbox h.tag w → otherReplicas x = [] →
    y = { x with dks := { x.dks with rolling := 1, nextSvc := w.dks.nextSvc + 1, rollover := some {
        op := nextOp w, step := 6, deadline := x.now + d * sec, promote := false, creation := false, group := w.dks.nextSvc,
        oldGen := x.dks.gen, cred := credOf u h.session, issuer := i, handles := hs } } } →
    exec (.domainRollover h b) s = .next (inProgress opDomainRollover h (opIdElem (nextOp w) :: rep) (pump
      (deliverTo 5 w.dks.nextSvc (fun d => packWords (membershipBytes d (y.dks.gen + 1) (y.dks.version + 1)
        (y.dks.roster.map fun e => (e.1, { e.2 with role := rolledRole y false e.1 e.2 })) hs y.dks.domainKeys y)) (otherDevices y) y)))) ∧
  (∀ t s u r, u = tick t s → u.dks.rollover = some r → r.step = 6 → (∀ d ∈ groupOf u r.group, d.status = some 0) →
    exec (.rolloverDeadline t) s = .next (commitRollover r u)) ∧
  (∀ t s u r d, u = tick t s → u.dks.rollover = some r → r.step = 6 → r.promote = false → r.deadline ≤ u.now → d ∈ groupOf u r.group →
    d.kind = 4 → d.status ≠ some 0 → exec (.rolloverDeadline t) s = .next (endOp r.op stState [] (dropRollover r u))) ∧
  (∀ t d st hd ret s u i x y, u = tick t s → openTo u d = some i → u.dks.deliveries[i]? = some x → x.group ≠ 0 →
    y = { x with status := some st, handle := hd } →
    exec (.domainPeerCompletionRx t d st hd ret) s =
      .next (settleRollover (settleAllSvc (pump (catchUp d (answered y ret (setDelivery i y u))))))) ∧
  (∀ t d s u i x, u = tick t s → openTo u d = some i → u.dks.deliveries[i]? = some x → x.last + 5 * sec ≤ u.now →
    x.kind ≠ 8 ∨ x.group = 0 → exec (.dksRetry t d) s = .next (settleRollover (settleAllSvc
      (sendDelivery x (setDelivery i { x with tries := x.tries + 1, last := u.now } u))))) ∧
  (∀ t s u v w, u = tick t s → 4096 ≤ u.dks.ephServed ∨ u.dks.ephSince + sec ≤ u.now → drawBits 256 u = (v, w) →
    exec (.ephemeralKeyRotate t) s = .next { w with dks := { w.dks with eph := v, ephServed := 0, ephSince := w.now } })

/-- Group keys (parts of R436 to R443): policies and members are set, TEKs are generated and expire, GDOI and ARP are answered. -/
def Obligations.GroupKeysRun : Prop :=
  (∀ h b s u ws g, starts opGroupPolicySet h b s = true → u = begun opGroupPolicySet h b s → domainTakes h u = true → isService u = true →
    ws = wordsOf b 0x8C0E → byteAt ws 4 = 0 → elemOf b 0x8C10 = none → hasElem b 0x8C0F = false →
    look u.dks.groups (wordAt ws 0).toNat = some g → ∃ v, v = eraseAll (g.teks.map (·.handle)) u ∧
    exec (.groupPolicySet h b) s = .next (completed opGroupPolicySet h [] (copyGroup (wordAt ws 0).toNat { v with
      dks := { v.dks with groups := del v.dks.groups (wordAt ws 0).toNat } }))) ∧
  (∀ h b s u ws v w g l, starts opGroupPolicySet h b s = true → u = begun opGroupPolicySet h b s → domainTakes h u = true →
    isService u = true → ws = wordsOf b 0x8C0E → byteAt ws 4 = 1 → elemOf b 0x8C10 = none → hasElem b 0x8C0F = false →
    look u.dks.groups (wordAt ws 0).toNat = none → u.dks.groups.length < 1024 → domainWork u = some v →
    look v.dks.groups (wordAt ws 0).toNat = none → l = Legal.apply (.range 300 86400) 32 (wordAt ws 2).toNat →
    newTek { typ := byteAt ws 5, alg := byteAt ws 6, lifetime := l } v.now v = some (w, g) →
    exec (.groupPolicySet h b) s = .next (completed opGroupPolicySet h (reportElem 0x8C0E 2 (wordAt ws 2) (w32 l))
      (copyGroup (wordAt ws 0).toNat { w with dks := { w.dks with groups := put w.dks.groups (wordAt ws 0).toNat g } }))) ∧
  (∀ h b s u e m, starts opGdoiMemberAdd h b s = true → u = begun opGdoiMemberAdd h b s → domainTakes h u = true → isReplica u = true →
    elemsOf b 0x8C11 = [e] → m = memberOf e → u.dks.members.length < 65536 → exec (.gdoiMemberAdd h b) s =
      .next (completed opGdoiMemberAdd h [] { u with dks := { u.dks with
        members := u.dks.members.filter (fun x => decide (x.digest ≠ m.digest)) ++ [m] } })) ∧
  (∀ h b s u e m, starts opGdoiMemberRemove h b s = true → u = begun opGdoiMemberRemove h b s → domainTakes h u = true →
    isReplica u = true → elemsOf b 0x8C11 = [e] → (∃ y ∈ u.dks.members, y.digest = (memberOf e).digest) → m = (memberOf e).digest →
    ∃ l, (∀ y, y ∈ l ↔ y ∈ u.dks.members ∧ y.digest ≠ m) ∧ exec (.gdoiMemberRemove h b) s =
      .next (completed opGdoiMemberRemove h [] { u with dks := { u.dks with members := l } })) ∧
  (∀ t n s u g k v g', u = tick t s → look u.dks.groups n = some g → g.teks = [k] → isService u = true →
    k.expiry ≤ u.now + g.lifetime * sec / 4 → newTek g k.expiry (reseed0 u) = some (v, g') → exec (.tekNextGenerate t n) s =
      .next (copyGroup n { v with dks := { v.dks with groups := put v.dks.groups n g' } })) ∧
  (∀ t n s u g v, u = tick t s → look u.dks.groups n = some g →
    v = eraseAll ((g.teks.filter fun k => decide (k.expiry ≤ u.now)).map (·.handle)) u →
    exec (.tekExpiry t n) s = .next { v with dks := { v.dks with
      groups := put v.dks.groups n { g with teks := g.teks.filter fun k => decide (v.now < k.expiry) } } }) ∧
  (∀ t m s u, u = tick t s → gdoiOn u = true → kilnOut u = false → sharedSlot u = true → m.phase1 = true → m.ok = true →
    (∃ x ∈ u.dks.members, x.digest = m.digest) → exec (.gdoiMessageRx t m) s = .next (send (.gdoi m.src true true 0 []) { u with
      dks := { u.dks with members := u.dks.members.map fun x =>
        if x.digest = m.digest then { x with chain := some m.chainTo, phase1 := some u.now } else x } })) ∧
  (∀ t m s u x a g, u = tick t s → gdoiOn u = true → sharedSlot u = true → m.phase1 = false → m.ok = true →
    u.dks.members.find? (fun y => decide (y.digest = m.digest)) = some x → x.phase1 = some a → x.groups.contains m.group = true →
    look u.dks.groups m.group = some g → exec (.gdoiMessageRx t m) s =
      .next (send (.gdoi m.src false true m.group (pullTeks u g)) (bump 0x0C0124 1 u))) ∧
  (∀ t m s u, u = tick t s → gdoiOn u = true → sharedSlot u = false → exec (.gdoiMessageRx t m) s = .next (bump 0x0C012C 1 u)) ∧
  (∀ t ip mac s u, u = tick t s → gdoiOn u = true → ip = (regWord u 0x0C0108).toNat →
    exec (.arpRequestRx t ip mac) s = .next (send (.arp mac) u))

/-- Tenants and domain snapshots (parts of R441, R442, R448, R449). -/
def Obligations.TenantsAndSnapshots : Prop :=
  (∀ h b s u ws n, starts opTenantCreate h b s = true → u = begun opTenantCreate h b s → domainStandby u h = false → ws = wordsOf b 0x8C12 →
    n = byteAt ws 0 → (∀ f ∈ u.cmd.flights, f.await ≠ .tenant n) → byteAt ws 1 = 1 → exec (.tenantCreate h b) s =
      .next (completed opTenantCreate h [] { u with dks := { u.dks with
        tenants := put u.dks.tenants n { get u.dks.tenants n {} with cred := ws.drop 1 } } })) ∧
  (∀ h b s u ws n x r m l, starts opTenantRateSet h b s = true → u = begun opTenantRateSet h b s → domainStandby u h = false →
    ws = wordsOf b 0x8C13 → n = byteAt ws 0 → (∀ f ∈ u.cmd.flights, f.await ≠ .tenant n) → look u.dks.tenants n = some x →
    r = min (min 64 (bytesNat ws 4 2)) (512 - (tenantReserve u - x.reserved)) → l = Legal.apply (.range 1 888) 16 (bytesNat ws 6 2) →
    m = min 1000000 (wordAt ws 2).toNat → ∃ e, exec (.tenantRateSet h b) s = .next (completed opTenantRateSet h e { u with
      dks := { u.dks with
        tenants := put u.dks.tenants n { x with reserved := r, limit := l, rate := m, tokens := bucketDepth m, refilled := u.now } } })) ∧
  (∀ h b s u a, starts opDomainSnapshot h b s = true → u = begun opDomainSnapshot h b s → u.mem.memOff = false →
    a = (bytesNat (wordsOf b 0x8C14) 0 6 * 1000000000 + bytesNat (wordsOf b 0x8C14) 6 4) * 65536 → tod u + 65536 * 1000000 ≤ a →
    a ≤ tod u + 549000 * (65536 * 1000000) → h.world = 3 → u.dks.enrolled = true → fromReplica u h.session = true → ∃ e,
    exec (.domainSnapshot h b) s = .next (completed opDomainSnapshot h [e] (armSnap a u)))

/-- External memory (parts of R451 to R455, R459 to R465, R468 to R472): channels train and are initialised, a master reads and writes a line, the
memory key is rolled, the status is read. -/
def Obligations.MemoryRuns : Prop :=
  (∀ h b s u v w k, starts opMemKeyRoll h b s = true → u = begun opMemKeyRoll h b s → u.mem.halt = false → u.mem.memOff = false →
    u.mem.cap ≠ 0 → u.mem.rolling = false → drbgOut u = false → u.eng.startup = false → v = drbgUse u →
    drawBits 256 (drbgUse (startOp 0x0D00 h.world h.mailbox h.tag v)) = (k, w) →
    exec (.memKeyRoll h b) s = .next (inProgress opMemKeyRoll h [opIdElem (nextOp v)] { w with
      mem := { w.mem with key := k, keyOld := w.mem.key, kidOld := w.mem.kid, kid := w.mem.kid % 15 + 1, rolling := true,
                          rollOp := some (nextOp v), swept := 0, sweptAt := w.now } })) ∧
  (∀ h b s u, starts opMemStatus h b s = true → u = begun opMemStatus h b s → exec (.memStatus h b) s = .next (completed opMemStatus h
    [elemW 0x0D02 ([0x100004, 0x10000C, 0x100010, 0x100014, 0x100020, 0x100024, 0x100028, 0x100030, 0x100034, 0x100038, 0x10003C].map
      (liveWord u))] u)) ∧
  (∀ t ch cap s u c, u = tick t s → ch < 2 → 5 ≤ u.boot.step → u.mem.memOff = false → c = channel u ch → c.up = false → c.tries < 3 →
    exec (.ddrTrainingDone t ch true cap) s =
      .next (startMemory (setChannel ch { c with tries := c.tries + 1, up := true, cap := if cap = 2 then 2 else 1 } u))) ∧
  (∀ t ch cap s u c v, u = tick t s → ch < 2 → 5 ≤ u.boot.step → u.mem.memOff = false → c = channel u ch → c.up = false → c.tries = 2 →
    v = setChannel ch { c with tries := 3, up := false, cap := 0 } u →
    exec (.ddrTrainingDone t ch false cap) s = .next (record 0x1001 [2 ^ ch, v.mem.c0.tries, v.mem.c1.tries]
      { v with mem := { v.mem with memOff := true, c0 := { v.mem.c0 with up := false }, c1 := { v.mem.c1 with up := false } } })) ∧
  (∀ t s u, u = tick t s → u.mem.cap ≠ 0 → exec (.memInitDone t) s = .next { u with mem := { u.mem with initDone := true } }) ∧
  (∀ t m ch a s u, u = tick t s → ch < 2 → gateOf u m ch a false = .open_ → initialised u a = true → 0x4A000000 ≤ a →
    exec (.memRead t m ch a .none) s = .next (memAnswer m (lineWords (channel (perf 7 1 1 u) ch) (lineBase a)) false (perf 7 1 1 u))) ∧
  (∀ t m ch a s u v, u = tick t s → ch < 2 → gateOf u m ch a false = .open_ → initialised u a = true → a < 0x40000000 →
    v = verifyPath ch a false (perf 7 1 1 u) →
    exec (.memRead t m ch a .none) s = .next (memAnswer m (lineWords (channel v ch) (lineBase a)) false v)) ∧
  (∀ t m ch a b f s u, u = tick t s → ch < 2 → gateOf u m ch a false = .open_ → initialised u a = true → 0x40000000 ≤ a →
    f = .line b (dueTag u ch (lineBase a) b) →
    exec (.memRead t m ch a f) s = .next (memAnswer m (readWords (perf 7 1 1 u) ch a f) false (perf 7 1 1 u))) ∧
  (∀ t m ch a f s u, u = tick t s → ch < 2 → gateOf u m ch a false = .open_ → initialised u a = false →
    exec (.memRead t m ch a f) s = .next (memAnswer m (List.replicate 16 0) false u)) ∧
  (∀ t m ch a f k s u, u = tick t s → ch < 2 → gateOf u m ch a false = .open_ → initialised u a = true → faultKind u ch a f = some k →
    exec (.memRead t m ch a f) s =
      .next (memAnswer m [] true (integrityFail (if m = 6 ∧ u.mem.rolling = true then 7 else k) m ch a u))) ∧
  (∀ t m ch a f s u, u = tick t s → ch < 2 → gateOf u m ch a false = .wall →
    exec (.memRead t m ch a f) s = .next (wallHit m ch a false u)) ∧
  (∀ t m ch a ws s u v, u = tick t s → ch < 2 → gateOf u m ch a true = .open_ → ws.length = 16 → v = perf 7 2 1 u →
    exec (.memWrite t m ch a ws true .none) s = .next (memAnswer m [] false (storeLine ch a
      (setChannel ch { channel v ch with data := putWords (channel v ch).data (lineBase a) ws } v)))) ∧
  (∀ t s u d v k, u = tick t s → u.mem.due = some d → d ≤ u.now → rollable u = true → u.mem.rolling = false →
    drawBits 256 (drbgUse u) = (k, v) → exec (.keyRollDue t) s = .next { v with
      mem := { v.mem with key := k, keyOld := v.mem.key, kidOld := v.mem.kid, kid := v.mem.kid % 15 + 1, rolling := true, rollOp := none,
                          swept := 0, sweptAt := v.now } }) ∧
  (∀ t s u v, u = tick t s → u.mem.rolling = true → rollable u = true → chanBytes u ≤ sweptBytes u → v = flushNodes u →
    v.mem.rollOp = none → exec (.sweepEnd t) s = .next (record 0x1005 [v.mem.kidOld, v.mem.kid, 0] { v with mem := { v.mem with
      rolling := false, kidOld := 0, keyOld := 0, rollOp := none, swept := chanBytes v, rolls := cap 65535 (v.mem.rolls + 1),
      due := some (v.now + fld v 0x100008 23 16 * 3600 * sec) } }))

/-- Tamper monitors (parts of R476 to R492): sources raise alarms and take their responses, conditions clear, sources are configured, tested, fused,
and a tampered device is rearmed. -/
def Obligations.TamperRuns : Prop :=
  (∀ t m s u v, u = tick t s → v = { u with tmp := { u.tmp with cond := Nat.lor u.tmp.cond (m % 65536) } } →
    exec (.tamperAlarm t m) s = .next (alarm ((List.range 16).filter (raises v)) (fun _ => false) v)) ∧
  (∀ n s v w, vaultOff s = false → v = snapTrigger 3 (tod (joinGroup [n] (countAlarm n s))) (joinGroup [n] (countAlarm n s)) →
    responseOf (joinGroup [n] (countAlarm n s)) n = 5 → responseOf v n = 5 → w = noteTamper (resign 3 false v) →
    responseOf w n = 5 → w.tmp.resetAt = none →
    alarm [n] (fun _ => false) s = recordResp 0x1101 0 [[n, 5] ++ beBytes 2 w.tmp.groupBits ++ beBytes 4 (rtcNow w)] 5 w) ∧
  (∀ t n s u, u = tick t s → exec (.tamperConditionClear t n) s =
    .next { u with tmp := { u.tmp with cond := clearBit u.tmp.cond n, alarmed := clearBit u.tmp.alarmed n } }) ∧
  (∀ h b s u v r, starts opTamperConfig h b s = true → u = begun opTamperConfig h b s → b.foldl applyTamperElem (u, []) = (v, r) →
    u.keys.inForce = false → exec (.tamperConfig h b) s =
      .next (completed opTamperConfig h r (settleApproved (rearm (fun _ => false) v)))) ∧
  (∀ h b s u v, starts opTamperTest h b s = true → u = begun opTamperTest h b s → u.tmp.test = none →
    v = startOp 0x0E01 h.world h.mailbox h.tag u → exec (.tamperTest h b) s = .next (inProgress opTamperTest h [opIdElem (nextOp u)]
      (nextTested 17 { v with tmp := { v.tmp with test := some { op := nextOp u, left := (List.range 16).filter fun n => (maskOf b).testBit n,
                                                                 named := maskOf b, at_ := v.now } } }))) ∧
  (∀ t d s u x n r, u = tick t s → u.tmp.test = some x → x.left = n :: r → d ≤ detectLimit n →
    exec (.tamperTestSourceDone t (some d)) s = .next (nextTested 17 (rearm (fun _ => false) { u with tmp := { u.tmp with
      tested := Nat.lor u.tmp.tested (2 ^ n), testFail := clearBit u.tmp.testFail n,
      test := some { x with left := r, results := x.results ++ [testResult n 0 d] } } }))) ∧
  (∀ h b s u n i l v, starts opTamperFuse h b s = true → u = begun opTamperFuse h b s → n = maskSource (maskOf b) →
    ticketsFor 0x0E02 1 h b u = some (i :: l) → v = useTickets b u → n ≠ 15 → v.tmp.fused.testBit n = false → v.keys.inForce = false →
    exec (.tamperFuse h b true) s = .next (completed opTamperFuse h [] (settleApproved (record 0x1105 [n, credOf u h.session, i]
      { v with tmp := { v.tmp with fused := Nat.lor v.tmp.fused (2 ^ n) } })))) ∧
  (∀ h b s u i l v w n, starts opTamperRearm h b s = true → u = begun opTamperRearm h b s → ticketsFor 0x0E03 1 h b u = some (i :: l) →
    v = useTickets b u → v.tmp.cond = 0 →
    w = rearm (fun _ => false) (resetSources (record 0x1106 [credOf u h.session, i] v)) →
    n = max w.boot.flashCount w.boot.bbdCount + 1 → exec (.tamperRearm h b) s = .next (completed opTamperRearm h [] { w with
      boot := { w.boot with flashCode := 0, flashCount := n, flashRecOk := true, flashMac := some (lifeMac w 0 n), bbdCode := 0,
                            bbdCount := n, bbdLost := false, rootSecret := none, warmAt := some (w.now + ms) } }))

/-- Power states and wake sources (parts of R499 to R517): a transition is asked for, ends, is undone, sleep is committed and wakes. DVFS (parts of
R511, R512): a frequency is asked for, its voltage confirmed, its PLL ramps, a fault leaves the lower of the two. -/
def Obligations.PowerStatesAndDvfsRun : Prop :=
  (∀ h b s u g, starts opPowerStateSet h b s = true → u = begun opPowerStateSet h b s → g = (wordAt (wordsOf b 0x8F03) 0).toNat →
    powerRefused u g = false → u.pwr.target = none → g ≠ u.pwr.state → exec (.powerStateSet h b) s = .next (waiting opPowerStateSet h .power
      (beginPower g { u with pwr := { u.pwr with reqs := [{ mailbox := h.mailbox, tag := h.tag }] } }))) ∧
  (∀ h b s u g, starts opPowerStateSet h b s = true → u = begun opPowerStateSet h b s → g = (wordAt (wordsOf b 0x8F03) 0).toNat →
    powerRefused u g = false → u.pwr.target = none → g = u.pwr.state → exec (.powerStateSet h b) s =
      .next (completed opPowerStateSet h [powerResult g { mailbox := h.mailbox, tag := h.tag }] u)) ∧
  (∀ h b s u v ws, starts opWakeConfig h b s = true → u = begun opWakeConfig h b s → hasElem b 0x0F06 = true → ws = wordsOf b 0x0F06 →
    v = setFld 0x120008 2 0 ((wordAt (wordsOf b 0x8F05) 0).bits 2 0) u → exec (.wakeConfig h b) s =
      .next (completed opWakeConfig h [] (setFld 0x120010 15 0 ((wordAt ws 0).bits 15 0) (setReg 0x12000C (wordAt ws 1) v)))) ∧
  (∀ t s u, u = tick t s → u.pwr.state = 0 → u.pwr.target = some 1 → bricksEmpty u = true →
    exec (.idleEntryDone t) s = .next (powerReached 1 u)) ∧
  (∀ t s u, u = tick t s → u.pwr.state = 1 → u.pwr.target = some 0 → exec (.idleReturnDone t) s = .next (powerReached 0 u)) ∧
  (∀ n s v w, v = perfSettle s → w = record 0x1201 [v.pwr.state, n] { v with pwr := { v.pwr with state := n, target := none } } →
    w.pwr.queued = none → powerReached n s = finishPower n w) ∧
  (∀ t s u, u = tick t s → u.pwr.state < 2 → u.pwr.target = some 2 →
    (∀ b ∈ [0, 1, 2, 3], engineIdle u b = true) → ∃ v, exec (.standbyEntryDone t) s = .next (powerReached 2 v) ∧
    (∀ e ∈ v.brk.bricks, e.2.held = [] ∧ e.2.cache = [] ∧ e.2.misses = [])) ∧
  (∀ t s u v w, u = tick t s → u.pwr.state = 2 → u.pwr.target = some 0 ∨ u.pwr.target = some 1 → v = { u with
      brk := { u.brk with bricks := u.brk.bricks.map fun e => (e.1, warmBrick u e.2) },
      trk := { p0 := framerReturn u.now (todSec u) u.trk.p0, p1 := framerReturn u.now (todSec u) u.trk.p1 } } →
    w = [0, 1, 2, 3].foldl gateReturn (powerLanes v) → exec (.standbyReturnDone t) s =
      .next ([0, 1, 2, 3].foldl (fun s b => if bricksOn s then settleDvfs b false (applyStored b s) else s)
        (powerReached (w.pwr.target.getD 0) w))) ∧
  (∀ t s u v w, u = tick t s → u.pwr.state < 3 → u.pwr.target = some 3 → u.pwr.pastCommit = false → halted u = false →
    u.pwr.queued = none →
    v = zeroiseSas (zeroiseKeys (abortJobs (fun _ => true) stAborted (commitAll (record 0x1201 [u.pwr.state, 3] u)))) →
    w = finishPower 3 (markQueued (fun r => { r with wakePending := true }) (saveTime { v with
      mem := { v.mem with keyed := false, key := 0, keyOld := 0 }, eng := { v.eng with pages := [] } })) →
    exec (.sleepCommitPoint t) s = .next { w with pwr := { w.pwr with pastCommit := true, wakeNext := false, queued := none } }) ∧
  (∀ t s u, u = tick t s → flag u 0x120008 1 = true → u.pwr.state = 3 → u.pwr.waking = false → exec (.wakeNLow t) s =
    .next { u with pwr := { u.pwr with waking := true, regLp := false, wakeCause := 2 }, boot := { u.boot with releasedAt := u.now + 5 * ms } }) ∧
  (∀ t s u, u = tick t s → rtcAlarmAt u ≤ rtcNow u → flag u 0x120008 2 = true → u.pwr.state = 3 → u.pwr.waking = false →
    exec (.rtcAlarm t) s = .next { u with
      pwr := { u.pwr with waking := true, regLp := false, wakeCause := 3 }, boot := { u.boot with releasedAt := u.now + 5 * ms } }) ∧
  (∀ t s u, u = tick t s → flag u 0x120008 0 = true → u.pwr.state = 3 → u.pwr.waking = false →
    exec (.slowPortWake t (0x58 + u.boot.slvAdr % 8)) s = .next { u with
      pwr := { u.pwr with waking := true, regLp := false, wakeCause := 1 }, boot := { u.boot with releasedAt := u.now + 5 * ms } }) ∧
  (∀ h b s u w k f v rep, starts opDvfsSet h b s = true → u = begun opDvfsSet h b s → w = wordAt (wordsOf b 0x8F01) 0 →
    k = byteAt [w] 0 → (∀ x ∈ u.cmd.flights, x.await ≠ .dvfs k) → (bricksOn u = true → (dvfsOf u k).phase = 0) →
    f = Legal.apply (.steps 800 1700 25) 16 (w.bits 15 0) →
    rep = (if f = w.bits 15 0 then [] else reportElem 0x8F01 0 w (w.withBits 15 0 f)) →
    v = askDvfs k f (setFld (0x120020 + 4 * k) 10 0 f u) →
    exec (.dvfsSet h b) s = .next (if (dvfsOf v k).phase = 0 ∧ (dvfsOf v k).stored = none then
      completed opDvfsSet h (dvfsResult (dvfsOf v k) false :: rep) v
      else setReport (flightFor opDvfsSet h b) rep (waiting opDvfsSet h (.dvfs k) v))) ∧
  (∀ t k mv s u d, u = tick t s → k < 4 → d = dvfsOf u k → d.phase = 1 → u.now ≤ d.since + 2 * ms →
    mv ≤ voltsOf d.goal + 10 → voltsOf d.goal ≤ mv + 10 →
    exec (.dvfsVoutConfirm t k mv) s = .next (setDvfs k { d with vout := mv, phase := 2, since := u.now } u)) ∧
  (∀ t k s u d, u = tick t s → k < 4 → d = dvfsOf u k → d.phase = 2 → d.live < d.goal → d.since + (d.goal - d.live) * 10 * ns ≤ u.now →
    exec (.pllRampDone t k) s = .next (endDvfs k d.goal d.vout false u)) ∧
  (∀ t k s u d, u = tick t s → k < 4 → d = dvfsOf u k → d.phase = 2 → d.goal < d.live → d.since + (d.live - d.goal) * 10 * ns ≤ u.now →
    exec (.pllRampDone t k) s = .next (endDvfs k d.goal (voltsOf d.goal) false u)) ∧
  (∀ t k s u d f, u = tick t s → k < 4 → d = dvfsOf u k → d.phase = 1 → d.since + 2 * ms ≤ u.now → f = min d.live d.goal →
    exec (.dvfsFault t k 0) s = .next (endDvfs k f (voltsOf f) true
      (record 0x1202 ([k, 0] ++ beBytes 2 f ++ beBytes 2 (voltsOf f)) (raise (0x120030 + 4 * k) 31 u))))

/-- Snapshots and performance counters (parts of R518 to R529): a snapshot is armed, triggered and read, counters are selected, read and sampled. -/
def Obligations.SnapshotsAndCounters : Prop :=
  (∀ h b s u w, starts opSnapArm h b s = true → u = begun opSnapArm h b s → hasElem b 0x9001 = true → hasElem b 0x9002 = false →
    hasElem b 0x9003 = false → hasElem b 0x9004 = false → w = wordAt (wordsOf b 0x9001) 0 → exec (.snapArm h b) s =
      .next (completed opSnapArm h [] (setFld 0x130000 6 5 (w.bits 6 5) (setFld 0x130000 3 0 (w.bits 3 0) u)))) ∧
  (∀ h b s u, starts opSnapArm h b s = true → u = begun opSnapArm h b s → hasElem b 0x9001 = false → hasElem b 0x9002 = true →
    hasElem b 0x9003 = false → hasElem b 0x9004 = false → exec (.snapArm h b) s =
      .next (completed opSnapArm h [] (armMatch 6 (bytesNat (wordsOf b 0x9002) 3 5) u))) ∧
  (∀ t s u, u = tick t s → flag u 0x130000 0 = true → u.pwr.state ≠ 3 → 4 ≤ u.boot.step →
    exec (.snapInEdge t) s = .next (fireSnap 0 (tod u) u)) ∧
  (∀ t n s u, u = tick t s → n ≤ 6 → n = 4 ∨ flag u 0x130000 n = true → u.pwr.state ≠ 3 → 4 ≤ u.boot.step →
    exec (.snapshotTrigger t n) s = .next (fireSnap n (tod u) u)) ∧
  (∀ h b s u ws k, starts opSnapRead h b s = true → u = begun opSnapRead h b s → ws = wordsOf b 0x9005 → namedBank u (byteAt ws 0) = some k →
    exec (.snapRead h b) s = .next (completed opSnapRead h [elemW 0x1006 (snapHeader k (snapBank u k)), elemW 0x1007 (snapData (snapBank u k))]
      (if (byteAt ws 1).testBit 0 then setBank k { snapBank u k with state := 0 } u else u))) ∧
  (∀ h b s u e v r, starts opPerfConfig h b s = true → u = begun opPerfConfig h b s → elemsOf b 0x9008 = [e] → hasElem b 0x1009 = false →
    applySel e (perfSettle u) = (v, r) → exec (.perfConfig h b) s = .next (completed opPerfConfig h r v)) ∧
  (∀ h b s u v, starts opPerfRead h b s = true → u = begun opPerfRead h b s → v = perfSettle u → exec (.perfRead h b) s =
    .next (completed opPerfRead h [elemW 0x100A ((List.range 48).flatMap fun n => count8 (get v.obs.counters n 0)),
      elemB 0x100B (v.obs.samples.flatMap sampleBytes)] { v with obs := { v.obs with samples := [] } })) ∧
  (∀ t n x s u, u = tick t s → n < 48 → flag u 0x130050 0 = true → flag u (0x130100 + 4 * n) 31 = true → fld u (0x130100 + 4 * n) 4 0 ≠ 0 →
    (u.obs.samples.filter fun y => decide (perfGroup y.counter = perfGroup n)).length < 16 → exec (.perfSample t n x) s =
      .next (raise 0x130054 (perfGroup n) { u with obs := { u.obs with samples := u.obs.samples ++
        [{ counter := n, proc := decide (40 ≤ n), value := x % 2 ^ 32, stamp := fast u }] } })) ∧
  (∀ t n x s u, u = tick t s → n < 48 → flag u 0x130050 0 = true → flag u (0x130100 + 4 * n) 31 = true → fld u (0x130100 + 4 * n) 4 0 ≠ 0 →
    16 ≤ (u.obs.samples.filter fun y => decide (perfGroup y.counter = perfGroup n)).length →
    exec (.perfSample t n x) s = .next (bumpFld 0x130054 31 16 1 u))

/-- The event recorder (parts of R532 to R537): records are committed, tokens refilled, suppression windows close, records are read and cleared. -/
def Obligations.RecorderRuns : Prop :=
  (∀ t s u r l, u = tick t s → u.evr.staged ++ u.evr.ddr = r :: l → 4 ≤ u.boot.step → u.pwr.state < 3 →
    128 ≤ u.evr.staged.length ∨ r.at_ + sec ≤ u.now → exec (.recorderCommit t) s = .next (commit (128 - u.evr.written % 128) u)) ∧
  (∀ t c s u x n, u = tick t s → look u.evr.buckets c = some x → x.due ≤ u.now → n = min x.tokens (fld u 0x140000 23 16) + 1 →
    n < fld u 0x140000 23 16 → exec (.tokenRefill t c) s =
      .next { u with evr := { u.evr with buckets := put u.evr.buckets c { tokens := n, due := x.due + tokenGap u } } }) ∧
  (∀ t c s u w, u = tick t s → look u.evr.windows c = some w → w.opened + 60 * sec ≤ u.now → exec (.suppressionWindowClose t c) s =
    .next (recordResp 0x1301 4 [suppressedData c w.count 60] 7 { u with evr := { u.evr with windows := del u.evr.windows c } })) ∧
  (∀ h b s u ws l, starts opRecorderRead h b s = true → u = begun opRecorderRead h b s → ws = wordsOf b 0x900C → hasElem b 0x900E = false →
    elemOf b 0x100D = none →
    recordsFrom (if byteAt ws 0 = 0 then u.evr.keep else u.evr.circ) (wordAt ws 1).toNat = some l → exec (.recorderRead h b) s =
      .next (completed opRecorderRead h [elemB 0x100F ((l.take 64).flatMap recBytes), elemW 0x1011 [w32 (l.take 64).length, 0xFFFFFFFF]] u)) ∧
  (∀ h b s u i l v n w, starts opRecorderClear h b s = true → u = begun opRecorderClear h b s → ticketsFor 0x1005 1 h b u = some (i :: l) →
    v = commitAll (useTickets b u) → n = (match v.evr.circ.getLast? with | some r => r.seq | none => 0) →
    w = commitAll (recordResp 0x1302 4 [[credOf u h.session, i, 0, 0] ++ beBytes 4 n] 7 v) → exec (.recorderClear h b) s =
      .next (completed opRecorderClear h [] { w with evr := { w.evr with circ := w.evr.circ.drop (w.evr.circ.length - 1) } }))

/-- In-service tests (parts of R271 to R273, R538 to R541): a self-test starts, a tile's test starts and ends, a vault unit's test runs, a unit is
overdue. -/
def Obligations.InServiceTestsRun : Prop :=
  (∀ h b s u m v, starts opSelftestRun h b s = true → u = begun opSelftestRun h b s → scopeFull (wordsOf b 0x9012) = false →
    u.obs.selftest = none → m = scopeUnits (wordsOf b 0x9012) → v = startOp 0x1006 h.world h.mailbox h.tag u →
    (∀ n ∈ unitsOf m, unitOut v n = false) → exec (.selftestRun h b) s =
      .next (inProgress opSelftestRun h [opIdElem (nextOp u)] (settleSelftest { v with obs := { v.obs with
        selftest := some { op := nextOp u, at_ := v.now, units := m, left := m, results := [], full := false } } }))) ∧
  (∀ t b k s u x, u = tick t s → b < 4 → k < 6 → u.obs.selftest = none → 8 ≤ u.boot.step → u.pwr.state = 0 → testOn u (6 * b + k) = true →
    x = tile u b k → x.failed = false → x.testing = false → x.role = 0 → tileFree u b k = true → wholeTest u b k = true →
    exec (.tileTestStart t b k) s = .next (setTile b k { x with testing := true, segments := 0, testAt := u.now } u)) ∧
  (∀ t b k s u x, u = tick t s → b < 4 → k < 6 → x = tile u b k → x.testing = true → x.testAt + 2048 * bc u b ≤ u.now →
    exec (.tileTestDone t b k true) s = .next (unitResult (6 * b + k) 0
      (setTile b k { x with testing := false, segments := 0, since := u.now, overdue := false } u))) ∧
  (∀ t b k s u x, u = tick t s → b < 4 → k < 6 → x = tile u b k → x.testing = true → x.testAt + 2048 * bc u b ≤ u.now →
    exec (.tileTestDone t b k false) s = .next (unitResult (6 * b + k) 1 (tileFails b k u))) ∧
  (∀ t n s u, u = tick t s → u.obs.selftest = none → 24 ≤ n → n < 41 → 6 ≤ u.boot.step → u.pwr.state ≠ 3 → testOn u n = true →
    unitOut u n = false → unitIdle u n = true → exec (.istInterval t n true) s = .next { u with obs := { u.obs with
      lastPass := put u.obs.lastPass n u.now, overdue := u.obs.overdue.filter fun v => decide (v ≠ n) } }) ∧
  (∀ t n s u, u = tick t s → u.obs.selftest = none → 24 ≤ n → n < 41 → 6 ≤ u.boot.step → u.pwr.state ≠ 3 → testOn u n = true →
    unitOut u n = false → unitIdle u n = true → exec (.istInterval t n false) s = .next (unitResult n 1 (unitFails n u))) ∧
  (∀ t n s u, u = tick t s → u.obs.selftest = none → 24 ≤ n → n < 41 → 8 ≤ u.boot.step → u.pwr.state ≠ 3 → flag u 0x130400 0 = true →
    unitOut u n = false → n ∉ u.obs.overdue → testedAt u n + Machine.unitInterval n ≤ u.now → exec (.evIstOverdue t n) s =
      .next (record 0x0903 ([n, 0, 0, 0] ++ beBytes 4 (cap (2 ^ 32 - 1) ((u.now - testedAt u n) / sec)))
        { u with obs := { u.obs with overdue := n :: u.obs.overdue } }))
end

