-- ==== Sys2Proof/Laws/Admit.lean ====
section
/-! SUPPORT. What the admission of a command frame does with a command that starts. -/
namespace Sys2Proof.Machine
open Sys2Proof

/-- The names a flight carries do not show in its completion. -/
theorem finish_flightFor (op : Op) (h : Hdr) (b : Body) (st d : Nat) (e : Body) (s : State) :
    finish (flightFor op h b) st d e s = finish (flightOf h op.code .start) st d e s := rfl

/-- The names a flight carries do not show in what it waits for. -/
theorem setAwait_flightFor (op : Op) (h : Hdr) (b : Body) (a : Await) (s : State) :
    setAwait (flightFor op h b) a s = setAwait (flightOf h op.code .start) a s := rfl

/-- What an answer makes of the command's flight. -/
def settle (i : Instr) (op : Op) (h : Hdr) (b : Body) (u : State) : Ans → State
  | .fail st d => finish (flightFor op h b) st d [] u
  | .spent st s => finish (flightFor op h b) st 0 [] s
  | .defer => finish (flightFor op h b) stDeferred 0 [deferredElem u (2800 * ms)] u
  | .done e s => completed op h e s
  | .prog e s => inProgress op h e s
  | .wait a s => waiting op h a s
  | .waits a rep s => setReport (flightFor op h b) rep (waiting op h a s)
  | .hold => setAwait (flightFor op h b) .held (park i (flightFor op h b) u)

/-- A command that may start is answered by its meaning. -/
theorem start_now {i : Instr} {op : Op} {h : Hdr} {b : Body} {m : State → Ans} {u : State} (hm : startsNow op h b u = true) :
    start i op b (flightFor op h b) m u = settle i op h b u (m u) := by
  simp only [startsNow, Bool.and_eq_true, Bool.or_eq_true, Bool.not_eq_true', Bool.and_eq_false_iff, decide_eq_false_iff_not] at hm
  obtain ⟨⟨⟨⟨⟨⟨h1, h2⟩, h3⟩, h6⟩, h7⟩, h4⟩, h5⟩ := hm
  unfold start
  rw [if_pos ⟨h1, h2, h3⟩, if_neg (by rintro (a | ⟨a, b⟩) <;> simp_all), if_neg (by rintro ⟨a, b⟩; rcases h4 with h4 | h4 <;> simp_all),
    if_neg (by rintro ⟨a, b⟩; rcases h5 with h5 | h5 <;> simp_all)]
  cases m u <;> rfl

/-- A command that starts is answered by its meaning, on the state once it is in flight. -/
theorem runCommand_starts {i : Instr} {op : Op} {h : Hdr} {b : Body} {m : State → Ans} {s : State} (hs : starts op h b s = true) :
    runCommand i op h b m s = settle i op h b (begun op h b s) (m (begun op h b s)) := by
  simp only [starts, Bool.and_eq_true] at hs
  obtain ⟨⟨⟨h1, h4⟩, h5⟩, h6⟩ := hs
  simp only [taken, Bool.and_eq_true, Bool.not_eq_true', decide_eq_true_eq] at h1
  obtain ⟨⟨⟨⟨a1, a2⟩, a3⟩, a4⟩, a5⟩ := h1
  simp only [wellFramed, Bool.and_eq_true, Bool.not_eq_true', decide_eq_true_eq] at h4
  obtain ⟨⟨⟨⟨⟨g1, g2⟩, g3⟩, g4⟩, g5⟩, g6⟩ := h4
  unfold runCommand
  simp only [a1, a2, a3, a4, a5]
  simp only [Bool.true_eq_false, Bool.false_eq_true, or_self, reduceCtorEq, if_false]
  unfold admitFrame
  rw [if_neg (by simp [g1, g2]), if_neg (by simp [g3]), if_neg (by omega)]
  simp only [begun, accepted, arrived, passes] at h5 h6 ⊢
  generalize identify op h b _ = r at h5 h6 ⊢
  rcases r with ⟨u, w⟩ | st
  · simp only [Bool.and_eq_true, decide_eq_true_eq] at h5
    obtain ⟨⟨e1, e2⟩, e3⟩ := h5
    dsimp only at h6 ⊢
    rw [e1, e2]
    dsimp only
    rw [if_neg (by change ¬ admits u (flightFor op h b) = false; simp [e3])]
    exact start_now h6
  · simp at h5

/-- The outcome of a command row whose command starts. -/
theorem run_starts {i : Instr} {op : Op} {h : Hdr} {b : Body} {m : State → Ans} {s : State} (hs : starts op h b s = true) :
    run i op h b m s = .next (settle i op h b (begun op h b s) (m (begun op h b s))) := congrArg _ (runCommand_starts hs)

/-! What each kind of answer makes of a command that starts, from the state `u` once it is in flight. -/

section
variable {i : Instr} {op : Op} {h : Hdr} {b : Body} {m : State → Ans} {s u v : State}

theorem run_done {e : Body} (hs : starts op h b s = true) (hu : u = begun op h b s) (hm : m u = .done e v) :
    run i op h b m s = .next (completed op h e v) := by rw [run_starts hs, ← hu, hm]; rfl

theorem run_prog {e : Body} (hs : starts op h b s = true) (hu : u = begun op h b s) (hm : m u = .prog e v) :
    run i op h b m s = .next (inProgress op h e v) := by rw [run_starts hs, ← hu, hm]; rfl

theorem run_wait {a : Await} (hs : starts op h b s = true) (hu : u = begun op h b s) (hm : m u = .wait a v) :
    run i op h b m s = .next (waiting op h a v) := by rw [run_starts hs, ← hu, hm]; rfl

theorem run_waits {a : Await} {rep : Body} (hs : starts op h b s = true) (hu : u = begun op h b s) (hm : m u = .waits a rep v) :
    run i op h b m s = .next (setReport (flightFor op h b) rep (waiting op h a v)) := by rw [run_starts hs, ← hu, hm]; rfl

end

/-- A bond message that is trusted reaches its rule. -/
theorem underMac_trusted {typ : Nat} {m : BondRx} {f : State → State} {s : State} (h : trusted typ s m = true) : underMac typ m f s = f s := by
  simp [trusted] at h
  simp [underMac, h]

/-- A domain command that is taken is answered by its meaning. -/
theorem onActive_takes {h : Hdr} {f : State → Ans} {s : State} (g : domainTakes h s = true) : inDdr (onActive h f) s = f s := by
  simp [domainTakes] at g
  simp [inDdr, onActive, g]

/-- The vault work of a domain command that may run at once. -/
theorem serviceWork_work {f : State → Ans} {s v : State} (g : domainWork s = some v) : serviceWork f s = f v := by
  unfold domainWork at g
  split at g
  · cases g
  · rename_i h1
    simp at h1
    unfold serviceWork brief withDrbg
    simp [h1]
    cases h2 : takeSlot 3 s with
    | none => simp [h2] at g
    | some w => simp [h2] at g; simp [g]

end Sys2Proof.Machine
end

