-- ==== Sys2Proof/Laws/Tables.lean ====
section
/-! SUPPORT. What the operations over sparse tables do: each keeps the canonical form, and each is seen by a later look. -/
namespace Sys2Proof.Machine
open Sys2Proof

variable {α : Type}

@[simp] theorem look_nil (n : Nat) : look ([] : KMap α) n = none := rfl

theorem look_cons (k : Nat) (v : α) (r : KMap α) (n : Nat) : look ((k, v) :: r) n = if n = k then some v else look r n := rfl

/-- A look after a write of the same key gives the value written. -/
@[simp] theorem look_put_same (m : KMap α) (n : Nat) (v : α) : look (put m n v) n = some v := by
  induction m with
  | nil => simp [put, look]
  | cons e r ih =>
    obtain ⟨k, w⟩ := e
    simp only [put]
    split
    · simp [look]
    · split
      · simp [look]
      · simp [look, *]

/-- A write leaves every other key alone. -/
theorem look_put_other (m : KMap α) {n k : Nat} (v : α) (h : k ≠ n) : look (put m n v) k = look m k := by
  induction m with
  | nil => simp [put, look, h]
  | cons e r ih =>
    obtain ⟨a, w⟩ := e
    simp only [put]
    split
    · simp [look, h]
    · split
      · subst_vars; simp [look, h]
      · simp [look, ih]

/-- A removal leaves every other key alone. -/
theorem look_del_other (m : KMap α) {n k : Nat} (h : k ≠ n) : look (del m n) k = look m k := by
  induction m with
  | nil => rfl
  | cons e r ih =>
    obtain ⟨a, w⟩ := e
    simp only [del]
    split
    · subst_vars; simp [look, h]
    · simp [look, ih]

/-- Every key of a rising table lies above the bound it rises from. -/
theorem look_below {m : KMap α} {b n : Nat} (h : risingFrom (some b) m = true) (hn : n ≤ b) : look m n = none := by
  induction m generalizing b with
  | nil => rfl
  | cons e r ih =>
    obtain ⟨k, w⟩ := e
    simp only [risingFrom, Bool.and_eq_true, decide_eq_true_eq] at h
    have hk : n ≠ k := by omega
    simp [look, hk, ih h.2 (by omega)]

/-- A removed key has no entry left in a rising table. -/
theorem look_del_same {m : KMap α} {b : Option Nat} (h : risingFrom b m = true) (n : Nat) : look (del m n) n = none := by
  induction m generalizing b with
  | nil => rfl
  | cons e r ih =>
    obtain ⟨k, w⟩ := e
    have hr : risingFrom (some k) r = true := by
      cases b <;> simp only [risingFrom, Bool.and_eq_true] at h <;> first | exact h.2 | exact h
    simp only [del]
    split
    · subst_vars; exact look_below hr (Nat.le_refl _)
    · rename_i hk; simp [look, hk, ih hr]

theorem risingFrom_put {m : KMap α} {b : Option Nat} (h : risingFrom b m = true) {n : Nat} (hb : ∀ k, b = some k → k < n) (v : α) :
    risingFrom b (put m n v) = true := by
  induction m generalizing b with
  | nil => cases b <;> simp_all [put, risingFrom]
  | cons e r ih =>
    obtain ⟨k, w⟩ := e
    have hr : risingFrom (some k) r = true := by
      cases b <;> simp only [risingFrom, Bool.and_eq_true] at h <;> first | exact h.2 | exact h
    have hk : ∀ a, b = some a → a < k := by
      rintro a rfl; simp only [risingFrom, Bool.and_eq_true, decide_eq_true_eq] at h; exact h.1
    simp only [put]
    split
    · cases b <;> simp_all [risingFrom]
    · split
      · subst_vars; cases b <;> simp_all [risingFrom]
      · have := ih hr (fun a ha => by cases ha; omega)
        cases b <;> simp_all [risingFrom]

theorem risingFrom_weaken {m : KMap α} {b : Nat} {c : Option Nat} (h : risingFrom (some b) m = true) (hc : ∀ k, c = some k → k ≤ b) :
    risingFrom c m = true := by
  cases m with
  | nil => cases c <;> rfl
  | cons e r =>
    obtain ⟨k, w⟩ := e
    simp only [risingFrom, Bool.and_eq_true, decide_eq_true_eq] at h
    cases c with
    | none => exact h.2
    | some a => have := hc a rfl; simp only [risingFrom, Bool.and_eq_true, decide_eq_true_eq]; exact ⟨by omega, h.2⟩

theorem risingFrom_del {m : KMap α} {b : Option Nat} (h : risingFrom b m = true) (n : Nat) : risingFrom b (del m n) = true := by
  induction m generalizing b with
  | nil => exact h
  | cons e r ih =>
    obtain ⟨k, w⟩ := e
    have hr : risingFrom (some k) r = true := by
      cases b <;> simp only [risingFrom, Bool.and_eq_true] at h <;> first | exact h.2 | exact h
    simp only [del]
    split
    · refine risingFrom_weaken hr ?_
      rintro a rfl; simp only [risingFrom, Bool.and_eq_true, decide_eq_true_eq] at h; omega
    · have := ih hr; cases b <;> simp_all [risingFrom]

/-- A write keeps the canonical form. -/
theorem wfTable_put {m : KMap α} (h : wfTable m = true) (n : Nat) (v : α) : wfTable (put m n v) = true :=
  risingFrom_put h (fun _ h => by cases h) v

/-- A removal keeps the canonical form. -/
theorem wfTable_del {m : KMap α} (h : wfTable m = true) (n : Nat) : wfTable (del m n) = true := risingFrom_del h n

theorem all_put {p : Nat × α → Bool} {m : KMap α} (h : m.all p = true) {n : Nat} {v : α} (hv : p (n, v) = true) :
    (put m n v).all p = true := by
  induction m with
  | nil => simp [put, hv]
  | cons e r ih =>
    simp only [List.all_cons, Bool.and_eq_true] at h
    simp only [put]
    split
    · simp [hv, h]
    · split
      · simp [hv, h]
      · simp [h, ih h.2]

theorem all_del {p : Nat × α → Bool} {m : KMap α} (h : m.all p = true) (n : Nat) : (del m n).all p = true := by
  induction m with
  | nil => exact h
  | cons e r ih =>
    simp only [List.all_cons, Bool.and_eq_true] at h
    simp only [del]
    split
    · exact h.2
    · simp [h, ih h.2]

/-- Entries dropped or changed in place, their keys kept: the keys still rise. -/
theorem risingFrom_filterMap {β : Type} {f : Nat × α → Option (Nat × β)} (hf : ∀ e x, f e = some x → x.1 = e.1)
    {m : KMap α} {b : Option Nat} (h : risingFrom b m = true) : risingFrom b (m.filterMap f) = true := by
  induction m generalizing b with
  | nil => cases b <;> rfl
  | cons e r ih =>
    obtain ⟨k, w⟩ := e
    have hr : risingFrom (some k) r = true := by
      cases b <;> simp only [risingFrom, Bool.and_eq_true] at h <;> first | exact h.2 | exact h
    simp only [List.filterMap_cons]
    split
    · refine risingFrom_weaken (ih hr) ?_
      rintro a rfl; simp only [risingFrom, Bool.and_eq_true, decide_eq_true_eq] at h; omega
    · rename_i x e1
      have hx : x.1 = k := hf _ _ e1
      obtain ⟨k', v⟩ := x
      subst hx
      cases b <;> simp_all [risingFrom]

/-- A default-reading get after a write of the same key. -/
@[simp] theorem get_put_same (m : KMap α) (n : Nat) (v d : α) : get (put m n v) n d = v := by simp [get]

theorem get_put_other (m : KMap α) {n k : Nat} (v d : α) (h : k ≠ n) : get (put m n v) k d = get m k d := by
  simp [get, look_put_other m v h]

end Sys2Proof.Machine
end

