-- ==== Sys2Proof/Laws/Kept.lean ====
section
/-! SUPPORT. What every operation of the block keeps: the queue, the order of time, the canonical form of registers and memory, and the parts
it does not touch. `Kept q τ W r₀ s` says it of one state against an earlier one; each function of the model has one lemma in the files
Laws/Kept*.lean. -/
namespace Sys2Proof.Machine
open Sys2Proof

/-- The part may change: a hypothesis that the lemmas find by themselves. -/
class Can (W : Part → Bool) (p : Part) : Prop where
  ok : W p = true

theorem can {W : Part → Bool} {p : Part} [c : Can W p] : W p = true := c.ok

/-- A channel's data is canonical, and what it was where it may not change. -/
def DataOk (W : Part → Bool) (r₀ : State) (ch : Nat) (d : List Host.Cell) : Prop :=
  Memory.wf d = true ∧ (W .ddr = false → d = (channel r₀ ch).data)

/-- The state holds the queue `q`, stands no earlier than `τ`, its registers and memory are canonical, and it agrees with the state `r₀` on
every part but those `W` allows to change. -/
structure Kept (q : List Instr) (τ : Nat) (W : Part → Bool) (r₀ : State) (s : State) : Prop where
  queue : s.pending = q
  time  : τ ≤ s.now
  regs  : Regs.wf s.regs = true
  mem0  : DataOk W r₀ 0 s.mem.c0.data
  mem1  : DataOk W r₀ 1 s.mem.c1.data
  frame : ∀ p, W p = false → p.same s r₀

theorem Part.same_trans {p : Part} {a b c : State} (h : p.same a b) (h' : p.same b c) : p.same a c := by
  cases p <;> first
    | exact Eq.trans h h'
    | exact ⟨h.1.trans h'.1, h.2.trans h'.2⟩

/-- A step answers a next state that is kept. -/
inductive KeptOut (q : List Instr) (τ : Nat) (W : Part → Bool) (r₀ : State) : Out → Prop
  | next {s : State} (h : Kept q τ W r₀ s) : KeptOut q τ W r₀ (.next s)
/-- Every state that a command's answer carries is kept. -/
inductive KeptAns (q : List Instr) (τ : Nat) (W : Part → Bool) (r₀ : State) : Ans → Prop
  | fail {n d : Nat} : KeptAns q τ W r₀ (.fail n d)
  | spent {n : Nat} {s : State} (h : Kept q τ W r₀ s) : KeptAns q τ W r₀ (.spent n s)
  | defer : KeptAns q τ W r₀ .defer
  | done {e : Body} {s : State} (h : Kept q τ W r₀ s) : KeptAns q τ W r₀ (.done e s)
  | prog {e : Body} {s : State} (h : Kept q τ W r₀ s) : KeptAns q τ W r₀ (.prog e s)
  | wait {a : Await} {s : State} (h : Kept q τ W r₀ s) : KeptAns q τ W r₀ (.wait a s)
  | waits {a : Await} {e : Body} {s : State} (h : Kept q τ W r₀ s) : KeptAns q τ W r₀ (.waits a e s)
  | hold : KeptAns q τ W r₀ .hold
/-- The state of an option, or of a pair in one, is kept. -/
structure KeptOpt (q : List Instr) (τ : Nat) (W : Part → Bool) (r₀ : State) (o : Option State) : Prop where
  out : ∀ s, o = some s → Kept q τ W r₀ s
structure KeptFst {α : Type} (q : List Instr) (τ : Nat) (W : Part → Bool) (r₀ : State) (o : Option (State × α)) : Prop where
  out : ∀ x, o = some x → Kept q τ W r₀ x.1
structure KeptSnd {α : Type} (q : List Instr) (τ : Nat) (W : Part → Bool) (r₀ : State) (o : Option (α × State)) : Prop where
  out : ∀ x, o = some x → Kept q τ W r₀ x.2
variable {q : List Instr} {τ : Nat} {W : Part → Bool} {r₀ : State}
theorem kept_mk {s : State} {x_freeCount x_sent x_cmd x_boot x_lane x_port x_time x_cls x_sas x_brk x_trk x_que x_bnd x_keys x_eng x_dks x_tmp x_pwr x_obs x_evr} 
    (e_freeCount : W .freeCount = true ∨ x_freeCount = s.freeCount) (e_sent : W .sent = true ∨ x_sent = s.sent) (e_cmd : W .cmd = true ∨ x_cmd = s.cmd)
    (e_boot : W .boot = true ∨ x_boot = s.boot) (e_lane : W .lane = true ∨ x_lane = s.lane) (e_port : W .port = true ∨ x_port = s.port)
    (e_time : W .time = true ∨ x_time = s.time) (e_cls : W .cls = true ∨ x_cls = s.cls) (e_sas : W .sas = true ∨ x_sas = s.sas)
    (e_brk : W .brk = true ∨ x_brk = s.brk) (e_trk : W .trk = true ∨ x_trk = s.trk) (e_que : W .que = true ∨ x_que = s.que)
    (e_bnd : W .bnd = true ∨ x_bnd = s.bnd) (e_keys : W .keys = true ∨ x_keys = s.keys) (e_eng : W .eng = true ∨ x_eng = s.eng)
    (e_dks : W .dks = true ∨ x_dks = s.dks) (e_tmp : W .tmp = true ∨ x_tmp = s.tmp) (e_pwr : W .pwr = true ∨ x_pwr = s.pwr)
    (e_obs : W .obs = true ∨ x_obs = s.obs) (e_evr : W .evr = true ∨ x_evr = s.evr) :
    Kept q τ W r₀ ⟨s.now, x_freeCount, s.pending, x_sent, s.regs, x_cmd, x_boot, x_lane, x_port, x_time, x_cls, x_sas, x_brk, x_trk, x_que, x_bnd, x_keys, x_eng, x_dks, s.mem, x_tmp, x_pwr, x_obs, x_evr⟩ = Kept q τ W r₀ s := by
  refine propext ⟨fun h => ⟨h.queue, h.time, h.regs, h.mem0, h.mem1, fun p hp => ?_⟩,
    fun h => ⟨h.queue, h.time, h.regs, h.mem0, h.mem1, fun p hp => ?_⟩⟩ <;>
  · have hf := h.frame p hp
    cases p <;> first
      | exact hf
      | exact (e_freeCount.resolve_left (by simp [hp])).trans hf
      | exact (e_freeCount.resolve_left (by simp [hp])).symm.trans hf
      | exact (e_sent.resolve_left (by simp [hp])).trans hf
      | exact (e_sent.resolve_left (by simp [hp])).symm.trans hf
      | exact (e_cmd.resolve_left (by simp [hp])).trans hf
      | exact (e_cmd.resolve_left (by simp [hp])).symm.trans hf
      | exact (e_boot.resolve_left (by simp [hp])).trans hf
      | exact (e_boot.resolve_left (by simp [hp])).symm.trans hf
      | exact (e_lane.resolve_left (by simp [hp])).trans hf
      | exact (e_lane.resolve_left (by simp [hp])).symm.trans hf
      | exact (e_port.resolve_left (by simp [hp])).trans hf
      | exact (e_port.resolve_left (by simp [hp])).symm.trans hf
      | exact (e_time.resolve_left (by simp [hp])).trans hf
      | exact (e_time.resolve_left (by simp [hp])).symm.trans hf
      | exact (e_cls.resolve_left (by simp [hp])).trans hf
      | exact (e_cls.resolve_left (by simp [hp])).symm.trans hf
      | exact (e_sas.resolve_left (by simp [hp])).trans hf
      | exact (e_sas.resolve_left (by simp [hp])).symm.trans hf
      | exact (e_brk.resolve_left (by simp [hp])).trans hf
      | exact (e_brk.resolve_left (by simp [hp])).symm.trans hf
      | exact (e_trk.resolve_left (by simp [hp])).trans hf
      | exact (e_trk.resolve_left (by simp [hp])).symm.trans hf
      | exact (e_que.resolve_left (by simp [hp])).trans hf
      | exact (e_que.resolve_left (by simp [hp])).symm.trans hf
      | exact (e_bnd.resolve_left (by simp [hp])).trans hf
      | exact (e_bnd.resolve_left (by simp [hp])).symm.trans hf
      | exact (e_keys.resolve_left (by simp [hp])).trans hf
      | exact (e_keys.resolve_left (by simp [hp])).symm.trans hf
      | exact (e_eng.resolve_left (by simp [hp])).trans hf
      | exact (e_eng.resolve_left (by simp [hp])).symm.trans hf
      | exact (e_dks.resolve_left (by simp [hp])).trans hf
      | exact (e_dks.resolve_left (by simp [hp])).symm.trans hf
      | exact (e_tmp.resolve_left (by simp [hp])).trans hf
      | exact (e_tmp.resolve_left (by simp [hp])).symm.trans hf
      | exact (e_pwr.resolve_left (by simp [hp])).trans hf
      | exact (e_pwr.resolve_left (by simp [hp])).symm.trans hf
      | exact (e_obs.resolve_left (by simp [hp])).trans hf
      | exact (e_obs.resolve_left (by simp [hp])).symm.trans hf
      | exact (e_evr.resolve_left (by simp [hp])).trans hf
      | exact (e_evr.resolve_left (by simp [hp])).symm.trans hf
theorem kept_mkMem {s : State} {x_mem x_freeCount x_sent x_cmd x_boot x_lane x_port x_time x_cls x_sas x_brk x_trk x_que x_bnd x_keys x_eng x_dks x_tmp x_pwr x_obs x_evr} 
    (w_mem : W .mem = true) (e_0 : x_mem.c0.data = s.mem.c0.data) (e_1 : x_mem.c1.data = s.mem.c1.data)
    (e_freeCount : W .freeCount = true ∨ x_freeCount = s.freeCount) (e_sent : W .sent = true ∨ x_sent = s.sent) (e_cmd : W .cmd = true ∨ x_cmd = s.cmd)
    (e_boot : W .boot = true ∨ x_boot = s.boot) (e_lane : W .lane = true ∨ x_lane = s.lane) (e_port : W .port = true ∨ x_port = s.port)
    (e_time : W .time = true ∨ x_time = s.time) (e_cls : W .cls = true ∨ x_cls = s.cls) (e_sas : W .sas = true ∨ x_sas = s.sas)
    (e_brk : W .brk = true ∨ x_brk = s.brk) (e_trk : W .trk = true ∨ x_trk = s.trk) (e_que : W .que = true ∨ x_que = s.que)
    (e_bnd : W .bnd = true ∨ x_bnd = s.bnd) (e_keys : W .keys = true ∨ x_keys = s.keys) (e_eng : W .eng = true ∨ x_eng = s.eng)
    (e_dks : W .dks = true ∨ x_dks = s.dks) (e_tmp : W .tmp = true ∨ x_tmp = s.tmp) (e_pwr : W .pwr = true ∨ x_pwr = s.pwr)
    (e_obs : W .obs = true ∨ x_obs = s.obs) (e_evr : W .evr = true ∨ x_evr = s.evr) :
    Kept q τ W r₀ ⟨s.now, x_freeCount, s.pending, x_sent, s.regs, x_cmd, x_boot, x_lane, x_port, x_time, x_cls, x_sas, x_brk, x_trk, x_que, x_bnd, x_keys, x_eng, x_dks, x_mem, x_tmp, x_pwr, x_obs, x_evr⟩ = Kept q τ W r₀ s := by
  refine propext ⟨fun h => ⟨h.queue, h.time, h.regs, e_0 ▸ h.mem0, e_1 ▸ h.mem1, fun p hp => ?_⟩,
    fun h => ⟨h.queue, h.time, h.regs, e_0.symm ▸ h.mem0, e_1.symm ▸ h.mem1, fun p hp => ?_⟩⟩ <;>
  · have hf := h.frame p hp
    cases p <;> first
      | exact hf
      | exact ⟨e_0.symm.trans hf.1, e_1.symm.trans hf.2⟩
      | exact ⟨e_0.trans hf.1, e_1.trans hf.2⟩
      | exact (e_freeCount.resolve_left (by simp [hp])).trans hf
      | exact (e_freeCount.resolve_left (by simp [hp])).symm.trans hf
      | exact (e_sent.resolve_left (by simp [hp])).trans hf
      | exact (e_sent.resolve_left (by simp [hp])).symm.trans hf
      | exact (e_cmd.resolve_left (by simp [hp])).trans hf
      | exact (e_cmd.resolve_left (by simp [hp])).symm.trans hf
      | exact (e_boot.resolve_left (by simp [hp])).trans hf
      | exact (e_boot.resolve_left (by simp [hp])).symm.trans hf
      | exact (e_lane.resolve_left (by simp [hp])).trans hf
      | exact (e_lane.resolve_left (by simp [hp])).symm.trans hf
      | exact (e_port.resolve_left (by simp [hp])).trans hf
      | exact (e_port.resolve_left (by simp [hp])).symm.trans hf
      | exact (e_time.resolve_left (by simp [hp])).trans hf
      | exact (e_time.resolve_left (by simp [hp])).symm.trans hf
      | exact (e_cls.resolve_left (by simp [hp])).trans hf
      | exact (e_cls.resolve_left (by simp [hp])).symm.trans hf
      | exact (e_sas.resolve_left (by simp [hp])).trans hf
      | exact (e_sas.resolve_left (by simp [hp])).symm.trans hf
      | exact (e_brk.resolve_left (by simp [hp])).trans hf
      | exact (e_brk.resolve_left (by simp [hp])).symm.trans hf
      | exact (e_trk.resolve_left (by simp [hp])).trans hf
      | exact (e_trk.resolve_left (by simp [hp])).symm.trans hf
      | exact (e_que.resolve_left (by simp [hp])).trans hf
      | exact (e_que.resolve_left (by simp [hp])).symm.trans hf
      | exact (e_bnd.resolve_left (by simp [hp])).trans hf
      | exact (e_bnd.resolve_left (by simp [hp])).symm.trans hf
      | exact (e_keys.resolve_left (by simp [hp])).trans hf
      | exact (e_keys.resolve_left (by simp [hp])).symm.trans hf
      | exact (e_eng.resolve_left (by simp [hp])).trans hf
      | exact (e_eng.resolve_left (by simp [hp])).symm.trans hf
      | exact (e_dks.resolve_left (by simp [hp])).trans hf
      | exact (e_dks.resolve_left (by simp [hp])).symm.trans hf
      | exact (e_tmp.resolve_left (by simp [hp])).trans hf
      | exact (e_tmp.resolve_left (by simp [hp])).symm.trans hf
      | exact (e_pwr.resolve_left (by simp [hp])).trans hf
      | exact (e_pwr.resolve_left (by simp [hp])).symm.trans hf
      | exact (e_obs.resolve_left (by simp [hp])).trans hf
      | exact (e_obs.resolve_left (by simp [hp])).symm.trans hf
      | exact (e_evr.resolve_left (by simp [hp])).trans hf
      | exact (e_evr.resolve_left (by simp [hp])).symm.trans hf
      | exact absurd hp (by simp [w_mem])
theorem kept_snd {α} {p : α × State} {x s₁} (e : p = (x, s₁)) (h : Kept q τ W r₀ p.2) : Kept q τ W r₀ s₁ := by subst e; exact h
theorem kept_fst {α} {p : State × α} {x s₁} (e : p = (s₁, x)) (h : Kept q τ W r₀ p.1) : Kept q τ W r₀ s₁ := by subst e; exact h
theorem kept_opt {p : Option State} {s₁} (e : p = some s₁) (h : KeptOpt q τ W r₀ p) : Kept q τ W r₀ s₁ := h.out _ e
theorem kept_optFst {α} {p : Option (State × α)} {x s₁} (e : p = some (s₁, x)) (h : KeptFst q τ W r₀ p) : Kept q τ W r₀ s₁ := h.out _ e
theorem kept_optSnd {α} {p : Option (α × State)} {x s₁} (e : p = some (x, s₁)) (h : KeptSnd q τ W r₀ p) : Kept q τ W r₀ s₁ := h.out _ e
theorem keptOpt_some {s} (h : Kept q τ W r₀ s) : KeptOpt q τ W r₀ (some s) := ⟨by rintro _ ⟨⟩; exact h⟩
theorem keptOpt_none : KeptOpt q τ W r₀ none := ⟨by rintro _ ⟨⟩⟩
theorem keptFst_some {α} {x : α} {s} (h : Kept q τ W r₀ s) : KeptFst q τ W r₀ (some (s, x)) := ⟨by rintro _ ⟨⟩; exact h⟩
theorem keptFst_none {α} : KeptFst (α := α) q τ W r₀ none := ⟨by rintro _ ⟨⟩⟩
theorem keptSnd_some {α} {x : α} {s} (h : Kept q τ W r₀ s) : KeptSnd q τ W r₀ (some (x, s)) := ⟨by rintro _ ⟨⟩; exact h⟩
theorem keptSnd_none {α} : KeptSnd (α := α) q τ W r₀ none := ⟨by rintro _ ⟨⟩⟩
theorem kept_foldl {β} {f : State → β → State} (l : List β) (s : State) (h : Kept q τ W r₀ s)
    (hf : ∀ s x, Kept q τ W r₀ s → Kept q τ W r₀ (f s x)) : Kept q τ W r₀ (l.foldl f s) := by
  induction l generalizing s with
  | nil => exact h
  | cons a l ih => exact ih _ (hf _ _ h)
theorem keptSnd_findSome {α β} {f : β → Option (α × State)} (l : List β) (h : ∀ c, KeptSnd q τ W r₀ (f c)) : KeptSnd q τ W r₀
    (l.findSome? f) := by
  refine ⟨fun r₁ e => ?_⟩
  obtain ⟨c, _, hc⟩ := List.exists_of_findSome?_eq_some e
  exact (h c).out r₁ hc
theorem keptSnd_map {α β} {f : β → α × State} (o : Option β) (h : ∀ c, Kept q τ W r₀ (f c).2) : KeptSnd q τ W r₀ (o.map f) := by
  refine ⟨fun r₁ e => ?_⟩
  cases o <;> cases e
  exact h _
theorem keptFst_mapFst {α β} {f : State × α → State × β} (o : Option (State × α)) (h : KeptFst q τ W r₀ o)
    (hf : ∀ c, Kept q τ W r₀ c.1 → Kept q τ W r₀ (f c).1) : KeptFst q τ W r₀ (o.map f) := by
  refine ⟨fun r₁ e => ?_⟩
  cases o <;> cases e
  exact hf _ (h.out _ rfl)
structure KeptInl (q : List Instr) (τ : Nat) (W : Part → Bool) (r₀ : State) (o : State ⊕ Nat) : Prop where
  out : ∀ s, o = .inl s → Kept q τ W r₀ s
theorem keptInl_inl {s} (h : Kept q τ W r₀ s) : KeptInl q τ W r₀ (.inl s) := ⟨by rintro _ ⟨⟩; exact h⟩
theorem keptInl_inr {n} : KeptInl q τ W r₀ (.inr n) := ⟨by rintro _ ⟨⟩⟩
theorem kept_inl {p : State ⊕ Nat} {s₁} (e : p = .inl s₁) (h : KeptInl q τ W r₀ p) : Kept q τ W r₀ s₁ := h.out _ e
theorem keptOpt_mapFst {α} {o : Option (State × α)} (h : KeptFst q τ W r₀ o) : KeptOpt q τ W r₀ (o.map (·.1)) := by
  refine ⟨fun r₁ e => ?_⟩
  cases o <;> cases e
  exact h.out _ rfl
theorem kept_getDFst {α} {o : Option (State × α)} {p : State × α} (h : KeptFst q τ W r₀ o) (h' : Kept q τ W r₀ p.1) : Kept q τ W r₀
    (o.getD p).1 := by
  cases o
  · exact h'
  · exact h.out _ rfl
theorem kept_doneEq {a : Ans} {e : Body} {s₁} (h : a = .done e s₁) (h' : KeptAns q τ W r₀ a)
    : Kept q τ W r₀ s₁ := by subst h; cases h'; assumption
theorem kept_progEq {a : Ans} {e : Body} {s₁} (h : a = .prog e s₁) (h' : KeptAns q τ W r₀ a)
    : Kept q τ W r₀ s₁ := by subst h; cases h'; assumption
theorem kept_pairOpt {α} {p : Option State × α} {x s₁} (e : p = (some s₁, x)) (h : KeptOpt q τ W r₀ p.1)
    : Kept q τ W r₀ s₁ := by subst e; exact h.out _ rfl
theorem keptFst_mk {α} {p : State × α} (h : Kept q τ W r₀ p.1) : KeptFst q τ W r₀ (some p) := ⟨by rintro _ ⟨⟩; exact h⟩
theorem keptSnd_mk {α} {p : α × State} (h : Kept q τ W r₀ p.2) : KeptSnd q τ W r₀ (some p) := ⟨by rintro _ ⟨⟩; exact h⟩
theorem kept_getD {o : Option State} {s} (h : KeptOpt q τ W r₀ o) (h' : Kept q τ W r₀ s) : Kept q τ W r₀ (o.getD s) := by
  cases o with
  | none => exact h'
  | some s => exact h.out _ rfl
theorem kept_foldlFst {α β} {f : State × α → β → State × α} (l : List β) (p : State × α) (h : Kept q τ W r₀ p.1)
    (hf : ∀ p x, Kept q τ W r₀ p.1 → Kept q τ W r₀ (f p x).1) : Kept q τ W r₀ (l.foldl f p).1 := by
  induction l generalizing p with
  | nil => exact h
  | cons a l ih => exact ih _ (hf _ _ h)
end Sys2Proof.Machine
end

