-- ==== Sys2Proof/Laws/KeptCore.lean ====
section
/-! SUPPORT. What every operation keeps: the register operations, the views, the records, the admission and the session of chapters 3, 4 and 19. One lemma for each function; `Kept` is defined in Laws/Kept.lean. -/
namespace Sys2Proof.Machine
open Sys2Proof
set_option linter.unusedSimpArgs false
set_option linter.unusedTactic false
set_option linter.unreachableTactic false
variable {q : List Instr} {τ : Nat} {W : Part → Bool} {r₀ : State}

/-! ## Ops -/

theorem kept_drawWord (s : State) (h0 : Kept q τ W r₀ s) [Can W .freeCount] : Kept q τ W r₀
    (drawWord s).2 := by unfold drawWord; simpa only [kept_mk, can, true_or, or_true]
theorem kept_drawBits (n : Nat) (s : State) (h0 : Kept q τ W r₀ s) [Can W .freeCount] : Kept q τ W r₀
    (drawBits n s).2 := by unfold drawBits; simpa only [kept_mk, can, true_or, or_true]
theorem kept_drawWords (n : Nat) (s : State) (h0 : Kept q τ W r₀ s) [Can W .freeCount] : Kept q τ W r₀
    (drawWords n s).2 := by unfold drawWords; simpa only [kept_mk, can, true_or, or_true]
theorem wf_putReg {m : KMap Word} (h : Regs.wf m = true) (a : Nat) (w : Word) : Regs.wf (putReg m a w) = true := by
  simp only [Regs.wf, Bool.and_eq_true] at h ⊢
  unfold putReg
  split
  · exact ⟨wfTable_del h.1 a, all_del h.2 a⟩
  · rename_i hw
    exact ⟨wfTable_put h.1 a w, all_put h.2 (by simpa using hw)⟩

/-- Setting a register keeps its store canonical. -/
theorem kept_setReg (a : Nat) (w : Word) (s : State) (h0 : Kept q τ W r₀ s) [Can W .regs] : Kept q τ W r₀ (setReg a w s) :=
  ⟨h0.queue, h0.time, wf_putReg h0.regs a w, h0.mem0, h0.mem1,
    fun p hp => Part.same_trans (by cases p <;> first | rfl | exact ⟨rfl, rfl⟩ | exact absurd hp (by simp [can])) (h0.frame p hp)⟩

theorem kept_tick (n : Nat) (s : State) (h0 : Kept q τ W r₀ s) : Kept q τ W r₀ (tick n s) := by
  unfold tick
  split
  · rename_i h; exact ⟨h0.queue, Nat.le_trans h0.time (Nat.le_of_lt h), h0.regs, h0.mem0, h0.mem1,
      fun p hp => Part.same_trans (by cases p <;> first | rfl | exact ⟨rfl, rfl⟩) (h0.frame p hp)⟩
  · exact h0

theorem kept_rebase (s : State) (h0 : Kept q τ W r₀ s) [Can W .time] : Kept q τ W r₀ (rebase s) := by
  unfold rebase
  with_reducible repeat' first
    | assumption | (extract_lets +onlyGivenNames x; clear_value x; revert x; intro _) | simp -zeta only [kept_mk, can, true_or, or_true]

theorem kept_perf (blk : ℕ) (ev : ℕ) (n : ℕ) (s : State) (h0 : Kept q τ W r₀ s) [Can W .obs] : Kept q τ W r₀ (perf blk ev n s) := by
  unfold perf
  with_reducible repeat' first
    | assumption | (extract_lets +onlyGivenNames x; clear_value x; revert x; intro _) | simp -zeta only [kept_mk, can, true_or, or_true]
    | split

theorem kept_commit (n : ℕ) (s : State) (h0 : Kept q τ W r₀ s) [Can W .evr] : Kept q τ W r₀ (commit n s) := by
  unfold commit
  with_reducible repeat' first
    | assumption | (extract_lets +onlyGivenNames x; clear_value x; revert x; intro _) | simp -zeta only [kept_mk, can, true_or, or_true]

theorem kept_commitAll (s : State) (h0 : Kept q τ W r₀ s) [Can W .evr] : Kept q τ W r₀ (commitAll s) := by
  unfold commitAll
  with_reducible repeat' first | assumption | apply kept_commit

theorem kept_suspectAll (s : State) (h0 : Kept q τ W r₀ s) [Can W .trk] : Kept q τ W r₀ (suspectAll s) := by
  unfold suspectAll
  with_reducible repeat' first | assumption | simp -zeta only [kept_mk, can, true_or, or_true]

theorem kept_setFld (a : ℕ) (hi : ℕ) (lo : ℕ) (v : ℕ) (s : State) (h0 : Kept q τ W r₀ s) [Can W .regs] : Kept q τ W r₀
    (setFld a hi lo v s) := by
  unfold setFld
  with_reducible repeat' first | assumption | apply kept_setReg

theorem kept_bumpFld (a : ℕ) (hi : ℕ) (lo : ℕ) (n : ℕ) (s : State) (h0 : Kept q τ W r₀ s) [Can W .regs] : Kept q τ W r₀
    (bumpFld a hi lo n s) := by
  unfold bumpFld
  with_reducible repeat' first
    | assumption | (extract_lets +onlyGivenNames x; clear_value x; revert x; intro _) | apply kept_setFld | split

theorem kept_bump (a : ℕ) (n : ℕ) (s : State) (h0 : Kept q τ W r₀ s) [Can W .regs] : Kept q τ W r₀ (bump a n s) := by
  unfold bump
  with_reducible repeat' first | assumption | apply kept_bumpFld

theorem kept_stageOne (code : ℕ) (flags : ℕ) (data : List ℕ) (s : State) (h0 : Kept q τ W r₀ s) [Can W .regs] [Can W .evr]
    : Kept q τ W r₀ (stageOne code flags data s) := by
  unfold stageOne
  with_reducible repeat' first
    | assumption | (extract_lets +onlyGivenNames x; clear_value x; revert x; intro _) | apply kept_bump
    | simp -zeta only [kept_mk, can, true_or, or_true] | split

theorem kept_stageRecords (code : ℕ) (flags : ℕ) (recs : List (List ℕ)) (s : State) (h0 : Kept q τ W r₀ s) [Can W .regs] [Can W .evr]
    : Kept q τ W r₀ (stageRecords code flags recs s) := by
  unfold stageRecords
  with_reducible repeat' first
    | assumption
    | (extract_lets +onlyGivenNames x; refine (?_ : Kept q τ W r₀ x → _) (?_ : Kept q τ W r₀ x); intro hx; clear_value x; revert x; intro _ _;
        rotate_left; dsimp -zeta only [x]; clear x)
    | (extract_lets +onlyGivenNames x; clear_value x; revert x; intro _) | apply kept_stageOne
    | simp -zeta only [kept_mk, can, true_or, or_true] | split

theorem kept_stageEvent (code : ℕ) (flags : ℕ) (recs : List (List ℕ)) (resp : ℕ) (s : State) (h0 : Kept q τ W r₀ s) [Can W .regs]
    [Can W .evr] : Kept q τ W r₀ (stageEvent code flags recs resp s) := by
  unfold stageEvent
  with_reducible repeat' first
    | assumption | (extract_lets +onlyGivenNames x; clear_value x; revert x; intro _) | apply kept_stageRecords | apply kept_bump
    | simp -zeta only [kept_mk, can, true_or, or_true] | split

theorem kept_subCount (sp : ℕ) (i : ℕ) (n : ℕ) (s : State) (h0 : Kept q τ W r₀ s) [Can W .regs] : Kept q τ W r₀ (subCount sp i n s) := by
  unfold subCount
  with_reducible repeat' first | assumption | apply kept_bump | split

theorem kept_countApfesia (v : Via) (tags : ℕ) (body : ℕ) (i : ℕ) (s : State) (h0 : Kept q τ W r₀ s) [Can W .regs] : Kept q τ W r₀
    (countApfesia v tags body i s) := by
  unfold countApfesia
  with_reducible repeat' first | assumption | apply kept_subCount | split

theorem kept_setTables (b : ℕ) (x : BrickTables) (s : State) (h0 : Kept q τ W r₀ s) [Can W .cls] : Kept q τ W r₀ (setTables b x s) := by
  unfold setTables
  with_reducible repeat' first
    | assumption | (extract_lets +onlyGivenNames x; clear_value x; revert x; intro _) | simp -zeta only [kept_mk, can, true_or, or_true]

theorem kept_setSub (sp : ℕ) (x : SubPort) (s : State) (h0 : Kept q τ W r₀ s) [Can W .port] : Kept q τ W r₀ (setSub sp x s) := by
  unfold setSub
  with_reducible repeat' first
    | assumption | (extract_lets +onlyGivenNames x; clear_value x; revert x; intro _) | simp -zeta only [kept_mk, can, true_or, or_true]

theorem kept_send (x : Sent) (s : State) (h0 : Kept q τ W r₀ s) [Can W .sent] : Kept q τ W r₀ (send x s) := by
  unfold send
  with_reducible repeat' first | assumption | simp -zeta only [kept_mk, can, true_or, or_true]

theorem kept_setBrick (b : ℕ) (x : Brick) (s : State) (h0 : Kept q τ W r₀ s) [Can W .brk] : Kept q τ W r₀ (setBrick b x s) := by
  unfold setBrick
  with_reducible repeat' first
    | assumption | (extract_lets +onlyGivenNames x; clear_value x; revert x; intro _) | simp -zeta only [kept_mk, can, true_or, or_true]

theorem kept_setTile (b : ℕ) (k : ℕ) (x : Tile) (s : State) (h0 : Kept q τ W r₀ s) [Can W .brk] : Kept q τ W r₀ (setTile b k x s) := by
  unfold setTile
  with_reducible repeat' first | assumption | (extract_lets +onlyGivenNames x; clear_value x; revert x; intro _) | apply kept_setBrick

theorem kept_setTrunk (p : ℕ) (x : Trunk) (s : State) (h0 : Kept q τ W r₀ s) [Can W .trk] : Kept q τ W r₀ (setTrunk p x s) := by
  unfold setTrunk
  with_reducible repeat' first
    | assumption | (extract_lets +onlyGivenNames x; clear_value x; revert x; intro _) | simp -zeta only [kept_mk, can, true_or, or_true]
    | split

theorem kept_raise (a : ℕ) (i : ℕ) (s : State) (h0 : Kept q τ W r₀ s) [Can W .regs] : Kept q τ W r₀ (raise a i s) := by
  unfold raise
  with_reducible repeat' first | assumption | apply kept_setFld

/-! ## Flags -/

theorem kept_readEffect (a : ℕ) (s : State) (h0 : Kept q τ W r₀ s) [Can W .regs] [Can W .port] [Can W .time] [Can W .obs]
    : Kept q τ W r₀ (readEffect a s) := by
  unfold readEffect
  with_reducible repeat' first
    | assumption
    | (extract_lets +onlyGivenNames x; refine (?_ : Kept q τ W r₀ x → _) (?_ : Kept q τ W r₀ x); intro hx; clear_value x; revert x; intro _ _;
        rotate_left; dsimp -zeta only [x]; clear x)
    | (extract_lets +onlyGivenNames x; refine (?_ : (∀ v, Kept q τ W r₀ (x v)) → _) (?_ : ∀ v, Kept q τ W r₀ (x v)); intro hx; clear_value x; revert x; intro _ hx;
        rotate_left; dsimp -zeta only [x]; clear x)
    | (extract_lets +onlyGivenNames x; clear_value x; revert x; intro _) | apply kept_setReg
    | simp -zeta only [kept_mk, can, true_or, or_true] | exact hx _ | split | intro v

/-! ## Record -/

theorem kept_setBank (k : ℕ) (b : SnapBank) (s : State) (h0 : Kept q τ W r₀ s) [Can W .obs] : Kept q τ W r₀ (setBank k b s) := by
  unfold setBank
  with_reducible repeat' first
    | assumption | (extract_lets +onlyGivenNames x; clear_value x; revert x; intro _) | simp -zeta only [kept_mk, can, true_or, or_true]
    | split

theorem kept_takeSnap (k : ℕ) (src : ℕ) (at_ : ℕ) (s : State) (h0 : Kept q τ W r₀ s) [Can W .obs] : Kept q τ W r₀
    (takeSnap k src at_ s) := by
  unfold takeSnap
  with_reducible repeat' first
    | assumption | (extract_lets +onlyGivenNames x; clear_value x; revert x; intro _) | apply kept_setBank
    | simp -zeta only [kept_mk, can, true_or, or_true]

theorem kept_fireSnap (src : ℕ) (at_ : ℕ) (s : State) (h0 : Kept q τ W r₀ s) [Can W .regs] [Can W .obs] [Can W .evr] : Kept q τ W r₀
    (fireSnap src at_ s) := by
  unfold fireSnap
  with_reducible repeat' first
    | assumption
    | (extract_lets +onlyGivenNames x; refine (?_ : Kept q τ W r₀ x → _) (?_ : Kept q τ W r₀ x); intro hx; clear_value x; revert x; intro _ _;
        rotate_left; dsimp -zeta only [x]; clear x)
    | (extract_lets +onlyGivenNames x; refine (?_ : (∀ v, Kept q τ W r₀ (x v)) → _) (?_ : ∀ v, Kept q τ W r₀ (x v)); intro hx; clear_value x; revert x; intro _ hx;
        rotate_left; dsimp -zeta only [x]; clear x)
    | (extract_lets +onlyGivenNames x; clear_value x; revert x; intro _) | apply kept_setBank | apply kept_takeSnap | apply kept_bumpFld
    | apply kept_stageEvent | exact hx _ | split | intro v

theorem kept_snapTrigger (src : ℕ) (at_ : ℕ) (s : State) (h0 : Kept q τ W r₀ s) [Can W .regs] [Can W .obs] [Can W .evr] : Kept q τ W r₀
    (snapTrigger src at_ s) := by
  unfold snapTrigger
  with_reducible repeat' first | assumption | apply kept_fireSnap | split

theorem kept_recordResp (code : ℕ) (flags : ℕ) (recs : List (List ℕ)) (resp : ℕ) (s : State) (h0 : Kept q τ W r₀ s) [Can W .regs]
    [Can W .obs] [Can W .evr] : Kept q τ W r₀ (recordResp code flags recs resp s) := by
  unfold recordResp
  with_reducible repeat' first
    | assumption
    | (extract_lets +onlyGivenNames x; refine (?_ : Kept q τ W r₀ x → _) (?_ : Kept q τ W r₀ x); intro hx; clear_value x; revert x; intro _ _;
        rotate_left; dsimp -zeta only [x]; clear x)
    | apply kept_stageEvent | apply kept_snapTrigger | split

theorem kept_record (code : ℕ) (data : List ℕ) (s : State) (h0 : Kept q τ W r₀ s) [Can W .regs] [Can W .obs] [Can W .evr]
    : Kept q τ W r₀ (record code data s) := by
  unfold record
  with_reducible repeat' first | assumption | apply kept_recordResp

theorem kept_sendDone (c : Completion) (s : State) (h0 : Kept q τ W r₀ s) [Can W .sent] [Can W .regs] [Can W .cmd] [Can W .obs]
    : Kept q τ W r₀ (sendDone c s) := by
  unfold sendDone
  with_reducible repeat' first
    | assumption
    | (extract_lets +onlyGivenNames x; refine (?_ : Kept q τ W r₀ x → _) (?_ : Kept q τ W r₀ x); intro hx; clear_value x; revert x; intro _ _;
        rotate_left; dsimp -zeta only [x]; clear x)
    | (extract_lets +onlyGivenNames x; clear_value x; revert x; intro _) | apply kept_perf | apply kept_send | apply kept_countApfesia
    | simp -zeta only [kept_mk, can, true_or, or_true] | split

theorem kept_notify (c : NotifyClass) (body : List ℕ) (s : State) (h0 : Kept q τ W r₀ s) [Can W .sent] [Can W .regs] [Can W .cmd]
    [Can W .obs] : Kept q τ W r₀ (notify c body s) := by
  unfold notify
  with_reducible repeat' first
    | assumption | (extract_lets +onlyGivenNames x; clear_value x; revert x; intro _) | apply kept_sendDone
    | simp -zeta only [kept_mk, can, true_or, or_true] | refine kept_foldl _ _ ?_ (fun s₁ x₁ h₁ => ?_) | split

theorem kept_settleApproved (s : State) (h0 : Kept q τ W r₀ s) [Can W .sent] [Can W .regs] [Can W .cmd] [Can W .keys] [Can W .obs]
    [Can W .evr] : Kept q τ W r₀ (settleApproved s) := by
  unfold settleApproved
  with_reducible repeat' first
    | assumption
    | (extract_lets +onlyGivenNames x; refine (?_ : Kept q τ W r₀ x → _) (?_ : Kept q τ W r₀ x); intro hx; clear_value x; revert x; intro _ _;
        rotate_left; dsimp -zeta only [x]; clear x)
    | (extract_lets +onlyGivenNames x; clear_value x; revert x; intro _) | apply kept_record | apply kept_notify
    | simp -zeta only [kept_mk, can, true_or, or_true] | split

theorem kept_katFailure (s : State) (h0 : Kept q τ W r₀ s) [Can W .sent] [Can W .regs] [Can W .cmd] [Can W .keys] [Can W .obs]
    [Can W .evr] : Kept q τ W r₀ (katFailure s) := by
  unfold katFailure
  with_reducible repeat' first
    | assumption | (extract_lets +onlyGivenNames x; clear_value x; revert x; intro _) | apply kept_settleApproved
    | simp -zeta only [kept_mk, can, true_or, or_true]

theorem kept_kindFailed (n : ℕ) (s : State) (h0 : Kept q τ W r₀ s) [Can W .sent] [Can W .regs] [Can W .cmd] [Can W .keys] [Can W .obs]
    [Can W .evr] : Kept q τ W r₀ (kindFailed n s) := by
  unfold kindFailed
  with_reducible repeat' first
    | assumption | (extract_lets +onlyGivenNames x; clear_value x; revert x; intro _) | apply kept_katFailure
    | simp -zeta only [kept_mk, can, true_or, or_true]

theorem kept_endSession (n : ℕ) (s : State) (h0 : Kept q τ W r₀ s) [Can W .cmd] : Kept q τ W r₀ (endSession n s) := by
  unfold endSession
  with_reducible repeat' first
    | assumption | (extract_lets +onlyGivenNames x; clear_value x; revert x; intro _) | simp -zeta only [kept_mk, can, true_or, or_true]

theorem kept_dropFlight (f : Flight) (s : State) (h0 : Kept q τ W r₀ s) [Can W .cmd] : Kept q τ W r₀ (dropFlight f s) := by
  unfold dropFlight
  with_reducible repeat' first
    | assumption | (extract_lets +onlyGivenNames x; clear_value x; revert x; intro _) | simp -zeta only [kept_mk, can, true_or, or_true]

theorem kept_answer (f : Flight) (status : ℕ) (detail : ℕ) (elems : Body) (s : State) (h0 : Kept q τ W r₀ s) [Can W .sent] [Can W .regs]
    [Can W .cmd] [Can W .obs] : Kept q τ W r₀ (answer f status detail elems s) := by
  unfold answer
  with_reducible repeat' first | assumption | apply kept_sendDone

theorem kept_settleCloses (s : State) (h0 : Kept q τ W r₀ s) [Can W .sent] [Can W .regs] [Can W .cmd] [Can W .obs] : Kept q τ W r₀
    (settleCloses s) := by
  unfold settleCloses
  with_reducible repeat' first
    | assumption | apply kept_endSession | apply kept_dropFlight | apply kept_answer | refine kept_foldl _ _ ?_ (fun s₁ x₁ h₁ => ?_)

theorem kept_setAwait (f : Flight) (a : Await) (s : State) (h0 : Kept q τ W r₀ s) [Can W .cmd] : Kept q τ W r₀ (setAwait f a s) := by
  unfold setAwait
  with_reducible repeat' first
    | assumption | (extract_lets +onlyGivenNames x; clear_value x; revert x; intro _) | simp -zeta only [kept_mk, can, true_or, or_true]

theorem kept_endOp (n : ℕ) (status : ℕ) (elems : Body) (s : State) (h0 : Kept q τ W r₀ s) [Can W .sent] [Can W .regs] [Can W .cmd]
    [Can W .obs] : Kept q τ W r₀ (endOp n status elems s) := by
  unfold endOp
  with_reducible repeat' first
    | assumption | (extract_lets +onlyGivenNames x; clear_value x; revert x; intro _) | apply kept_notify
    | simp -zeta only [kept_mk, can, true_or, or_true] | split

theorem kept_record2 (code : ℕ) (a : List ℕ) (b : List ℕ) (s : State) (h0 : Kept q τ W r₀ s) [Can W .regs] [Can W .obs] [Can W .evr]
    : Kept q τ W r₀ (record2 code a b s) := by
  unfold record2
  with_reducible repeat' first | assumption | apply kept_recordResp

theorem kept_finish (f : Flight) (status : ℕ) (detail : ℕ) (elems : Body) (s : State) (h0 : Kept q τ W r₀ s) [Can W .sent] [Can W .regs]
    [Can W .cmd] [Can W .obs] : Kept q τ W r₀ (finish f status detail elems s) := by
  unfold finish
  with_reducible repeat' first | assumption | apply kept_settleCloses | apply kept_dropFlight | apply kept_answer

theorem kept_finishWhere (p : Await → Bool) (status : ℕ) (elems : Body) (s : State) (h0 : Kept q τ W r₀ s) [Can W .sent] [Can W .regs]
    [Can W .cmd] [Can W .obs] : Kept q τ W r₀ (finishWhere p status elems s) := by
  unfold finishWhere
  with_reducible repeat' first | assumption | apply kept_finish | refine kept_foldl _ _ ?_ (fun s₁ x₁ h₁ => ?_)

theorem kept_setReport (f : Flight) (rep : Body) (s : State) (h0 : Kept q τ W r₀ s) [Can W .cmd] : Kept q τ W r₀ (setReport f rep s) := by
  unfold setReport
  with_reducible repeat' first
    | assumption | (extract_lets +onlyGivenNames x; clear_value x; revert x; intro _) | simp -zeta only [kept_mk, can, true_or, or_true]

theorem kept_startOp (opcode : ℕ) (world : ℕ) (mailbox : ℕ) (tag : ℕ) (s : State) (h0 : Kept q τ W r₀ s) [Can W .cmd] : Kept q τ W r₀
    (startOp opcode world mailbox tag s) := by
  unfold startOp
  with_reducible repeat' first
    | assumption | (extract_lets +onlyGivenNames x; clear_value x; revert x; intro _) | simp -zeta only [kept_mk, can, true_or, or_true]

/-! ## Admit -/

theorem kept_identify {op h b s s₁ w} (h0 : Kept q τ W r₀ s) (e : identify op h b s = .inl (s₁, w)) [Can W .cmd] : Kept q τ W r₀ s₁ := by
  unfold identify at e
  split at e
  · split at e <;> cases e; exact h0
  · split at e
    · cases e
    · repeat' split at e
      all_goals cases e
      simpa -zeta only [kept_mk, can, true_or, or_true]

theorem kept_takeTurn (f : Flight) (s : State) (h0 : Kept q τ W r₀ s) [Can W .cmd] : Kept q τ W r₀ (takeTurn f s) := by
  unfold takeTurn
  with_reducible repeat' first
    | assumption | (extract_lets +onlyGivenNames x; clear_value x; revert x; intro _) | simp -zeta only [kept_mk, can, true_or, or_true]

theorem kept_oversize (x1 : Hdr) (s : State) (h0 : Kept q τ W r₀ s) [Can W .regs] : Kept q τ W r₀ (oversize x1 s) := by
  unfold oversize
  with_reducible repeat' first
    | assumption
    | (extract_lets +onlyGivenNames x; refine (?_ : Kept q τ W r₀ x → _) (?_ : Kept q τ W r₀ x); intro hx; clear_value x; revert x; intro _ _;
        rotate_left; dsimp -zeta only [x]; clear x)
    | apply kept_subCount | split

theorem kept_takeFrame (x1 : Hdr) (s : State) (h0 : Kept q τ W r₀ s) [Can W .regs] [Can W .cmd] : Kept q τ W r₀ (takeFrame x1 s) := by
  unfold takeFrame
  with_reducible repeat' first
    | assumption | (extract_lets +onlyGivenNames x; clear_value x; revert x; intro _) | apply kept_countApfesia
    | simp -zeta only [kept_mk, can, true_or, or_true] | split

theorem kept_rejectPlain (f : Flight) (status : ℕ) (detail : ℕ) (s : State) (h0 : Kept q τ W r₀ s) [Can W .sent] [Can W .regs]
    [Can W .cmd] [Can W .obs] [Can W .evr] : Kept q τ W r₀ (rejectPlain f status detail s) := by
  unfold rejectPlain
  with_reducible repeat' first
    | assumption
    | (extract_lets +onlyGivenNames x; refine (?_ : Kept q τ W r₀ x → _) (?_ : Kept q τ W r₀ x); intro hx; clear_value x; revert x; intro _ _;
        rotate_left; dsimp -zeta only [x]; clear x)
    | (extract_lets +onlyGivenNames x; clear_value x; revert x; intro _) | apply kept_record | apply kept_sendDone
    | simp -zeta only [kept_mk, can, true_or, or_true] | split

theorem kept_untaken (x1 : Hdr) (s : State) (h0 : Kept q τ W r₀ s) [Can W .regs] : Kept q τ W r₀ (untaken x1 s) := by
  unfold untaken
  with_reducible repeat' first | assumption | apply kept_subCount | apply kept_countApfesia | split

theorem kept_enlist (f : Flight) (s : State) (h0 : Kept q τ W r₀ s) [Can W .cmd] [Can W .obs] : Kept q τ W r₀ (enlist f s) := by
  unfold enlist
  with_reducible repeat' first
    | assumption | (extract_lets +onlyGivenNames x; clear_value x; revert x; intro _) | apply kept_perf
    | simp -zeta only [kept_mk, can, true_or, or_true]

theorem kept_reject (f : Flight) (status : ℕ) (detail : ℕ) (s : State) (h0 : Kept q τ W r₀ s) [Can W .sent] [Can W .regs] [Can W .cmd]
    [Can W .obs] : Kept q τ W r₀ (reject f status detail s) := by
  unfold reject
  with_reducible repeat' first | assumption | apply kept_answer

theorem kept_park (i : Instr) (f : Flight) (s : State) (h0 : Kept q τ W r₀ s) [Can W .cmd] : Kept q τ W r₀ (park i f s) := by
  unfold park
  with_reducible repeat' first
    | assumption | (extract_lets +onlyGivenNames x; clear_value x; revert x; intro _) | simp -zeta only [kept_mk, can, true_or, or_true]

theorem kept_start (i : Instr) (op : Op) (b : Body) (f : Flight) (m : State → Ans) (s : State) (h0 : Kept q τ W r₀ s)
    (hm : KeptAns q τ W r₀ (m s)) [Can W .sent] [Can W .regs] [Can W .cmd] [Can W .obs] : Kept q τ W r₀ (start i op b f m s) := by
  unfold start
  generalize m s = a at hm
  split
  · split
    · exact kept_setAwait _ _ _ (kept_park _ _ _ h0)
    split
    · exact kept_finish _ _ _ _ _ h0
    split
    · exact kept_finish _ _ _ _ _ h0
    · cases hm with
      | fail => exact kept_finish _ _ _ _ _ h0
      | spent h => exact kept_finish _ _ _ _ _ h
      | defer => exact kept_finish _ _ _ _ _ h0
      | done h => exact kept_finish _ _ _ _ _ h
      | prog h => exact kept_finish _ _ _ _ _ h
      | wait h => exact kept_setAwait _ _ _ h
      | waits h => exact kept_setReport _ _ _ (kept_setAwait _ _ _ h)
      | hold => exact kept_setAwait _ _ _ (kept_park _ _ _ h0)
  · exact kept_park _ _ _ h0
theorem kept_admitFrame (i : Instr) (op : Op) (h : Hdr) (b : Body) (f : Flight) (m : State → Ans) (s : State) (h0 : Kept q τ W r₀ s)
    (hm : ∀ s, Kept q τ W r₀ s → KeptAns q τ W r₀ (m s)) [Can W .sent] [Can W .regs] [Can W .cmd] [Can W .obs] [Can W .evr] : Kept q τ W r₀ (admitFrame i op h b f m s) := by
  unfold admitFrame
  split
  · exact h0
  split
  · exact kept_rejectPlain _ _ _ _ h0
  split
  · exact kept_rejectPlain _ _ _ _ h0
  split
  · exact kept_rejectPlain _ _ _ _ h0
  · rename_i s₁ w e
    have h1 : Kept q τ W r₀ s₁ := kept_identify h0 e
    split
    · exact kept_reject _ _ _ _ h1
    split
    · exact kept_answer _ _ _ _ _ h1
    split
    · exact kept_reject _ _ _ _ h1
    · exact kept_start _ _ _ _ _ _ (kept_enlist _ _ h1) (hm _ (kept_enlist _ _ h1))
theorem kept_runCommand (i : Instr) (op : Op) (h : Hdr) (b : Body) (m : State → Ans) (s : State) (h0 : Kept q τ W r₀ s)
    (hm : ∀ s, Kept q τ W r₀ s → KeptAns q τ W r₀ (m s)) [Can W .sent] [Can W .regs] [Can W .cmd] [Can W .obs] [Can W .evr] : Kept q τ W r₀ (runCommand i op h b m s) := by
  have h1 := kept_tick h.t s h0
  unfold runCommand
  extract_lets s₁ f
  split
  · exact kept_start _ _ _ _ _ _ (kept_takeTurn _ _ h1) (hm _ (kept_takeTurn _ _ h1))
  split
  · exact h1
  split
  · exact kept_oversize _ _ h1
  split
  · exact kept_untaken _ _ h1
  · exact kept_admitFrame _ _ _ _ _ _ _ (kept_takeFrame _ _ h1) hm
theorem kept_run (i : Instr) (op : Op) (h : Hdr) (b : Body) (m : State → Ans) (s : State) (h0 : Kept q τ W r₀ s)
    (hm : ∀ s, Kept q τ W r₀ s → KeptAns q τ W r₀ (m s)) [Can W .sent] [Can W .regs] [Can W .cmd] [Can W .obs] [Can W .evr] : KeptOut q τ W r₀ (run i op h b m s) :=
  .next (kept_runCommand i op h b m s h0 hm)
theorem kept_ev (n : Nat) (f : State → State) (s : State) (h0 : Kept q τ W r₀ s)
    (hf : ∀ s, Kept q τ W r₀ s → Kept q τ W r₀ (f s)) : KeptOut q τ W r₀ (ev n f s) :=
  .next (hf _ (kept_tick n s h0))

/-! ## Session -/

theorem kept_sendDelivery (d : Delivery) (s : State) (h0 : Kept q τ W r₀ s) [Can W .sent] [Can W .dks] : Kept q τ W r₀
    (sendDelivery d s) := by
  unfold sendDelivery
  with_reducible repeat' first
    | assumption | (extract_lets +onlyGivenNames x; clear_value x; revert x; intro _) | apply kept_send
    | simp -zeta only [kept_mk, can, true_or, or_true]

theorem kept_pump (s : State) (h0 : Kept q τ W r₀ s) [Can W .sent] [Can W .dks] : Kept q τ W r₀ (pump s) := by
  unfold pump
  with_reducible repeat' first
    | assumption | (extract_lets +onlyGivenNames x; clear_value x; revert x; intro _) | apply kept_sendDelivery
    | simp -zeta only [kept_mk, can, true_or, or_true] | refine kept_foldl _ _ ?_ (fun s₁ x₁ h₁ => ?_)

theorem kept_deliverTo (kind : ℕ) (group : ℕ) (words : ℕ → List Word) (ds : List ℕ) (s : State) (h0 : Kept q τ W r₀ s) [Can W .dks]
    : Kept q τ W r₀ (deliverTo kind group words ds s) := by
  unfold deliverTo
  with_reducible repeat' first
    | assumption | (extract_lets +onlyGivenNames x; clear_value x; revert x; intro _) | simp -zeta only [kept_mk, can, true_or, or_true]

theorem kept_dropRollover (x1 : Rollover) (s : State) (h0 : Kept q τ W r₀ s) [Can W .sent] [Can W .keys] [Can W .dks] : Kept q τ W r₀
    (dropRollover x1 s) := by
  unfold dropRollover
  with_reducible repeat' first
    | assumption | (extract_lets +onlyGivenNames x; clear_value x; revert x; intro _) | apply kept_pump | apply kept_deliverTo
    | simp -zeta only [kept_mk, can, true_or, or_true]

theorem kept_dropChallenges (s : State) (h0 : Kept q τ W r₀ s) [Can W .cmd] : Kept q τ W r₀ (dropChallenges s) := by
  unfold dropChallenges
  with_reducible repeat' first
    | assumption | (extract_lets +onlyGivenNames x; clear_value x; revert x; intro _) | simp -zeta only [kept_mk, can, true_or, or_true]

theorem kept_slowTimeout (s : State) (h0 : Kept q τ W r₀ s) [Can W .cmd] : Kept q τ W r₀ (slowTimeout s) := by
  unfold slowTimeout
  with_reducible repeat' first
    | assumption | (extract_lets +onlyGivenNames x; clear_value x; revert x; intro _) | simp -zeta only [kept_mk, can, true_or, or_true]

theorem kept_ansDeviceReset (s : State) (h0 : Kept q τ W r₀ s) [Can W .boot] : KeptAns q τ W r₀ (ansDeviceReset s) := by
  unfold ansDeviceReset
  with_reducible repeat' first
    | assumption | (extract_lets +onlyGivenNames x; clear_value x; revert x; intro _) | simp -zeta only [kept_mk, can, true_or, or_true]
    | apply KeptAns.done

theorem kept_execDeviceReset (x1 : Hdr) (b : Body) (s : State) (h0 : Kept q τ W r₀ s) [Can W .sent] [Can W .regs] [Can W .cmd]
    [Can W .boot] [Can W .obs] [Can W .evr] : KeptOut q τ W r₀ (execDeviceReset x1 b s) := by
  unfold execDeviceReset
  with_reducible repeat' first | assumption | apply kept_run | apply kept_ansDeviceReset | intro s₁ h₁

theorem kept_sessionAgree (challenge : ℕ) (pub : ℕ) (ek : List Word) (s : State) (h0 : Kept q τ W r₀ s) [Can W .freeCount]
    : Kept q τ W r₀ (sessionAgree challenge pub ek s).2 := by
  unfold sessionAgree
  with_reducible repeat' first | assumption | apply kept_drawBits

theorem kept_drbgUse (s : State) (h0 : Kept q τ W r₀ s) [Can W .eng] [Can W .obs] : Kept q τ W r₀ (drbgUse s) := by
  unfold drbgUse
  with_reducible repeat' first
    | assumption | (extract_lets +onlyGivenNames x; clear_value x; revert x; intro _) | apply kept_perf
    | simp -zeta only [kept_mk, can, true_or, or_true]

theorem kept_ansSessionOpen (x1 : Hdr) (cred : Cred) (challenge : ℕ) (pub : ℕ) (ek : List Word) (ok : Bool) (s : State) (h0
    : Kept q τ W r₀ s) [Can W .freeCount] [Can W .regs] [Can W .cmd] [Can W .eng] [Can W .obs] [Can W .evr] : KeptAns q τ W r₀
    (ansSessionOpen x1 cred challenge pub ek ok s) := by
  unfold ansSessionOpen
  with_reducible repeat' first
    | assumption
    | (extract_lets +onlyGivenNames x; refine (?_ : Kept q τ W r₀ x → _) (?_ : Kept q τ W r₀ x); intro hx; clear_value x; revert x; intro _ _;
        rotate_left; dsimp -zeta only [x]; clear x)
    | (extract_lets +onlyGivenNames x; clear_value x; revert x; intro _) | apply kept_sessionAgree | apply kept_drbgUse
    | apply kept_record | simp -zeta only [kept_mk, can, true_or, or_true] | apply KeptAns.done | apply KeptAns.spent | split

theorem kept_ansSessionChallenge (s : State) (h0 : Kept q τ W r₀ s) [Can W .freeCount] [Can W .cmd] [Can W .eng] [Can W .obs]
    : KeptAns q τ W r₀ (ansSessionChallenge s) := by
  unfold ansSessionChallenge
  with_reducible repeat' first
    | assumption | (extract_lets +onlyGivenNames x; clear_value x; revert x; intro _) | apply kept_drawBits | apply kept_drbgUse
    | simp -zeta only [kept_mk, can, true_or, or_true] | exact KeptAns.fail | apply KeptAns.done | split

theorem kept_slowStatus (s : State) (h0 : Kept q τ W r₀ s) [Can W .sent] : Kept q τ W r₀ (slowStatus s) := by
  unfold slowStatus
  with_reducible repeat' first | assumption | apply kept_send | split

theorem kept_ansOpStatus (x1 : Hdr) (op : ℕ) (s : State) (h0 : Kept q τ W r₀ s) : KeptAns q τ W r₀ (ansOpStatus x1 op s) := by
  unfold ansOpStatus
  with_reducible repeat' first | assumption | exact KeptAns.fail | apply KeptAns.done | split

theorem kept_slowSubmit (pecOk : Bool) (s : State) (h0 : Kept q τ W r₀ s) [Can W .cmd] : Kept q τ W r₀ (slowSubmit pecOk s) := by
  unfold slowSubmit
  with_reducible repeat' first
    | assumption | (extract_lets +onlyGivenNames x; clear_value x; revert x; intro _) | simp -zeta only [kept_mk, can, true_or, or_true]
    | split

theorem kept_execSlowStatusRead (x1 : ℕ) (s : State) (h0 : Kept q τ W r₀ s) [Can W .sent] : KeptOut q τ W r₀
    (execSlowStatusRead x1 s) := by
  unfold execSlowStatusRead
  with_reducible repeat' first | assumption | apply kept_ev | apply kept_slowStatus | intro s₁ h₁

theorem kept_slowAppend (bytes : List ℕ) (pecOk : Bool) (s : State) (h0 : Kept q τ W r₀ s) [Can W .cmd] : Kept q τ W r₀
    (slowAppend bytes pecOk s) := by
  unfold slowAppend
  with_reducible repeat' first
    | assumption | (extract_lets +onlyGivenNames x; clear_value x; revert x; intro _) | simp -zeta only [kept_mk, can, true_or, or_true]
    | split

theorem kept_execChallengeExpiry (x1 : ℕ) (s : State) (h0 : Kept q τ W r₀ s) [Can W .cmd] : KeptOut q τ W r₀
    (execChallengeExpiry x1 s) := by
  unfold execChallengeExpiry
  with_reducible repeat' first | assumption | apply kept_ev | apply kept_dropChallenges | intro s₁ h₁

theorem kept_ansSessionClose (x1 : Hdr) (s : State) (h0 : Kept q τ W r₀ s) [Can W .cmd] : KeptAns q τ W r₀ (ansSessionClose x1 s) := by
  unfold ansSessionClose
  with_reducible repeat' first
    | assumption | (extract_lets +onlyGivenNames x; clear_value x; revert x; intro _) | simp -zeta only [kept_mk, can, true_or, or_true]
    | exact KeptAns.fail | apply KeptAns.wait | split

theorem kept_execSlowSubmit (x1 : ℕ) (pecOk : Bool) (s : State) (h0 : Kept q τ W r₀ s) [Can W .cmd] : KeptOut q τ W r₀
    (execSlowSubmit x1 pecOk s) := by
  unfold execSlowSubmit
  with_reducible repeat' first | assumption | apply kept_ev | apply kept_slowSubmit | intro s₁ h₁

theorem kept_refuseFrame (x1 : Hdr) (b : Body) (opcode : ℕ) (f : Flight) (s : State) (h0 : Kept q τ W r₀ s) [Can W .sent] [Can W .regs]
    [Can W .cmd] [Can W .obs] [Can W .evr] : Kept q τ W r₀ (refuseFrame x1 b opcode f s) := by
  unfold refuseFrame
  with_reducible repeat' first | assumption | apply kept_rejectPlain | apply kept_reject | refine kept_identify ?_ (by assumption) | split

theorem kept_unknownFrame (x1 : Hdr) (b : Body) (opcode : ℕ) (s : State) (h0 : Kept q τ W r₀ s) [Can W .sent] [Can W .regs] [Can W .cmd]
    [Can W .obs] [Can W .evr] : Kept q τ W r₀ (unknownFrame x1 b opcode s) := by
  unfold unknownFrame
  with_reducible repeat' first
    | assumption
    | (extract_lets +onlyGivenNames x; refine (?_ : Kept q τ W r₀ x → _) (?_ : Kept q τ W r₀ x); intro hx; clear_value x; revert x; intro _ _;
        rotate_left; dsimp -zeta only [x]; clear x)
    | apply kept_tick | apply kept_oversize | apply kept_untaken | apply kept_refuseFrame | apply kept_takeFrame | split

theorem kept_execUnknownOpcodeFrame (x1 : Hdr) (b : Body) (opcode : ℕ) (s : State) (h0 : Kept q τ W r₀ s) [Can W .sent] [Can W .regs]
    [Can W .cmd] [Can W .obs] [Can W .evr] : KeptOut q τ W r₀ (execUnknownOpcodeFrame x1 b opcode s) := by
  unfold execUnknownOpcodeFrame
  with_reducible repeat' first | assumption | apply kept_unknownFrame | apply KeptOut.next

theorem kept_slowRead (s : State) (h0 : Kept q τ W r₀ s) [Can W .sent] [Can W .cmd] : Kept q τ W r₀ (slowRead s) := by
  unfold slowRead
  with_reducible repeat' first
    | assumption
    | (extract_lets +onlyGivenNames x; refine (?_ : Kept q τ W r₀ x → _) (?_ : Kept q τ W r₀ x); intro hx; clear_value x; revert x; intro _ _;
        rotate_left; dsimp -zeta only [x]; clear x)
    | (extract_lets +onlyGivenNames x; clear_value x; revert x; intro _) | apply kept_send
    | simp -zeta only [kept_mk, can, true_or, or_true] | split

theorem kept_execSlowBlockRead (x1 : ℕ) (s : State) (h0 : Kept q τ W r₀ s) [Can W .sent] [Can W .cmd] : KeptOut q τ W r₀
    (execSlowBlockRead x1 s) := by
  unfold execSlowBlockRead
  with_reducible repeat' first | assumption | apply kept_ev | apply kept_slowRead | intro s₁ h₁

theorem kept_ansEventSubscribe (x1 : Hdr) (mailbox : ℕ) (classes : List NotifyClass) (s : State) (h0 : Kept q τ W r₀ s) [Can W .cmd]
    : KeptAns q τ W r₀ (ansEventSubscribe x1 mailbox classes s) := by
  unfold ansEventSubscribe
  with_reducible repeat' first
    | assumption | (extract_lets +onlyGivenNames x; clear_value x; revert x; intro _) | simp -zeta only [kept_mk, can, true_or, or_true]
    | exact KeptAns.fail | apply KeptAns.done | split

theorem kept_abortOp (n : ℕ) (o : LongOp) (s : State) (h0 : Kept q τ W r₀ s) [Can W .sent] [Can W .regs] [Can W .cmd] [Can W .cls]
    [Can W .keys] [Can W .dks] [Can W .obs] : KeptOpt q τ W r₀ (abortOp n o s) := by
  unfold abortOp
  with_reducible repeat' first
    | assumption | apply kept_endOp | apply kept_setTables | apply kept_dropRollover | exact keptOpt_none | apply keptOpt_some | split

theorem kept_ansCmdAbort (x1 : Hdr) (target : ℕ) (s : State) (h0 : Kept q τ W r₀ s) [Can W .sent] [Can W .regs] [Can W .cmd]
    [Can W .cls] [Can W .keys] [Can W .dks] [Can W .obs] : KeptAns q τ W r₀ (ansCmdAbort x1 target s) := by
  unfold ansCmdAbort
  with_reducible repeat' first
    | assumption | apply kept_finish | apply kept_abortOp | exact KeptAns.fail | apply KeptAns.done | split
    | refine kept_opt (by assumption) ?_

theorem kept_idleOut (n : ℕ) (s : State) (h0 : Kept q τ W r₀ s) [Can W .cmd] : Kept q τ W r₀ (idleOut n s) := by
  unfold idleOut
  with_reducible repeat' first | assumption | apply kept_endSession | split

theorem kept_execOpStatus (x1 : Hdr) (b : Body) (op : ℕ) (s : State) (h0 : Kept q τ W r₀ s) [Can W .sent] [Can W .regs] [Can W .cmd]
    [Can W .obs] [Can W .evr] : KeptOut q τ W r₀ (execOpStatus x1 b op s) := by
  unfold execOpStatus
  with_reducible repeat' first
    | assumption | (extract_lets +onlyGivenNames x; clear_value x; revert x; intro _) | apply kept_run | apply kept_ansOpStatus

theorem kept_execSlowPortTimeout (x1 : ℕ) (s : State) (h0 : Kept q τ W r₀ s) [Can W .cmd] : KeptOut q τ W r₀
    (execSlowPortTimeout x1 s) := by
  unfold execSlowPortTimeout
  with_reducible repeat' first | assumption | apply kept_ev | apply kept_slowTimeout | intro s₁ h₁

theorem kept_execCmdAbort (x1 : Hdr) (b : Body) (target : ℕ) (s : State) (h0 : Kept q τ W r₀ s) [Can W .sent] [Can W .regs] [Can W .cmd]
    [Can W .cls] [Can W .keys] [Can W .dks] [Can W .obs] [Can W .evr] : KeptOut q τ W r₀ (execCmdAbort x1 b target s) := by
  unfold execCmdAbort
  with_reducible repeat' first
    | assumption | (extract_lets +onlyGivenNames x; clear_value x; revert x; intro _) | apply kept_run | apply kept_ansCmdAbort
    | intro s₁ h₁

theorem kept_ansNop (s : State) (h0 : Kept q τ W r₀ s) : KeptAns q τ W r₀ (ansNop s) := by
  unfold ansNop
  with_reducible repeat' first | assumption | apply KeptAns.done

theorem kept_execNop (x1 : Hdr) (b : Body) (s : State) (h0 : Kept q τ W r₀ s) [Can W .sent] [Can W .regs] [Can W .cmd] [Can W .obs]
    [Can W .evr] : KeptOut q τ W r₀ (execNop x1 b s) := by
  unfold execNop
  with_reducible repeat' first | assumption | apply kept_run | apply kept_ansNop

theorem kept_execSessionClose (x1 : Hdr) (b : Body) (s : State) (h0 : Kept q τ W r₀ s) [Can W .sent] [Can W .regs] [Can W .cmd]
    [Can W .obs] [Can W .evr] : KeptOut q τ W r₀ (execSessionClose x1 b s) := by
  unfold execSessionClose
  with_reducible repeat' first
    | assumption | apply kept_settleCloses | apply kept_runCommand | apply kept_ansSessionClose | intro s₁ h₁ | apply KeptOut.next

theorem kept_execSlowBlockWrite (x1 : ℕ) (bytes : List ℕ) (pecOk : Bool) (s : State) (h0 : Kept q τ W r₀ s) [Can W .cmd]
    : KeptOut q τ W r₀ (execSlowBlockWrite x1 bytes pecOk s) := by
  unfold execSlowBlockWrite
  with_reducible repeat' first | assumption | apply kept_ev | apply kept_slowAppend | intro s₁ h₁

theorem kept_execSessionIdleTimeout (x1 : ℕ) (session : ℕ) (s : State) (h0 : Kept q τ W r₀ s) [Can W .cmd] : KeptOut q τ W r₀
    (execSessionIdleTimeout x1 session s) := by
  unfold execSessionIdleTimeout
  with_reducible repeat' first | assumption | apply kept_ev | apply kept_idleOut | intro s₁ h₁

theorem kept_execSessionChallenge (x1 : Hdr) (b : Body) (s : State) (h0 : Kept q τ W r₀ s) [Can W .freeCount] [Can W .sent]
    [Can W .regs] [Can W .cmd] [Can W .eng] [Can W .obs] [Can W .evr] : KeptOut q τ W r₀ (execSessionChallenge x1 b s) := by
  unfold execSessionChallenge
  with_reducible repeat' first | assumption | apply kept_run | apply kept_ansSessionChallenge | intro s₁ h₁

theorem kept_execEventSubscribe (x1 : Hdr) (b : Body) (mailbox : ℕ) (classes : List NotifyClass) (s : State) (h0 : Kept q τ W r₀ s)
    [Can W .sent] [Can W .regs] [Can W .cmd] [Can W .obs] [Can W .evr] : KeptOut q τ W r₀
    (execEventSubscribe x1 b mailbox classes s) := by
  unfold execEventSubscribe
  with_reducible repeat' first
    | assumption | (extract_lets +onlyGivenNames x; clear_value x; revert x; intro _) | apply kept_run | apply kept_ansEventSubscribe
    | intro s₁ h₁

theorem kept_execSessionOpen (x1 : Hdr) (b : Body) (cred : Cred) (challenge : ℕ) (pub : ℕ) (ek : List Word) (ok : Bool) (s : State) (h0
    : Kept q τ W r₀ s) [Can W .freeCount] [Can W .sent] [Can W .regs] [Can W .cmd] [Can W .eng] [Can W .obs] [Can W .evr]
    : KeptOut q τ W r₀ (execSessionOpen x1 b cred challenge pub ek ok s) := by
  unfold execSessionOpen
  with_reducible repeat' first | assumption | apply kept_run | apply kept_ansSessionOpen | intro s₁ h₁

end Sys2Proof.Machine
end

