-- ==== Sys2Proof/Laws/KeptLink.lean ====
section
/-! SUPPORT. What every operation keeps: ports, lanes and time. One lemma for each function; `Kept` is defined in Laws/Kept.lean. -/
namespace Sys2Proof.Machine
open Sys2Proof
set_option linter.unusedSimpArgs false
set_option linter.unusedTactic false
set_option linter.unreachableTactic false
variable {q : List Instr} {τ : Nat} {W : Part → Bool} {r₀ : State}

/-! ## Port -/

theorem kept_verifyAttempt (sp : ℕ) (answered : Bool) (s : State) (h0 : Kept q τ W r₀ s) [Can W .port] : Kept q τ W r₀
    (verifyAttempt sp answered s) := by
  unfold verifyAttempt
  with_reducible repeat' first
    | assumption | (extract_lets +onlyGivenNames x; clear_value x; revert x; intro _) | apply kept_setSub | split

theorem kept_execMmVerifyAttempt (x1 : ℕ) (sp : ℕ) (answered : Bool) (s : State) (h0 : Kept q τ W r₀ s) [Can W .port] : KeptOut q τ W r₀
    (execMmVerifyAttempt x1 sp answered s) := by
  unfold execMmVerifyAttempt
  with_reducible repeat' first | assumption | apply kept_ev | apply kept_verifyAttempt | intro s₁ h₁

theorem kept_watchdogTrip (sp : ℕ) (c : ℕ) (s : State) (h0 : Kept q τ W r₀ s) [Can W .regs] [Can W .port] [Can W .obs] [Can W .evr]
    : Kept q τ W r₀ (watchdogTrip sp c s) := by
  unfold watchdogTrip
  with_reducible repeat' first
    | assumption | (extract_lets +onlyGivenNames x; clear_value x; revert x; intro _) | apply kept_record | apply kept_setSub | split

theorem kept_lineCount (p : ℕ) (tx : ℕ) (i : ℕ) (n : ℕ) (s : State) (h0 : Kept q τ W r₀ s) [Can W .sent] [Can W .regs] [Can W .cmd]
    [Can W .port] [Can W .obs] : Kept q τ W r₀ (lineCount p tx i n s) := by
  unfold lineCount
  with_reducible repeat' first
    | assumption
    | (extract_lets +onlyGivenNames x; refine (?_ : Kept q τ W r₀ x → _) (?_ : Kept q τ W r₀ x); intro hx; clear_value x; revert x; intro _ _;
        rotate_left; dsimp -zeta only [x]; clear x)
    | (extract_lets +onlyGivenNames x; clear_value x; revert x; intro _) | apply kept_raise | apply kept_notify
    | simp -zeta only [kept_mk, can, true_or, or_true] | split

theorem kept_txDrop (sp : ℕ) (s : State) (h0 : Kept q τ W r₀ s) [Can W .sent] [Can W .regs] [Can W .cmd] [Can W .port] [Can W .obs]
    : Kept q τ W r₀ (txDrop sp s) := by
  unfold txDrop
  with_reducible repeat' first | assumption | apply kept_subCount | apply kept_lineCount | split

theorem kept_leaveQueues (id : ℕ) (s : State) (h0 : Kept q τ W r₀ s) [Can W .que] [Can W .obs] : Kept q τ W r₀ (leaveQueues id s) := by
  unfold leaveQueues
  with_reducible repeat' first
    | assumption | (extract_lets +onlyGivenNames x; clear_value x; revert x; intro _) | apply kept_perf
    | simp -zeta only [kept_mk, can, true_or, or_true]

theorem kept_updFrame (id : ℕ) (f : Held → Held) (s : State) (h0 : Kept q τ W r₀ s) [Can W .brk] [Can W .que] : Kept q τ W r₀
    (updFrame id f s) := by
  unfold updFrame
  with_reducible repeat' first
    | assumption | (extract_lets +onlyGivenNames x; clear_value x; revert x; intro _) | simp -zeta only [kept_mk, can, true_or, or_true]

theorem kept_dropUnits (p : ℕ) (s : State) (h0 : Kept q τ W r₀ s) [Can W .sent] [Can W .regs] [Can W .cmd] [Can W .port] [Can W .brk]
    [Can W .trk] [Can W .que] [Can W .obs] : Kept q τ W r₀ (dropUnits p s) := by
  unfold dropUnits
  with_reducible repeat' first
    | assumption
    | (extract_lets +onlyGivenNames x; refine (?_ : Kept q τ W r₀ x → _) (?_ : Kept q τ W r₀ x); intro hx; clear_value x; revert x; intro _ _;
        rotate_left; dsimp -zeta only [x]; clear x)
    | (extract_lets +onlyGivenNames x; clear_value x; revert x; intro _) | apply kept_txDrop | apply kept_leaveQueues
    | apply kept_updFrame | apply kept_setTrunk | refine kept_foldl _ _ ?_ (fun s₁ x₁ h₁ => ?_) | split

theorem kept_setLane (n : ℕ) (f : Lane → Lane) (s : State) (h0 : Kept q τ W r₀ s) [Can W .lane] : Kept q τ W r₀ (setLane n f s) := by
  unfold setLane
  with_reducible repeat' first
    | assumption | (extract_lets +onlyGivenNames x; clear_value x; revert x; intro _) | simp -zeta only [kept_mk, can, true_or, or_true]

theorem kept_takeDown (sp : ℕ) (s : State) (h0 : Kept q τ W r₀ s) [Can W .sent] [Can W .regs] [Can W .cmd] [Can W .lane] [Can W .port]
    [Can W .brk] [Can W .trk] [Can W .que] [Can W .obs] : Kept q τ W r₀ (takeDown sp s) := by
  unfold takeDown
  with_reducible repeat' first
    | assumption
    | (extract_lets +onlyGivenNames x; refine (?_ : Kept q τ W r₀ x → _) (?_ : Kept q τ W r₀ x); intro hx; clear_value x; revert x; intro _ _;
        rotate_left; dsimp -zeta only [x]; clear x)
    | (extract_lets +onlyGivenNames x; clear_value x; revert x; intro _) | apply kept_txDrop | apply kept_leaveQueues
    | apply kept_dropUnits | apply kept_setSub | apply kept_setLane | refine kept_foldl _ _ ?_ (fun s₁ x₁ h₁ => ?_) | split

theorem kept_leaveBrick (id : ℕ) (s : State) (h0 : Kept q τ W r₀ s) [Can W .brk] : Kept q τ W r₀ (leaveBrick id s) := by
  unfold leaveBrick
  with_reducible repeat' first
    | assumption | (extract_lets +onlyGivenNames x; clear_value x; revert x; intro _) | simp -zeta only [kept_mk, can, true_or, or_true]

theorem kept_startVerify (sp : ℕ) (s : State) (h0 : Kept q τ W r₀ s) [Can W .port] : Kept q τ W r₀ (startVerify sp s) := by
  unfold startVerify
  with_reducible repeat' first
    | assumption | (extract_lets +onlyGivenNames x; clear_value x; revert x; intro _) | apply kept_setSub | split

theorem kept_adaptLane (n : ℕ) (s : State) (h0 : Kept q τ W r₀ s) [Can W .freeCount] [Can W .lane] : Kept q τ W r₀ (adaptLane n s) := by
  unfold adaptLane
  with_reducible repeat' first | assumption | apply kept_drawBits | apply kept_drawWords | apply kept_setLane

theorem kept_lockLane (n : ℕ) (s : State) (h0 : Kept q τ W r₀ s) [Can W .freeCount] [Can W .lane] : Kept q τ W r₀ (lockLane n s) := by
  unfold lockLane
  with_reducible repeat' first
    | assumption
    | (extract_lets +onlyGivenNames x; refine (?_ : Kept q τ W r₀ x → _) (?_ : Kept q τ W r₀ x); intro hx; clear_value x; revert x; intro _ _;
        rotate_left; dsimp -zeta only [x]; clear x)
    | (extract_lets +onlyGivenNames x; clear_value x; revert x; intro _) | apply kept_setLane | apply kept_adaptLane | split

theorem kept_linkUp (sp : ℕ) (s : State) (h0 : Kept q τ W r₀ s) [Can W .freeCount] [Can W .lane] [Can W .port] : Kept q τ W r₀
    (linkUp sp s) := by
  unfold linkUp
  with_reducible repeat' first
    | assumption
    | (extract_lets +onlyGivenNames x; refine (?_ : Kept q τ W r₀ x → _) (?_ : Kept q τ W r₀ x); intro hx; clear_value x; revert x; intro _ _;
        rotate_left; dsimp -zeta only [x]; clear x)
    | (extract_lets +onlyGivenNames x; clear_value x; revert x; intro _) | apply kept_setSub | apply kept_startVerify
    | apply kept_lockLane | refine kept_foldl _ _ ?_ (fun s₁ x₁ h₁ => ?_) | split

theorem kept_pollCounters (s : State) (h0 : Kept q τ W r₀ s) [Can W .regs] [Can W .port] : Kept q τ W r₀ (pollCounters s) := by
  unfold pollCounters
  with_reducible repeat' first
    | assumption | (extract_lets +onlyGivenNames x; clear_value x; revert x; intro _) | apply kept_setReg
    | simp -zeta only [kept_mk, can, true_or, or_true] | refine kept_foldl _ _ ?_ (fun s₁ x₁ h₁ => ?_)

theorem kept_execCounterPoll (x1 : ℕ) (s : State) (h0 : Kept q τ W r₀ s) [Can W .regs] [Can W .port] : KeptOut q τ W r₀
    (execCounterPoll x1 s) := by
  unfold execCounterPoll
  with_reducible repeat' first | assumption | apply kept_ev | apply kept_pollCounters | intro s₁ h₁ | split

theorem kept_remoteFault (sp : ℕ) (on : Bool) (s : State) (h0 : Kept q τ W r₀ s) [Can W .port] : Kept q τ W r₀ (remoteFault sp on s) := by
  unfold remoteFault
  with_reducible repeat' first
    | assumption | (extract_lets +onlyGivenNames x; clear_value x; revert x; intro _) | apply kept_setSub | split

theorem kept_watchdogEnd (sp : ℕ) (c : ℕ) (s : State) (h0 : Kept q τ W r₀ s) [Can W .port] : Kept q τ W r₀ (watchdogEnd sp c s) := by
  unfold watchdogEnd
  with_reducible repeat' first
    | assumption | (extract_lets +onlyGivenNames x; clear_value x; revert x; intro _) | apply kept_setSub | split

theorem kept_execPauseWatchdogEnd (x1 : ℕ) (sp : ℕ) (cls : ℕ) (s : State) (h0 : Kept q τ W r₀ s) [Can W .port] : KeptOut q τ W r₀
    (execPauseWatchdogEnd x1 sp cls s) := by
  unfold execPauseWatchdogEnd
  with_reducible repeat' first | assumption | apply kept_ev | apply kept_watchdogEnd | intro s₁ h₁

theorem kept_countRx (sp : ℕ) (f : Frame) (s : State) (h0 : Kept q τ W r₀ s) [Can W .sent] [Can W .regs] [Can W .cmd] [Can W .port]
    [Can W .obs] : Kept q τ W r₀ (countRx sp f s) := by
  unfold countRx
  with_reducible repeat' first
    | assumption
    | (extract_lets +onlyGivenNames x; refine (?_ : Kept q τ W r₀ x → _) (?_ : Kept q τ W r₀ x); intro hx; clear_value x; revert x; intro _ _;
        rotate_left; dsimp -zeta only [x]; clear x)
    | (extract_lets +onlyGivenNames x; clear_value x; revert x; intro _) | apply kept_subCount | apply kept_lineCount | split

theorem kept_execRemoteFaultClear (x1 : ℕ) (sp : ℕ) (s : State) (h0 : Kept q τ W r₀ s) [Can W .port] : KeptOut q τ W r₀
    (execRemoteFaultClear x1 sp s) := by
  unfold execRemoteFaultClear
  with_reducible repeat' first | assumption | apply kept_ev | apply kept_remoteFault | intro s₁ h₁

theorem kept_rxDrop (sp : ℕ) (s : State) (h0 : Kept q τ W r₀ s) [Can W .sent] [Can W .regs] [Can W .cmd] [Can W .port] [Can W .obs]
    : Kept q τ W r₀ (rxDrop sp s) := by
  unfold rxDrop
  with_reducible repeat' first | assumption | apply kept_subCount | apply kept_lineCount | split

theorem kept_offerCapture (sp : ℕ) (flags : ℕ) (len : ℕ) (sc : ℕ) (st : ℕ) (raw : List Word) (s : State) (h0 : Kept q τ W r₀ s)
    [Can W .regs] [Can W .port] : Kept q τ W r₀ (offerCapture sp flags len sc st raw s) := by
  unfold offerCapture
  with_reducible repeat' first
    | assumption
    | (extract_lets +onlyGivenNames x; refine (?_ : Kept q τ W r₀ x → _) (?_ : Kept q τ W r₀ x); intro hx; clear_value x; revert x; intro _ _;
        rotate_left; dsimp -zeta only [x]; clear x)
    | (extract_lets +onlyGivenNames x; clear_value x; revert x; intro _) | apply kept_bumpFld
    | simp -zeta only [kept_mk, can, true_or, or_true] | split

theorem kept_failedRx (sp : ℕ) (f : Frame) (st : ℕ) (s : State) (h0 : Kept q τ W r₀ s) [Can W .regs] [Can W .port] : KeptOpt q τ W r₀
    (failedRx sp f st s) := by
  unfold failedRx
  with_reducible repeat' first | assumption | apply kept_offerCapture | exact keptOpt_none | apply keptOpt_some | split

theorem kept_pauseClass (sp : ℕ) (c : ℕ) (d : ℕ) (pfc : Bool) (s : State) (h0 : Kept q τ W r₀ s) [Can W .port] : Kept q τ W r₀
    (pauseClass sp c d pfc s) := by
  unfold pauseClass
  with_reducible repeat' first
    | assumption
    | (extract_lets +onlyGivenNames x; refine (?_ : Kept q τ W r₀ x → _) (?_ : Kept q τ W r₀ x); intro hx; clear_value x; revert x; intro _ _;
        rotate_left; dsimp -zeta only [x]; clear x)
    | (extract_lets +onlyGivenNames x; clear_value x; revert x; intro _) | apply kept_setSub | split

theorem kept_macControl (sp : ℕ) (f : Frame) (s : State) (h0 : Kept q τ W r₀ s) [Can W .sent] [Can W .regs] [Can W .cmd] [Can W .port]
    [Can W .obs] : Kept q τ W r₀ (macControl sp f s) := by
  unfold macControl
  with_reducible repeat' first
    | assumption
    | (extract_lets +onlyGivenNames x; refine (?_ : Kept q τ W r₀ x → _) (?_ : Kept q τ W r₀ x); intro hx; clear_value x; revert x; intro _ _;
        rotate_left; dsimp -zeta only [x]; clear x)
    | (extract_lets +onlyGivenNames x; clear_value x; revert x; intro _) | apply kept_countRx | apply kept_rxDrop | apply kept_failedRx
    | apply kept_subCount | apply kept_lineCount | apply kept_pauseClass | refine kept_foldl _ _ ?_ (fun s₁ x₁ h₁ => ?_) | split
    | refine kept_opt (by assumption) ?_

theorem kept_mgmtIn (sp : ℕ) (f : Frame) (s : State) (h0 : Kept q τ W r₀ s) [Can W .sent] [Can W .regs] [Can W .cmd] [Can W .port]
    [Can W .obs] : Kept q τ W r₀ (mgmtIn sp f s) := by
  unfold mgmtIn
  with_reducible repeat' first | assumption | apply kept_macControl | apply kept_rxDrop | apply kept_countRx | split

theorem kept_mgmtFrame (k : ℕ) (f : Frame) (s : State) (h0 : Kept q τ W r₀ s) [Can W .sent] [Can W .regs] [Can W .cmd] [Can W .port]
    [Can W .obs] : Kept q τ W r₀ (mgmtFrame k f s) := by
  unfold mgmtFrame
  with_reducible repeat' first | assumption | apply kept_mgmtIn

theorem kept_ansPortStatsRead (b : Body) (s : State) (h0 : Kept q τ W r₀ s) : KeptAns q τ W r₀ (ansPortStatsRead b s) := by
  unfold ansPortStatsRead
  with_reducible repeat' first
    | assumption | (extract_lets +onlyGivenNames x; clear_value x; revert x; intro _) | exact KeptAns.fail | apply KeptAns.done | split

theorem kept_ansCaptureRead (b : Body) (s : State) (h0 : Kept q τ W r₀ s) [Can W .regs] [Can W .port] : KeptAns q τ W r₀
    (ansCaptureRead b s) := by
  unfold ansCaptureRead
  with_reducible repeat' first
    | assumption | (extract_lets +onlyGivenNames x; clear_value x; revert x; intro _) | apply kept_setFld
    | simp -zeta only [kept_mk, can, true_or, or_true] | apply KeptAns.done

theorem kept_execCaptureRead (x1 : Hdr) (b : Body) (s : State) (h0 : Kept q τ W r₀ s) [Can W .sent] [Can W .regs] [Can W .cmd]
    [Can W .port] [Can W .obs] [Can W .evr] : KeptOut q τ W r₀ (execCaptureRead x1 b s) := by
  unfold execCaptureRead
  with_reducible repeat' first | assumption | apply kept_run | apply kept_ansCaptureRead | intro s₁ h₁

theorem kept_pauseExpire (sp : ℕ) (c : ℕ) (s : State) (h0 : Kept q τ W r₀ s) [Can W .port] : Kept q τ W r₀ (pauseExpire sp c s) := by
  unfold pauseExpire
  with_reducible repeat' first
    | assumption | (extract_lets +onlyGivenNames x; clear_value x; revert x; intro _) | apply kept_setSub | split

theorem kept_trunkLos (p : ℕ) (s : State) (h0 : Kept q τ W r₀ s) [Can W .regs] [Can W .trk] [Can W .obs] [Can W .evr] : Kept q τ W r₀
    (trunkLos p s) := by
  unfold trunkLos
  with_reducible repeat' first
    | assumption | (extract_lets +onlyGivenNames x; clear_value x; revert x; intro _) | apply kept_record | apply kept_setTrunk | split

theorem kept_powerLanes (s : State) (h0 : Kept q τ W r₀ s) [Can W .lane] : Kept q τ W r₀ (powerLanes s) := by
  unfold powerLanes
  with_reducible repeat' first | assumption | apply kept_setLane | refine kept_foldl _ _ ?_ (fun s₁ x₁ h₁ => ?_)

theorem kept_countTx (sp : ℕ) (len : ℕ) (dst : ℕ) (stomp : Bool) (s : State) (h0 : Kept q τ W r₀ s) [Can W .sent] [Can W .regs]
    [Can W .cmd] [Can W .port] [Can W .obs] : Kept q τ W r₀ (countTx sp len dst stomp s) := by
  unfold countTx
  with_reducible repeat' first
    | assumption
    | (extract_lets +onlyGivenNames x; refine (?_ : Kept q τ W r₀ x → _) (?_ : Kept q τ W r₀ x); intro hx; clear_value x; revert x; intro _ _;
        rotate_left; dsimp -zeta only [x]; clear x)
    | (extract_lets +onlyGivenNames x; clear_value x; revert x; intro _) | apply kept_subCount | apply kept_lineCount | split

theorem kept_execPortStatsRead (x1 : Hdr) (b : Body) (s : State) (h0 : Kept q τ W r₀ s) [Can W .sent] [Can W .regs] [Can W .cmd]
    [Can W .obs] [Can W .evr] : KeptOut q τ W r₀ (execPortStatsRead x1 b s) := by
  unfold execPortStatsRead
  with_reducible repeat' first | assumption | apply kept_run | apply kept_ansPortStatsRead

theorem kept_execMacControlRx (x1 : ℕ) (sp : ℕ) (frame : Frame) (s : State) (h0 : Kept q τ W r₀ s) [Can W .sent] [Can W .regs]
    [Can W .cmd] [Can W .port] [Can W .obs] : KeptOut q τ W r₀ (execMacControlRx x1 sp frame s) := by
  unfold execMacControlRx
  with_reducible repeat' first | assumption | apply kept_ev | apply kept_macControl | intro s₁ h₁

theorem kept_dropFrame (id : ℕ) (s : State) (h0 : Kept q τ W r₀ s) [Can W .brk] [Can W .que] [Can W .obs] : Kept q τ W r₀
    (dropFrame id s) := by
  unfold dropFrame
  with_reducible repeat' first | assumption | apply kept_leaveBrick | apply kept_leaveQueues

theorem kept_execRemoteFaultRx (x1 : ℕ) (sp : ℕ) (s : State) (h0 : Kept q τ W r₀ s) [Can W .port] : KeptOut q τ W r₀
    (execRemoteFaultRx x1 sp s) := by
  unfold execRemoteFaultRx
  with_reducible repeat' first | assumption | apply kept_ev | apply kept_remoteFault | intro s₁ h₁

theorem kept_execPauseTimeExpiry (x1 : ℕ) (sp : ℕ) (cls : ℕ) (s : State) (h0 : Kept q τ W r₀ s) [Can W .port] : KeptOut q τ W r₀
    (execPauseTimeExpiry x1 sp cls s) := by
  unfold execPauseTimeExpiry
  with_reducible repeat' first | assumption | apply kept_ev | apply kept_pauseExpire | intro s₁ h₁

theorem kept_execMgmtPortFrameRx (x1 : ℕ) (mp : ℕ) (frame : Frame) (s : State) (h0 : Kept q τ W r₀ s) [Can W .sent] [Can W .regs]
    [Can W .cmd] [Can W .port] [Can W .obs] : KeptOut q τ W r₀ (execMgmtPortFrameRx x1 mp frame s) := by
  unfold execMgmtPortFrameRx
  with_reducible repeat' first | assumption | apply kept_ev | apply kept_mgmtFrame | intro s₁ h₁

theorem kept_linkDown (sp : ℕ) (fault : Bool) (s : State) (h0 : Kept q τ W r₀ s) [Can W .sent] [Can W .regs] [Can W .cmd] [Can W .lane]
    [Can W .port] [Can W .brk] [Can W .trk] [Can W .que] [Can W .obs] [Can W .evr] : Kept q τ W r₀ (linkDown sp fault s) := by
  unfold linkDown
  with_reducible repeat' first
    | assumption
    | (extract_lets +onlyGivenNames x; refine (?_ : Kept q τ W r₀ x → _) (?_ : Kept q τ W r₀ x); intro hx; clear_value x; revert x; intro _ _;
        rotate_left; dsimp -zeta only [x]; clear x)
    | (extract_lets +onlyGivenNames x; clear_value x; revert x; intro _) | apply kept_trunkLos | apply kept_takeDown | apply kept_setSub
    | split

theorem kept_execLinkUp (x1 : ℕ) (sp : ℕ) (s : State) (h0 : Kept q τ W r₀ s) [Can W .freeCount] [Can W .lane] [Can W .port]
    : KeptOut q τ W r₀ (execLinkUp x1 sp s) := by
  unfold execLinkUp
  with_reducible repeat' first | assumption | apply kept_ev | apply kept_linkUp | intro s₁ h₁

theorem kept_execPauseWatchdogTrip (x1 : ℕ) (sp : ℕ) (cls : ℕ) (s : State) (h0 : Kept q τ W r₀ s) [Can W .regs] [Can W .port]
    [Can W .obs] [Can W .evr] : KeptOut q τ W r₀ (execPauseWatchdogTrip x1 sp cls s) := by
  unfold execPauseWatchdogTrip
  with_reducible repeat' first | assumption | apply kept_ev | apply kept_watchdogTrip | intro s₁ h₁

/-! ## Lane -/

theorem kept_ansLaneMargin (x1 : Hdr) (b : Body) (s : State) (h0 : Kept q τ W r₀ s) [Can W .cmd] [Can W .lane] : KeptAns q τ W r₀
    (ansLaneMargin x1 b s) := by
  unfold ansLaneMargin
  with_reducible repeat' first
    | assumption
    | (extract_lets +onlyGivenNames x; refine (?_ : Kept q τ W r₀ x → _) (?_ : Kept q τ W r₀ x); intro hx; clear_value x; revert x; intro _ _;
        rotate_left; dsimp -zeta only [x]; clear x)
    | (extract_lets +onlyGivenNames x; clear_value x; revert x; intro _) | apply kept_startOp
    | simp -zeta only [kept_mk, can, true_or, or_true] | exact KeptAns.fail | apply KeptAns.prog | split

theorem kept_execLaneMargin (x1 : Hdr) (b : Body) (s : State) (h0 : Kept q τ W r₀ s) [Can W .sent] [Can W .regs] [Can W .cmd]
    [Can W .lane] [Can W .obs] [Can W .evr] : KeptOut q τ W r₀ (execLaneMargin x1 b s) := by
  unfold execLaneMargin
  with_reducible repeat' first | assumption | apply kept_run | apply kept_ansLaneMargin | intro s₁ h₁

theorem kept_refRestore (x1 : ℕ) (s : State) (h0 : Kept q τ W r₀ s) [Can W .lane] : Kept q τ W r₀ (refRestore x1 s) := by
  unfold refRestore
  with_reducible repeat' first
    | assumption | (extract_lets +onlyGivenNames x; clear_value x; revert x; intro _) | simp -zeta only [kept_mk, can, true_or, or_true]
    | split

theorem kept_setBondLane (l : ℕ) (x : BondLane) (s : State) (h0 : Kept q τ W r₀ s) [Can W .lane] : Kept q τ W r₀ (setBondLane l x s) := by
  unfold setBondLane
  with_reducible repeat' first
    | assumption | (extract_lets +onlyGivenNames x; clear_value x; revert x; intro _) | simp -zeta only [kept_mk, can, true_or, or_true]
    | split

theorem kept_laneOut (l : ℕ) (s : State) (h0 : Kept q τ W r₀ s) [Can W .lane] : Kept q τ W r₀ (laneOut l s) := by
  unfold laneOut
  with_reducible repeat' first
    | assumption | (extract_lets +onlyGivenNames x; clear_value x; revert x; intro _) | simp -zeta only [kept_mk, can, true_or, or_true]
    | split

theorem kept_enterBuffer (l : ℕ) (grout : Bool) (s : State) (h0 : Kept q τ W r₀ s) [Can W .regs] [Can W .lane] : Kept q τ W r₀
    (enterBuffer l grout s) := by
  unfold enterBuffer
  with_reducible repeat' first
    | assumption
    | (extract_lets +onlyGivenNames x; refine (?_ : Kept q τ W r₀ x → _) (?_ : Kept q τ W r₀ x); intro hx; clear_value x; revert x; intro _ _;
        rotate_left; dsimp -zeta only [x]; clear x)
    | (extract_lets +onlyGivenNames x; clear_value x; revert x; intro _) | apply kept_setBondLane | apply kept_laneOut | apply kept_raise
    | split

theorem kept_laneIn (l : ℕ) (s : State) (h0 : Kept q τ W r₀ s) [Can W .freeCount] [Can W .lane] : Kept q τ W r₀ (laneIn l s) := by
  unfold laneIn
  with_reducible repeat' first
    | assumption | (extract_lets +onlyGivenNames x; clear_value x; revert x; intro _) | apply kept_setBondLane | apply kept_lockLane
    | split

theorem kept_blockError (l : ℕ) (s : State) (h0 : Kept q τ W r₀ s) [Can W .regs] [Can W .bnd] : Kept q τ W r₀ (blockError l s) := by
  unfold blockError
  with_reducible repeat' first
    | assumption | (extract_lets +onlyGivenNames x; clear_value x; revert x; intro _) | apply kept_bumpFld
    | simp -zeta only [kept_mk, can, true_or, or_true]

theorem kept_markerBlock (l : ℕ) (blk : List Bool) (s : State) (h0 : Kept q τ W r₀ s) [Can W .freeCount] [Can W .regs] [Can W .lane]
    [Can W .bnd] : Kept q τ W r₀ (markerBlock l blk s) := by
  unfold markerBlock
  with_reducible repeat' first
    | assumption
    | (extract_lets +onlyGivenNames x; refine (?_ : Kept q τ W r₀ x → _) (?_ : Kept q τ W r₀ x); intro hx; clear_value x; revert x; intro _ _;
        rotate_left; dsimp -zeta only [x]; clear x)
    | (extract_lets +onlyGivenNames x; clear_value x; revert x; intro _) | apply kept_enterBuffer | apply kept_setBondLane
    | apply kept_laneIn | apply kept_blockError | apply kept_laneOut | split

theorem kept_plainBlock (l : ℕ) (blk : List Bool) (s : State) (h0 : Kept q τ W r₀ s) [Can W .regs] [Can W .lane] [Can W .bnd]
    : Kept q τ W r₀ (plainBlock l blk s) := by
  unfold plainBlock
  with_reducible repeat' first
    | assumption
    | (extract_lets +onlyGivenNames x; refine (?_ : Kept q τ W r₀ x → _) (?_ : Kept q τ W r₀ x); intro hx; clear_value x; revert x; intro _ _;
        rotate_left; dsimp -zeta only [x]; clear x)
    | (extract_lets +onlyGivenNames x; clear_value x; revert x; intro _) | apply kept_setBondLane | apply kept_enterBuffer
    | apply kept_blockError | simp -zeta only [kept_mk, can, true_or, or_true] | split

theorem kept_takeBlocks (l n : Nat) (s : State) (h0 : Kept q τ W r₀ s) [Can W .freeCount] [Can W .regs] [Can W .lane] [Can W .bnd]
    : Kept q τ W r₀ (takeBlocks l n s) := by
  induction n generalizing s with
  | zero => exact h0
  | succ n ih =>
    unfold takeBlocks
    extract_lets
    split
    · exact kept_setBondLane _ _ _ h0
    · split
      · refine ih _ ?_
        split
        · exact kept_markerBlock _ _ _ (kept_setBondLane _ _ _ h0)
        · exact kept_plainBlock _ _ _ (kept_setBondLane _ _ _ h0)
      · exact ih _ (kept_setBondLane _ _ _ h0)

theorem kept_prbsLane (n : ℕ) (action : ℕ) (pattern : ℕ) (s : State) (h0 : Kept q τ W r₀ s) [Can W .freeCount] [Can W .lane]
    : Kept q τ W r₀ (prbsLane n action pattern s).1 := by
  unfold prbsLane
  with_reducible repeat' first
    | assumption
    | (extract_lets +onlyGivenNames x; refine (?_ : Kept q τ W r₀ x → _) (?_ : Kept q τ W r₀ x); intro hx; clear_value x; revert x; intro _ _;
        rotate_left; dsimp -zeta only [x]; clear x)
    | (extract_lets +onlyGivenNames x; clear_value x; revert x; intro _) | apply kept_drawBits | apply kept_setLane | apply kept_lockLane
    | simp -zeta only [kept_mk, can, true_or, or_true] | split

theorem kept_ansLanePrbs (b : Body) (s : State) (h0 : Kept q τ W r₀ s) [Can W .freeCount] [Can W .lane] : KeptAns q τ W r₀
    (ansLanePrbs b s) := by
  unfold ansLanePrbs
  with_reducible repeat' first
    | assumption | (extract_lets +onlyGivenNames x; clear_value x; revert x; intro _) | apply kept_prbsLane
    | simp -zeta only [kept_mk, can, true_or, or_true] | refine kept_foldlFst _ _ ?_ (fun s₁ x₁ h₁ => ?_) | exact KeptAns.fail
    | apply KeptAns.done | split

theorem kept_execBondLaneOutOfFrame (x1 : ℕ) (lane : ℕ) (s : State) (h0 : Kept q τ W r₀ s) [Can W .lane] : KeptOut q τ W r₀
    (execBondLaneOutOfFrame x1 lane s) := by
  unfold execBondLaneOutOfFrame
  with_reducible repeat' first | assumption | apply kept_ev | apply kept_laneOut | intro s₁ h₁ | split

theorem kept_execLanePrbs (x1 : Hdr) (b : Body) (s : State) (h0 : Kept q τ W r₀ s) [Can W .freeCount] [Can W .sent] [Can W .regs]
    [Can W .cmd] [Can W .lane] [Can W .obs] [Can W .evr] : KeptOut q τ W r₀ (execLanePrbs x1 b s) := by
  unfold execLanePrbs
  with_reducible repeat' first | assumption | apply kept_run | apply kept_ansLanePrbs | intro s₁ h₁

theorem kept_marginElem (n : ℕ) (s : State) (h0 : Kept q τ W r₀ s) [Can W .freeCount] : Kept q τ W r₀ (marginElem n s).1 := by
  unfold marginElem
  with_reducible repeat' first
    | assumption | (extract_lets +onlyGivenNames x; clear_value x; revert x; intro _) | apply kept_drawWords
    | simp -zeta only [kept_mk, can, true_or, or_true] | split

theorem kept_marginGroup (s : State) (h0 : Kept q τ W r₀ s) [Can W .freeCount] [Can W .sent] [Can W .regs] [Can W .cmd] [Can W .lane]
    [Can W .obs] : Kept q τ W r₀ (marginGroup s) := by
  unfold marginGroup
  with_reducible repeat' first
    | assumption | (extract_lets +onlyGivenNames x; clear_value x; revert x; intro _) | apply kept_marginElem | apply kept_endOp
    | simp -zeta only [kept_mk, can, true_or, or_true] | refine kept_foldlFst _ _ ?_ (fun s₁ x₁ h₁ => ?_) | split

theorem kept_execLaneMarginGroupDone (x1 : ℕ) (s : State) (h0 : Kept q τ W r₀ s) [Can W .freeCount] [Can W .sent] [Can W .regs]
    [Can W .cmd] [Can W .lane] [Can W .obs] : KeptOut q τ W r₀ (execLaneMarginGroupDone x1 s) := by
  unfold execLaneMarginGroupDone
  with_reducible repeat' first | assumption | apply kept_ev | apply kept_marginGroup | intro s₁ h₁

theorem kept_takePortDown (p : ℕ) (s : State) (h0 : Kept q τ W r₀ s) [Can W .sent] [Can W .regs] [Can W .cmd] [Can W .lane]
    [Can W .port] [Can W .brk] [Can W .trk] [Can W .que] [Can W .obs] : Kept q τ W r₀ (takePortDown p s) := by
  unfold takePortDown
  with_reducible repeat' first | assumption | apply kept_takeDown | refine kept_foldl _ _ ?_ (fun s₁ x₁ h₁ => ?_)

theorem kept_refLoss (x1 : ℕ) (s : State) (h0 : Kept q τ W r₀ s) [Can W .sent] [Can W .regs] [Can W .cmd] [Can W .lane] [Can W .port]
    [Can W .brk] [Can W .trk] [Can W .que] [Can W .obs] [Can W .evr] : Kept q τ W r₀ (refLoss x1 s) := by
  unfold refLoss
  with_reducible repeat' first
    | assumption
    | (extract_lets +onlyGivenNames x; refine (?_ : Kept q τ W r₀ x → _) (?_ : Kept q τ W r₀ x); intro hx; clear_value x; revert x; intro _ _;
        rotate_left; dsimp -zeta only [x]; clear x)
    | (extract_lets +onlyGivenNames x; clear_value x; revert x; intro _) | apply kept_setLane | apply kept_takePortDown
    | apply kept_laneOut | apply kept_linkDown | simp -zeta only [kept_mk, can, true_or, or_true]
    | refine kept_foldl _ _ ?_ (fun s₁ x₁ h₁ => ?_) | split

theorem kept_nextBlock (l : ℕ) (s : State) (h0 : Kept q τ W r₀ s) [Can W .freeCount] [Can W .lane] : Kept q τ W r₀ (nextBlock l s).2 := by
  unfold nextBlock
  with_reducible repeat' first
    | assumption | (extract_lets +onlyGivenNames x; clear_value x; revert x; intro _) | apply kept_drawBits | apply kept_setBondLane
    | simp -zeta only [kept_mk, can, true_or, or_true] | split

theorem kept_sendBlock (l : ℕ) (s : State) (h0 : Kept q τ W r₀ s) [Can W .freeCount] [Can W .sent] [Can W .lane] : Kept q τ W r₀
    (sendBlock l s) := by
  unfold sendBlock
  with_reducible repeat' first
    | assumption | (extract_lets +onlyGivenNames x; clear_value x; revert x; intro _) | apply kept_nextBlock | apply kept_send
    | apply kept_setBondLane

theorem kept_bondBlock (l : ℕ) (b : BondBlock) (s : State) (h0 : Kept q τ W r₀ s) [Can W .freeCount] [Can W .sent] [Can W .regs]
    [Can W .lane] [Can W .bnd] : Kept q τ W r₀ (bondBlock l b s) := by
  unfold bondBlock
  with_reducible repeat' first
    | assumption
    | (extract_lets +onlyGivenNames x; refine (?_ : Kept q τ W r₀ x → _) (?_ : Kept q τ W r₀ x); intro hx; clear_value x; revert x; intro _ _;
        rotate_left; dsimp -zeta only [x]; clear x)
    | (extract_lets +onlyGivenNames x; clear_value x; revert x; intro _) | apply kept_sendBlock | apply kept_setBondLane
    | apply kept_blockError | apply kept_takeBlocks | simp -zeta only [kept_mk, can, true_or, or_true]
    | refine kept_foldl _ _ ?_ (fun s₁ x₁ h₁ => ?_) | split

theorem kept_execBondBlockRx (x1 : ℕ) (lane : ℕ) (blk : BondBlock) (s : State) (h0 : Kept q τ W r₀ s) [Can W .freeCount] [Can W .sent]
    [Can W .regs] [Can W .lane] [Can W .bnd] : KeptOut q τ W r₀ (execBondBlockRx x1 lane blk s) := by
  unfold execBondBlockRx
  with_reducible repeat' first | assumption | apply kept_ev | apply kept_bondBlock | intro s₁ h₁

theorem kept_execRefRestore (x1 : ℕ) (quad : ℕ) (s : State) (h0 : Kept q τ W r₀ s) [Can W .lane] : KeptOut q τ W r₀
    (execRefRestore x1 quad s) := by
  unfold execRefRestore
  with_reducible repeat' first | assumption | apply kept_ev | apply kept_refRestore | intro s₁ h₁

theorem kept_execBondLaneInFrame (x1 : ℕ) (lane : ℕ) (s : State) (h0 : Kept q τ W r₀ s) [Can W .freeCount] [Can W .lane]
    : KeptOut q τ W r₀ (execBondLaneInFrame x1 lane s) := by
  unfold execBondLaneInFrame
  with_reducible repeat' first | assumption | apply kept_ev | apply kept_laneIn | intro s₁ h₁ | split

/-! ## Time -/

theorem kept_saveTime (s : State) (h0 : Kept q τ W r₀ s) [Can W .time] : Kept q τ W r₀ (saveTime s) := by
  unfold saveTime
  with_reducible repeat' first
    | assumption | (extract_lets +onlyGivenNames x; clear_value x; revert x; intro _) | simp -zeta only [kept_mk, can, true_or, or_true]
    | split

theorem kept_ppsRise (s : State) (h0 : Kept q τ W r₀ s) [Can W .sent] [Can W .time] : Kept q τ W r₀ (ppsRise s) := by
  unfold ppsRise
  with_reducible repeat' first
    | assumption | (extract_lets +onlyGivenNames x; clear_value x; revert x; intro _) | apply kept_send
    | simp -zeta only [kept_mk, can, true_or, or_true] | split

theorem kept_execPpsOutEdge (x1 : ℕ) (s : State) (h0 : Kept q τ W r₀ s) [Can W .sent] [Can W .time] : KeptOut q τ W r₀
    (execPpsOutEdge x1 s) := by
  unfold execPpsOutEdge
  with_reducible repeat' first | assumption | apply kept_ev | apply kept_ppsRise | intro s₁ h₁

theorem kept_timeFault (cause : ℕ) (off : ℤ) (s : State) (h0 : Kept q τ W r₀ s) [Can W .sent] [Can W .regs] [Can W .cmd] [Can W .obs]
    [Can W .evr] : Kept q τ W r₀ (timeFault cause off s) := by
  unfold timeFault
  with_reducible repeat' first
    | assumption
    | (extract_lets +onlyGivenNames x; refine (?_ : Kept q τ W r₀ x → _) (?_ : Kept q τ W r₀ x); intro hx; clear_value x; revert x; intro _ _;
        rotate_left; dsimp -zeta only [x]; clear x)
    | apply kept_record | apply kept_raise | apply kept_notify

theorem kept_ppsBad (off : ℤ) (s : State) (h0 : Kept q τ W r₀ s) [Can W .sent] [Can W .regs] [Can W .cmd] [Can W .time] [Can W .obs]
    [Can W .evr] : Kept q τ W r₀ (ppsBad off s) := by
  unfold ppsBad
  with_reducible repeat' first
    | assumption
    | (extract_lets +onlyGivenNames x; refine (?_ : Kept q τ W r₀ x → _) (?_ : Kept q τ W r₀ x); intro hx; clear_value x; revert x; intro _ _;
        rotate_left; dsimp -zeta only [x]; clear x)
    | (extract_lets +onlyGivenNames x; clear_value x; revert x; intro _) | apply kept_timeFault
    | simp -zeta only [kept_mk, can, true_or, or_true] | split

theorem kept_ppsMissing (s : State) (h0 : Kept q τ W r₀ s) [Can W .sent] [Can W .regs] [Can W .cmd] [Can W .time] [Can W .obs]
    [Can W .evr] : Kept q τ W r₀ (ppsMissing s) := by
  unfold ppsMissing
  with_reducible repeat' first
    | assumption | (extract_lets +onlyGivenNames x; clear_value x; revert x; intro _) | apply kept_ppsBad
    | simp -zeta only [kept_mk, can, true_or, or_true] | split

theorem kept_refSwitch (sel : ℕ) (cause : ℕ) (s : State) (h0 : Kept q τ W r₀ s) [Can W .regs] [Can W .time] [Can W .obs] [Can W .evr]
    : Kept q τ W r₀ (refSwitch sel cause s) := by
  unfold refSwitch
  with_reducible repeat' first
    | assumption | (extract_lets +onlyGivenNames x; clear_value x; revert x; intro _) | apply kept_record
    | simp -zeta only [kept_mk, can, true_or, or_true] | split

theorem kept_refChoose (s : State) (h0 : Kept q τ W r₀ s) [Can W .regs] [Can W .time] [Can W .obs] [Can W .evr] : Kept q τ W r₀
    (refChoose s) := by
  unfold refChoose
  with_reducible repeat' first | assumption | apply kept_refSwitch | split

theorem kept_ref10Restore (s : State) (h0 : Kept q τ W r₀ s) [Can W .regs] [Can W .time] [Can W .obs] [Can W .evr] : Kept q τ W r₀
    (ref10Restore s) := by
  unfold ref10Restore
  with_reducible repeat' first
    | assumption | (extract_lets +onlyGivenNames x; clear_value x; revert x; intro _) | apply kept_refChoose
    | simp -zeta only [kept_mk, can, true_or, or_true]

theorem kept_setEgress (e : ℕ) (x : Egress) (s : State) (h0 : Kept q τ W r₀ s) [Can W .que] : Kept q τ W r₀ (setEgress e x s) := by
  unfold setEgress
  with_reducible repeat' first
    | assumption | (extract_lets +onlyGivenNames x; clear_value x; revert x; intro _) | simp -zeta only [kept_mk, can, true_or, or_true]

theorem kept_changeList (e : ℕ) (s : State) (h0 : Kept q τ W r₀ s) [Can W .que] : Kept q τ W r₀ (changeList e s) := by
  unfold changeList
  with_reducible repeat' first
    | assumption | (extract_lets +onlyGivenNames x; clear_value x; revert x; intro _) | apply kept_setEgress | split

theorem kept_stepGates (ft : ℕ) (d : ℤ) (s : State) (e : ℕ) (h0 : Kept q τ W r₀ s) [Can W .regs] [Can W .que] : Kept q τ W r₀
    (stepGates ft d s e) := by
  unfold stepGates
  with_reducible repeat' first
    | assumption
    | (extract_lets +onlyGivenNames x; refine (?_ : Kept q τ W r₀ x → _) (?_ : Kept q τ W r₀ x); intro hx; clear_value x; revert x; intro _ _;
        rotate_left; dsimp -zeta only [x]; clear x)
    | (extract_lets +onlyGivenNames x; clear_value x; revert x; intro _) | apply kept_changeList | apply kept_setEgress | apply kept_raise
    | split

theorem kept_ansTimeRead (s : State) (h0 : Kept q τ W r₀ s) : KeptAns q τ W r₀ (ansTimeRead s) := by
  unfold ansTimeRead
  with_reducible repeat' first | assumption | apply KeptAns.done

theorem kept_execPpsInMissing (x1 : ℕ) (s : State) (h0 : Kept q τ W r₀ s) [Can W .sent] [Can W .regs] [Can W .cmd] [Can W .time]
    [Can W .obs] [Can W .evr] : KeptOut q τ W r₀ (execPpsInMissing x1 s) := by
  unfold execPpsInMissing
  with_reducible repeat' first | assumption | apply kept_ev | apply kept_ppsMissing | intro s₁ h₁

theorem kept_timeSave (s : State) (h0 : Kept q τ W r₀ s) [Can W .time] : Kept q τ W r₀ (timeSave s) := by
  unfold timeSave
  with_reducible repeat' first | assumption | apply kept_saveTime | split

theorem kept_setMatch (n : ℕ) (x : Match) (s : State) (h0 : Kept q τ W r₀ s) [Can W .time] : Kept q τ W r₀ (setMatch n x s) := by
  unfold setMatch
  with_reducible repeat' first
    | assumption | (extract_lets +onlyGivenNames x; clear_value x; revert x; intro _) | simp -zeta only [kept_mk, can, true_or, or_true]

theorem kept_disarm (n : ℕ) (s : State) (h0 : Kept q τ W r₀ s) [Can W .regs] [Can W .time] : Kept q τ W r₀ (disarm n s) := by
  unfold disarm
  with_reducible repeat' first
    | assumption | (extract_lets +onlyGivenNames x; clear_value x; revert x; intro _) | apply kept_setFld | apply kept_setMatch

theorem kept_servoRate (s : State) (h0 : Kept q τ W r₀ s) [Can W .freeCount] [Can W .regs] [Can W .time] : Kept q τ W r₀
    (servoRate s) := by
  unfold servoRate
  with_reducible repeat' first
    | assumption
    | (extract_lets +onlyGivenNames x; refine (?_ : Kept q τ W r₀ x → _) (?_ : Kept q τ W r₀ x); intro hx; clear_value x; revert x; intro _ _;
        rotate_left; dsimp -zeta only [x]; clear x)
    | apply kept_rebase | apply kept_drawBits | apply kept_setReg

theorem kept_newEpoch (old : ℕ) (new : ℕ) (cause : ℕ) (cred : ℕ) (reason : Word) (s : State) (h0 : Kept q τ W r₀ s) [Can W .regs]
    [Can W .time] [Can W .trk] [Can W .obs] [Can W .evr] : Kept q τ W r₀ (newEpoch old new cause cred reason s) := by
  unfold newEpoch
  with_reducible repeat' first
    | assumption
    | (extract_lets +onlyGivenNames x; refine (?_ : Kept q τ W r₀ x → _) (?_ : Kept q τ W r₀ x); intro hx; clear_value x; revert x; intro _ _;
        rotate_left; dsimp -zeta only [x]; clear x)
    | (extract_lets +onlyGivenNames x; clear_value x; revert x; intro _) | apply kept_suspectAll | apply kept_record2
    | simp -zeta only [kept_mk, can, true_or, or_true]

theorem kept_ansTimeEpochNew (x1 : Hdr) (b : Body) (s : State) (h0 : Kept q τ W r₀ s) [Can W .regs] [Can W .time] [Can W .trk]
    [Can W .obs] [Can W .evr] : KeptAns q τ W r₀ (ansTimeEpochNew x1 b s) := by
  unfold ansTimeEpochNew
  with_reducible repeat' first
    | assumption | (extract_lets +onlyGivenNames x; clear_value x; revert x; intro _) | apply kept_newEpoch | apply KeptAns.done

theorem kept_execTimeRead (x1 : Hdr) (b : Body) (s : State) (h0 : Kept q τ W r₀ s) [Can W .sent] [Can W .regs] [Can W .cmd] [Can W .obs]
    [Can W .evr] : KeptOut q τ W r₀ (execTimeRead x1 b s) := by
  unfold execTimeRead
  with_reducible repeat' first | assumption | apply kept_run | apply kept_ansTimeRead

theorem kept_fireMatch (n : ℕ) (late : Bool) (stepped : Bool) (s : State) (h0 : Kept q τ W r₀ s) [Can W .regs] [Can W .time]
    [Can W .dks] [Can W .obs] [Can W .evr] : Kept q τ W r₀ (fireMatch n late stepped s) := by
  unfold fireMatch
  with_reducible repeat' first
    | assumption
    | (extract_lets +onlyGivenNames x; refine (?_ : Kept q τ W r₀ x → _) (?_ : Kept q τ W r₀ x); intro hx; clear_value x; revert x; intro _ _;
        rotate_left; dsimp -zeta only [x]; clear x)
    | (extract_lets +onlyGivenNames x; clear_value x; revert x; intro _) | apply kept_raise | apply kept_disarm | apply kept_snapTrigger
    | simp -zeta only [kept_mk, can, true_or, or_true] | split

theorem kept_stepTod (delta : ℤ) (s : State) (h0 : Kept q τ W r₀ s) [Can W .regs] [Can W .time] [Can W .trk] [Can W .que] [Can W .dks]
    [Can W .obs] [Can W .evr] : Kept q τ W r₀ (stepTod delta s) := by
  unfold stepTod
  with_reducible repeat' first
    | assumption
    | (extract_lets +onlyGivenNames x; refine (?_ : Kept q τ W r₀ x → _) (?_ : Kept q τ W r₀ x); intro hx; clear_value x; revert x; intro _ _;
        rotate_left; dsimp -zeta only [x]; clear x)
    | (extract_lets +onlyGivenNames x; clear_value x; revert x; intro _) | apply kept_fireMatch | apply kept_raise | apply kept_disarm
    | apply kept_suspectAll | apply kept_stepGates | apply kept_record2 | simp -zeta only [kept_mk, can, true_or, or_true]
    | refine kept_foldl _ _ ?_ (fun s₁ x₁ h₁ => ?_) | split

theorem kept_slew (off : ℤ) (s : State) (h0 : Kept q τ W r₀ s) [Can W .time] : Kept q τ W r₀ (slew off s) := by
  unfold slew
  with_reducible repeat' first
    | assumption
    | (extract_lets +onlyGivenNames x; refine (?_ : Kept q τ W r₀ x → _) (?_ : Kept q τ W r₀ x); intro hx; clear_value x; revert x; intro _ _;
        rotate_left; dsimp -zeta only [x]; clear x)
    | (extract_lets +onlyGivenNames x; clear_value x; revert x; intro _) | apply kept_rebase
    | simp -zeta only [kept_mk, can, true_or, or_true]

theorem kept_measure (off : ℤ) (s : State) (h0 : Kept q τ W r₀ s) [Can W .freeCount] [Can W .sent] [Can W .regs] [Can W .cmd]
    [Can W .time] [Can W .trk] [Can W .que] [Can W .dks] [Can W .obs] [Can W .evr] : Kept q τ W r₀ (measure off s) := by
  unfold measure
  with_reducible repeat' first
    | assumption
    | (extract_lets +onlyGivenNames x; refine (?_ : Kept q τ W r₀ x → _) (?_ : Kept q τ W r₀ x); intro hx; clear_value x; revert x; intro _ _;
        rotate_left; dsimp -zeta only [x]; clear x)
    | (extract_lets +onlyGivenNames x; clear_value x; revert x; intro _) | apply kept_stepTod | apply kept_timeFault | apply kept_slew
    | apply kept_servoRate | simp -zeta only [kept_mk, can, true_or, or_true] | split

theorem kept_ppsEdge (s : State) (h0 : Kept q τ W r₀ s) [Can W .freeCount] [Can W .sent] [Can W .regs] [Can W .cmd] [Can W .time]
    [Can W .trk] [Can W .que] [Can W .dks] [Can W .obs] [Can W .evr] : Kept q τ W r₀ (ppsEdge s) := by
  unfold ppsEdge
  with_reducible repeat' first
    | assumption
    | (extract_lets +onlyGivenNames x; refine (?_ : Kept q τ W r₀ x → _) (?_ : Kept q τ W r₀ x); intro hx; clear_value x; revert x; intro _ _;
        rotate_left; dsimp -zeta only [x]; clear x)
    | (extract_lets +onlyGivenNames x; clear_value x; revert x; intro _) | apply kept_ppsBad | apply kept_measure
    | simp -zeta only [kept_mk, can, true_or, or_true] | split

theorem kept_execPpsInEdge (x1 : ℕ) (s : State) (h0 : Kept q τ W r₀ s) [Can W .freeCount] [Can W .sent] [Can W .regs] [Can W .cmd]
    [Can W .time] [Can W .trk] [Can W .que] [Can W .dks] [Can W .obs] [Can W .evr] : KeptOut q τ W r₀ (execPpsInEdge x1 s) := by
  unfold execPpsInEdge
  with_reducible repeat' first | assumption | apply kept_ev | apply kept_ppsEdge | intro s₁ h₁

theorem kept_slewEnd (s : State) (h0 : Kept q τ W r₀ s) [Can W .time] : Kept q τ W r₀ (slewEnd s) := by
  unfold slewEnd
  with_reducible repeat' first
    | assumption
    | (extract_lets +onlyGivenNames x; refine (?_ : Kept q τ W r₀ x → _) (?_ : Kept q τ W r₀ x); intro hx; clear_value x; revert x; intro _ _;
        rotate_left; dsimp -zeta only [x]; clear x)
    | (extract_lets +onlyGivenNames x; clear_value x; revert x; intro _) | apply kept_rebase
    | simp -zeta only [kept_mk, can, true_or, or_true] | split

theorem kept_ppsFalls (s : State) (h0 : Kept q τ W r₀ s) [Can W .sent] [Can W .time] : Kept q τ W r₀ (ppsFalls s) := by
  unfold ppsFalls
  with_reducible repeat' first
    | assumption | (extract_lets +onlyGivenNames x; clear_value x; revert x; intro _) | apply kept_send
    | simp -zeta only [kept_mk, can, true_or, or_true] | split

theorem kept_execPpsOutWidthEnd (x1 : ℕ) (s : State) (h0 : Kept q τ W r₀ s) [Can W .sent] [Can W .time] : KeptOut q τ W r₀
    (execPpsOutWidthEnd x1 s) := by
  unfold execPpsOutWidthEnd
  with_reducible repeat' first | assumption | apply kept_ev | apply kept_ppsFalls | intro s₁ h₁

theorem kept_ref10Fault (s : State) (h0 : Kept q τ W r₀ s) [Can W .regs] [Can W .time] [Can W .obs] [Can W .evr] : Kept q τ W r₀
    (ref10Fault s) := by
  unfold ref10Fault
  with_reducible repeat' first
    | assumption | (extract_lets +onlyGivenNames x; clear_value x; revert x; intro _) | apply kept_refSwitch
    | simp -zeta only [kept_mk, can, true_or, or_true]

theorem kept_execRef10mFault (x1 : ℕ) (s : State) (h0 : Kept q τ W r₀ s) [Can W .regs] [Can W .time] [Can W .obs] [Can W .evr]
    : KeptOut q τ W r₀ (execRef10mFault x1 s) := by
  unfold execRef10mFault
  with_reducible repeat' first | assumption | apply kept_ev | apply kept_ref10Fault | intro s₁ h₁

theorem kept_hostStep (s : State) (h0 : Kept q τ W r₀ s) [Can W .sent] [Can W .regs] [Can W .cmd] [Can W .time] [Can W .trk]
    [Can W .que] [Can W .dks] [Can W .obs] [Can W .evr] : Kept q τ W r₀ (hostStep s).1 := by
  unfold hostStep
  with_reducible repeat' first
    | assumption | (extract_lets +onlyGivenNames x; clear_value x; revert x; intro _) | apply kept_stepTod | apply kept_timeFault
    | apply kept_slew | split

theorem kept_armMatch (n : ℕ) (i : ℕ) (s : State) (h0 : Kept q τ W r₀ s) [Can W .regs] [Can W .time] [Can W .dks] [Can W .obs]
    [Can W .evr] : Kept q τ W r₀ (armMatch n i s) := by
  unfold armMatch
  with_reducible repeat' first
    | assumption
    | (extract_lets +onlyGivenNames x; refine (?_ : Kept q τ W r₀ x → _) (?_ : Kept q τ W r₀ x); intro hx; clear_value x; revert x; intro _ _;
        rotate_left; dsimp -zeta only [x]; clear x)
    | apply kept_setFld | apply kept_setMatch | apply kept_fireMatch | split

theorem kept_syncTimeout (s : State) (h0 : Kept q τ W r₀ s) [Can W .time] : Kept q τ W r₀ (syncTimeout s) := by
  unfold syncTimeout
  with_reducible repeat' first
    | assumption | (extract_lets +onlyGivenNames x; clear_value x; revert x; intro _) | simp -zeta only [kept_mk, can, true_or, or_true]
    | split

theorem kept_execSyncTimeout (x1 : ℕ) (s : State) (h0 : Kept q τ W r₀ s) [Can W .time] : KeptOut q τ W r₀ (execSyncTimeout x1 s) := by
  unfold execSyncTimeout
  with_reducible repeat' first | assumption | apply kept_ev | apply kept_syncTimeout | intro s₁ h₁

theorem kept_execTimeEpochNew (x1 : Hdr) (b : Body) (s : State) (h0 : Kept q τ W r₀ s) [Can W .sent] [Can W .regs] [Can W .cmd]
    [Can W .time] [Can W .trk] [Can W .obs] [Can W .evr] : KeptOut q τ W r₀ (execTimeEpochNew x1 b s) := by
  unfold execTimeEpochNew
  with_reducible repeat' first | assumption | apply kept_run | apply kept_ansTimeEpochNew | intro s₁ h₁

theorem kept_restoreTime (s : State) (h0 : Kept q τ W r₀ s) [Can W .time] : Kept q τ W r₀ (restoreTime s) := by
  unfold restoreTime
  with_reducible repeat' first
    | assumption | (extract_lets +onlyGivenNames x; clear_value x; revert x; intro _) | simp -zeta only [kept_mk, can, true_or, or_true]

theorem kept_matchReached (n : ℕ) (s : State) (h0 : Kept q τ W r₀ s) [Can W .regs] [Can W .time] [Can W .dks] [Can W .obs] [Can W .evr]
    : Kept q τ W r₀ (matchReached n s) := by
  unfold matchReached
  with_reducible repeat' first | assumption | apply kept_fireMatch | split

theorem kept_execMatchFire (x1 : ℕ) (n : ℕ) (s : State) (h0 : Kept q τ W r₀ s) [Can W .regs] [Can W .time] [Can W .dks] [Can W .obs]
    [Can W .evr] : KeptOut q τ W r₀ (execMatchFire x1 n s) := by
  unfold execMatchFire
  with_reducible repeat' first | assumption | apply kept_ev | apply kept_matchReached | intro s₁ h₁ | split

theorem kept_execRef10mRestore (x1 : ℕ) (s : State) (h0 : Kept q τ W r₀ s) [Can W .regs] [Can W .time] [Can W .obs] [Can W .evr]
    : KeptOut q τ W r₀ (execRef10mRestore x1 s) := by
  unfold execRef10mRestore
  with_reducible repeat' first | assumption | apply kept_ev | apply kept_ref10Restore | intro s₁ h₁

theorem kept_execSlewEnd (x1 : ℕ) (s : State) (h0 : Kept q τ W r₀ s) [Can W .time] : KeptOut q τ W r₀ (execSlewEnd x1 s) := by
  unfold execSlewEnd
  with_reducible repeat' first | assumption | apply kept_ev | apply kept_slewEnd | intro s₁ h₁

theorem kept_execTimeSave (x1 : ℕ) (s : State) (h0 : Kept q τ W r₀ s) [Can W .time] : KeptOut q τ W r₀ (execTimeSave x1 s) := by
  unfold execTimeSave
  with_reducible repeat' first | assumption | apply kept_ev | apply kept_timeSave | intro s₁ h₁

end Sys2Proof.Machine
end

