-- ==== Sys2Proof/Laws/KeptSa.lean ====
section
/-! SUPPORT. What every operation keeps: vault keys, mirrored associations, SAs, channels and classification. One lemma for each function; `Kept` is defined in Laws/Kept.lean. -/
namespace Sys2Proof.Machine
open Sys2Proof
set_option linter.unusedSimpArgs false
set_option linter.unusedTactic false
set_option linter.unreachableTactic false
variable {q : List Instr} {τ : Nat} {W : Part → Bool} {r₀ : State}

/-! ## Vault -/

theorem kept_setKey (handle : ℕ) (k : Key) (s : State) (h0 : Kept q τ W r₀ s) [Can W .keys] : Kept q τ W r₀ (setKey handle k s) := by
  unfold setKey
  with_reducible repeat' first
    | assumption | (extract_lets +onlyGivenNames x; clear_value x; revert x; intro _) | simp -zeta only [kept_mk, can, true_or, or_true]

theorem kept_nameKey (k : Key) (idx : ℕ) (s : State) (h0 : Kept q τ W r₀ s) [Can W .keys] : Kept q τ W r₀ (nameKey k idx s).1 := by
  unfold nameKey
  with_reducible repeat' first
    | assumption | (extract_lets +onlyGivenNames x; clear_value x; revert x; intro _) | apply kept_setKey
    | simp -zeta only [kept_mk, can, true_or, or_true]

theorem kept_dropKey (handle : ℕ) (s : State) (h0 : Kept q τ W r₀ s) [Can W .keys] : Kept q τ W r₀ (dropKey handle s) := by
  unfold dropKey
  with_reducible repeat' first
    | assumption | (extract_lets +onlyGivenNames x; clear_value x; revert x; intro _) | simp -zeta only [kept_mk, can, true_or, or_true]
    | split

theorem kept_setHalf (m : KMap SealedKey) (s : State) (h0 : Kept q τ W r₀ s) [Can W .keys] : Kept q τ W r₀ (setHalf m s) := by
  unfold setHalf
  with_reducible repeat' first
    | assumption | (extract_lets +onlyGivenNames x; clear_value x; revert x; intro _) | simp -zeta only [kept_mk, can, true_or, or_true]
    | split

theorem kept_appendRecord (s : State) (h0 : Kept q τ W r₀ s) [Can W .keys] : KeptOpt q τ W r₀ (appendRecord s) := by
  unfold appendRecord
  with_reducible repeat' first
    | assumption | (extract_lets +onlyGivenNames x; clear_value x; revert x; intro _) | simp -zeta only [kept_mk, can, true_or, or_true]
    | exact keptOpt_none | apply keptOpt_some | split

theorem kept_eraseKey (handle : ℕ) (s : State) (h0 : Kept q τ W r₀ s) [Can W .keys] : Kept q τ W r₀ (eraseKey handle s) := by
  unfold eraseKey
  with_reducible repeat' first
    | assumption
    | (extract_lets +onlyGivenNames x; refine (?_ : Kept q τ W r₀ x → _) (?_ : Kept q τ W r₀ x); intro hx; clear_value x; revert x; intro _ _;
        rotate_left; dsimp -zeta only [x]; clear x)
    | apply kept_dropKey | apply kept_setHalf | apply kept_appendRecord | apply kept_getD | split

theorem kept_removeTenant (n : ℕ) (s : State) (h0 : Kept q τ W r₀ s) [Can W .regs] [Can W .keys] [Can W .eng] [Can W .dks] [Can W .obs]
    [Can W .evr] : Kept q τ W r₀ (removeTenant n s) := by
  unfold removeTenant
  with_reducible repeat' first
    | assumption
    | (extract_lets +onlyGivenNames x; refine (?_ : Kept q τ W r₀ x → _) (?_ : Kept q τ W r₀ x); intro hx; clear_value x; revert x; intro _ _;
        rotate_left; dsimp -zeta only [x]; clear x)
    | (extract_lets +onlyGivenNames x; clear_value x; revert x; intro _) | apply kept_eraseKey | apply kept_record
    | simp -zeta only [kept_mk, can, true_or, or_true] | refine kept_foldl _ _ ?_ (fun s₁ x₁ h₁ => ?_)

theorem kept_settleTenants (s : State) (h0 : Kept q τ W r₀ s) [Can W .sent] [Can W .regs] [Can W .cmd] [Can W .keys] [Can W .eng]
    [Can W .dks] [Can W .obs] [Can W .evr] : Kept q τ W r₀ (settleTenants s) := by
  unfold settleTenants
  with_reducible repeat' first
    | assumption | apply kept_finish | apply kept_removeTenant | refine kept_foldl _ _ ?_ (fun s₁ x₁ h₁ => ?_) | split

theorem kept_takeSlot (world : ℕ) (s : State) (h0 : Kept q τ W r₀ s) [Can W .dks] : KeptOpt q τ W r₀ (takeSlot world s) := by
  unfold takeSlot
  with_reducible repeat' first
    | assumption | (extract_lets +onlyGivenNames x; clear_value x; revert x; intro _) | simp -zeta only [kept_mk, can, true_or, or_true]
    | exact keptOpt_none | apply keptOpt_some | split

theorem kept_settleKeyErase (s : State) (h0 : Kept q τ W r₀ s) [Can W .sent] [Can W .regs] [Can W .cmd] [Can W .keys] [Can W .obs]
    : Kept q τ W r₀ (settleKeyErase s) := by
  unfold settleKeyErase
  with_reducible repeat' first
    | assumption | apply kept_finish | apply kept_eraseKey | refine kept_foldl _ _ ?_ (fun s₁ x₁ h₁ => ?_) | split

theorem kept_evictOne (n : ℕ) (s : State) (h0 : Kept q τ W r₀ s) [Can W .keys] : Kept q τ W r₀ (evictOne n s) := by
  unfold evictOne
  with_reducible repeat' first
    | assumption | (extract_lets +onlyGivenNames x; clear_value x; revert x; intro _) | apply kept_setKey
    | simp -zeta only [kept_mk, can, true_or, or_true] | split

theorem kept_makeRoom (n : ℕ) (s : State) (h0 : Kept q τ W r₀ s) [Can W .keys] : Kept q τ W r₀ (makeRoom n s).1 := by
  unfold makeRoom
  with_reducible repeat' first | assumption | apply kept_evictOne

theorem kept_sealKey (handle : ℕ) (k : Key) (s : State) (h0 : Kept q τ W r₀ s) [Can W .keys] : Kept q τ W r₀ (sealKey handle k s) := by
  unfold sealKey
  with_reducible repeat' first | assumption | apply kept_setHalf | split

theorem kept_storeValue (typ : Word) (use : Word) (owner : ℕ) (value : ℕ) (s : State) (h0 : Kept q τ W r₀ s) [Can W .keys]
    : KeptFst q τ W r₀ (storeValue typ use owner value s) := by
  unfold storeValue
  with_reducible repeat' first
    | assumption | (extract_lets +onlyGivenNames x; clear_value x; revert x; intro _) | apply kept_makeRoom | apply kept_appendRecord
    | apply kept_nameKey | apply kept_sealKey | simp -zeta only [kept_mk, can, true_or, or_true] | exact keptFst_none | apply keptFst_some
    | split | refine kept_opt (by assumption) ?_

theorem kept_storeKey (typ : Word) (use : Word) (owner : ℕ) (s : State) (h0 : Kept q τ W r₀ s) [Can W .freeCount] [Can W .keys]
    : KeptFst q τ W r₀ (storeKey typ use owner s) := by
  unfold storeKey
  with_reducible repeat' first | assumption | apply kept_drawBits | apply kept_storeValue

theorem kept_touchKey (handle : ℕ) (s : State) (h0 : Kept q τ W r₀ s) [Can W .keys] [Can W .obs] : Kept q τ W r₀ (touchKey handle s) := by
  unfold touchKey
  with_reducible repeat' first
    | assumption
    | (extract_lets +onlyGivenNames x; refine (?_ : Kept q τ W r₀ x → _) (?_ : Kept q τ W r₀ x); intro hx; clear_value x; revert x; intro _ _;
        rotate_left; dsimp -zeta only [x]; clear x)
    | (extract_lets +onlyGivenNames x; clear_value x; revert x; intro _) | apply kept_perf | apply kept_makeRoom | apply kept_setKey
    | simp -zeta only [kept_mk, can, true_or, or_true] | split

/-! ## Mirror -/

theorem kept_applyTrunkCeil (port : ℕ) (phase : ℕ) (c : ℕ) (s : State) (h0 : Kept q τ W r₀ s) [Can W .trk] [Can W .keys] : Kept q τ W r₀
    (applyTrunkCeil port phase c s) := by
  unfold applyTrunkCeil
  with_reducible repeat' first | assumption | (extract_lets +onlyGivenNames x; clear_value x; revert x; intro _) | apply kept_setTrunk

theorem kept_sendBond (typ : ℕ) (number : ℕ) (body : List ℕ) (recs : List MirrorRec) (lanes : ℕ) (s : State) (h0 : Kept q τ W r₀ s)
    [Can W .sent] [Can W .lane] : Kept q τ W r₀ (sendBond typ number body recs lanes s) := by
  unfold sendBond
  with_reducible repeat' first
    | assumption
    | (extract_lets +onlyGivenNames x; refine (?_ : Kept q τ W r₀ x → _) (?_ : Kept q τ W r₀ x); intro hx; clear_value x; revert x; intro _ _;
        rotate_left; dsimp -zeta only [x]; clear x)
    | (extract_lets +onlyGivenNames x; clear_value x; revert x; intro _) | apply kept_setBondLane | apply kept_send
    | refine kept_foldl _ _ ?_ (fun s₁ x₁ h₁ => ?_) | split

theorem kept_applyTxCeil (entry : ℕ) (c : ℕ) (s : State) (h0 : Kept q τ W r₀ s) [Can W .sent] [Can W .regs] [Can W .cmd] [Can W .sas]
    [Can W .obs] : Kept q τ W r₀ (applyTxCeil entry c s) := by
  unfold applyTxCeil
  with_reducible repeat' first
    | assumption
    | (extract_lets +onlyGivenNames x; refine (?_ : Kept q τ W r₀ x → _) (?_ : Kept q τ W r₀ x); intro hx; clear_value x; revert x; intro _ _;
        rotate_left; dsimp -zeta only [x]; clear x)
    | (extract_lets +onlyGivenNames x; clear_value x; revert x; intro _) | apply kept_finishWhere
    | simp -zeta only [kept_mk, can, true_or, or_true] | split

theorem kept_applyRxCeil (entry : ℕ) (c : ℕ) (s : State) (h0 : Kept q τ W r₀ s) [Can W .bnd] : Kept q τ W r₀ (applyRxCeil entry c s) := by
  unfold applyRxCeil
  with_reducible repeat' first
    | assumption | (extract_lets +onlyGivenNames x; clear_value x; revert x; intro _) | simp -zeta only [kept_mk, can, true_or, or_true]

theorem kept_applyCeil (code : ℕ) (entry : ℕ) (c : ℕ) (s : State) (h0 : Kept q τ W r₀ s) [Can W .sent] [Can W .regs] [Can W .cmd]
    [Can W .sas] [Can W .trk] [Can W .bnd] [Can W .keys] [Can W .obs] : Kept q τ W r₀ (applyCeil code entry c s) := by
  unfold applyCeil
  with_reducible repeat' first | assumption | apply kept_applyTxCeil | apply kept_applyRxCeil | apply kept_applyTrunkCeil | split

theorem kept_releaseCeils (upTo : ℕ) (s : State) (h0 : Kept q τ W r₀ s) [Can W .sent] [Can W .regs] [Can W .cmd] [Can W .sas]
    [Can W .trk] [Can W .bnd] [Can W .keys] [Can W .obs] : Kept q τ W r₀ (releaseCeils upTo s) := by
  unfold releaseCeils
  with_reducible repeat' first
    | assumption
    | (extract_lets +onlyGivenNames x; refine (?_ : Kept q τ W r₀ x → _) (?_ : Kept q τ W r₀ x); intro hx; clear_value x; revert x; intro _ _;
        rotate_left; dsimp -zeta only [x]; clear x)
    | (extract_lets +onlyGivenNames x; clear_value x; revert x; intro _) | apply kept_applyCeil
    | simp -zeta only [kept_mk, can, true_or, or_true] | refine kept_foldl _ _ ?_ (fun s₁ x₁ h₁ => ?_)

theorem kept_lapseCeils (s : State) (h0 : Kept q τ W r₀ s) [Can W .sent] [Can W .regs] [Can W .cmd] [Can W .sas] [Can W .trk]
    [Can W .bnd] [Can W .keys] [Can W .obs] : Kept q τ W r₀ (lapseCeils s) := by
  unfold lapseCeils
  with_reducible repeat' first | assumption | apply kept_releaseCeils | split

theorem kept_setRole (new : ℕ) (cause : ℕ) (s : State) (h0 : Kept q τ W r₀ s) [Can W .sent] [Can W .regs] [Can W .cmd] [Can W .bnd]
    [Can W .obs] : Kept q τ W r₀ (setRole new cause s) := by
  unfold setRole
  with_reducible repeat' first
    | assumption
    | (extract_lets +onlyGivenNames x; refine (?_ : Kept q τ W r₀ x → _) (?_ : Kept q τ W r₀ x); intro hx; clear_value x; revert x; intro _ _;
        rotate_left; dsimp -zeta only [x]; clear x)
    | (extract_lets +onlyGivenNames x; clear_value x; revert x; intro _) | apply kept_notify
    | simp -zeta only [kept_mk, can, true_or, or_true] | split

theorem kept_mirror (code : ℕ) (body : MirrorBody) (s : State) (h0 : Kept q τ W r₀ s) [Can W .sent] [Can W .lane] [Can W .bnd]
    : Kept q τ W r₀ (mirror code body s) := by
  unfold mirror
  with_reducible repeat' first
    | assumption | (extract_lets +onlyGivenNames x; clear_value x; revert x; intro _) | apply kept_sendBond
    | simp -zeta only [kept_mk, can, true_or, or_true] | split

theorem kept_requestCeil (code : ℕ) (entry : ℕ) (c : ℕ) (body : MirrorBody) (s : State) (h0 : Kept q τ W r₀ s) [Can W .sent]
    [Can W .regs] [Can W .cmd] [Can W .lane] [Can W .sas] [Can W .trk] [Can W .bnd] [Can W .keys] [Can W .obs] : Kept q τ W r₀
    (requestCeil code entry c body s) := by
  unfold requestCeil
  with_reducible repeat' first
    | assumption
    | (extract_lets +onlyGivenNames x; refine (?_ : Kept q τ W r₀ x → _) (?_ : Kept q τ W r₀ x); intro hx; clear_value x; revert x; intro _ _;
        rotate_left; dsimp -zeta only [x]; clear x)
    | (extract_lets +onlyGivenNames x; clear_value x; revert x; intro _) | apply kept_mirror | apply kept_applyCeil
    | simp -zeta only [kept_mk, can, true_or, or_true] | split

/-! ## Sa -/

theorem kept_saCount (entry : ℕ) (i : ℕ) (s : State) (h0 : Kept q τ W r₀ s) [Can W .sas] : Kept q τ W r₀ (saCount entry i s) := by
  unfold saCount
  with_reducible repeat' first
    | assumption | (extract_lets +onlyGivenNames x; clear_value x; revert x; intro _) | simp -zeta only [kept_mk, can, true_or, or_true]

theorem kept_mirrorSc (key : ℕ) (present : Bool) (s : State) (h0 : Kept q τ W r₀ s) [Can W .sent] [Can W .lane] [Can W .bnd]
    : Kept q τ W r₀ (mirrorSc key present s) := by
  unfold mirrorSc
  with_reducible repeat' first | assumption | apply kept_mirror | split

theorem kept_setSa (entry : ℕ) (a : Sa) (s : State) (h0 : Kept q τ W r₀ s) [Can W .sas] : Kept q τ W r₀ (setSa entry a s) := by
  unfold setSa
  with_reducible repeat' first
    | assumption | (extract_lets +onlyGivenNames x; clear_value x; revert x; intro _) | simp -zeta only [kept_mk, can, true_or, or_true]

theorem kept_giveBank (entry : ℕ) (s : State) (h0 : Kept q τ W r₀ s) [Can W .sas] [Can W .brk] : Kept q τ W r₀ (giveBank entry s) := by
  unfold giveBank
  with_reducible repeat' first
    | assumption | (extract_lets +onlyGivenNames x; clear_value x; revert x; intro _) | apply kept_setSa | apply kept_setBrick
    | simp -zeta only [kept_mk, can, true_or, or_true] | split

theorem kept_fillBanks (b : ℕ) (x1 : ℕ) (s : State) (h0 : Kept q τ W r₀ s) [Can W .sas] [Can W .brk] : Kept q τ W r₀
    (fillBanks b x1 s) := by
  unfold fillBanks
  with_reducible repeat' first | assumption | apply kept_giveBank | refine kept_foldl _ _ ?_ (fun s₁ x₁ h₁ => ?_)

theorem kept_setSc (key : ℕ) (c : Sc) (s : State) (h0 : Kept q τ W r₀ s) [Can W .sas] : Kept q τ W r₀ (setSc key c s) := by
  unfold setSc
  with_reducible repeat' first
    | assumption | (extract_lets +onlyGivenNames x; clear_value x; revert x; intro _) | simp -zeta only [kept_mk, can, true_or, or_true]

theorem kept_secyCount (port : ℕ) (i : ℕ) (s : State) (h0 : Kept q τ W r₀ s) [Can W .sas] : Kept q τ W r₀ (secyCount port i s) := by
  unfold secyCount
  with_reducible repeat' first
    | assumption | (extract_lets +onlyGivenNames x; clear_value x; revert x; intro _) | simp -zeta only [kept_mk, can, true_or, or_true]

theorem kept_removeSc (key : ℕ) (s : State) (h0 : Kept q τ W r₀ s) [Can W .sent] [Can W .lane] [Can W .sas] [Can W .bnd] : Kept q τ W r₀
    (removeSc key s) := by
  unfold removeSc
  with_reducible repeat' first
    | assumption | (extract_lets +onlyGivenNames x; clear_value x; revert x; intro _) | apply kept_mirrorSc
    | simp -zeta only [kept_mk, can, true_or, or_true]

theorem kept_unlearn (key : ℕ) (s : State) (h0 : Kept q τ W r₀ s) [Can W .cls] : Kept q τ W r₀ (unlearn key s) := by
  unfold unlearn
  with_reducible repeat' first | assumption | (extract_lets +onlyGivenNames x; clear_value x; revert x; intro _) | apply kept_setTables

theorem kept_setSaState (entry : ℕ) (st : ℕ) (active : Option ℕ) (s : State) (h0 : Kept q τ W r₀ s) [Can W .sent] [Can W .lane]
    [Can W .sas] [Can W .bnd] : Kept q τ W r₀ (setSaState entry st active s) := by
  unfold setSaState
  with_reducible repeat' first
    | assumption | (extract_lets +onlyGivenNames x; clear_value x; revert x; intro _) | apply kept_mirror
    | simp -zeta only [kept_mk, can, true_or, or_true]

theorem kept_releaseBank (entry : ℕ) (s : State) (h0 : Kept q τ W r₀ s) [Can W .sas] [Can W .brk] : Kept q τ W r₀
    (releaseBank entry s) := by
  unfold releaseBank
  with_reducible repeat' first
    | assumption
    | (extract_lets +onlyGivenNames x; refine (?_ : Kept q τ W r₀ x → _) (?_ : Kept q τ W r₀ x); intro hx; clear_value x; revert x; intro _ _;
        rotate_left; dsimp -zeta only [x]; clear x)
    | (extract_lets +onlyGivenNames x; clear_value x; revert x; intro _) | apply kept_fillBanks | apply kept_setBrick
    | simp -zeta only [kept_mk, can, true_or, or_true] | split

theorem kept_beginErase (entry : ℕ) (s : State) (h0 : Kept q τ W r₀ s) [Can W .sent] [Can W .lane] [Can W .sas] [Can W .brk]
    [Can W .bnd] : Kept q τ W r₀ (beginErase entry s) := by
  unfold beginErase
  with_reducible repeat' first
    | assumption
    | (extract_lets +onlyGivenNames x; refine (?_ : Kept q τ W r₀ x → _) (?_ : Kept q τ W r₀ x); intro hx; clear_value x; revert x; intro _ _;
        rotate_left; dsimp -zeta only [x]; clear x)
    | (extract_lets +onlyGivenNames x; clear_value x; revert x; intro _) | apply kept_setSaState | apply kept_setSa
    | apply kept_releaseBank | simp -zeta only [kept_mk, can, true_or, or_true] | split

theorem kept_retire (entry : ℕ) (s : State) (h0 : Kept q τ W r₀ s) [Can W .sent] [Can W .lane] [Can W .sas] [Can W .brk] [Can W .bnd]
    : Kept q τ W r₀ (retire entry s) := by
  unfold retire
  with_reducible repeat' first
    | assumption
    | (extract_lets +onlyGivenNames x; refine (?_ : Kept q τ W r₀ x → _) (?_ : Kept q τ W r₀ x); intro hx; clear_value x; revert x; intro _ _;
        rotate_left; dsimp -zeta only [x]; clear x)
    | apply kept_beginErase | apply kept_setSaState | apply kept_setSa | apply kept_releaseBank | split

theorem kept_commitSwitch (key : ℕ) (an : ℕ) (s : State) (h0 : Kept q τ W r₀ s) [Can W .sent] [Can W .regs] [Can W .cmd] [Can W .lane]
    [Can W .sas] [Can W .brk] [Can W .bnd] [Can W .obs] : Kept q τ W r₀ (commitSwitch key an s) := by
  unfold commitSwitch
  with_reducible repeat' first
    | assumption
    | (extract_lets +onlyGivenNames x; refine (?_ : Kept q τ W r₀ x → _) (?_ : Kept q τ W r₀ x); intro hx; clear_value x; revert x; intro _ _;
        rotate_left; dsimp -zeta only [x]; clear x)
    | (extract_lets +onlyGivenNames x; clear_value x; revert x; intro _) | apply kept_retire | apply kept_setSaState
    | apply kept_finishWhere | simp -zeta only [kept_mk, can, true_or, or_true] | split

theorem kept_advanceTx (entry : ℕ) (c : Sc) (s : State) (h0 : Kept q τ W r₀ s) [Can W .sent] [Can W .regs] [Can W .cmd] [Can W .lane]
    [Can W .sas] [Can W .trk] [Can W .bnd] [Can W .keys] [Can W .obs] : Kept q τ W r₀ (advanceTx entry c s) := by
  unfold advanceTx
  with_reducible repeat' first
    | assumption | (extract_lets +onlyGivenNames x; clear_value x; revert x; intro _) | apply kept_requestCeil | apply kept_setSa | split

theorem kept_askRx (entry : ℕ) (c : ℕ) (sc : Sc) (s : State) (h0 : Kept q τ W r₀ s) [Can W .sent] [Can W .regs] [Can W .cmd]
    [Can W .lane] [Can W .sas] [Can W .trk] [Can W .bnd] [Can W .keys] [Can W .obs] : Kept q τ W r₀ (askRx entry c sc s) := by
  unfold askRx
  with_reducible repeat' first
    | assumption | (extract_lets +onlyGivenNames x; clear_value x; revert x; intro _) | apply kept_requestCeil
    | simp -zeta only [kept_mk, can, true_or, or_true] | split

theorem kept_rxVerified (entry : ℕ) (gen : ℕ) (pn : ℕ) (s : State) (h0 : Kept q τ W r₀ s) [Can W .sent] [Can W .regs] [Can W .cmd]
    [Can W .lane] [Can W .sas] [Can W .brk] [Can W .trk] [Can W .bnd] [Can W .keys] [Can W .obs] : Kept q τ W r₀
    (rxVerified entry gen pn s) := by
  unfold rxVerified
  with_reducible repeat' first
    | assumption
    | (extract_lets +onlyGivenNames x; refine (?_ : Kept q τ W r₀ x → _) (?_ : Kept q τ W r₀ x); intro hx; clear_value x; revert x; intro _ _;
        rotate_left; dsimp -zeta only [x]; clear x)
    | (extract_lets +onlyGivenNames x; clear_value x; revert x; intro _) | apply kept_setSa | apply kept_retire | apply kept_setSaState
    | apply kept_askRx | split

theorem kept_settleCas (s : State) (h0 : Kept q τ W r₀ s) [Can W .sent] [Can W .regs] [Can W .cmd] [Can W .sas] [Can W .obs]
    : Kept q τ W r₀ (settleCas s) := by
  unfold settleCas
  with_reducible repeat' first
    | assumption | (extract_lets +onlyGivenNames x; clear_value x; revert x; intro _) | apply kept_finishWhere
    | simp -zeta only [kept_mk, can, true_or, or_true] | refine kept_foldl _ _ ?_ (fun s₁ x₁ h₁ => ?_)

theorem kept_settleErasures (entry : ℕ) (s : State) (h0 : Kept q τ W r₀ s) [Can W .sent] [Can W .regs] [Can W .cmd] [Can W .sas]
    [Can W .obs] : Kept q τ W r₀ (settleErasures entry s) := by
  unfold settleErasures
  with_reducible repeat' first
    | assumption
    | (extract_lets +onlyGivenNames x; refine (?_ : Kept q τ W r₀ x → _) (?_ : Kept q τ W r₀ x); intro hx; clear_value x; revert x; intro _ _;
        rotate_left; dsimp -zeta only [x]; clear x)
    | (extract_lets +onlyGivenNames x; clear_value x; revert x; intro _) | apply kept_settleCas | apply kept_finishWhere
    | simp -zeta only [kept_mk, can, true_or, or_true]

theorem kept_reprime (entry : ℕ) (s : State) (h0 : Kept q τ W r₀ s) [Can W .brk] : Kept q τ W r₀ (reprime entry s) := by
  unfold reprime
  with_reducible repeat' first
    | assumption | (extract_lets +onlyGivenNames x; clear_value x; revert x; intro _) | apply kept_setBrick | split

theorem kept_beginSwitch (key : ℕ) (an : ℕ) (s : State) (h0 : Kept q τ W r₀ s) [Can W .sent] [Can W .regs] [Can W .cmd] [Can W .lane]
    [Can W .sas] [Can W .brk] [Can W .bnd] [Can W .obs] : Kept q τ W r₀ (beginSwitch key an s) := by
  unfold beginSwitch
  with_reducible repeat' first
    | assumption | (extract_lets +onlyGivenNames x; clear_value x; revert x; intro _) | apply kept_commitSwitch
    | simp -zeta only [kept_mk, can, true_or, or_true] | split

theorem kept_queueSak (key : ℕ) (an : ℕ) (handle : ℕ) (value : ℕ) (s : State) (h0 : Kept q τ W r₀ s) [Can W .freeCount] [Can W .sas]
    : Kept q τ W r₀ (queueSak key an handle value s) := by
  unfold queueSak
  with_reducible repeat' first
    | assumption | (extract_lets +onlyGivenNames x; clear_value x; revert x; intro _) | apply kept_drawWords
    | simp -zeta only [kept_mk, can, true_or, or_true] | split

theorem kept_zeroise (entry : ℕ) (s : State) (h0 : Kept q τ W r₀ s) [Can W .sent] [Can W .regs] [Can W .cmd] [Can W .lane] [Can W .sas]
    [Can W .bnd] [Can W .obs] : Kept q τ W r₀ (zeroise entry s) := by
  unfold zeroise
  with_reducible repeat' first
    | assumption
    | (extract_lets +onlyGivenNames x; refine (?_ : Kept q τ W r₀ x → _) (?_ : Kept q τ W r₀ x); intro hx; clear_value x; revert x; intro _ _;
        rotate_left; dsimp -zeta only [x]; clear x)
    | (extract_lets +onlyGivenNames x; clear_value x; revert x; intro _) | apply kept_removeSc | apply kept_settleErasures
    | simp -zeta only [kept_mk, can, true_or, or_true] | split

theorem kept_installSak (ca : ℕ) (x : MkaCa) (value : ℕ) (s : State) (h0 : Kept q τ W r₀ s) [Can W .freeCount] [Can W .sas]
    [Can W .keys] : Kept q τ W r₀ (installSak ca x value s) := by
  unfold installSak
  with_reducible repeat' first
    | assumption
    | (extract_lets +onlyGivenNames x; refine (?_ : Kept q τ W r₀ x → _) (?_ : Kept q τ W r₀ x); intro hx; clear_value x; revert x; intro _ _;
        rotate_left; dsimp -zeta only [x]; clear x)
    | (extract_lets +onlyGivenNames x; clear_value x; revert x; intro _) | apply kept_storeValue | apply kept_queueSak
    | simp -zeta only [kept_mk, can, true_or, or_true] | refine kept_foldl _ _ ?_ (fun s₁ x₁ h₁ => ?_) | split
    | refine kept_optFst (by assumption) ?_

theorem kept_sendMkpdu (ca : ℕ) (x : MkaCa) (sak : Option (ℕ × ℕ × List Word)) (s : State) (h0 : Kept q τ W r₀ s) [Can W .sent]
    [Can W .regs] [Can W .cmd] [Can W .port] [Can W .obs] : Kept q τ W r₀ (sendMkpdu ca x sak s) := by
  unfold sendMkpdu
  with_reducible repeat' first | assumption | apply kept_send | apply kept_countTx

theorem kept_considerAuto (key : ℕ) (s : State) (h0 : Kept q τ W r₀ s) [Can W .sent] [Can W .regs] [Can W .cmd] [Can W .lane]
    [Can W .sas] [Can W .brk] [Can W .bnd] [Can W .obs] : Kept q τ W r₀ (considerAuto key s) := by
  unfold considerAuto
  with_reducible repeat' first
    | assumption | (extract_lets +onlyGivenNames x; clear_value x; revert x; intro _) | apply kept_beginSwitch | split

theorem kept_scCount (key : ℕ) (i : ℕ) (n : ℕ) (s : State) (h0 : Kept q τ W r₀ s) [Can W .sas] : Kept q τ W r₀ (scCount key i n s) := by
  unfold scCount
  with_reducible repeat' first
    | assumption | (extract_lets +onlyGivenNames x; clear_value x; revert x; intro _) | simp -zeta only [kept_mk, can, true_or, or_true]

theorem kept_distributeSak (ca : ℕ) (s : State) (h0 : Kept q τ W r₀ s) [Can W .freeCount] [Can W .sent] [Can W .regs] [Can W .cmd]
    [Can W .port] [Can W .sas] [Can W .keys] [Can W .obs] [Can W .evr] : Kept q τ W r₀ (distributeSak ca s) := by
  unfold distributeSak
  with_reducible repeat' first
    | assumption | (extract_lets +onlyGivenNames x; clear_value x; revert x; intro _) | apply kept_drawBits | apply kept_sendMkpdu
    | apply kept_installSak | apply kept_record | simp -zeta only [kept_mk, can, true_or, or_true] | split

theorem kept_threshold (entry : ℕ) (a : Sa) (c : Sc) (s : State) (h0 : Kept q τ W r₀ s) [Can W .freeCount] [Can W .sent] [Can W .regs]
    [Can W .cmd] [Can W .port] [Can W .sas] [Can W .keys] [Can W .obs] [Can W .evr] : Kept q τ W r₀ (threshold entry a c s) := by
  unfold threshold
  with_reducible repeat' first
    | assumption
    | (extract_lets +onlyGivenNames x; refine (?_ : Kept q τ W r₀ x → _) (?_ : Kept q τ W r₀ x); intro hx; clear_value x; revert x; intro _ _;
        rotate_left; dsimp -zeta only [x]; clear x)
    | apply kept_notify | apply kept_record | apply kept_distributeSak | split

theorem kept_assignPn (key : ℕ) (s : State) (h0 : Kept q τ W r₀ s) [Can W .freeCount] [Can W .sent] [Can W .regs] [Can W .cmd]
    [Can W .lane] [Can W .port] [Can W .sas] [Can W .brk] [Can W .trk] [Can W .bnd] [Can W .keys] [Can W .obs] [Can W .evr]
    : Kept q τ W r₀ (assignPn key s).2 := by
  unfold assignPn
  with_reducible repeat' first
    | assumption
    | (extract_lets +onlyGivenNames x; refine (?_ : Kept q τ W r₀ x → _) (?_ : Kept q τ W r₀ x); intro hx; clear_value x; revert x; intro _ _;
        rotate_left; dsimp -zeta only [x]; clear x)
    | apply kept_considerAuto | apply kept_scCount | apply kept_bump | apply kept_record | apply kept_setSa | apply kept_threshold
    | apply kept_advanceTx | simp -zeta only [kept_mk, can, true_or, or_true] | split

theorem kept_dropBanks (b : ℕ) (s : State) (h0 : Kept q τ W r₀ s) [Can W .sas] [Can W .brk] : Kept q τ W r₀ (dropBanks b s) := by
  unfold dropBanks
  with_reducible repeat' first
    | assumption
    | (extract_lets +onlyGivenNames x; refine (?_ : Kept q τ W r₀ x → _) (?_ : Kept q τ W r₀ x); intro hx; clear_value x; revert x; intro _ _;
        rotate_left; dsimp -zeta only [x]; clear x)
    | (extract_lets +onlyGivenNames x; clear_value x; revert x; intro _) | apply kept_setBrick
    | simp -zeta only [kept_mk, can, true_or, or_true]

theorem kept_commitInstall (x : KeyBus) (s : State) (h0 : Kept q τ W r₀ s) [Can W .sent] [Can W .regs] [Can W .cmd] [Can W .lane]
    [Can W .sas] [Can W .brk] [Can W .trk] [Can W .bnd] [Can W .keys] [Can W .obs] [Can W .evr] : Kept q τ W r₀
    (commitInstall x s) := by
  unfold commitInstall
  with_reducible repeat' first
    | assumption
    | (extract_lets +onlyGivenNames x; refine (?_ : Kept q τ W r₀ x → _) (?_ : Kept q τ W r₀ x); intro hx; clear_value x; revert x; intro _ _;
        rotate_left; dsimp -zeta only [x]; clear x)
    | (extract_lets +onlyGivenNames x; clear_value x; revert x; intro _) | apply kept_finishWhere | apply kept_setSc | apply kept_setSa
    | apply kept_bump | apply kept_mirror | apply kept_reprime | apply kept_giveBank | apply kept_record | apply kept_askRx
    | apply kept_requestCeil | apply kept_beginSwitch | apply kept_considerAuto | simp -zeta only [kept_mk, can, true_or, or_true] | split

theorem kept_beginDelete (key : ℕ) (s : State) (h0 : Kept q τ W r₀ s) [Can W .sent] [Can W .lane] [Can W .cls] [Can W .sas] [Can W .brk]
    [Can W .bnd] : Kept q τ W r₀ (beginDelete key s) := by
  unfold beginDelete
  with_reducible repeat' first
    | assumption
    | (extract_lets +onlyGivenNames x; refine (?_ : Kept q τ W r₀ x → _) (?_ : Kept q τ W r₀ x); intro hx; clear_value x; revert x; intro _ _;
        rotate_left; dsimp -zeta only [x]; clear x)
    | (extract_lets +onlyGivenNames x; clear_value x; revert x; intro _) | apply kept_unlearn | apply kept_beginErase
    | apply kept_removeSc | simp -zeta only [kept_mk, can, true_or, or_true] | refine kept_foldl _ _ ?_ (fun s₁ x₁ h₁ => ?_) | split

/-! ## Channels -/

theorem kept_ansSaRead (b : Body) (s : State) (h0 : Kept q τ W r₀ s) : KeptAns q τ W r₀ (ansSaRead b s) := by
  unfold ansSaRead
  with_reducible repeat' first
    | assumption | (extract_lets +onlyGivenNames x; clear_value x; revert x; intro _) | exact KeptAns.fail | exact KeptAns.hold
    | apply KeptAns.done | split

theorem kept_execSaRead (x1 : Hdr) (b : Body) (s : State) (h0 : Kept q τ W r₀ s) [Can W .sent] [Can W .regs] [Can W .cmd] [Can W .obs]
    [Can W .evr] : KeptOut q τ W r₀ (execSaRead x1 b s) := by
  unfold execSaRead
  with_reducible repeat' first | assumption | apply kept_run | apply kept_ansSaRead

theorem kept_ansScDelete (b : Body) (s : State) (h0 : Kept q τ W r₀ s) [Can W .sent] [Can W .lane] [Can W .cls] [Can W .sas]
    [Can W .brk] [Can W .bnd] : KeptAns q τ W r₀ (ansScDelete b s) := by
  unfold ansScDelete
  with_reducible repeat' first
    | assumption
    | (extract_lets +onlyGivenNames x; refine (?_ : Kept q τ W r₀ x → _) (?_ : Kept q τ W r₀ x); intro hx; clear_value x; revert x; intro _ _;
        rotate_left; dsimp -zeta only [x]; clear x)
    | (extract_lets +onlyGivenNames x; clear_value x; revert x; intro _) | apply kept_beginDelete | exact KeptAns.fail
    | exact KeptAns.hold | apply KeptAns.done | apply KeptAns.wait | split

theorem kept_execScDelete (x1 : Hdr) (b : Body) (s : State) (h0 : Kept q τ W r₀ s) [Can W .sent] [Can W .regs] [Can W .cmd]
    [Can W .lane] [Can W .cls] [Can W .sas] [Can W .brk] [Can W .bnd] [Can W .obs] [Can W .evr] : KeptOut q τ W r₀
    (execScDelete x1 b s) := by
  unfold execScDelete
  with_reducible repeat' first | assumption | apply kept_run | apply kept_ansScDelete | intro s₁ h₁

theorem kept_switchDue (key : ℕ) (s : State) (h0 : Kept q τ W r₀ s) [Can W .sent] [Can W .regs] [Can W .cmd] [Can W .lane] [Can W .sas]
    [Can W .brk] [Can W .bnd] [Can W .obs] : Kept q τ W r₀ (switchDue key s) := by
  unfold switchDue
  with_reducible repeat' first | assumption | apply kept_beginSwitch | split

theorem kept_ansSaErase (b : Body) (s : State) (h0 : Kept q τ W r₀ s) [Can W .sent] [Can W .lane] [Can W .sas] [Can W .brk] [Can W .bnd]
    : KeptAns q τ W r₀ (ansSaErase b s) := by
  unfold ansSaErase
  with_reducible repeat' first
    | assumption | (extract_lets +onlyGivenNames x; clear_value x; revert x; intro _) | apply kept_beginErase | exact KeptAns.fail
    | exact KeptAns.hold | apply KeptAns.wait | split

theorem kept_setCa (ca : ℕ) (x : MkaCa) (s : State) (h0 : Kept q τ W r₀ s) [Can W .sent] [Can W .lane] [Can W .sas] [Can W .bnd]
    : Kept q τ W r₀ (setCa ca x s) := by
  unfold setCa
  with_reducible repeat' first
    | assumption | (extract_lets +onlyGivenNames x; clear_value x; revert x; intro _) | apply kept_mirror
    | simp -zeta only [kept_mk, can, true_or, or_true]

theorem kept_mkaPeerLost (ca : ℕ) (sci : ℕ) (s : State) (h0 : Kept q τ W r₀ s) [Can W .freeCount] [Can W .sent] [Can W .regs]
    [Can W .cmd] [Can W .lane] [Can W .port] [Can W .cls] [Can W .sas] [Can W .brk] [Can W .bnd] [Can W .keys] [Can W .obs] [Can W .evr]
    : Kept q τ W r₀ (mkaPeerLost ca sci s) := by
  unfold mkaPeerLost
  with_reducible repeat' first
    | assumption
    | (extract_lets +onlyGivenNames x; refine (?_ : Kept q τ W r₀ x → _) (?_ : Kept q τ W r₀ x); intro hx; clear_value x; revert x; intro _ _;
        rotate_left; dsimp -zeta only [x]; clear x)
    | (extract_lets +onlyGivenNames x; clear_value x; revert x; intro _) | apply kept_record | apply kept_setCa | apply kept_distributeSak
    | apply kept_beginDelete | split

theorem kept_execMkaPeerLost (x1 : ℕ) (ca : ℕ) (sci : ℕ) (s : State) (h0 : Kept q τ W r₀ s) [Can W .freeCount] [Can W .sent]
    [Can W .regs] [Can W .cmd] [Can W .lane] [Can W .port] [Can W .cls] [Can W .sas] [Can W .brk] [Can W .bnd] [Can W .keys]
    [Can W .obs] [Can W .evr] : KeptOut q τ W r₀ (execMkaPeerLost x1 ca sci s) := by
  unfold execMkaPeerLost
  with_reducible repeat' first | assumption | apply kept_ev | apply kept_mkaPeerLost | intro s₁ h₁

theorem kept_retireExpire (entry : ℕ) (s : State) (h0 : Kept q τ W r₀ s) [Can W .sent] [Can W .regs] [Can W .lane] [Can W .sas]
    [Can W .brk] [Can W .bnd] [Can W .obs] [Can W .evr] : Kept q τ W r₀ (retireExpire entry s) := by
  unfold retireExpire
  with_reducible repeat' first | assumption | apply kept_beginErase | apply kept_record | split

theorem kept_execRetireTimerExpiry (x1 : ℕ) (entry : ℕ) (s : State) (h0 : Kept q τ W r₀ s) [Can W .sent] [Can W .regs] [Can W .lane]
    [Can W .sas] [Can W .brk] [Can W .bnd] [Can W .obs] [Can W .evr] : KeptOut q τ W r₀ (execRetireTimerExpiry x1 entry s) := by
  unfold execRetireTimerExpiry
  with_reducible repeat' first | assumption | apply kept_ev | apply kept_retireExpire | intro s₁ h₁

theorem kept_ansSaInstall (x1 : Hdr) (b : Body) (s : State) (h0 : Kept q τ W r₀ s) [Can W .sas] [Can W .keys] [Can W .dks] [Can W .obs]
    : KeptAns q τ W r₀ (ansSaInstall x1 b s) := by
  unfold ansSaInstall
  with_reducible repeat' first
    | assumption
    | (extract_lets +onlyGivenNames x; refine (?_ : Kept q τ W r₀ x → _) (?_ : Kept q τ W r₀ x); intro hx; clear_value x; revert x; intro _ _;
        rotate_left; dsimp -zeta only [x]; clear x)
    | (extract_lets +onlyGivenNames x; clear_value x; revert x; intro _) | apply kept_takeSlot | apply kept_setKey | apply kept_touchKey
    | simp -zeta only [kept_mk, can, true_or, or_true] | exact KeptAns.fail | exact KeptAns.defer | exact KeptAns.hold
    | apply KeptAns.wait | split | refine kept_opt (by assumption) ?_

theorem kept_execSaInstall (x1 : Hdr) (b : Body) (s : State) (h0 : Kept q τ W r₀ s) [Can W .sent] [Can W .regs] [Can W .cmd]
    [Can W .sas] [Can W .keys] [Can W .dks] [Can W .obs] [Can W .evr] : KeptOut q τ W r₀ (execSaInstall x1 b s) := by
  unfold execSaInstall
  with_reducible repeat' first | assumption | apply kept_run | apply kept_ansSaInstall | intro s₁ h₁

theorem kept_mkaSc (ca : ℕ) (x : MkaCa) (rx : Bool) (idx : ℕ) (sci : ℕ) (s : State) (h0 : Kept q τ W r₀ s) [Can W .sent] [Can W .lane]
    [Can W .sas] [Can W .bnd] : Kept q τ W r₀ (mkaSc ca x rx idx sci s) := by
  unfold mkaSc
  with_reducible repeat' first
    | assumption | (extract_lets +onlyGivenNames x; clear_value x; revert x; intro _) | apply kept_mirrorSc | apply kept_setSc | split

theorem kept_mkaRekey (ca : ℕ) (s : State) (h0 : Kept q τ W r₀ s) [Can W .freeCount] [Can W .sent] [Can W .regs] [Can W .cmd]
    [Can W .port] [Can W .sas] [Can W .keys] [Can W .obs] [Can W .evr] : Kept q τ W r₀ (mkaRekey ca s) := by
  unfold mkaRekey
  with_reducible repeat' first | assumption | apply kept_distributeSak | split

theorem kept_mkaHello (ca : ℕ) (s : State) (h0 : Kept q τ W r₀ s) [Can W .sent] [Can W .regs] [Can W .cmd] [Can W .port] [Can W .sas]
    [Can W .obs] : Kept q τ W r₀ (mkaHello ca s) := by
  unfold mkaHello
  with_reducible repeat' first
    | assumption | (extract_lets +onlyGivenNames x; clear_value x; revert x; intro _) | apply kept_sendMkpdu
    | simp -zeta only [kept_mk, can, true_or, or_true] | split

theorem kept_execMkaHello (x1 : ℕ) (ca : ℕ) (s : State) (h0 : Kept q τ W r₀ s) [Can W .sent] [Can W .regs] [Can W .cmd] [Can W .port]
    [Can W .sas] [Can W .obs] : KeptOut q τ W r₀ (execMkaHello x1 ca s) := by
  unfold execMkaHello
  with_reducible repeat' first | assumption | apply kept_ev | apply kept_mkaHello | intro s₁ h₁

theorem kept_ansSaSwitchTx (b : Body) (s : State) (h0 : Kept q τ W r₀ s) [Can W .sent] [Can W .regs] [Can W .cmd] [Can W .lane]
    [Can W .sas] [Can W .brk] [Can W .bnd] [Can W .obs] : KeptAns q τ W r₀ (ansSaSwitchTx b s) := by
  unfold ansSaSwitchTx
  with_reducible repeat' first
    | assumption
    | (extract_lets +onlyGivenNames x; refine (?_ : Kept q τ W r₀ x → _) (?_ : Kept q τ W r₀ x); intro hx; clear_value x; revert x; intro _ _;
        rotate_left; dsimp -zeta only [x]; clear x)
    | (extract_lets +onlyGivenNames x; clear_value x; revert x; intro _) | apply kept_beginSwitch | exact KeptAns.fail
    | exact KeptAns.hold | apply KeptAns.done | apply KeptAns.wait | split

theorem kept_execSaSwitchTx (x1 : Hdr) (b : Body) (s : State) (h0 : Kept q τ W r₀ s) [Can W .sent] [Can W .regs] [Can W .cmd]
    [Can W .lane] [Can W .sas] [Can W .brk] [Can W .bnd] [Can W .obs] [Can W .evr] : KeptOut q τ W r₀ (execSaSwitchTx x1 b s) := by
  unfold execSaSwitchTx
  with_reducible repeat' first | assumption | apply kept_run | apply kept_ansSaSwitchTx | intro s₁ h₁

theorem kept_joinPeer (ca : ℕ) (x : MkaCa) (m : Mkpdu) (s : State) (h0 : Kept q τ W r₀ s) [Can W .freeCount] [Can W .sent] [Can W .regs]
    [Can W .cmd] [Can W .lane] [Can W .port] [Can W .sas] [Can W .bnd] [Can W .keys] [Can W .obs] [Can W .evr] : Kept q τ W r₀
    (joinPeer ca x m s) := by
  unfold joinPeer
  with_reducible repeat' first
    | assumption | (extract_lets +onlyGivenNames x; clear_value x; revert x; intro _) | apply kept_distributeSak | apply kept_mkaSc
    | apply kept_setCa

theorem kept_raiseFloors (key : ℕ) (lowPn : ℕ) (s : State) (h0 : Kept q τ W r₀ s) [Can W .sas] : Kept q τ W r₀
    (raiseFloors key lowPn s) := by
  unfold raiseFloors
  with_reducible repeat' first
    | assumption | (extract_lets +onlyGivenNames x; clear_value x; revert x; intro _) | simp -zeta only [kept_mk, can, true_or, or_true]
    | refine kept_foldl _ _ ?_ (fun s₁ x₁ h₁ => ?_) | split

theorem kept_mkpduRx (ca : ℕ) (m : Mkpdu) (s : State) (h0 : Kept q τ W r₀ s) [Can W .freeCount] [Can W .sent] [Can W .regs] [Can W .cmd]
    [Can W .lane] [Can W .port] [Can W .sas] [Can W .bnd] [Can W .keys] [Can W .obs] [Can W .evr] : Kept q τ W r₀ (mkpduRx ca m s) := by
  unfold mkpduRx
  with_reducible repeat' first
    | assumption
    | (extract_lets +onlyGivenNames x; refine (?_ : Kept q τ W r₀ x → _) (?_ : Kept q τ W r₀ x); intro hx; clear_value x; revert x; intro _ _;
        rotate_left; dsimp -zeta only [x]; clear x)
    | (extract_lets +onlyGivenNames x; clear_value x; revert x; intro _) | apply kept_joinPeer | apply kept_raiseFloors
    | apply kept_distributeSak | apply kept_installSak | simp -zeta only [kept_mk, can, true_or, or_true] | split

theorem kept_ansScCreate (b : Body) (s : State) (h0 : Kept q τ W r₀ s) [Can W .sent] [Can W .regs] [Can W .cmd] [Can W .lane]
    [Can W .sas] [Can W .brk] [Can W .bnd] [Can W .obs] : KeptAns q τ W r₀ (ansScCreate b s) := by
  unfold ansScCreate
  with_reducible repeat' first
    | assumption
    | (extract_lets +onlyGivenNames x; refine (?_ : (∀ v, KeptAns q τ W r₀ (x v)) → _) (?_ : ∀ v, KeptAns q τ W r₀ (x v)); intro hx; clear_value x; revert x; intro _ hx;
        rotate_left; dsimp -zeta only [x]; clear x)
    | (extract_lets +onlyGivenNames x; clear_value x; revert x; intro _) | apply kept_considerAuto | apply kept_mirrorSc
    | apply kept_setSc | exact KeptAns.fail | exact KeptAns.hold | apply KeptAns.done | exact hx _ | split | intro v

theorem kept_execSaZeroise (x1 : ℕ) (entry : ℕ) (s : State) (h0 : Kept q τ W r₀ s) [Can W .sent] [Can W .regs] [Can W .cmd]
    [Can W .lane] [Can W .sas] [Can W .bnd] [Can W .obs] : KeptOut q τ W r₀ (execSaZeroise x1 entry s) := by
  unfold execSaZeroise
  with_reducible repeat' first | assumption | apply kept_ev | apply kept_zeroise | intro s₁ h₁

theorem kept_primed (b : ℕ) (k : ℕ) (s : State) (h0 : Kept q τ W r₀ s) [Can W .brk] : Kept q τ W r₀ (primed b k s) := by
  unfold primed
  with_reducible repeat' first | assumption | (extract_lets +onlyGivenNames x; clear_value x; revert x; intro _) | apply kept_setBrick

theorem kept_execPrimingDone (x1 : ℕ) (brick : ℕ) (bank : ℕ) (s : State) (h0 : Kept q τ W r₀ s) [Can W .brk] : KeptOut q τ W r₀
    (execPrimingDone x1 brick bank s) := by
  unfold execPrimingDone
  with_reducible repeat' first | assumption | apply kept_ev | apply kept_primed | intro s₁ h₁

theorem kept_execScCreate (x1 : Hdr) (b : Body) (s : State) (h0 : Kept q τ W r₀ s) [Can W .sent] [Can W .regs] [Can W .cmd]
    [Can W .lane] [Can W .sas] [Can W .brk] [Can W .bnd] [Can W .obs] [Can W .evr] : KeptOut q τ W r₀ (execScCreate x1 b s) := by
  unfold execScCreate
  with_reducible repeat' first | assumption | apply kept_run | apply kept_ansScCreate | intro s₁ h₁

theorem kept_execSwitchCommit (x1 : ℕ) (sc : ℕ) (s : State) (h0 : Kept q τ W r₀ s) [Can W .sent] [Can W .regs] [Can W .cmd]
    [Can W .lane] [Can W .sas] [Can W .brk] [Can W .bnd] [Can W .obs] : KeptOut q τ W r₀ (execSwitchCommit x1 sc s) := by
  unfold execSwitchCommit
  with_reducible repeat' first | assumption | apply kept_ev | apply kept_switchDue | intro s₁ h₁

theorem kept_execMkaRekeyInterval (x1 : ℕ) (ca : ℕ) (s : State) (h0 : Kept q τ W r₀ s) [Can W .freeCount] [Can W .sent] [Can W .regs]
    [Can W .cmd] [Can W .port] [Can W .sas] [Can W .keys] [Can W .obs] [Can W .evr] : KeptOut q τ W r₀
    (execMkaRekeyInterval x1 ca s) := by
  unfold execMkaRekeyInterval
  with_reducible repeat' first | assumption | apply kept_ev | apply kept_mkaRekey | intro s₁ h₁

theorem kept_ansMkaConfig (x1 : Hdr) (b : Body) (s : State) (h0 : Kept q τ W r₀ s) [Can W .sent] [Can W .lane] [Can W .cls] [Can W .sas]
    [Can W .brk] [Can W .bnd] : KeptAns q τ W r₀ (ansMkaConfig x1 b s) := by
  unfold ansMkaConfig
  with_reducible repeat' first
    | assumption
    | (extract_lets +onlyGivenNames x; refine (?_ : Kept q τ W r₀ x → _) (?_ : Kept q τ W r₀ x); intro hx; clear_value x; revert x; intro _ _;
        rotate_left; dsimp -zeta only [x]; clear x)
    | (extract_lets +onlyGivenNames x; clear_value x; revert x; intro _) | apply kept_beginDelete | apply kept_mirror | apply kept_mkaSc
    | apply kept_setCa | simp -zeta only [kept_mk, can, true_or, or_true] | refine kept_foldl _ _ ?_ (fun s₁ x₁ h₁ => ?_)
    | exact KeptAns.fail | exact KeptAns.defer | exact KeptAns.hold | apply KeptAns.done | apply KeptAns.wait | split

theorem kept_execMkaConfig (x1 : Hdr) (b : Body) (s : State) (h0 : Kept q τ W r₀ s) [Can W .sent] [Can W .regs] [Can W .cmd]
    [Can W .lane] [Can W .cls] [Can W .sas] [Can W .brk] [Can W .bnd] [Can W .obs] [Can W .evr] : KeptOut q τ W r₀
    (execMkaConfig x1 b s) := by
  unfold execMkaConfig
  with_reducible repeat' first | assumption | apply kept_run | apply kept_ansMkaConfig | intro s₁ h₁

theorem kept_execSaErase (x1 : Hdr) (b : Body) (s : State) (h0 : Kept q τ W r₀ s) [Can W .sent] [Can W .regs] [Can W .cmd] [Can W .lane]
    [Can W .sas] [Can W .brk] [Can W .bnd] [Can W .obs] [Can W .evr] : KeptOut q τ W r₀ (execSaErase x1 b s) := by
  unfold execSaErase
  with_reducible repeat' first | assumption | apply kept_run | apply kept_ansSaErase | intro s₁ h₁

theorem kept_execMkpduRx (x1 : ℕ) (ca : ℕ) (info : Mkpdu) (s : State) (h0 : Kept q τ W r₀ s) [Can W .freeCount] [Can W .sent]
    [Can W .regs] [Can W .cmd] [Can W .lane] [Can W .port] [Can W .sas] [Can W .bnd] [Can W .keys] [Can W .obs] [Can W .evr]
    : KeptOut q τ W r₀ (execMkpduRx x1 ca info s) := by
  unfold execMkpduRx
  with_reducible repeat' first | assumption | apply kept_ev | apply kept_mkpduRx | intro s₁ h₁

/-! ## Classify -/

theorem kept_hostRemove (b : ℕ) (key : ℕ) (s : State) (h0 : Kept q τ W r₀ s) [Can W .cls] : Kept q τ W r₀ (hostRemove b key s).1 := by
  unfold hostRemove
  with_reducible repeat' first
    | assumption | (extract_lets +onlyGivenNames x; clear_value x; revert x; intro _) | apply kept_setTables | split

theorem kept_hitFlow (b : ℕ) (key : ℕ) (s : State) (h0 : Kept q τ W r₀ s) [Can W .cls] : Kept q τ W r₀ (hitFlow b key s).2 := by
  unfold hitFlow
  with_reducible repeat' first
    | assumption | (extract_lets +onlyGivenNames x; clear_value x; revert x; intro _) | apply kept_setTables | split

theorem kept_resolveRx (b : ℕ) (f : Frame) (s : State) (h0 : Kept q τ W r₀ s) [Can W .cls] : Kept q τ W r₀ (resolveRx b f s).2 := by
  unfold resolveRx
  with_reducible repeat' first
    | assumption | (extract_lets +onlyGivenNames x; clear_value x; revert x; intro _) | apply kept_hitFlow
    | simp -zeta only [kept_mk, can, true_or, or_true] | split | refine kept_snd (by assumption) ?_

theorem kept_rehashSwap (b : ℕ) (s : State) (h0 : Kept q τ W r₀ s) [Can W .sent] [Can W .regs] [Can W .cmd] [Can W .cls] [Can W .obs]
    : Kept q τ W r₀ (rehashSwap b s) := by
  unfold rehashSwap
  with_reducible repeat' first
    | assumption | (extract_lets +onlyGivenNames x; clear_value x; revert x; intro _) | apply kept_endOp | apply kept_setTables
    | apply kept_setFld | split

theorem kept_learnSent (m : LearnMsg) (s : State) (h0 : Kept q τ W r₀ s) [Can W .sent] [Can W .lane] [Can W .bnd] : Kept q τ W r₀
    (learnSent m s) := by
  unfold learnSent
  with_reducible repeat' first | assumption | apply kept_mirror | split

theorem kept_learnDrop (b : ℕ) (s : State) (h0 : Kept q τ W r₀ s) [Can W .regs] : Kept q τ W r₀ (learnDrop b s) := by
  unfold learnDrop
  with_reducible repeat' first | assumption | apply kept_bump

theorem kept_insertFailed (b : ℕ) (s : State) (h0 : Kept q τ W r₀ s) [Can W .sent] [Can W .regs] [Can W .cmd] [Can W .obs]
    : Kept q τ W r₀ (insertFailed b s) := by
  unfold insertFailed
  with_reducible repeat' first
    | assumption
    | (extract_lets +onlyGivenNames x; refine (?_ : Kept q τ W r₀ x → _) (?_ : Kept q τ W r₀ x); intro hx; clear_value x; revert x; intro _ _;
        rotate_left; dsimp -zeta only [x]; clear x)
    | (extract_lets +onlyGivenNames x; clear_value x; revert x; intro _) | apply kept_bump | apply kept_notify | apply kept_raise | split

theorem kept_applyLearn (m : LearnMsg) (s : State) (h0 : Kept q τ W r₀ s) [Can W .sent] [Can W .regs] [Can W .cmd] [Can W .lane]
    [Can W .cls] [Can W .bnd] [Can W .obs] : Kept q τ W r₀ (applyLearn m s) := by
  unfold applyLearn
  with_reducible repeat' first
    | assumption | (extract_lets +onlyGivenNames x; clear_value x; revert x; intro _) | apply kept_learnSent | apply kept_setTables
    | apply kept_learnDrop | apply kept_insertFailed | split

theorem kept_hostInsert (b : ℕ) (job : ℕ) (e : FlowEntry) (s : State) (h0 : Kept q τ W r₀ s) [Can W .sent] [Can W .regs] [Can W .cmd]
    [Can W .cls] [Can W .obs] : Kept q τ W r₀ (hostInsert b job e s).1 := by
  unfold hostInsert
  with_reducible repeat' first
    | assumption | (extract_lets +onlyGivenNames x; clear_value x; revert x; intro _) | apply kept_setTables | apply kept_insertFailed
    | split

theorem kept_jobDone (b : ℕ) (job : ℕ) (status : ℕ) (s : State) (h0 : Kept q τ W r₀ s) [Can W .sent] [Can W .regs] [Can W .cmd]
    [Can W .obs] : Kept q τ W r₀ (jobDone b job status s) := by
  unfold jobDone
  with_reducible repeat' first | assumption | apply kept_finishWhere

theorem kept_setVlan (b : ℕ) (i : ℕ) (w : Word) (s : State) (h0 : Kept q τ W r₀ s) [Can W .cls] : Kept q τ W r₀ (setVlan b i w s) := by
  unfold setVlan
  with_reducible repeat' first | assumption | (extract_lets +onlyGivenNames x; clear_value x; revert x; intro _) | apply kept_setTables

theorem kept_agedOut (b : ℕ) (key : ℕ) (s : State) (h0 : Kept q τ W r₀ s) [Can W .sent] [Can W .regs] [Can W .lane] [Can W .cls]
    [Can W .bnd] : Kept q τ W r₀ (agedOut b key s) := by
  unfold agedOut
  with_reducible repeat' first
    | assumption
    | (extract_lets +onlyGivenNames x; refine (?_ : Kept q τ W r₀ x → _) (?_ : Kept q τ W r₀ x); intro hx; clear_value x; revert x; intro _ _;
        rotate_left; dsimp -zeta only [x]; clear x)
    | (extract_lets +onlyGivenNames x; clear_value x; revert x; intro _) | apply kept_bump | apply kept_setTables | apply kept_mirror
    | split

theorem kept_doWork (b : Nat) (w : TabWork) (s : State) (h0 : Kept q τ W r₀ s) [Can W .sent] [Can W .regs] [Can W .cmd] [Can W .lane]
    [Can W .cls] [Can W .bnd] [Can W .obs] : Kept q τ W r₀ (doWork b w s) := by
  unfold doWork
  split
  · exact kept_applyLearn _ _ h0
  · split
    · rename_i e; exact kept_jobDone _ _ _ _ (kept_fst e (kept_hostInsert _ _ _ _ h0))
    · rename_i e; exact kept_fst e (kept_hostInsert _ _ _ _ h0)
  · exact kept_jobDone _ _ _ _ (kept_hostRemove _ _ _ h0)
  · exact kept_jobDone _ _ _ _ (kept_setVlan _ _ _ _ h0)
  · exact kept_agedOut _ _ _ h0

theorem kept_serve (b n : Nat) (s : State) (h0 : Kept q τ W r₀ s) [Can W .sent] [Can W .regs] [Can W .cmd] [Can W .lane] [Can W .cls]
    [Can W .bnd] [Can W .obs] : Kept q τ W r₀ (serve b n s) := by
  induction n generalizing s with
  | zero => exact h0
  | succ n ih =>
    unfold serve
    split
    · exact h0
    · split
      · exact ih _ (kept_doWork _ _ _ (kept_setTables _ _ _ h0))
      · exact h0

theorem kept_serveAll (b : ℕ) (s : State) (h0 : Kept q τ W r₀ s) [Can W .sent] [Can W .regs] [Can W .cmd] [Can W .lane] [Can W .cls]
    [Can W .bnd] [Can W .obs] : Kept q τ W r₀ (serveAll b s) := by
  unfold serveAll
  with_reducible repeat' first | assumption | apply kept_serve

theorem kept_learnApply (b : ℕ) (s : State) (h0 : Kept q τ W r₀ s) [Can W .sent] [Can W .regs] [Can W .cmd] [Can W .lane] [Can W .cls]
    [Can W .bnd] [Can W .obs] : Kept q τ W r₀ (learnApply b s) := by
  unfold learnApply
  with_reducible repeat' first
    | assumption | (extract_lets +onlyGivenNames x; clear_value x; revert x; intro _) | apply kept_serveAll | apply kept_applyLearn
    | apply kept_setTables | split

theorem kept_onSc (standing : Option Bool) (go : Ans) (h : KeptAns q τ W r₀ go) : KeptAns q τ W r₀ (onSc standing go) := by
  unfold onSc
  split
  · exact .fail
  · exact .hold
  · exact h

theorem kept_queueJob (b : ℕ) (w : ℕ → TabWork) (rep : Body) (s : State) (h0 : Kept q τ W r₀ s) [Can W .cls] : KeptAns q τ W r₀
    (queueJob b w rep s) := by
  unfold queueJob
  with_reducible repeat' first
    | assumption | (extract_lets +onlyGivenNames x; clear_value x; revert x; intro _) | apply kept_setTables | apply KeptAns.waits

theorem kept_putVlan (k : ℕ) (i : ℕ) (v : Word) (rep : Body) (s : State) (h0 : Kept q τ W r₀ s) [Can W .cls] : KeptAns q τ W r₀
    (putVlan k i v rep s) := by
  unfold putVlan
  with_reducible repeat' first | assumption | apply kept_setVlan | apply kept_queueJob | apply KeptAns.done | split

theorem kept_insertVlan (b : Body) (s : State) (h0 : Kept q τ W r₀ s) [Can W .cls] : KeptAns q τ W r₀ (insertVlan b s) := by
  unfold insertVlan
  with_reducible repeat' first
    | assumption | (extract_lets +onlyGivenNames x; clear_value x; revert x; intro _) | apply kept_onSc | apply kept_putVlan

theorem kept_putFlow (k : ℕ) (e : FlowEntry) (s : State) (h0 : Kept q τ W r₀ s) [Can W .sent] [Can W .regs] [Can W .cmd] [Can W .cls]
    [Can W .obs] : KeptAns q τ W r₀ (putFlow k e s) := by
  unfold putFlow
  with_reducible repeat' first
    | assumption | (extract_lets +onlyGivenNames x; clear_value x; revert x; intro _) | apply kept_queueJob | apply kept_hostInsert
    | apply kept_setTables | apply KeptAns.done | apply KeptAns.spent | apply KeptAns.waits | split | refine kept_fst (by assumption) ?_

theorem kept_insertFlow (b : Body) (s : State) (h0 : Kept q τ W r₀ s) [Can W .sent] [Can W .regs] [Can W .cmd] [Can W .cls] [Can W .obs]
    : KeptAns q τ W r₀ (insertFlow b s) := by
  unfold insertFlow
  with_reducible repeat' first
    | assumption | (extract_lets +onlyGivenNames x; clear_value x; revert x; intro _) | apply kept_onSc | apply kept_putFlow

theorem kept_ansTableInsert (b : Body) (s : State) (h0 : Kept q τ W r₀ s) [Can W .sent] [Can W .regs] [Can W .cmd] [Can W .cls]
    [Can W .obs] : KeptAns q τ W r₀ (ansTableInsert b s) := by
  unfold ansTableInsert
  with_reducible repeat' first | assumption | apply kept_insertVlan | apply kept_insertFlow | split

theorem kept_execTableInsert (x1 : Hdr) (b : Body) (s : State) (h0 : Kept q τ W r₀ s) [Can W .sent] [Can W .regs] [Can W .cmd]
    [Can W .cls] [Can W .obs] [Can W .evr] : KeptOut q τ W r₀ (execTableInsert x1 b s) := by
  unfold execTableInsert
  with_reducible repeat' first | assumption | apply kept_run | apply kept_ansTableInsert | intro s₁ h₁

theorem kept_ansTableDelete (b : Body) (s : State) (h0 : Kept q τ W r₀ s) [Can W .cls] : KeptAns q τ W r₀ (ansTableDelete b s) := by
  unfold ansTableDelete
  with_reducible repeat' first
    | assumption | (extract_lets +onlyGivenNames x; clear_value x; revert x; intro _) | apply kept_setVlan | apply kept_queueJob
    | apply kept_hostRemove | simp -zeta only [kept_mk, can, true_or, or_true] | exact KeptAns.fail | apply KeptAns.done | split

theorem kept_addWork (b : ℕ) (w : TabWork) (s : State) (h0 : Kept q τ W r₀ s) [Can W .sent] [Can W .regs] [Can W .cmd] [Can W .lane]
    [Can W .cls] [Can W .bnd] [Can W .obs] : Kept q τ W r₀ (addWork b w s) := by
  unfold addWork
  with_reducible repeat' first
    | assumption | (extract_lets +onlyGivenNames x; clear_value x; revert x; intro _) | apply kept_serveAll | apply kept_setTables

theorem kept_ansLpmDelete (b : Body) (s : State) (h0 : Kept q τ W r₀ s) [Can W .cls] : KeptAns q τ W r₀ (ansLpmDelete b s) := by
  unfold ansLpmDelete
  with_reducible repeat' first
    | assumption | (extract_lets +onlyGivenNames x; clear_value x; revert x; intro _) | apply kept_setTables
    | simp -zeta only [kept_mk, can, true_or, or_true] | exact KeptAns.fail | apply KeptAns.done | split

theorem kept_execLpmDelete (x1 : Hdr) (b : Body) (s : State) (h0 : Kept q τ W r₀ s) [Can W .sent] [Can W .regs] [Can W .cmd]
    [Can W .cls] [Can W .obs] [Can W .evr] : KeptOut q τ W r₀ (execLpmDelete x1 b s) := by
  unfold execLpmDelete
  with_reducible repeat' first | assumption | apply kept_run | apply kept_ansLpmDelete | intro s₁ h₁

theorem kept_ansTableRehash (x1 : Hdr) (b : Body) (s : State) (h0 : Kept q τ W r₀ s) [Can W .cmd] [Can W .cls] : KeptAns q τ W r₀
    (ansTableRehash x1 b s) := by
  unfold ansTableRehash
  with_reducible repeat' first
    | assumption | (extract_lets +onlyGivenNames x; clear_value x; revert x; intro _) | apply kept_setTables | apply kept_startOp
    | exact KeptAns.fail | apply KeptAns.prog | split

theorem kept_execTableRehash (x1 : Hdr) (b : Body) (s : State) (h0 : Kept q τ W r₀ s) [Can W .sent] [Can W .regs] [Can W .cmd]
    [Can W .cls] [Can W .obs] [Can W .evr] : KeptOut q τ W r₀ (execTableRehash x1 b s) := by
  unfold execTableRehash
  with_reducible repeat' first | assumption | apply kept_run | apply kept_ansTableRehash | intro s₁ h₁

theorem kept_ansTableRead (b : Body) (s : State) (h0 : Kept q τ W r₀ s) : KeptAns q τ W r₀ (ansTableRead b s) := by
  unfold ansTableRead
  with_reducible repeat' first
    | assumption | (extract_lets +onlyGivenNames x; clear_value x; revert x; intro _) | exact KeptAns.fail | exact KeptAns.hold
    | apply KeptAns.done | split

theorem kept_execTableRead (x1 : Hdr) (b : Body) (s : State) (h0 : Kept q τ W r₀ s) [Can W .sent] [Can W .regs] [Can W .cmd]
    [Can W .obs] [Can W .evr] : KeptOut q τ W r₀ (execTableRead x1 b s) := by
  unfold execTableRead
  with_reducible repeat' first | assumption | apply kept_run | apply kept_ansTableRead

theorem kept_tombstoneFree (b : ℕ) (s : State) (h0 : Kept q τ W r₀ s) [Can W .sent] [Can W .regs] [Can W .cmd] [Can W .lane]
    [Can W .cls] [Can W .bnd] [Can W .obs] : Kept q τ W r₀ (tombstoneFree b s) := by
  unfold tombstoneFree
  with_reducible repeat' first
    | assumption
    | (extract_lets +onlyGivenNames x; refine (?_ : Kept q τ W r₀ x → _) (?_ : Kept q τ W r₀ x); intro hx; clear_value x; revert x; intro _ _;
        rotate_left; dsimp -zeta only [x]; clear x)
    | (extract_lets +onlyGivenNames x; clear_value x; revert x; intro _) | apply kept_setTables | apply kept_serveAll | apply kept_jobDone
    | split

theorem kept_execTombstoneFree (x1 : ℕ) (brick : ℕ) (s : State) (h0 : Kept q τ W r₀ s) [Can W .sent] [Can W .regs] [Can W .cmd]
    [Can W .lane] [Can W .cls] [Can W .bnd] [Can W .obs] : KeptOut q τ W r₀ (execTombstoneFree x1 brick s) := by
  unfold execTombstoneFree
  with_reducible repeat' first | assumption | apply kept_ev | apply kept_tombstoneFree | intro s₁ h₁

theorem kept_ansLpmAdd (b : Body) (s : State) (h0 : Kept q τ W r₀ s) [Can W .cls] : KeptAns q τ W r₀ (ansLpmAdd b s) := by
  unfold ansLpmAdd
  with_reducible repeat' first
    | assumption | (extract_lets +onlyGivenNames x; clear_value x; revert x; intro _) | apply kept_setTables
    | simp -zeta only [kept_mk, can, true_or, or_true] | exact KeptAns.fail | apply KeptAns.done | split

theorem kept_restartAger (s : State) (h0 : Kept q τ W r₀ s) [Can W .cls] : Kept q τ W r₀ (restartAger s) := by
  unfold restartAger
  with_reducible repeat' first
    | assumption | (extract_lets +onlyGivenNames x; clear_value x; revert x; intro _) | simp -zeta only [kept_mk, can, true_or, or_true]

theorem kept_execTableDelete (x1 : Hdr) (b : Body) (s : State) (h0 : Kept q τ W r₀ s) [Can W .sent] [Can W .regs] [Can W .cmd]
    [Can W .cls] [Can W .obs] [Can W .evr] : KeptOut q τ W r₀ (execTableDelete x1 b s) := by
  unfold execTableDelete
  with_reducible repeat' first | assumption | apply kept_run | apply kept_ansTableDelete | intro s₁ h₁

theorem kept_drawSeeds (s : State) (h0 : Kept q τ W r₀ s) [Can W .freeCount] [Can W .cls] : Kept q τ W r₀ (drawSeeds s) := by
  unfold drawSeeds
  with_reducible repeat' first
    | assumption | (extract_lets +onlyGivenNames x; clear_value x; revert x; intro _) | apply kept_drawBits | apply kept_setTables
    | simp -zeta only [kept_mk, can, true_or, or_true] | refine kept_foldl _ _ ?_ (fun s₁ x₁ h₁ => ?_)

theorem kept_execLpmAdd (x1 : Hdr) (b : Body) (s : State) (h0 : Kept q τ W r₀ s) [Can W .sent] [Can W .regs] [Can W .cmd] [Can W .cls]
    [Can W .obs] [Can W .evr] : KeptOut q τ W r₀ (execLpmAdd x1 b s) := by
  unfold execLpmAdd
  with_reducible repeat' first | assumption | apply kept_run | apply kept_ansLpmAdd | intro s₁ h₁

theorem kept_pushLearn (m : LearnMsg) (s : State) (h0 : Kept q τ W r₀ s) [Can W .regs] [Can W .cls] : Kept q τ W r₀ (pushLearn m s) := by
  unfold pushLearn
  with_reducible repeat' first
    | assumption | (extract_lets +onlyGivenNames x; clear_value x; revert x; intro _) | apply kept_learnDrop | apply kept_setTables
    | split

theorem kept_execRehashSwap (x1 : ℕ) (brick : ℕ) (s : State) (h0 : Kept q τ W r₀ s) [Can W .sent] [Can W .regs] [Can W .cmd]
    [Can W .cls] [Can W .obs] : KeptOut q τ W r₀ (execRehashSwap x1 brick s) := by
  unfold execRehashSwap
  with_reducible repeat' first | assumption | apply kept_ev | apply kept_rehashSwap | intro s₁ h₁ | split

theorem kept_agerAct (b : ℕ) (way : ℕ) (s : State) (h0 : Kept q τ W r₀ s) [Can W .sent] [Can W .regs] [Can W .cmd] [Can W .lane]
    [Can W .cls] [Can W .bnd] [Can W .obs] : Kept q τ W r₀ (agerAct b way s) := by
  unfold agerAct
  with_reducible repeat' first
    | assumption | (extract_lets +onlyGivenNames x; clear_value x; revert x; intro _) | apply kept_setTables | apply kept_addWork | split

theorem kept_resolveTx (b : ℕ) (sub : ℕ) (f : Frame) (s : State) (h0 : Kept q τ W r₀ s) [Can W .cls] : Kept q τ W r₀
    (resolveTx b sub f s).2 := by
  unfold resolveTx
  with_reducible repeat' first
    | assumption | (extract_lets +onlyGivenNames x; clear_value x; revert x; intro _) | apply kept_hitFlow
    | simp -zeta only [kept_mk, can, true_or, or_true] | split

theorem kept_execLearnApply (x1 : ℕ) (brick : ℕ) (s : State) (h0 : Kept q τ W r₀ s) [Can W .sent] [Can W .regs] [Can W .cmd]
    [Can W .lane] [Can W .cls] [Can W .bnd] [Can W .obs] : KeptOut q τ W r₀ (execLearnApply x1 brick s) := by
  unfold execLearnApply
  with_reducible repeat' first | assumption | apply kept_ev | apply kept_learnApply | intro s₁ h₁ | split

theorem kept_agerVisit (b : ℕ) (way : ℕ) (s : State) (h0 : Kept q τ W r₀ s) [Can W .sent] [Can W .regs] [Can W .cmd] [Can W .lane]
    [Can W .cls] [Can W .bnd] [Can W .obs] : Kept q τ W r₀ (agerVisit b way s) := by
  unfold agerVisit
  with_reducible repeat' first
    | assumption | (extract_lets +onlyGivenNames x; clear_value x; revert x; intro _) | apply kept_agerAct | apply kept_setTables | split

theorem kept_execAgerVisit (x1 : ℕ) (brick : ℕ) (way : ℕ) (s : State) (h0 : Kept q τ W r₀ s) [Can W .sent] [Can W .regs] [Can W .cmd]
    [Can W .lane] [Can W .cls] [Can W .bnd] [Can W .obs] : KeptOut q τ W r₀ (execAgerVisit x1 brick way s) := by
  unfold execAgerVisit
  with_reducible repeat' first | assumption | apply kept_ev | apply kept_agerVisit | intro s₁ h₁ | split

theorem kept_learnFrom (b : ℕ) (key : ℕ) (sp : ℕ) (vid : ℕ) (src : ℕ) (s : State) (h0 : Kept q τ W r₀ s) [Can W .regs] [Can W .cls]
    : Kept q τ W r₀ (learnFrom b key sp vid src s) := by
  unfold learnFrom
  with_reducible repeat' first
    | assumption | (extract_lets +onlyGivenNames x; clear_value x; revert x; intro _) | apply kept_learnDrop | apply kept_pushLearn
    | apply kept_setTables | split

end Sys2Proof.Machine
end

