-- ==== Sys2Proof/Laws/KeptBricks.lean ====
section
/-! SUPPORT. What every operation keeps: queues and bricks. One lemma for each function; `Kept` is defined in Laws/Kept.lean. -/
namespace Sys2Proof.Machine
open Sys2Proof
set_option linter.unusedSimpArgs false
set_option linter.unusedTactic false
set_option linter.unreachableTactic false
variable {q : List Instr} {τ : Nat} {W : Part → Bool} {r₀ : State}

/-! ## Queues -/

theorem kept_setQueue (x1 : ℕ) (x : Queue) (s : State) (h0 : Kept q τ W r₀ s) [Can W .que] : Kept q τ W r₀ (setQueue x1 x s) := by
  unfold setQueue
  with_reducible repeat' first
    | assumption | (extract_lets +onlyGivenNames x; clear_value x; revert x; intro _) | simp -zeta only [kept_mk, can, true_or, or_true]

theorem kept_charge (x1 : ℕ) (s : State) (h0 : Kept q τ W r₀ s) [Can W .que] : Kept q τ W r₀ (charge x1 s) := by
  unfold charge
  with_reducible repeat' first
    | assumption | (extract_lets +onlyGivenNames x; clear_value x; revert x; intro _) | apply kept_setQueue | split

theorem kept_setGone (id : ℕ) (s : State) (h0 : Kept q τ W r₀ s) [Can W .brk] [Can W .que] : Kept q τ W r₀ (setGone id s) := by
  unfold setGone
  with_reducible repeat' first | assumption | apply kept_updFrame

theorem kept_unframe (x1 : Held) (s : State) (h0 : Kept q τ W r₀ s) [Can W .trk] : Kept q τ W r₀ (unframe x1 s) := by
  unfold unframe
  with_reducible repeat' first
    | assumption | (extract_lets +onlyGivenNames x; clear_value x; revert x; intro _) | apply kept_setTrunk | split

theorem kept_discardAt (x1 : Held) (s : State) (h0 : Kept q τ W r₀ s) [Can W .sent] [Can W .regs] [Can W .cmd] [Can W .port]
    [Can W .brk] [Can W .trk] [Can W .que] [Can W .obs] : Kept q τ W r₀ (discardAt x1 s) := by
  unfold discardAt
  with_reducible repeat' first | assumption | apply kept_txDrop | apply kept_setGone | apply kept_leaveQueues | apply kept_unframe

theorem kept_suspend (sp : ℕ) (x : TxFrame) (s : State) (h0 : Kept q τ W r₀ s) [Can W .sent] [Can W .regs] [Can W .cmd] [Can W .port]
    [Can W .obs] : Kept q τ W r₀ (suspend sp x s) := by
  unfold suspend
  with_reducible repeat' first
    | assumption
    | (extract_lets +onlyGivenNames x; refine (?_ : Kept q τ W r₀ x → _) (?_ : Kept q τ W r₀ x); intro hx; clear_value x; revert x; intro _ _;
        rotate_left; dsimp -zeta only [x]; clear x)
    | (extract_lets +onlyGivenNames x; clear_value x; revert x; intro _) | apply kept_lineCount | apply kept_setSub | split

theorem kept_queCount (e : ℕ) (i : ℕ) (s : State) (h0 : Kept q τ W r₀ s) [Can W .regs] : Kept q τ W r₀ (queCount e i s) := by
  unfold queCount
  with_reducible repeat' first | assumption | apply kept_bump

theorem kept_startFrame (sp : ℕ) (at_ : ℕ) (x1 : Held) (s : State) (h0 : Kept q τ W r₀ s) [Can W .sent] [Can W .regs] [Can W .port]
    [Can W .brk] [Can W .que] [Can W .obs] : Kept q τ W r₀ (startFrame sp at_ x1 s) := by
  unfold startFrame
  with_reducible repeat' first
    | assumption | (extract_lets +onlyGivenNames x; clear_value x; revert x; intro _) | apply kept_queCount | apply kept_setGone
    | apply kept_charge | apply kept_setEgress | apply kept_send | apply kept_perf | apply kept_setSub | split

theorem kept_oneStepMiss (n : ℕ) (cause : ℕ) (x : OneStep) (s : State) (h0 : Kept q τ W r₀ s) [Can W .regs] [Can W .time] [Can W .obs]
    [Can W .evr] : Kept q τ W r₀ (oneStepMiss n cause x s) := by
  unfold oneStepMiss
  with_reducible repeat' first
    | assumption
    | (extract_lets +onlyGivenNames x; refine (?_ : Kept q τ W r₀ x → _) (?_ : Kept q τ W r₀ x); intro hx; clear_value x; revert x; intro _ _;
        rotate_left; dsimp -zeta only [x]; clear x)
    | (extract_lets +onlyGivenNames x; clear_value x; revert x; intro _) | apply kept_bumpFld | apply kept_record
    | simp -zeta only [kept_mk, can, true_or, or_true] | split

theorem kept_sendPtp (sp : ℕ) (transport : ℕ) (m : PtpMsg) (sa : Option (ℕ × ℕ)) (st : Option ℕ) (s : State) (h0 : Kept q τ W r₀ s)
    [Can W .sent] [Can W .regs] [Can W .cmd] [Can W .port] [Can W .obs] : Kept q τ W r₀ (sendPtp sp transport m sa st s) := by
  unfold sendPtp
  with_reducible repeat' first | assumption | apply kept_send | apply kept_countTx

theorem kept_oneStepRelease (n : ℕ) (s : State) (h0 : Kept q τ W r₀ s) [Can W .sent] [Can W .regs] [Can W .cmd] [Can W .port]
    [Can W .time] [Can W .obs] [Can W .evr] : Kept q τ W r₀ (oneStepRelease n s) := by
  unfold oneStepRelease
  with_reducible repeat' first
    | assumption
    | (extract_lets +onlyGivenNames x; refine (?_ : Kept q τ W r₀ x → _) (?_ : Kept q τ W r₀ x); intro hx; clear_value x; revert x; intro _ _;
        rotate_left; dsimp -zeta only [x]; clear x)
    | (extract_lets +onlyGivenNames x; clear_value x; revert x; intro _) | apply kept_oneStepMiss | apply kept_setReg | apply kept_sendPtp
    | simp -zeta only [kept_mk, can, true_or, or_true] | split

theorem kept_resume (sp : ℕ) (s : State) (h0 : Kept q τ W r₀ s) [Can W .port] : Kept q τ W r₀ (resume sp s) := by
  unfold resume
  with_reducible repeat' first
    | assumption | (extract_lets +onlyGivenNames x; clear_value x; revert x; intro _) | apply kept_setSub | split

theorem kept_egressSelect (sp : ℕ) (s : State) (h0 : Kept q τ W r₀ s) [Can W .sent] [Can W .regs] [Can W .cmd] [Can W .port]
    [Can W .time] [Can W .brk] [Can W .trk] [Can W .que] [Can W .obs] [Can W .evr] : Kept q τ W r₀ (egressSelect sp s) := by
  unfold egressSelect
  with_reducible repeat' first
    | assumption
    | (extract_lets +onlyGivenNames x; refine (?_ : Kept q τ W r₀ x → _) (?_ : Kept q τ W r₀ x); intro hx; clear_value x; revert x; intro _ _;
        rotate_left; dsimp -zeta only [x]; clear x)
    | (extract_lets +onlyGivenNames x; clear_value x; revert x; intro _) | apply kept_discardAt | apply kept_suspend
    | apply kept_startFrame | apply kept_oneStepRelease | apply kept_resume | apply kept_perf
    | refine kept_foldl _ _ ?_ (fun s₁ x₁ h₁ => ?_) | split

theorem kept_reshape (x1 : ℕ) (rate : ℕ) (bounds : Word) (s : State) (h0 : Kept q τ W r₀ s) [Can W .que] : Kept q τ W r₀
    (reshape x1 rate bounds s) := by
  unfold reshape
  with_reducible repeat' first
    | assumption | (extract_lets +onlyGivenNames x; clear_value x; revert x; intro _) | apply kept_setQueue | split

theorem kept_ansShaperSet (b : Body) (s : State) (h0 : Kept q τ W r₀ s) [Can W .que] : KeptAns q τ W r₀ (ansShaperSet b s) := by
  unfold ansShaperSet
  with_reducible repeat' first
    | assumption | (extract_lets +onlyGivenNames x; clear_value x; revert x; intro _) | apply kept_reshape
    | simp -zeta only [kept_mk, can, true_or, or_true] | refine kept_foldl _ _ ?_ (fun s₁ x₁ h₁ => ?_) | apply KeptAns.done

theorem kept_execShaperSet (x1 : Hdr) (b : Body) (s : State) (h0 : Kept q τ W r₀ s) [Can W .sent] [Can W .regs] [Can W .cmd]
    [Can W .que] [Can W .obs] [Can W .evr] : KeptOut q τ W r₀ (execShaperSet x1 b s) := by
  unfold execShaperSet
  with_reducible repeat' first | assumption | apply kept_run | apply kept_ansShaperSet | intro s₁ h₁

theorem kept_ansQueueConfig (b : Body) (s : State) (h0 : Kept q τ W r₀ s) [Can W .que] : KeptAns q τ W r₀ (ansQueueConfig b s) := by
  unfold ansQueueConfig
  with_reducible repeat' first
    | assumption | (extract_lets +onlyGivenNames x; clear_value x; revert x; intro _) | apply kept_setQueue
    | simp -zeta only [kept_mk, can, true_or, or_true] | refine kept_foldl _ _ ?_ (fun s₁ x₁ h₁ => ?_) | apply KeptAns.done | split

theorem kept_gclChange (e : ℕ) (s : State) (h0 : Kept q τ W r₀ s) [Can W .que] : Kept q τ W r₀ (gclChange e s) := by
  unfold gclChange
  with_reducible repeat' first | assumption | apply kept_changeList | split

theorem kept_execGclChangeInstant (x1 : ℕ) (e : ℕ) (s : State) (h0 : Kept q τ W r₀ s) [Can W .que] : KeptOut q τ W r₀
    (execGclChangeInstant x1 e s) := by
  unfold execGclChangeInstant
  with_reducible repeat' first | assumption | apply kept_ev | apply kept_gclChange | intro s₁ h₁ | split

theorem kept_execQueueConfig (x1 : Hdr) (b : Body) (s : State) (h0 : Kept q τ W r₀ s) [Can W .sent] [Can W .regs] [Can W .cmd]
    [Can W .que] [Can W .obs] [Can W .evr] : KeptOut q τ W r₀ (execQueueConfig x1 b s) := by
  unfold execQueueConfig
  with_reducible repeat' first | assumption | apply kept_run | apply kept_ansQueueConfig | intro s₁ h₁

theorem kept_gateChange (e : ℕ) (s : State) (h0 : Kept q τ W r₀ s) [Can W .sent] [Can W .regs] [Can W .cmd] [Can W .port] [Can W .que]
    [Can W .obs] : Kept q τ W r₀ (gateChange e s) := by
  unfold gateChange
  with_reducible repeat' first
    | assumption
    | (extract_lets +onlyGivenNames x; refine (?_ : Kept q τ W r₀ x → _) (?_ : Kept q τ W r₀ x); intro hx; clear_value x; revert x; intro _ _;
        rotate_left; dsimp -zeta only [x]; clear x)
    | (extract_lets +onlyGivenNames x; clear_value x; revert x; intro _) | apply kept_setEgress | apply kept_suspend
    | refine kept_foldl _ _ ?_ (fun s₁ x₁ h₁ => ?_) | split

theorem kept_execGateEntryChange (x1 : ℕ) (e : ℕ) (s : State) (h0 : Kept q τ W r₀ s) [Can W .sent] [Can W .regs] [Can W .cmd]
    [Can W .port] [Can W .que] [Can W .obs] : KeptOut q τ W r₀ (execGateEntryChange x1 e s) := by
  unfold execGateEntryChange
  with_reducible repeat' first | assumption | apply kept_ev | apply kept_gateChange | intro s₁ h₁ | split

theorem kept_frameAged (id : ℕ) (s : State) (h0 : Kept q τ W r₀ s) [Can W .sent] [Can W .regs] [Can W .cmd] [Can W .port] [Can W .brk]
    [Can W .trk] [Can W .que] [Can W .obs] : Kept q τ W r₀ (frameAged id s) := by
  unfold frameAged
  with_reducible repeat' first | assumption | apply kept_perf | apply kept_queCount | apply kept_discardAt | split

theorem kept_ansGclWrite (b : Body) (s : State) (h0 : Kept q τ W r₀ s) [Can W .que] : KeptAns q τ W r₀ (ansGclWrite b s) := by
  unfold ansGclWrite
  with_reducible repeat' first
    | assumption | (extract_lets +onlyGivenNames x; clear_value x; revert x; intro _) | apply kept_setEgress | apply KeptAns.done

theorem kept_execGclWrite (x1 : Hdr) (b : Body) (s : State) (h0 : Kept q τ W r₀ s) [Can W .sent] [Can W .regs] [Can W .cmd] [Can W .que]
    [Can W .obs] [Can W .evr] : KeptOut q τ W r₀ (execGclWrite x1 b s) := by
  unfold execGclWrite
  with_reducible repeat' first | assumption | apply kept_run | apply kept_ansGclWrite | intro s₁ h₁

theorem kept_frameTxDone (sp : ℕ) (s : State) (h0 : Kept q τ W r₀ s) [Can W .sent] [Can W .regs] [Can W .cmd] [Can W .port] [Can W .que]
    [Can W .obs] : Kept q τ W r₀ (frameTxDone sp s) := by
  unfold frameTxDone
  with_reducible repeat' first
    | assumption
    | (extract_lets +onlyGivenNames x; refine (?_ : Kept q τ W r₀ x → _) (?_ : Kept q τ W r₀ x); intro hx; clear_value x; revert x; intro _ _;
        rotate_left; dsimp -zeta only [x]; clear x)
    | (extract_lets +onlyGivenNames x; clear_value x; revert x; intro _) | apply kept_lineCount | apply kept_leaveQueues | apply kept_send
    | apply kept_countTx | apply kept_setSub | split

theorem kept_execFrameTxDone (x1 : ℕ) (sp : ℕ) (s : State) (h0 : Kept q τ W r₀ s) [Can W .sent] [Can W .regs] [Can W .cmd] [Can W .port]
    [Can W .que] [Can W .obs] : KeptOut q τ W r₀ (execFrameTxDone x1 sp s) := by
  unfold execFrameTxDone
  with_reducible repeat' first | assumption | apply kept_ev | apply kept_frameTxDone | intro s₁ h₁ | split

theorem kept_ansGclCommit (b : Body) (s : State) (h0 : Kept q τ W r₀ s) [Can W .que] : KeptAns q τ W r₀ (ansGclCommit b s) := by
  unfold ansGclCommit
  with_reducible repeat' first
    | assumption
    | (extract_lets +onlyGivenNames x; refine (?_ : Kept q τ W r₀ x → _) (?_ : Kept q τ W r₀ x); intro hx; clear_value x; revert x; intro _ _;
        rotate_left; dsimp -zeta only [x]; clear x)
    | (extract_lets +onlyGivenNames x; clear_value x; revert x; intro _) | apply kept_setEgress | apply kept_changeList
    | apply KeptAns.done | split

theorem kept_shapeAll (s : State) (h0 : Kept q τ W r₀ s) [Can W .que] : Kept q τ W r₀ (shapeAll s) := by
  unfold shapeAll
  with_reducible repeat' first | assumption | apply kept_setQueue | refine kept_foldl _ _ ?_ (fun s₁ x₁ h₁ => ?_)

theorem kept_execShaperUpdate (x1 : ℕ) (s : State) (h0 : Kept q τ W r₀ s) [Can W .que] : KeptOut q τ W r₀ (execShaperUpdate x1 s) := by
  unfold execShaperUpdate
  with_reducible repeat' first | assumption | apply kept_ev | apply kept_shapeAll | intro s₁ h₁

theorem kept_execEgressSelect (x1 : ℕ) (sp : ℕ) (s : State) (h0 : Kept q τ W r₀ s) [Can W .sent] [Can W .regs] [Can W .cmd]
    [Can W .port] [Can W .time] [Can W .brk] [Can W .trk] [Can W .que] [Can W .obs] [Can W .evr] : KeptOut q τ W r₀
    (execEgressSelect x1 sp s) := by
  unfold execEgressSelect
  with_reducible repeat' first | assumption | apply kept_ev | apply kept_egressSelect | intro s₁ h₁

theorem kept_execGclCommit (x1 : Hdr) (b : Body) (s : State) (h0 : Kept q τ W r₀ s) [Can W .sent] [Can W .regs] [Can W .cmd]
    [Can W .que] [Can W .obs] [Can W .evr] : KeptOut q τ W r₀ (execGclCommit x1 b s) := by
  unfold execGclCommit
  with_reducible repeat' first | assumption | apply kept_run | apply kept_ansGclCommit | intro s₁ h₁

theorem kept_execFrameAged (x1 : ℕ) (id : ℕ) (s : State) (h0 : Kept q τ W r₀ s) [Can W .sent] [Can W .regs] [Can W .cmd] [Can W .port]
    [Can W .brk] [Can W .trk] [Can W .que] [Can W .obs] : KeptOut q τ W r₀ (execFrameAged x1 id s) := by
  unfold execFrameAged
  with_reducible repeat' first | assumption | apply kept_ev | apply kept_frameAged | intro s₁ h₁

theorem kept_refuse (x1 : Held) (i : ℕ) (s : State) (h0 : Kept q τ W r₀ s) [Can W .sent] [Can W .regs] [Can W .cmd] [Can W .port]
    [Can W .brk] [Can W .que] [Can W .obs] : Kept q τ W r₀ (refuse x1 i s) := by
  unfold refuse
  with_reducible repeat' first | assumption | apply kept_queCount | apply kept_rxDrop | apply kept_dropFrame

/-! ## Bricks -/

theorem kept_brkCount (b : ℕ) (i : ℕ) (s : State) (h0 : Kept q τ W r₀ s) [Can W .regs] [Can W .obs] : Kept q τ W r₀ (brkCount b i s) := by
  unfold brkCount
  with_reducible repeat' first
    | assumption
    | (extract_lets +onlyGivenNames x; refine (?_ : Kept q τ W r₀ x → _) (?_ : Kept q τ W r₀ x); intro hx; clear_value x; revert x; intro _ _;
        rotate_left; dsimp -zeta only [x]; clear x)
    | apply kept_bump | apply kept_perf | split

theorem kept_useBank (entry : ℕ) (pn : ℕ) (len : ℕ) (rx : Bool) (fresh : Bool) (s : State) (h0 : Kept q τ W r₀ s) [Can W .regs]
    [Can W .brk] [Can W .obs] : Kept q τ W r₀ (useBank entry pn len rx fresh s) := by
  unfold useBank
  with_reducible repeat' first
    | assumption
    | (extract_lets +onlyGivenNames x; refine (?_ : Kept q τ W r₀ x → _) (?_ : Kept q τ W r₀ x); intro hx; clear_value x; revert x; intro _ _;
        rotate_left; dsimp -zeta only [x]; clear x)
    | (extract_lets +onlyGivenNames x; clear_value x; revert x; intro _) | apply kept_brkCount | apply kept_setBrick | split

theorem kept_countSent (entry : ℕ) (key : ℕ) (bytes : ℕ) (s : State) (h0 : Kept q τ W r₀ s) [Can W .sas] : Kept q τ W r₀
    (countSent entry key bytes s) := by
  unfold countSent
  with_reducible repeat' first | assumption | apply kept_scCount | apply kept_saCount | split

theorem kept_takeSeq (stream : ℕ) (s : State) (h0 : Kept q τ W r₀ s) [Can W .brk] : Kept q τ W r₀ (takeSeq stream s) := by
  unfold takeSeq
  with_reducible repeat' first
    | assumption | (extract_lets +onlyGivenNames x; clear_value x; revert x; intro _) | simp -zeta only [kept_mk, can, true_or, or_true]

theorem kept_takeId (s : State) (h0 : Kept q τ W r₀ s) [Can W .brk] : Kept q τ W r₀ (takeId s).2 := by
  unfold takeId
  with_reducible repeat' first
    | assumption | (extract_lets +onlyGivenNames x; clear_value x; revert x; intro _) | simp -zeta only [kept_mk, can, true_or, or_true]

theorem kept_enterBrick (x1 : Held) (s : State) (h0 : Kept q τ W r₀ s) [Can W .brk] [Can W .obs] : Kept q τ W r₀ (enterBrick x1 s) := by
  unfold enterBrick
  with_reducible repeat' first
    | assumption | (extract_lets +onlyGivenNames x; clear_value x; revert x; intro _) | apply kept_perf | apply kept_setBrick

theorem kept_sendTwin (x1 : Held) (twin : ℕ) (s : State) (h0 : Kept q τ W r₀ s) [Can W .freeCount] [Can W .sent] [Can W .regs]
    [Can W .cmd] [Can W .lane] [Can W .port] [Can W .sas] [Can W .brk] [Can W .trk] [Can W .bnd] [Can W .keys] [Can W .obs] [Can W .evr]
    : Kept q τ W r₀ (sendTwin x1 twin s) := by
  unfold sendTwin
  with_reducible repeat' first
    | assumption
    | (extract_lets +onlyGivenNames x; refine (?_ : Kept q τ W r₀ x → _) (?_ : Kept q τ W r₀ x); intro hx; clear_value x; revert x; intro _ _;
        rotate_left; dsimp -zeta only [x]; clear x)
    | apply kept_brkCount | apply kept_assignPn | apply kept_takeId | apply kept_useBank | apply kept_countSent | apply kept_enterBrick
    | simp -zeta only [kept_mk, can, true_or, or_true] | split | refine kept_snd (by assumption) ?_

theorem kept_laneTx (x1 : Held) (s : State) (h0 : Kept q τ W r₀ s) [Can W .freeCount] [Can W .sent] [Can W .regs] [Can W .cmd]
    [Can W .lane] [Can W .port] [Can W .sas] [Can W .brk] [Can W .trk] [Can W .que] [Can W .bnd] [Can W .keys] [Can W .obs] [Can W .evr]
    : Kept q τ W r₀ (laneTx x1 s) := by
  unfold laneTx
  with_reducible repeat' first
    | assumption
    | (extract_lets +onlyGivenNames x; refine (?_ : Kept q τ W r₀ x → _) (?_ : Kept q τ W r₀ x); intro hx; clear_value x; revert x; intro _ _;
        rotate_left; dsimp -zeta only [x]; clear x)
    | (extract_lets +onlyGivenNames x; clear_value x; revert x; intro _) | apply kept_updFrame | apply kept_assignPn
    | apply kept_leaveBrick | apply kept_useBank | apply kept_countSent | apply kept_takeSeq | apply kept_sendTwin | split
    | refine kept_snd (by assumption) ?_

theorem kept_laneRx (x1 : Held) (s : State) (h0 : Kept q τ W r₀ s) [Can W .regs] [Can W .brk] [Can W .que] [Can W .obs] : Kept q τ W r₀
    (laneRx x1 s) := by
  unfold laneRx
  with_reducible repeat' first
    | assumption
    | (extract_lets +onlyGivenNames x; refine (?_ : Kept q τ W r₀ x → _) (?_ : Kept q τ W r₀ x); intro hx; clear_value x; revert x; intro _ _;
        rotate_left; dsimp -zeta only [x]; clear x)
    | (extract_lets +onlyGivenNames x; clear_value x; revert x; intro _) | apply kept_useBank | apply kept_updFrame | split

theorem kept_laneStart (id : ℕ) (s : State) (h0 : Kept q τ W r₀ s) [Can W .freeCount] [Can W .sent] [Can W .regs] [Can W .cmd]
    [Can W .lane] [Can W .port] [Can W .sas] [Can W .brk] [Can W .trk] [Can W .que] [Can W .bnd] [Can W .keys] [Can W .obs] [Can W .evr]
    : Kept q τ W r₀ (laneStart id s) := by
  unfold laneStart
  with_reducible repeat' first | assumption | apply kept_laneTx | apply kept_laneRx | split

theorem kept_toLane (id : ℕ) (s : State) (h0 : Kept q τ W r₀ s) [Can W .freeCount] [Can W .sent] [Can W .regs] [Can W .cmd]
    [Can W .lane] [Can W .port] [Can W .sas] [Can W .brk] [Can W .trk] [Can W .que] [Can W .bnd] [Can W .keys] [Can W .obs] [Can W .evr]
    : Kept q τ W r₀ (toLane id s) := by
  unfold toLane
  with_reducible repeat' first | assumption | apply kept_laneStart | apply kept_updFrame

theorem kept_missCount (b : ℕ) (s : State) (h0 : Kept q τ W r₀ s) [Can W .regs] : Kept q τ W r₀ (missCount b s) := by
  unfold missCount
  with_reducible repeat' first | assumption | apply kept_bump

theorem kept_replayDup (key : ℕ) (s : State) (h0 : Kept q τ W r₀ s) [Can W .regs] [Can W .sas] : Kept q τ W r₀ (replayDup key s) := by
  unfold replayDup
  with_reducible repeat' first | assumption | apply kept_bump | apply kept_scCount

theorem kept_replayCheck (b : ℕ) (key : ℕ) (entry : ℕ) (pn : ℕ) (a : Sa) (c : Sc) (s : State) (h0 : Kept q τ W r₀ s) [Can W .regs]
    [Can W .sas] : Kept q τ W r₀ (replayCheck b key entry pn a c s).2 := by
  unfold replayCheck
  with_reducible repeat' first
    | assumption | (extract_lets +onlyGivenNames x; clear_value x; revert x; intro _) | apply kept_scCount | apply kept_replayDup | split
theorem kept_replayCheck_fst (b : ℕ) (key : ℕ) (entry : ℕ) (pn : ℕ) (a : Sa) (c : Sc) (s : State) (h0 : Kept q τ W r₀ s) [Can W .regs]
    [Can W .sas] : KeptOpt q τ W r₀ (replayCheck b key entry pn a c s).1 := by
  unfold replayCheck
  with_reducible repeat' first
    | assumption | (extract_lets +onlyGivenNames x; clear_value x; revert x; intro _) | apply kept_scCount
    | simp -zeta only [kept_mk, can, true_or, or_true] | exact keptOpt_none | apply keptOpt_some | split

theorem kept_checkSa (b : ℕ) (key : ℕ) (an : ℕ) (p : ℕ) (e_ : Bool) (c : Sc) (s : State) (h0 : Kept q τ W r₀ s) [Can W .sent]
    [Can W .regs] [Can W .cmd] [Can W .lane] [Can W .sas] [Can W .trk] [Can W .bnd] [Can W .keys] [Can W .obs] : Kept q τ W r₀
    (checkSa b key an p e_ c s).2 := by
  unfold checkSa
  with_reducible repeat' first
    | assumption | (extract_lets +onlyGivenNames x; clear_value x; revert x; intro _) | apply kept_scCount | apply kept_secyCount
    | apply kept_replayCheck | apply kept_replayCheck_fst | apply kept_askRx | apply kept_bump
    | simp -zeta only [kept_mk, can, true_or, or_true] | split | refine kept_snd (by assumption) ?_
    | refine kept_pairOpt (by assumption) ?_

theorem kept_rxChecks (b : ℕ) (key : ℕ) (f : Frame) (tagged : Bool) (s : State) (h0 : Kept q τ W r₀ s) [Can W .sent] [Can W .regs]
    [Can W .cmd] [Can W .lane] [Can W .sas] [Can W .trk] [Can W .bnd] [Can W .keys] [Can W .obs] : Kept q τ W r₀
    (rxChecks b key f tagged s).2 := by
  unfold rxChecks
  with_reducible repeat' first | assumption | apply kept_missCount | apply kept_secyCount | apply kept_checkSa | split

theorem kept_expressIn (id : ℕ) (s : State) (h0 : Kept q τ W r₀ s) [Can W .freeCount] [Can W .sent] [Can W .regs] [Can W .cmd]
    [Can W .lane] [Can W .port] [Can W .sas] [Can W .brk] [Can W .trk] [Can W .que] [Can W .bnd] [Can W .keys] [Can W .obs] [Can W .evr]
    : Kept q τ W r₀ (expressIn id s) := by
  unfold expressIn
  with_reducible repeat' first
    | assumption | apply kept_toLane | apply kept_rxChecks | apply kept_leaveBrick | apply kept_updFrame | split
    | refine kept_snd (by assumption) ?_

theorem kept_contextKnown (id : ℕ) (s : State) (h0 : Kept q τ W r₀ s) [Can W .freeCount] [Can W .sent] [Can W .regs] [Can W .cmd]
    [Can W .lane] [Can W .port] [Can W .sas] [Can W .brk] [Can W .trk] [Can W .que] [Can W .bnd] [Can W .keys] [Can W .obs] [Can W .evr]
    : Kept q τ W r₀ (contextKnown id s) := by
  unfold contextKnown
  with_reducible repeat' first
    | assumption | (extract_lets +onlyGivenNames x; clear_value x; revert x; intro _) | apply kept_expressIn | apply kept_updFrame
    | apply kept_setBrick | split

theorem kept_reorderRelease (id : ℕ) (s : State) (h0 : Kept q τ W r₀ s) [Can W .brk] [Can W .que] : Kept q τ W r₀
    (reorderRelease id s) := by
  unfold reorderRelease
  with_reducible repeat' first
    | assumption
    | (extract_lets +onlyGivenNames x; refine (?_ : Kept q τ W r₀ x → _) (?_ : Kept q τ W r₀ x); intro hx; clear_value x; revert x; intro _ _;
        rotate_left; dsimp -zeta only [x]; clear x)
    | (extract_lets +onlyGivenNames x; clear_value x; revert x; intro _) | apply kept_leaveBrick
    | simp -zeta only [kept_mk, can, true_or, or_true] | split

theorem kept_execReorderRelease (x1 : ℕ) (id : ℕ) (s : State) (h0 : Kept q τ W r₀ s) [Can W .brk] [Can W .que] : KeptOut q τ W r₀
    (execReorderRelease x1 id s) := by
  unfold execReorderRelease
  with_reducible repeat' first | assumption | apply kept_ev | apply kept_reorderRelease | intro s₁ h₁

theorem kept_failFrame (sp : ℕ) (f : Frame) (s : State) (h0 : Kept q τ W r₀ s) [Can W .regs] [Can W .port] : Kept q τ W r₀
    (failFrame sp f s) := by
  unfold failFrame
  with_reducible repeat' first | assumption | apply kept_failedRx | apply kept_getD

theorem kept_countUnit (p : ℕ) (path : ℕ) (i : ℕ) (s : State) (h0 : Kept q τ W r₀ s) [Can W .trk] : Kept q τ W r₀
    (countUnit p path i s) := by
  unfold countUnit
  with_reducible repeat' first | assumption | (extract_lets +onlyGivenNames x; clear_value x; revert x; intro _) | apply kept_setTrunk

theorem kept_countPathTag (key : ℕ) (c : Sc) (i : ℕ) (s : State) (h0 : Kept q τ W r₀ s) [Can W .trk] : Kept q τ W r₀
    (countPathTag key c i s) := by
  unfold countPathTag
  with_reducible repeat' first | assumption | apply kept_countUnit | split

theorem kept_saCountFor (x1 : Held) (e : ℕ) (i : ℕ) (s : State) (h0 : Kept q τ W r₀ s) [Can W .sas] : Kept q τ W r₀
    (saCountFor x1 e i s) := by
  unfold saCountFor
  with_reducible repeat' first | assumption | apply kept_saCount | split

theorem kept_rePredict (entry : ℕ) (pn : ℕ) (ok : Bool) (s : State) (h0 : Kept q τ W r₀ s) [Can W .brk] : Kept q τ W r₀
    (rePredict entry pn ok s) := by
  unfold rePredict
  with_reducible repeat' first
    | assumption | (extract_lets +onlyGivenNames x; clear_value x; revert x; intro _) | apply kept_reprime | split

theorem kept_verified (x1 : Held) (s : State) (h0 : Kept q τ W r₀ s) [Can W .sent] [Can W .regs] [Can W .cmd] [Can W .lane] [Can W .sas]
    [Can W .brk] [Can W .trk] [Can W .bnd] [Can W .keys] [Can W .obs] : Kept q τ W r₀ (verified x1 s) := by
  unfold verified
  with_reducible repeat' first | assumption | apply kept_rePredict | apply kept_rxVerified | split

theorem kept_settleVerified (key : ℕ) (s : State) (h0 : Kept q τ W r₀ s) [Can W .sent] [Can W .regs] [Can W .cmd] [Can W .lane]
    [Can W .sas] [Can W .brk] [Can W .trk] [Can W .que] [Can W .bnd] [Can W .keys] [Can W .obs] : Kept q τ W r₀
    (settleVerified key s) := by
  unfold settleVerified
  with_reducible repeat' first
    | assumption | apply kept_verified | apply kept_updFrame | refine kept_foldl _ _ ?_ (fun s₁ x₁ h₁ => ?_) | split

theorem kept_setStream (n : ℕ) (x : Stream) (s : State) (h0 : Kept q τ W r₀ s) [Can W .brk] : Kept q τ W r₀ (setStream n x s) := by
  unfold setStream
  with_reducible repeat' first
    | assumption | (extract_lets +onlyGivenNames x; clear_value x; revert x; intro _) | simp -zeta only [kept_mk, can, true_or, or_true]

theorem kept_ddResult (n : ℕ) (x1 : ℕ) (ok : Bool) (s : State) (h0 : Kept q τ W r₀ s) [Can W .brk] : Kept q τ W r₀
    (ddResult n x1 ok s) := by
  unfold ddResult
  with_reducible repeat' first | assumption | (extract_lets +onlyGivenNames x; clear_value x; revert x; intro _) | apply kept_setStream

theorem kept_ptpArrived (port : ℕ) (st : ℕ) (s : State) (h0 : Kept q τ W r₀ s) [Can W .time] : Kept q τ W r₀ (ptpArrived port st s) := by
  unfold ptpArrived
  with_reducible repeat' first
    | assumption | (extract_lets +onlyGivenNames x; clear_value x; revert x; intro _) | simp -zeta only [kept_mk, can, true_or, or_true]

theorem kept_tagOk (x1 : Held) (e : ℕ) (key : ℕ) (c : Sc) (s : State) (h0 : Kept q τ W r₀ s) [Can W .sent] [Can W .regs] [Can W .cmd]
    [Can W .lane] [Can W .time] [Can W .cls] [Can W .sas] [Can W .brk] [Can W .trk] [Can W .que] [Can W .bnd] [Can W .keys] [Can W .obs]
    : Kept q τ W r₀ (tagOk x1 e key c s) := by
  unfold tagOk
  with_reducible repeat' first
    | assumption
    | (extract_lets +onlyGivenNames x; refine (?_ : Kept q τ W r₀ x → _) (?_ : Kept q τ W r₀ x); intro hx; clear_value x; revert x; intro _ _;
        rotate_left; dsimp -zeta only [x]; clear x)
    | apply kept_updFrame | apply kept_countPathTag | apply kept_saCountFor | apply kept_scCount | apply kept_settleVerified
    | apply kept_ddResult | apply kept_learnFrom | apply kept_ptpArrived | apply kept_setGone | apply kept_leaveQueues | split

theorem kept_stompFrame (x1 : Held) (e : ℕ) (key : ℕ) (s : State) (h0 : Kept q τ W r₀ s) [Can W .regs] [Can W .brk] [Can W .que]
    [Can W .obs] [Can W .evr] : Kept q τ W r₀ (stompFrame x1 e key s) := by
  unfold stompFrame
  with_reducible repeat' first | assumption | apply kept_record | apply kept_brkCount | apply kept_updFrame

theorem kept_failEarly (x1 : Held) (s : State) (h0 : Kept q τ W r₀ s) [Can W .regs] [Can W .brk] [Can W .que] [Can W .obs]
    : Kept q τ W r₀ (failEarly x1 s) := by
  unfold failEarly
  with_reducible repeat' first | assumption | apply kept_brkCount | apply kept_setGone | apply kept_leaveQueues

theorem kept_tagFail (x1 : Held) (e : ℕ) (key : ℕ) (c : Sc) (s : State) (h0 : Kept q τ W r₀ s) [Can W .sent] [Can W .regs] [Can W .cmd]
    [Can W .lane] [Can W .port] [Can W .sas] [Can W .brk] [Can W .trk] [Can W .que] [Can W .bnd] [Can W .keys] [Can W .obs] [Can W .evr]
    : Kept q τ W r₀ (tagFail x1 e key c s) := by
  unfold tagFail
  with_reducible repeat' first
    | assumption
    | (extract_lets +onlyGivenNames x; refine (?_ : Kept q τ W r₀ x → _) (?_ : Kept q τ W r₀ x); intro hx; clear_value x; revert x; intro _ _;
        rotate_left; dsimp -zeta only [x]; clear x)
    | (extract_lets +onlyGivenNames x; clear_value x; revert x; intro _) | apply kept_ddResult | apply kept_perf | apply kept_rePredict
    | apply kept_countPathTag | apply kept_settleVerified | apply kept_updFrame | apply kept_offerCapture | apply kept_rxDrop
    | apply kept_saCountFor | apply kept_setGone | apply kept_leaveQueues | apply kept_stompFrame | apply kept_failEarly | split

theorem kept_tagResult (id : ℕ) (ok : Bool) (s : State) (h0 : Kept q τ W r₀ s) [Can W .sent] [Can W .regs] [Can W .cmd] [Can W .lane]
    [Can W .port] [Can W .time] [Can W .cls] [Can W .sas] [Can W .brk] [Can W .trk] [Can W .que] [Can W .bnd] [Can W .keys] [Can W .obs]
    [Can W .evr] : Kept q τ W r₀ (tagResult id ok s) := by
  unfold tagResult
  with_reducible repeat' first | assumption | apply kept_updFrame | apply kept_tagOk | apply kept_tagFail | split

theorem kept_context (b : ℕ) (key : ℕ) (s : State) (h0 : Kept q τ W r₀ s) [Can W .brk] [Can W .obs] : Kept q τ W r₀
    (context b key s).2 := by
  unfold context
  with_reducible repeat' first
    | assumption | (extract_lets +onlyGivenNames x; clear_value x; revert x; intro _) | apply kept_setBrick | apply kept_perf | split

theorem kept_atContext (id : ℕ) (s : State) (h0 : Kept q τ W r₀ s) [Can W .freeCount] [Can W .sent] [Can W .regs] [Can W .cmd]
    [Can W .lane] [Can W .port] [Can W .sas] [Can W .brk] [Can W .trk] [Can W .que] [Can W .bnd] [Can W .keys] [Can W .obs] [Can W .evr]
    : Kept q τ W r₀ (atContext id s) := by
  unfold atContext
  with_reducible repeat' first
    | assumption | apply kept_contextKnown | apply kept_context | apply kept_updFrame | split | refine kept_snd (by assumption) ?_

theorem kept_dropCounts (x1 : Held) (s : State) (h0 : Kept q τ W r₀ s) [Can W .sent] [Can W .regs] [Can W .cmd] [Can W .port]
    [Can W .sas] [Can W .obs] : Kept q τ W r₀ (dropCounts x1 s) := by
  unfold dropCounts
  with_reducible repeat' first
    | assumption
    | (extract_lets +onlyGivenNames x; refine (?_ : Kept q τ W r₀ x → _) (?_ : Kept q τ W r₀ x); intro hx; clear_value x; revert x; intro _ _;
        rotate_left; dsimp -zeta only [x]; clear x)
    | apply kept_secyCount | apply kept_rxDrop | apply kept_missCount | apply kept_bump | split

theorem kept_stage (x1 : Held) (s : State) (h0 : Kept q τ W r₀ s) [Can W .sent] [Can W .regs] [Can W .cmd] [Can W .port] [Can W .brk]
    [Can W .obs] : Kept q τ W r₀ (stage x1 s) := by
  unfold stage
  with_reducible repeat' first | assumption | apply kept_perf | apply kept_rxDrop | apply kept_enterBrick | split

theorem kept_fallback (b : ℕ) (cls : ℕ) (s : State) (h0 : Kept q τ W r₀ s) [Can W .regs] [Can W .obs] : Kept q τ W r₀
    (fallback b cls s) := by
  unfold fallback
  with_reducible repeat' first | assumption | apply kept_brkCount | split

theorem kept_lineChosen (x1 : Held) (sp : ℕ) (x2 : Resolved) (tagged : Bool) (s : State) (h0 : Kept q τ W r₀ s) [Can W .freeCount]
    [Can W .sent] [Can W .regs] [Can W .cmd] [Can W .lane] [Can W .port] [Can W .sas] [Can W .brk] [Can W .trk] [Can W .que]
    [Can W .bnd] [Can W .keys] [Can W .obs] [Can W .evr] : Kept q τ W r₀ (lineChosen x1 sp x2 tagged s) := by
  unfold lineChosen
  with_reducible repeat' first
    | assumption | (extract_lets +onlyGivenNames x; clear_value x; revert x; intro _) | apply kept_dropCounts | apply kept_failFrame
    | apply kept_stage | apply kept_brkCount | apply kept_expressIn | apply kept_enterBrick | apply kept_atContext | apply kept_fallback
    | split

theorem kept_intoHold (x1 : Held) (s : State) (h0 : Kept q τ W r₀ s) [Can W .que] : Kept q τ W r₀ (intoHold x1 s) := by
  unfold intoHold
  with_reducible repeat' first
    | assumption | (extract_lets +onlyGivenNames x; clear_value x; revert x; intro _) | simp -zeta only [kept_mk, can, true_or, or_true]

theorem kept_giveTile (x1 : Held) (k : ℕ) (clearLen : ℕ) (s : State) (h0 : Kept q τ W r₀ s) [Can W .sent] [Can W .regs] [Can W .cmd]
    [Can W .port] [Can W .sas] [Can W .brk] [Can W .que] [Can W .obs] : Kept q τ W r₀ (giveTile x1 k clearLen s) := by
  unfold giveTile
  with_reducible repeat' first
    | assumption
    | (extract_lets +onlyGivenNames x; refine (?_ : Kept q τ W r₀ x → _) (?_ : Kept q τ W r₀ x); intro hx; clear_value x; revert x; intro _ _;
        rotate_left; dsimp -zeta only [x]; clear x)
    | (extract_lets +onlyGivenNames x; clear_value x; revert x; intro _) | apply kept_perf | apply kept_refuse | apply kept_countSent
    | apply kept_updFrame | apply kept_setBrick | simp -zeta only [kept_mk, can, true_or, or_true] | split

theorem kept_ddCount (i : ℕ) (s : State) (h0 : Kept q τ W r₀ s) [Can W .regs] : Kept q τ W r₀ (ddCount i s) := by
  unfold ddCount
  with_reducible repeat' first | assumption | apply kept_bump

theorem kept_lineRx (p : ℕ) (f : Frame) (s : State) (h0 : Kept q τ W r₀ s) [Can W .freeCount] [Can W .sent] [Can W .regs] [Can W .cmd]
    [Can W .lane] [Can W .port] [Can W .cls] [Can W .sas] [Can W .brk] [Can W .trk] [Can W .que] [Can W .bnd] [Can W .keys] [Can W .obs]
    [Can W .evr] : Kept q τ W r₀ (lineRx p f s) := by
  unfold lineRx
  with_reducible repeat' first
    | assumption
    | (extract_lets +onlyGivenNames x; refine (?_ : Kept q τ W r₀ x → _) (?_ : Kept q τ W r₀ x); intro hx; clear_value x; revert x; intro _ _;
        rotate_left; dsimp -zeta only [x]; clear x)
    | (extract_lets +onlyGivenNames x; clear_value x; revert x; intro _) | apply kept_macControl | apply kept_countRx
    | apply kept_failFrame | apply kept_secyCount | apply kept_resolveRx | apply kept_perf | apply kept_rxDrop | apply kept_takeId
    | apply kept_lineChosen | simp -zeta only [kept_mk, can, true_or, or_true] | split

theorem kept_passCopy (id : ℕ) (n : ℕ) (x1 : ℕ) (line : ℕ) (known : Bool) (s : State) (h0 : Kept q τ W r₀ s) [Can W .brk] [Can W .que]
    : Kept q τ W r₀ (passCopy id n x1 line known s) := by
  unfold passCopy
  with_reducible repeat' first
    | assumption | (extract_lets +onlyGivenNames x; clear_value x; revert x; intro _) | apply kept_updFrame | apply kept_setStream | split

theorem kept_ddArrive (id : ℕ) (s : State) (h0 : Kept q τ W r₀ s) [Can W .regs] [Can W .brk] [Can W .que] [Can W .obs] [Can W .evr]
    : Kept q τ W r₀ (ddArrive id s) := by
  unfold ddArrive
  with_reducible repeat' first
    | assumption | (extract_lets +onlyGivenNames x; clear_value x; revert x; intro _) | apply kept_ddCount | apply kept_setGone
    | apply kept_setStream | apply kept_record | apply kept_passCopy | split

theorem kept_stagingRelease (id : ℕ) (s : State) (h0 : Kept q τ W r₀ s) [Can W .freeCount] [Can W .sent] [Can W .regs] [Can W .cmd]
    [Can W .lane] [Can W .port] [Can W .sas] [Can W .brk] [Can W .trk] [Can W .que] [Can W .bnd] [Can W .keys] [Can W .obs] [Can W .evr]
    : Kept q τ W r₀ (stagingRelease id s) := by
  unfold stagingRelease
  with_reducible repeat' first
    | assumption
    | (extract_lets +onlyGivenNames x; refine (?_ : Kept q τ W r₀ x → _) (?_ : Kept q τ W r₀ x); intro hx; clear_value x; revert x; intro _ _;
        rotate_left; dsimp -zeta only [x]; clear x)
    | apply kept_perf | apply kept_failedRx | apply kept_leaveBrick | apply kept_dropCounts | apply kept_missCount | apply kept_atContext
    | apply kept_updFrame | apply kept_getD | split

theorem kept_execStagingRelease (x1 : ℕ) (id : ℕ) (s : State) (h0 : Kept q τ W r₀ s) [Can W .freeCount] [Can W .sent] [Can W .regs]
    [Can W .cmd] [Can W .lane] [Can W .port] [Can W .sas] [Can W .brk] [Can W .trk] [Can W .que] [Can W .bnd] [Can W .keys] [Can W .obs]
    [Can W .evr] : KeptOut q τ W r₀ (execStagingRelease x1 id s) := by
  unfold execStagingRelease
  with_reducible repeat' first | assumption | apply kept_ev | apply kept_stagingRelease | intro s₁ h₁

theorem kept_clearChosen (x1 : Held) (sp : ℕ) (x2 : Resolved) (s : State) (h0 : Kept q τ W r₀ s) [Can W .freeCount] [Can W .sent]
    [Can W .regs] [Can W .cmd] [Can W .lane] [Can W .port] [Can W .sas] [Can W .brk] [Can W .trk] [Can W .que] [Can W .bnd]
    [Can W .keys] [Can W .obs] [Can W .evr] : Kept q τ W r₀ (clearChosen x1 sp x2 s) := by
  unfold clearChosen
  with_reducible repeat' first
    | assumption
    | (extract_lets +onlyGivenNames x; refine (?_ : Kept q τ W r₀ x → _) (?_ : Kept q τ W r₀ x); intro hx; clear_value x; revert x; intro _ _;
        rotate_left; dsimp -zeta only [x]; clear x)
    | (extract_lets +onlyGivenNames x; clear_value x; revert x; intro _) | apply kept_dropCounts | apply kept_failFrame | apply kept_stage
    | apply kept_expressIn | apply kept_enterBrick | apply kept_fallback | apply kept_brkCount | apply kept_missCount
    | apply kept_secyCount | apply kept_atContext | split

theorem kept_tileFinish (id : ℕ) (s : State) (h0 : Kept q τ W r₀ s) [Can W .brk] [Can W .que] : Kept q τ W r₀ (tileFinish id s) := by
  unfold tileFinish
  with_reducible repeat' first | assumption | apply kept_updFrame

theorem kept_execTileFinish (x1 : ℕ) (id : ℕ) (s : State) (h0 : Kept q τ W r₀ s) [Can W .brk] [Can W .que] : KeptOut q τ W r₀
    (execTileFinish x1 id s) := by
  unfold execTileFinish
  with_reducible repeat' first | assumption | apply kept_ev | apply kept_tileFinish | intro s₁ h₁

theorem kept_execExpressLaneStart (x1 : ℕ) (id : ℕ) (s : State) (h0 : Kept q τ W r₀ s) [Can W .freeCount] [Can W .sent] [Can W .regs]
    [Can W .cmd] [Can W .lane] [Can W .port] [Can W .sas] [Can W .brk] [Can W .trk] [Can W .que] [Can W .bnd] [Can W .keys] [Can W .obs]
    [Can W .evr] : KeptOut q τ W r₀ (execExpressLaneStart x1 id s) := by
  unfold execExpressLaneStart
  with_reducible repeat' first | assumption | apply kept_ev | apply kept_laneStart | intro s₁ h₁

theorem kept_enterFramer (x1 : Held) (s : State) (h0 : Kept q τ W r₀ s) [Can W .sent] [Can W .regs] [Can W .cmd] [Can W .port]
    [Can W .brk] [Can W .trk] [Can W .que] [Can W .obs] : Kept q τ W r₀ (enterFramer x1 s) := by
  unfold enterFramer
  with_reducible repeat' first
    | assumption
    | (extract_lets +onlyGivenNames x; refine (?_ : Kept q τ W r₀ x → _) (?_ : Kept q τ W r₀ x); intro hx; clear_value x; revert x; intro _ _;
        rotate_left; dsimp -zeta only [x]; clear x)
    | (extract_lets +onlyGivenNames x; clear_value x; revert x; intro _) | apply kept_queCount | apply kept_txDrop | apply kept_setGone
    | apply kept_setTrunk | simp -zeta only [kept_mk, can, true_or, or_true] | split

theorem kept_execLineFrameRx (x1 : ℕ) (port : ℕ) (frame : Frame) (s : State) (h0 : Kept q τ W r₀ s) [Can W .freeCount] [Can W .sent]
    [Can W .regs] [Can W .cmd] [Can W .lane] [Can W .port] [Can W .cls] [Can W .sas] [Can W .brk] [Can W .trk] [Can W .que] [Can W .bnd]
    [Can W .keys] [Can W .obs] [Can W .evr] : KeptOut q τ W r₀ (execLineFrameRx x1 port frame s) := by
  unfold execLineFrameRx
  with_reducible repeat' first | assumption | apply kept_ev | apply kept_lineRx | intro s₁ h₁

theorem kept_clearRx (sp : ℕ) (f : Frame) (s : State) (h0 : Kept q τ W r₀ s) [Can W .freeCount] [Can W .sent] [Can W .regs] [Can W .cmd]
    [Can W .lane] [Can W .port] [Can W .time] [Can W .cls] [Can W .sas] [Can W .brk] [Can W .trk] [Can W .que] [Can W .bnd]
    [Can W .keys] [Can W .obs] [Can W .evr] : Kept q τ W r₀ (clearRx sp f s) := by
  unfold clearRx
  with_reducible repeat' first
    | assumption
    | (extract_lets +onlyGivenNames x; refine (?_ : Kept q τ W r₀ x → _) (?_ : Kept q τ W r₀ x); intro hx; clear_value x; revert x; intro _ _;
        rotate_left; dsimp -zeta only [x]; clear x)
    | (extract_lets +onlyGivenNames x; clear_value x; revert x; intro _) | apply kept_mgmtIn | apply kept_macControl | apply kept_countRx
    | apply kept_failFrame | apply kept_ptpArrived | apply kept_resolveTx | apply kept_perf | apply kept_takeId | apply kept_clearChosen
    | simp -zeta only [kept_mk, can, true_or, or_true] | split

theorem kept_execClearFrameRx (x1 : ℕ) (sp : ℕ) (frame : Frame) (s : State) (h0 : Kept q τ W r₀ s) [Can W .freeCount] [Can W .sent]
    [Can W .regs] [Can W .cmd] [Can W .lane] [Can W .port] [Can W .time] [Can W .cls] [Can W .sas] [Can W .brk] [Can W .trk]
    [Can W .que] [Can W .bnd] [Can W .keys] [Can W .obs] [Can W .evr] : KeptOut q τ W r₀ (execClearFrameRx x1 sp frame s) := by
  unfold execClearFrameRx
  with_reducible repeat' first | assumption | apply kept_ev | apply kept_clearRx | intro s₁ h₁

theorem kept_contextFetched (id : ℕ) (s : State) (h0 : Kept q τ W r₀ s) [Can W .freeCount] [Can W .sent] [Can W .regs] [Can W .cmd]
    [Can W .lane] [Can W .port] [Can W .sas] [Can W .brk] [Can W .trk] [Can W .que] [Can W .bnd] [Can W .keys] [Can W .obs] [Can W .evr]
    : Kept q τ W r₀ (contextFetched id s) := by
  unfold contextFetched
  with_reducible repeat' first
    | assumption
    | (extract_lets +onlyGivenNames x; refine (?_ : Kept q τ W r₀ x → _) (?_ : Kept q τ W r₀ x); intro hx; clear_value x; revert x; intro _ _;
        rotate_left; dsimp -zeta only [x]; clear x)
    | (extract_lets +onlyGivenNames x; clear_value x; revert x; intro _) | apply kept_setBrick | apply kept_contextKnown
    | refine kept_foldl _ _ ?_ (fun s₁ x₁ h₁ => ?_) | split

theorem kept_dispatch (x1 : Held) (k : ℕ) (s : State) (h0 : Kept q τ W r₀ s) [Can W .freeCount] [Can W .sent] [Can W .regs] [Can W .cmd]
    [Can W .lane] [Can W .port] [Can W .sas] [Can W .brk] [Can W .trk] [Can W .que] [Can W .bnd] [Can W .keys] [Can W .obs] [Can W .evr]
    : Kept q τ W r₀ (dispatch x1 k s) := by
  unfold dispatch
  with_reducible repeat' first
    | assumption | (extract_lets +onlyGivenNames x; clear_value x; revert x; intro _) | apply kept_giveTile | apply kept_missCount
    | apply kept_leaveBrick | apply kept_secyCount | apply kept_assignPn | apply kept_rxChecks | split
    | refine kept_snd (by assumption) ?_

theorem kept_bulkDispatch (id : ℕ) (s : State) (h0 : Kept q τ W r₀ s) [Can W .freeCount] [Can W .sent] [Can W .regs] [Can W .cmd]
    [Can W .lane] [Can W .port] [Can W .sas] [Can W .brk] [Can W .trk] [Can W .que] [Can W .bnd] [Can W .keys] [Can W .obs] [Can W .evr]
    : Kept q τ W r₀ (bulkDispatch id s) := by
  unfold bulkDispatch
  with_reducible repeat' first
    | assumption | (extract_lets +onlyGivenNames x; clear_value x; revert x; intro _) | apply kept_updFrame | apply kept_brkCount
    | apply kept_dispatch | split

theorem kept_setTileRole (b : ℕ) (k : ℕ) (x1 : ℕ) (s : State) (h0 : Kept q τ W r₀ s) [Can W .brk] : Kept q τ W r₀
    (setTileRole b k x1 s) := by
  unfold setTileRole
  with_reducible repeat' first
    | assumption | (extract_lets +onlyGivenNames x; clear_value x; revert x; intro _) | apply kept_setTile | split

theorem kept_roleSwitch (b : ℕ) (s : State) (h0 : Kept q τ W r₀ s) [Can W .sas] [Can W .brk] : Kept q τ W r₀ (roleSwitch b s) := by
  unfold roleSwitch
  with_reducible repeat' first
    | assumption
    | (extract_lets +onlyGivenNames x; refine (?_ : Kept q τ W r₀ x → _) (?_ : Kept q τ W r₀ x); intro hx; clear_value x; revert x; intro _ _;
        rotate_left; dsimp -zeta only [x]; clear x)
    | (extract_lets +onlyGivenNames x; clear_value x; revert x; intro _) | apply kept_setBrick | apply kept_setTileRole
    | apply kept_fillBanks | apply kept_dropBanks | split

theorem kept_heldRelease (n : ℕ) (s : State) (h0 : Kept q τ W r₀ s) [Can W .brk] [Can W .que] : Kept q τ W r₀ (heldRelease n s) := by
  unfold heldRelease
  with_reducible repeat' first
    | assumption
    | (extract_lets +onlyGivenNames x; refine (?_ : Kept q τ W r₀ x → _) (?_ : Kept q τ W r₀ x); intro hx; clear_value x; revert x; intro _ _;
        rotate_left; dsimp -zeta only [x]; clear x)
    | (extract_lets +onlyGivenNames x; clear_value x; revert x; intro _) | apply kept_setStream | apply kept_setGone | apply kept_updFrame
    | split

theorem kept_execHeldCopyRelease (x1 : ℕ) (stream : ℕ) (s : State) (h0 : Kept q τ W r₀ s) [Can W .brk] [Can W .que] : KeptOut q τ W r₀
    (execHeldCopyRelease x1 stream s) := by
  unfold execHeldCopyRelease
  with_reducible repeat' first | assumption | apply kept_ev | apply kept_heldRelease | intro s₁ h₁

theorem kept_execTagResult (x1 : ℕ) (id : ℕ) (ok : Bool) (s : State) (h0 : Kept q τ W r₀ s) [Can W .sent] [Can W .regs] [Can W .cmd]
    [Can W .lane] [Can W .port] [Can W .time] [Can W .cls] [Can W .sas] [Can W .brk] [Can W .trk] [Can W .que] [Can W .bnd]
    [Can W .keys] [Can W .obs] [Can W .evr] : KeptOut q τ W r₀ (execTagResult x1 id ok s) := by
  unfold execTagResult
  with_reducible repeat' first | assumption | apply kept_ev | apply kept_tagResult | intro s₁ h₁

theorem kept_execContextFetchDone (x1 : ℕ) (id : ℕ) (s : State) (h0 : Kept q τ W r₀ s) [Can W .freeCount] [Can W .sent] [Can W .regs]
    [Can W .cmd] [Can W .lane] [Can W .port] [Can W .sas] [Can W .brk] [Can W .trk] [Can W .que] [Can W .bnd] [Can W .keys] [Can W .obs]
    [Can W .evr] : KeptOut q τ W r₀ (execContextFetchDone x1 id s) := by
  unfold execContextFetchDone
  with_reducible repeat' first | assumption | apply kept_ev | apply kept_contextFetched | intro s₁ h₁

theorem kept_execExpressRoleSwitch (x1 : ℕ) (brick : ℕ) (s : State) (h0 : Kept q τ W r₀ s) [Can W .sas] [Can W .brk] : KeptOut q τ W r₀
    (execExpressRoleSwitch x1 brick s) := by
  unfold execExpressRoleSwitch
  with_reducible repeat' first | assumption | apply kept_ev | apply kept_roleSwitch | intro s₁ h₁ | split

theorem kept_holdEnter (id : ℕ) (s : State) (h0 : Kept q τ W r₀ s) [Can W .sent] [Can W .regs] [Can W .cmd] [Can W .port] [Can W .brk]
    [Can W .trk] [Can W .que] [Can W .obs] : Kept q τ W r₀ (holdEnter id s) := by
  unfold holdEnter
  with_reducible repeat' first
    | assumption
    | (extract_lets +onlyGivenNames x; refine (?_ : Kept q τ W r₀ x → _) (?_ : Kept q τ W r₀ x); intro hx; clear_value x; revert x; intro _ _;
        rotate_left; dsimp -zeta only [x]; clear x)
    | (extract_lets +onlyGivenNames x; clear_value x; revert x; intro _) | apply kept_txDrop | apply kept_setGone | apply kept_enterFramer
    | apply kept_startFrame | apply kept_intoHold | apply kept_queCount | split

theorem kept_execDuplicateDiscard (x1 : ℕ) (id : ℕ) (s : State) (h0 : Kept q τ W r₀ s) [Can W .regs] [Can W .brk] [Can W .que]
    [Can W .obs] [Can W .evr] : KeptOut q τ W r₀ (execDuplicateDiscard x1 id s) := by
  unfold execDuplicateDiscard
  with_reducible repeat' first | assumption | apply kept_ev | apply kept_ddArrive | intro s₁ h₁

theorem kept_execBulkDispatch (x1 : ℕ) (id : ℕ) (s : State) (h0 : Kept q τ W r₀ s) [Can W .freeCount] [Can W .sent] [Can W .regs]
    [Can W .cmd] [Can W .lane] [Can W .port] [Can W .sas] [Can W .brk] [Can W .trk] [Can W .que] [Can W .bnd] [Can W .keys] [Can W .obs]
    [Can W .evr] : KeptOut q τ W r₀ (execBulkDispatch x1 id s) := by
  unfold execBulkDispatch
  with_reducible repeat' first | assumption | apply kept_ev | apply kept_bulkDispatch | intro s₁ h₁

theorem kept_execExpressHoldEnter (x1 : ℕ) (id : ℕ) (s : State) (h0 : Kept q τ W r₀ s) [Can W .sent] [Can W .regs] [Can W .cmd]
    [Can W .port] [Can W .brk] [Can W .trk] [Can W .que] [Can W .obs] : KeptOut q τ W r₀ (execExpressHoldEnter x1 id s) := by
  unfold execExpressHoldEnter
  with_reducible repeat' first | assumption | apply kept_ev | apply kept_holdEnter | intro s₁ h₁

end Sys2Proof.Machine
end

