-- ==== Sys2Proof/Laws/KeptTrunk.lean ====
section
/-! SUPPORT. What every operation keeps: trunks, PTP and bonds. One lemma for each function; `Kept` is defined in Laws/Kept.lean. -/
namespace Sys2Proof.Machine
open Sys2Proof
set_option linter.unusedSimpArgs false
set_option linter.unusedTactic false
set_option linter.unreachableTactic false
variable {q : List Instr} {τ : Nat} {W : Part → Bool} {r₀ : State}

/-! ## Trunk -/

theorem kept_unitDone (p : ℕ) (u : TxUnit) (s : State) (h0 : Kept q τ W r₀ s) [Can W .trk] [Can W .que] [Can W .obs] : Kept q τ W r₀
    (unitDone p u s) := by
  unfold unitDone
  with_reducible repeat' first
    | assumption
    | (extract_lets +onlyGivenNames x; refine (?_ : Kept q τ W r₀ x → _) (?_ : Kept q τ W r₀ x); intro hx; clear_value x; revert x; intro _ _;
        rotate_left; dsimp -zeta only [x]; clear x)
    | (extract_lets +onlyGivenNames x; clear_value x; revert x; intro _) | apply kept_setTrunk | apply kept_leaveQueues | split

theorem kept_takeAdded (p : ℕ) (x1 : Held) (s : State) (h0 : Kept q τ W r₀ s) [Can W .brk] [Can W .trk] [Can W .que] [Can W .obs]
    : Kept q τ W r₀ (takeAdded p x1 s).2 := by
  unfold takeAdded
  with_reducible repeat' first
    | assumption | (extract_lets +onlyGivenNames x; clear_value x; revert x; intro _) | apply kept_perf | apply kept_setGone
    | apply kept_setTrunk

theorem kept_sendTrunk (p : ℕ) (bs : List ℕ) (s : State) (h0 : Kept q τ W r₀ s) [Can W .sent] [Can W .trk] : Kept q τ W r₀
    (sendTrunk p bs s) := by
  unfold sendTrunk
  with_reducible repeat' first
    | assumption | (extract_lets +onlyGivenNames x; clear_value x; revert x; intro _) | apply kept_send | apply kept_setTrunk

theorem kept_sendGroup (p : ℕ) (s : State) (h0 : Kept q τ W r₀ s) [Can W .sent] [Can W .trk] : Kept q τ W r₀ (sendGroup p s) := by
  unfold sendGroup
  with_reducible repeat' first
    | assumption | (extract_lets +onlyGivenNames x; clear_value x; revert x; intro _) | apply kept_sendTrunk | apply kept_setTrunk | split

theorem kept_bulkSlot (p : ℕ) (pos : ℕ) (u : TxUnit) (s : State) (h0 : Kept q τ W r₀ s) [Can W .trk] [Can W .que] [Can W .obs]
    : Kept q τ W r₀ (bulkSlot p pos u s).2 := by
  unfold bulkSlot
  with_reducible repeat' first
    | assumption
    | (extract_lets +onlyGivenNames x; refine (?_ : Kept q τ W r₀ x → _) (?_ : Kept q τ W r₀ x); intro hx; clear_value x; revert x; intro _ _;
        rotate_left; dsimp -zeta only [x]; clear x)
    | (extract_lets +onlyGivenNames x; clear_value x; revert x; intro _) | apply kept_unitDone | apply kept_setTrunk | split

theorem kept_takeUnit (p : ℕ) (u : TxUnit) (s : State) (h0 : Kept q τ W r₀ s) [Can W .brk] [Can W .trk] [Can W .que] [Can W .obs]
    : Kept q τ W r₀ (takeUnit p u s).2 := by
  unfold takeUnit
  with_reducible repeat' first
    | assumption
    | (extract_lets +onlyGivenNames x; refine (?_ : Kept q τ W r₀ x → _) (?_ : Kept q τ W r₀ x); intro hx; clear_value x; revert x; intro _ _;
        rotate_left; dsimp -zeta only [x]; clear x)
    | (extract_lets +onlyGivenNames x; clear_value x; revert x; intro _) | apply kept_setTrunk | apply kept_perf | apply kept_setGone
    | split

theorem kept_nextUnit (p : ℕ) (s : State) (h0 : Kept q τ W r₀ s) [Can W .brk] [Can W .trk] [Can W .que] [Can W .obs] : KeptSnd q τ W r₀
    (nextUnit p s) := by
  unfold nextUnit
  with_reducible repeat' first
    | assumption | (extract_lets +onlyGivenNames x; clear_value x; revert x; intro _) | apply kept_takeUnit | apply kept_takeAdded
    | exact keptSnd_none | apply keptSnd_some | refine keptSnd_findSome _ (fun c => ?_) | refine keptSnd_map _ (fun c => ?_) | split

theorem kept_namePosition (p : ℕ) (pos : ℕ) (s : State) (h0 : Kept q τ W r₀ s) [Can W .brk] [Can W .trk] [Can W .que] [Can W .obs]
    : Kept q τ W r₀ (namePosition p pos s).2 := by
  unfold namePosition
  with_reducible repeat' first
    | assumption | (extract_lets +onlyGivenNames x; clear_value x; revert x; intro _) | apply kept_setTrunk | apply kept_bulkSlot
    | apply kept_nextUnit | split | refine kept_optSnd (by assumption) ?_

theorem kept_namePositions (p : Nat) (l : List Nat) (s : State) (h0 : Kept q τ W r₀ s) [Can W .brk] [Can W .trk] [Can W .que]
    [Can W .obs] : Kept q τ W r₀ (namePositions p l s).2 := by
  induction l generalizing s with
  | nil => exact h0
  | cons e r ih => exact ih _ (kept_namePosition _ _ _ h0)

theorem kept_runOn (p : ℕ) (from_ : ℕ) (s : State) (h0 : Kept q τ W r₀ s) [Can W .trk] [Can W .que] [Can W .obs] : Kept q τ W r₀
    (runOn p from_ s) := by
  unfold runOn
  with_reducible repeat' first
    | assumption
    | (extract_lets +onlyGivenNames x; refine (?_ : Kept q τ W r₀ x → _) (?_ : Kept q τ W r₀ x); intro hx; clear_value x; revert x; intro _ _;
        rotate_left; dsimp -zeta only [x]; clear x)
    | (extract_lets +onlyGivenNames x; clear_value x; revert x; intro _) | apply kept_setTrunk | apply kept_unitDone
    | simp -zeta only [kept_mk, can, true_or, or_true] | split

theorem kept_buildDirectory (p : ℕ) (s : State) (h0 : Kept q τ W r₀ s) [Can W .sent] [Can W .brk] [Can W .trk] [Can W .que] [Can W .obs]
    : Kept q τ W r₀ (buildDirectory p s) := by
  unfold buildDirectory
  with_reducible repeat' first
    | assumption
    | (extract_lets +onlyGivenNames x; refine (?_ : Kept q τ W r₀ x → _) (?_ : Kept q τ W r₀ x); intro hx; clear_value x; revert x; intro _ _;
        rotate_left; dsimp -zeta only [x]; clear x)
    | (extract_lets +onlyGivenNames x; clear_value x; revert x; intro _) | apply kept_sendGroup | apply kept_setTrunk
    | apply kept_namePositions | apply kept_sendTrunk | apply kept_runOn | simp -zeta only [kept_mk, can, true_or, or_true] | split

theorem kept_settleFaults (s : State) (h0 : Kept q τ W r₀ s) [Can W .port] : Kept q τ W r₀ (settleFaults s) := by
  unfold settleFaults
  with_reducible repeat' first
    | assumption | (extract_lets +onlyGivenNames x; clear_value x; revert x; intro _) | apply kept_setSub
    | refine kept_foldl _ _ ?_ (fun s₁ x₁ h₁ => ?_) | split

theorem kept_aisOn (p : ℕ) (path : ℕ) (s : State) (h0 : Kept q τ W r₀ s) [Can W .regs] [Can W .port] [Can W .trk] [Can W .obs]
    [Can W .evr] : Kept q τ W r₀ (aisOn p path s) := by
  unfold aisOn
  with_reducible repeat' first
    | assumption
    | (extract_lets +onlyGivenNames x; refine (?_ : Kept q τ W r₀ x → _) (?_ : Kept q τ W r₀ x); intro hx; clear_value x; revert x; intro _ _;
        rotate_left; dsimp -zeta only [x]; clear x)
    | (extract_lets +onlyGivenNames x; clear_value x; revert x; intro _) | apply kept_setTrunk | apply kept_settleFaults
    | apply kept_record | split

theorem kept_trkCount (p : ℕ) (i : ℕ) (s : State) (h0 : Kept q τ W r₀ s) [Can W .regs] : Kept q τ W r₀ (trkCount p i s) := by
  unfold trkCount
  with_reducible repeat' first | assumption | apply kept_bump

theorem kept_aisOff (p : ℕ) (path : ℕ) (s : State) (h0 : Kept q τ W r₀ s) [Can W .port] [Can W .trk] : Kept q τ W r₀
    (aisOff p path s) := by
  unfold aisOff
  with_reducible repeat' first
    | assumption | (extract_lets +onlyGivenNames x; clear_value x; revert x; intro _) | apply kept_settleFaults | apply kept_setTrunk
    | split

theorem kept_rawCount (p : ℕ) (obj : ℕ) (i : ℕ) (n : ℕ) (s : State) (h0 : Kept q τ W r₀ s) [Can W .trk] : Kept q τ W r₀
    (rawCount p obj i n s) := by
  unfold rawCount
  with_reducible repeat' first
    | assumption | (extract_lets +onlyGivenNames x; clear_value x; revert x; intro _) | apply kept_setTrunk | split

theorem kept_cutPassed (x1 : ℕ) (path : ℕ) (keep : ℕ) (byRun : Bool) (s : State) (h0 : Kept q τ W r₀ s) [Can W .regs] [Can W .trk]
    [Can W .que] [Can W .obs] : Kept q τ W r₀ (cutPassed x1 path keep byRun s) := by
  unfold cutPassed
  with_reducible repeat' first
    | assumption | (extract_lets +onlyGivenNames x; clear_value x; revert x; intro _) | apply kept_trkCount | apply kept_setTrunk
    | apply kept_unitDone | split

theorem kept_abortUnits (p : ℕ) (which : RxUnit → Bool) (s : State) (h0 : Kept q τ W r₀ s) [Can W .regs] [Can W .brk] [Can W .trk]
    [Can W .que] [Can W .obs] [Can W .evr] : Kept q τ W r₀ (abortUnits p which s) := by
  unfold abortUnits
  with_reducible repeat' first
    | assumption
    | (extract_lets +onlyGivenNames x; refine (?_ : Kept q τ W r₀ x → _) (?_ : Kept q τ W r₀ x); intro hx; clear_value x; revert x; intro _ _;
        rotate_left; dsimp -zeta only [x]; clear x)
    | (extract_lets +onlyGivenNames x; clear_value x; revert x; intro _) | apply kept_setTrunk | apply kept_rawCount
    | apply kept_cutPassed | apply kept_record | apply kept_brkCount | apply kept_updFrame | apply kept_dropFrame
    | refine kept_foldl _ _ ?_ (fun s₁ x₁ h₁ => ?_) | split

theorem kept_beginRx (p : ℕ) (path : ℕ) (slots : ℕ) (run : Bool) (at_ : List (ℕ × ℕ)) (s : State) (h0 : Kept q τ W r₀ s) [Can W .regs]
    [Can W .brk] [Can W .trk] [Can W .que] [Can W .obs] [Can W .evr] : Kept q τ W r₀ (beginRx p path slots run at_ s) := by
  unfold beginRx
  with_reducible repeat' first
    | assumption
    | (extract_lets +onlyGivenNames x; refine (?_ : Kept q τ W r₀ x → _) (?_ : Kept q τ W r₀ x); intro hx; clear_value x; revert x; intro _ _;
        rotate_left; dsimp -zeta only [x]; clear x)
    | (extract_lets +onlyGivenNames x; clear_value x; revert x; intro _) | apply kept_countUnit | apply kept_trkCount
    | apply kept_abortUnits | apply kept_setTrunk | split

theorem kept_unitFrame (p : ℕ) (path : ℕ) (c : PathCfg) (f : Frame) (s : State) (h0 : Kept q τ W r₀ s) [Can W .freeCount] [Can W .sent]
    [Can W .regs] [Can W .cmd] [Can W .lane] [Can W .port] [Can W .sas] [Can W .brk] [Can W .trk] [Can W .que] [Can W .bnd]
    [Can W .keys] [Can W .obs] [Can W .evr] : Kept q τ W r₀ (unitFrame p path c f s) := by
  unfold unitFrame
  with_reducible repeat' first
    | assumption | (extract_lets +onlyGivenNames x; clear_value x; revert x; intro _) | apply kept_missCount | apply kept_takeId
    | apply kept_lineChosen | simp -zeta only [kept_mk, can, true_or, or_true] | split

theorem kept_unitRx (p : ℕ) (path : ℕ) (u : UnitInfo) (s : State) (h0 : Kept q τ W r₀ s) [Can W .freeCount] [Can W .sent] [Can W .regs]
    [Can W .cmd] [Can W .lane] [Can W .port] [Can W .sas] [Can W .brk] [Can W .trk] [Can W .que] [Can W .bnd] [Can W .keys] [Can W .obs]
    [Can W .evr] : Kept q τ W r₀ (unitRx p path u s) := by
  unfold unitRx
  with_reducible repeat' first
    | assumption
    | (extract_lets +onlyGivenNames x; refine (?_ : Kept q τ W r₀ x → _) (?_ : Kept q τ W r₀ x); intro hx; clear_value x; revert x; intro _ _;
        rotate_left; dsimp -zeta only [x]; clear x)
    | apply kept_aisOn | apply kept_countUnit | apply kept_trkCount | apply kept_aisOff | apply kept_beginRx | apply kept_rxDrop
    | apply kept_unitFrame | split

theorem kept_applyKeyElem (world : ℕ) (ws : List Word) (s : State) (h0 : Kept q τ W r₀ s) [Can W .sas] [Can W .keys] [Can W .dks]
    [Can W .obs] : KeptInl q τ W r₀ (applyKeyElem world ws s) := by
  unfold applyKeyElem
  with_reducible repeat' first
    | assumption | (extract_lets +onlyGivenNames x; clear_value x; revert x; intro _) | apply kept_takeSlot | apply kept_touchKey
    | apply kept_setKey | simp -zeta only [kept_mk, can, true_or, or_true] | apply keptInl_inl | exact keptInl_inr | split
    | refine kept_opt (by assumption) ?_

theorem kept_applyKeys (world : Nat) (l : List Elem) (s : State) (h0 : Kept q τ W r₀ s) [Can W .sas] [Can W .keys] [Can W .dks]
    [Can W .obs] : KeptInl q τ W r₀ (applyKeys world l s) := by
  induction l generalizing s with
  | nil => exact keptInl_inl h0
  | cons e r ih =>
    unfold applyKeys
    split
    · rename_i e1
      exact ih _ (kept_inl e1 (kept_applyKeyElem _ _ _ h0))
    · exact keptInl_inr

theorem kept_settleTrunkCmds (s : State) (h0 : Kept q τ W r₀ s) [Can W .sent] [Can W .regs] [Can W .cmd] [Can W .obs] : Kept q τ W r₀
    (settleTrunkCmds s) := by
  unfold settleTrunkCmds
  with_reducible repeat' first | assumption | (extract_lets +onlyGivenNames x; clear_value x; revert x; intro _) | apply kept_finishWhere

theorem kept_commitTrunkKey (p : ℕ) (ph : ℕ) (b : KeyBus) (s : State) (h0 : Kept q τ W r₀ s) [Can W .sent] [Can W .regs] [Can W .cmd]
    [Can W .lane] [Can W .sas] [Can W .trk] [Can W .bnd] [Can W .keys] [Can W .obs] : Kept q τ W r₀ (commitTrunkKey p ph b s) := by
  unfold commitTrunkKey
  with_reducible repeat' first
    | assumption
    | (extract_lets +onlyGivenNames x; refine (?_ : Kept q τ W r₀ x → _) (?_ : Kept q τ W r₀ x); intro hx; clear_value x; revert x; intro _ _;
        rotate_left; dsimp -zeta only [x]; clear x)
    | (extract_lets +onlyGivenNames x; clear_value x; revert x; intro _) | apply kept_setTrunk | apply kept_settleTrunkCmds
    | apply kept_requestCeil

theorem kept_busDone (s : State) (h0 : Kept q τ W r₀ s) [Can W .sent] [Can W .regs] [Can W .cmd] [Can W .lane] [Can W .sas] [Can W .brk]
    [Can W .trk] [Can W .bnd] [Can W .keys] [Can W .obs] [Can W .evr] : Kept q τ W r₀ (busDone s) := by
  unfold busDone
  with_reducible repeat' first
    | assumption
    | (extract_lets +onlyGivenNames x; refine (?_ : Kept q τ W r₀ x → _) (?_ : Kept q τ W r₀ x); intro hx; clear_value x; revert x; intro _ _;
        rotate_left; dsimp -zeta only [x]; clear x)
    | (extract_lets +onlyGivenNames x; clear_value x; revert x; intro _) | apply kept_settleKeyErase | apply kept_commitTrunkKey
    | apply kept_commitInstall | simp -zeta only [kept_mk, can, true_or, or_true] | split

theorem kept_execKeyBusTransferDone (x1 : ℕ) (s : State) (h0 : Kept q τ W r₀ s) [Can W .sent] [Can W .regs] [Can W .cmd] [Can W .lane]
    [Can W .sas] [Can W .brk] [Can W .trk] [Can W .bnd] [Can W .keys] [Can W .obs] [Can W .evr] : KeptOut q τ W r₀
    (execKeyBusTransferDone x1 s) := by
  unfold execKeyBusTransferDone
  with_reducible repeat' first | assumption | apply kept_ev | apply kept_busDone | intro s₁ h₁

theorem kept_portDown (sp : ℕ) (fault : Bool) (s : State) (h0 : Kept q τ W r₀ s) [Can W .sent] [Can W .regs] [Can W .cmd] [Can W .lane]
    [Can W .port] [Can W .brk] [Can W .trk] [Can W .que] [Can W .obs] [Can W .evr] : Kept q τ W r₀ (portDown sp fault s) := by
  unfold portDown
  with_reducible repeat' first
    | assumption
    | (extract_lets +onlyGivenNames x; refine (?_ : Kept q τ W r₀ x → _) (?_ : Kept q τ W r₀ x); intro hx; clear_value x; revert x; intro _ _;
        rotate_left; dsimp -zeta only [x]; clear x)
    | apply kept_linkDown | apply kept_abortUnits | split

theorem kept_restartLink (sp : ℕ) (s : State) (h0 : Kept q τ W r₀ s) [Can W .sent] [Can W .regs] [Can W .cmd] [Can W .lane]
    [Can W .port] [Can W .brk] [Can W .trk] [Can W .que] [Can W .obs] [Can W .evr] : Kept q τ W r₀ (restartLink sp s) := by
  unfold restartLink
  with_reducible repeat' first | assumption | apply kept_portDown | split

theorem kept_applyTrunkElem (ws : List Word) (s : State) (h0 : Kept q τ W r₀ s) [Can W .sent] [Can W .regs] [Can W .cmd] [Can W .lane]
    [Can W .port] [Can W .brk] [Can W .trk] [Can W .que] [Can W .obs] [Can W .evr] : KeptFst q τ W r₀ (applyTrunkElem ws s) := by
  unfold applyTrunkElem
  with_reducible repeat' first
    | assumption
    | (extract_lets +onlyGivenNames x; refine (?_ : Kept q τ W r₀ x → _) (?_ : Kept q τ W r₀ x); intro hx; clear_value x; revert x; intro _ _;
        rotate_left; dsimp -zeta only [x]; clear x)
    | (extract_lets +onlyGivenNames x; clear_value x; revert x; intro _) | apply kept_setFld | apply kept_setTrunk
    | apply kept_restartLink | exact keptFst_none | apply keptFst_some | split

theorem kept_dropLong (p : ℕ) (u : TxUnit) (s : State) (h0 : Kept q τ W r₀ s) [Can W .regs] [Can W .trk] [Can W .que] [Can W .obs]
    : Kept q τ W r₀ (dropLong p u s) := by
  unfold dropLong
  with_reducible repeat' first | assumption | apply kept_unitDone | apply kept_trkCount

theorem kept_rxPhase (p : ℕ) (x1 : CourseHdr) (s : State) (h0 : Kept q τ W r₀ s) [Can W .trk] : Kept q τ W r₀ (rxPhase p x1 s) := by
  unfold rxPhase
  with_reducible repeat' first | assumption | (extract_lets +onlyGivenNames x; clear_value x; revert x; intro _) | apply kept_setTrunk

theorem kept_rxLabel (p : ℕ) (label : ℕ) (s : State) (h0 : Kept q τ W r₀ s) [Can W .regs] [Can W .port] [Can W .trk] [Can W .obs]
    [Can W .evr] : Kept q τ W r₀ (rxLabel p label s) := by
  unfold rxLabel
  with_reducible repeat' first
    | assumption
    | (extract_lets +onlyGivenNames x; refine (?_ : Kept q τ W r₀ x → _) (?_ : Kept q τ W r₀ x); intro hx; clear_value x; revert x; intro _ _;
        rotate_left; dsimp -zeta only [x]; clear x)
    | (extract_lets +onlyGivenNames x; clear_value x; revert x; intro _) | apply kept_setTrunk | apply kept_settleFaults
    | apply kept_record | split

theorem kept_secCount (p : ℕ) (obj : ℕ) (i : ℕ) (n : ℕ) (s : State) (h0 : Kept q τ W r₀ s) [Can W .trk] : Kept q τ W r₀
    (secCount p obj i n s) := by
  unfold secCount
  with_reducible repeat' first | assumption | (extract_lets +onlyGivenNames x; clear_value x; revert x; intro _) | apply kept_setTrunk

theorem kept_rxRdi (p : ℕ) (rdi : Bool) (s : State) (h0 : Kept q τ W r₀ s) [Can W .regs] [Can W .trk] [Can W .obs] [Can W .evr]
    : Kept q τ W r₀ (rxRdi p rdi s) := by
  unfold rxRdi
  with_reducible repeat' first
    | assumption
    | (extract_lets +onlyGivenNames x; refine (?_ : Kept q τ W r₀ x → _) (?_ : Kept q τ W r₀ x); intro hx; clear_value x; revert x; intro _ _;
        rotate_left; dsimp -zeta only [x]; clear x)
    | (extract_lets +onlyGivenNames x; clear_value x; revert x; intro _) | apply kept_secCount | apply kept_setTrunk | apply kept_record
    | split

theorem kept_erroredCourse (p : ℕ) (s : State) (h0 : Kept q τ W r₀ s) [Can W .trk] : Kept q τ W r₀ (erroredCourse p s) := by
  unfold erroredCourse
  with_reducible repeat' first
    | assumption
    | (extract_lets +onlyGivenNames x; refine (?_ : Kept q τ W r₀ x → _) (?_ : Kept q τ W r₀ x); intro hx; clear_value x; revert x; intro _ _;
        rotate_left; dsimp -zeta only [x]; clear x)
    | (extract_lets +onlyGivenNames x; clear_value x; revert x; intro _) | apply kept_setTrunk | apply kept_rawCount | apply kept_secCount
    | split

theorem kept_rxParity (p : ℕ) (x1 : CourseHdr) (x2 : CourseRx) (s : State) (h0 : Kept q τ W r₀ s) [Can W .trk] : Kept q τ W r₀
    (rxParity p x1 x2 s) := by
  unfold rxParity
  with_reducible repeat' first
    | assumption
    | (extract_lets +onlyGivenNames x; refine (?_ : Kept q τ W r₀ x → _) (?_ : Kept q τ W r₀ x); intro hx; clear_value x; revert x; intro _ _;
        rotate_left; dsimp -zeta only [x]; clear x)
    | (extract_lets +onlyGivenNames x; clear_value x; revert x; intro _) | apply kept_setTrunk | apply kept_erroredCourse | split

theorem kept_rxTime (p : ℕ) (x1 : CourseHdr) (s : State) (h0 : Kept q τ W r₀ s) [Can W .freeCount] [Can W .sent] [Can W .regs]
    [Can W .cmd] [Can W .time] [Can W .trk] [Can W .que] [Can W .dks] [Can W .obs] [Can W .evr] : Kept q τ W r₀ (rxTime p x1 s) := by
  unfold rxTime
  with_reducible repeat' first
    | assumption
    | (extract_lets +onlyGivenNames x; refine (?_ : Kept q τ W r₀ x → _) (?_ : Kept q τ W r₀ x); intro hx; clear_value x; revert x; intro _ _;
        rotate_left; dsimp -zeta only [x]; clear x)
    | (extract_lets +onlyGivenNames x; clear_value x; revert x; intro _) | apply kept_measure
    | simp -zeta only [kept_mk, can, true_or, or_true] | split

theorem kept_goodHeader (p : ℕ) (x1 : CourseHdr) (x2 : CourseRx) (s : State) (h0 : Kept q τ W r₀ s) [Can W .freeCount] [Can W .sent]
    [Can W .regs] [Can W .cmd] [Can W .port] [Can W .time] [Can W .trk] [Can W .que] [Can W .dks] [Can W .obs] [Can W .evr]
    : Kept q τ W r₀ (goodHeader p x1 x2 s) := by
  unfold goodHeader
  with_reducible repeat' first
    | assumption
    | (extract_lets +onlyGivenNames x; refine (?_ : Kept q τ W r₀ x → _) (?_ : Kept q τ W r₀ x); intro hx; clear_value x; revert x; intro _ _;
        rotate_left; dsimp -zeta only [x]; clear x)
    | apply kept_rxPhase | apply kept_rxLabel | apply kept_rxRdi | apply kept_rawCount | apply kept_secCount | apply kept_rxParity
    | apply kept_rxTime | split

theorem kept_frameEnds (p : ℕ) (s : State) (h0 : Kept q τ W r₀ s) [Can W .trk] : Kept q τ W r₀ (frameEnds p s) := by
  unfold frameEnds
  with_reducible repeat' first | assumption | (extract_lets +onlyGivenNames x; clear_value x; revert x; intro _) | apply kept_setTrunk

theorem kept_outOfFrame (p : ℕ) (s : State) (h0 : Kept q τ W r₀ s) [Can W .regs] [Can W .brk] [Can W .trk] [Can W .que] [Can W .obs]
    [Can W .evr] : Kept q τ W r₀ (outOfFrame p s) := by
  unfold outOfFrame
  with_reducible repeat' first
    | assumption | (extract_lets +onlyGivenNames x; clear_value x; revert x; intro _) | apply kept_secCount | apply kept_abortUnits
    | apply kept_setTrunk

theorem kept_headerRx (p : ℕ) (x1 : CourseRx) (s : State) (h0 : Kept q τ W r₀ s) [Can W .freeCount] [Can W .sent] [Can W .regs]
    [Can W .cmd] [Can W .port] [Can W .time] [Can W .brk] [Can W .trk] [Can W .que] [Can W .dks] [Can W .obs] [Can W .evr]
    : Kept q τ W r₀ (headerRx p x1 s) := by
  unfold headerRx
  with_reducible repeat' first
    | assumption
    | (extract_lets +onlyGivenNames x; refine (?_ : Kept q τ W r₀ x → _) (?_ : Kept q τ W r₀ x); intro hx; clear_value x; revert x; intro _ _;
        rotate_left; dsimp -zeta only [x]; clear x)
    | (extract_lets +onlyGivenNames x; clear_value x; revert x; intro _) | apply kept_setTrunk | apply kept_goodHeader
    | apply kept_frameEnds | apply kept_erroredCourse | apply kept_trkCount | apply kept_outOfFrame | apply kept_abortUnits
    | apply kept_rawCount | simp -zeta only [kept_mk, can, true_or, or_true] | split

theorem kept_execCourseHeaderRx (x1 : ℕ) (port : ℕ) (hdr : CourseRx) (s : State) (h0 : Kept q τ W r₀ s) [Can W .freeCount] [Can W .sent]
    [Can W .regs] [Can W .cmd] [Can W .port] [Can W .time] [Can W .brk] [Can W .trk] [Can W .que] [Can W .dks] [Can W .obs] [Can W .evr]
    : KeptOut q τ W r₀ (execCourseHeaderRx x1 port hdr s) := by
  unfold execCourseHeaderRx
  with_reducible repeat' first | assumption | apply kept_ev | apply kept_headerRx | intro s₁ h₁

theorem kept_aisTimeout (p : ℕ) (path : ℕ) (s : State) (h0 : Kept q τ W r₀ s) [Can W .port] [Can W .trk] : Kept q τ W r₀
    (aisTimeout p path s) := by
  unfold aisTimeout
  with_reducible repeat' first | assumption | apply kept_aisOff | split

theorem kept_passOn (x1 : ℕ) (u : TxUnit) (s : State) (h0 : Kept q τ W r₀ s) [Can W .sent] [Can W .regs] [Can W .cmd] [Can W .port]
    [Can W .trk] [Can W .obs] : Kept q τ W r₀ (passOn x1 u s) := by
  unfold passOn
  with_reducible repeat' first
    | assumption | (extract_lets +onlyGivenNames x; clear_value x; revert x; intro _) | apply kept_txDrop | apply kept_trkCount
    | apply kept_setTrunk | split

theorem kept_passUnit (p : ℕ) (path : ℕ) (u : UnitInfo) (s : State) (h0 : Kept q τ W r₀ s) [Can W .sent] [Can W .regs] [Can W .cmd]
    [Can W .port] [Can W .brk] [Can W .trk] [Can W .que] [Can W .obs] [Can W .evr] : Kept q τ W r₀ (passUnit p path u s) := by
  unfold passUnit
  with_reducible repeat' first
    | assumption | (extract_lets +onlyGivenNames x; clear_value x; revert x; intro _) | apply kept_rxDrop | apply kept_setTrunk
    | apply kept_countUnit | apply kept_trkCount | apply kept_passOn | apply kept_beginRx | split

theorem kept_advanceCount (p : ℕ) (ph : ℕ) (s : State) (h0 : Kept q τ W r₀ s) [Can W .sent] [Can W .regs] [Can W .cmd] [Can W .lane]
    [Can W .sas] [Can W .trk] [Can W .bnd] [Can W .keys] [Can W .obs] : Kept q τ W r₀ (advanceCount p ph s) := by
  unfold advanceCount
  with_reducible repeat' first
    | assumption | (extract_lets +onlyGivenNames x; clear_value x; revert x; intro _) | apply kept_requestCeil | apply kept_setTrunk
    | split

theorem kept_countCeiling (p : ℕ) (s : State) (h0 : Kept q τ W r₀ s) [Can W .sent] [Can W .regs] [Can W .cmd] [Can W .lane] [Can W .sas]
    [Can W .trk] [Can W .bnd] [Can W .keys] [Can W .obs] : Kept q τ W r₀ (countCeiling p s) := by
  unfold countCeiling
  with_reducible repeat' first
    | assumption | (extract_lets +onlyGivenNames x; clear_value x; revert x; intro _) | apply kept_advanceCount | split

theorem kept_directoryRx (p : ℕ) (g : ℕ) (bytes : List ℕ) (s : State) (h0 : Kept q τ W r₀ s) [Can W .regs] [Can W .brk] [Can W .trk]
    [Can W .que] [Can W .obs] [Can W .evr] : Kept q τ W r₀ (directoryRx p g bytes s) := by
  unfold directoryRx
  with_reducible repeat' first
    | assumption
    | (extract_lets +onlyGivenNames x; refine (?_ : Kept q τ W r₀ x → _) (?_ : Kept q τ W r₀ x); intro hx; clear_value x; revert x; intro _ _;
        rotate_left; dsimp -zeta only [x]; clear x)
    | (extract_lets +onlyGivenNames x; clear_value x; revert x; intro _) | apply kept_setTrunk | apply kept_rawCount
    | apply kept_abortUnits | apply kept_erroredCourse | apply kept_trkCount | refine kept_foldl _ _ ?_ (fun s₁ x₁ h₁ => ?_) | split

theorem kept_execDirectorySlotRx (x1 : ℕ) (port : ℕ) (group : ℕ) (bytes : List ℕ) (s : State) (h0 : Kept q τ W r₀ s) [Can W .regs]
    [Can W .brk] [Can W .trk] [Can W .que] [Can W .obs] [Can W .evr] : KeptOut q τ W r₀
    (execDirectorySlotRx x1 port group bytes s) := by
  unfold execDirectorySlotRx
  with_reducible repeat' first | assumption | apply kept_ev | apply kept_directoryRx | intro s₁ h₁

theorem kept_phaseSwitch (p : ℕ) (s : State) (h0 : Kept q τ W r₀ s) [Can W .sent] [Can W .regs] [Can W .cmd] [Can W .trk] [Can W .obs]
    : Kept q τ W r₀ (phaseSwitch p s) := by
  unfold phaseSwitch
  with_reducible repeat' first
    | assumption | (extract_lets +onlyGivenNames x; clear_value x; revert x; intro _) | apply kept_settleTrunkCmds | apply kept_setTrunk
    | split

theorem kept_execPhaseSwitch (x1 : ℕ) (port : ℕ) (s : State) (h0 : Kept q τ W r₀ s) [Can W .sent] [Can W .regs] [Can W .cmd]
    [Can W .trk] [Can W .obs] : KeptOut q τ W r₀ (execPhaseSwitch x1 port s) := by
  unfold execPhaseSwitch
  with_reducible repeat' first | assumption | apply kept_ev | apply kept_phaseSwitch | intro s₁ h₁ | split

theorem kept_engage (p : ℕ) (s : State) (h0 : Kept q τ W r₀ s) [Can W .trk] : Kept q τ W r₀ (engage p s) := by
  unfold engage
  with_reducible repeat' first
    | assumption | (extract_lets +onlyGivenNames x; clear_value x; revert x; intro _) | apply kept_setTrunk | split

theorem kept_execTrunkCountCeiling (x1 : ℕ) (port : ℕ) (s : State) (h0 : Kept q τ W r₀ s) [Can W .sent] [Can W .regs] [Can W .cmd]
    [Can W .lane] [Can W .sas] [Can W .trk] [Can W .bnd] [Can W .keys] [Can W .obs] : KeptOut q τ W r₀
    (execTrunkCountCeiling x1 port s) := by
  unfold execTrunkCountCeiling
  with_reducible repeat' first | assumption | apply kept_ev | apply kept_countCeiling | intro s₁ h₁ | split

theorem kept_pathUnit (p : ℕ) (path : ℕ) (s : State) (h0 : Kept q τ W r₀ s) [Can W .brk] [Can W .trk] [Can W .que] [Can W .obs]
    : KeptSnd q τ W r₀ (pathUnit p path s) := by
  unfold pathUnit
  with_reducible repeat' first
    | assumption | (extract_lets +onlyGivenNames x; clear_value x; revert x; intro _) | apply kept_takeUnit | apply kept_takeAdded
    | exact keptSnd_none | apply keptSnd_some | refine keptSnd_findSome _ (fun c => ?_) | refine keptSnd_map _ (fun c => ?_) | split

theorem kept_runStart (p : ℕ) (path : ℕ) (s : State) (h0 : Kept q τ W r₀ s) [Can W .regs] [Can W .brk] [Can W .trk] [Can W .que]
    [Can W .obs] : Kept q τ W r₀ (runStart p path s) := by
  unfold runStart
  with_reducible repeat' first
    | assumption | (extract_lets +onlyGivenNames x; clear_value x; revert x; intro _) | apply kept_pathUnit | apply kept_dropLong
    | apply kept_runOn | apply kept_setTrunk | split | refine kept_optSnd (by assumption) ?_

theorem kept_ansTrunkPmRead (b : Body) (s : State) (h0 : Kept q τ W r₀ s) : KeptAns q τ W r₀ (ansTrunkPmRead b s) := by
  unfold ansTrunkPmRead
  with_reducible repeat' first
    | assumption | (extract_lets +onlyGivenNames x; clear_value x; revert x; intro _) | exact KeptAns.fail | apply KeptAns.done | split

theorem kept_execTrunkPmRead (x1 : Hdr) (b : Body) (s : State) (h0 : Kept q τ W r₀ s) [Can W .sent] [Can W .regs] [Can W .cmd]
    [Can W .obs] [Can W .evr] : KeptOut q τ W r₀ (execTrunkPmRead x1 b s) := by
  unfold execTrunkPmRead
  with_reducible repeat' first | assumption | apply kept_run | apply kept_ansTrunkPmRead

theorem kept_execDirectorySlotBuild (x1 : ℕ) (port : ℕ) (s : State) (h0 : Kept q τ W r₀ s) [Can W .sent] [Can W .brk] [Can W .trk]
    [Can W .que] [Can W .obs] : KeptOut q τ W r₀ (execDirectorySlotBuild x1 port s) := by
  unfold execDirectorySlotBuild
  with_reducible repeat' first | assumption | apply kept_ev | apply kept_buildDirectory | intro s₁ h₁

theorem kept_execPathAisTimeout (x1 : ℕ) (port : ℕ) (path : ℕ) (s : State) (h0 : Kept q τ W r₀ s) [Can W .port] [Can W .trk]
    : KeptOut q τ W r₀ (execPathAisTimeout x1 port path s) := by
  unfold execPathAisTimeout
  with_reducible repeat' first | assumption | apply kept_ev | apply kept_aisTimeout | intro s₁ h₁

theorem kept_applyElems (f : List Word → State → Option (State × Body)) (l : List Elem) (s : State) (h0 : Kept q τ W r₀ s)
    (hf : ∀ ws s, Kept q τ W r₀ s → KeptFst q τ W r₀ (f ws s)) : KeptFst q τ W r₀ (applyElems f l s) := by
  induction l generalizing s with
  | nil => exact keptFst_some h0
  | cons e r ih =>
    unfold applyElems
    split
    · exact keptFst_none
    · rename_i e1
      exact keptFst_mapFst _ (ih _ (kept_optFst e1 (hf _ _ h0))) fun _ h => h

theorem kept_applyPathElem (ws : List Word) (s : State) (h0 : Kept q τ W r₀ s) [Can W .trk] : KeptFst q τ W r₀ (applyPathElem ws s) := by
  unfold applyPathElem
  with_reducible repeat' first
    | assumption | (extract_lets +onlyGivenNames x; clear_value x; revert x; intro _) | apply kept_setTrunk | exact keptFst_none
    | apply keptFst_some | split

theorem kept_yieldPasses (s : State) (h0 : Kept q τ W r₀ s) [Can W .trk] : Kept q τ W r₀ (yieldPasses s) := by
  unfold yieldPasses
  with_reducible repeat' first
    | assumption | (extract_lets +onlyGivenNames x; clear_value x; revert x; intro _) | apply kept_setTrunk
    | refine kept_foldl _ _ ?_ (fun s₁ x₁ h₁ => ?_)

theorem kept_ansPathConfig (x1 : Hdr) (b : Body) (s : State) (h0 : Kept q τ W r₀ s) [Can W .sent] [Can W .regs] [Can W .cmd]
    [Can W .lane] [Can W .port] [Can W .sas] [Can W .brk] [Can W .trk] [Can W .que] [Can W .bnd] [Can W .keys] [Can W .dks] [Can W .obs]
    [Can W .evr] : KeptAns q τ W r₀ (ansPathConfig x1 b s) := by
  unfold ansPathConfig
  with_reducible repeat' first
    | assumption
    | (extract_lets +onlyGivenNames x; refine (?_ : Kept q τ W r₀ x → _) (?_ : Kept q τ W r₀ x); intro hx; clear_value x; revert x; intro _ _;
        rotate_left; dsimp -zeta only [x]; clear x)
    | (extract_lets +onlyGivenNames x; clear_value x; revert x; intro _) | apply kept_applyElems | apply kept_applyTrunkElem
    | apply kept_applyKeys | apply kept_applyPathElem | apply kept_yieldPasses | apply kept_settleFaults | apply kept_mirror
    | apply kept_setTrunk | intro s₁ h₁ | exact KeptAns.fail | exact KeptAns.defer | exact KeptAns.hold | apply KeptAns.done
    | apply KeptAns.waits | split | refine kept_inl (by assumption) ?_ | refine kept_optFst (by assumption) ?_ | intro v

theorem kept_execRunStart (x1 : ℕ) (port : ℕ) (path : ℕ) (s : State) (h0 : Kept q τ W r₀ s) [Can W .regs] [Can W .brk] [Can W .trk]
    [Can W .que] [Can W .obs] : KeptOut q τ W r₀ (execRunStart x1 port path s) := by
  unfold execRunStart
  with_reducible repeat' first | assumption | apply kept_ev | apply kept_runStart | intro s₁ h₁

theorem kept_lofClear (p : ℕ) (s : State) (h0 : Kept q τ W r₀ s) [Can W .port] [Can W .trk] : Kept q τ W r₀ (lofClear p s) := by
  unfold lofClear
  with_reducible repeat' first
    | assumption | (extract_lets +onlyGivenNames x; clear_value x; revert x; intro _) | apply kept_settleFaults | apply kept_setTrunk
    | split

theorem kept_execLofClear (x1 : ℕ) (port : ℕ) (s : State) (h0 : Kept q τ W r₀ s) [Can W .port] [Can W .trk] : KeptOut q τ W r₀
    (execLofClear x1 port s) := by
  unfold execLofClear
  with_reducible repeat' first | assumption | apply kept_ev | apply kept_lofClear | intro s₁ h₁

theorem kept_aisInsert (p : ℕ) (path : ℕ) (s : State) (h0 : Kept q τ W r₀ s) [Can W .trk] : Kept q τ W r₀ (aisInsert p path s) := by
  unfold aisInsert
  with_reducible repeat' first
    | assumption | (extract_lets +onlyGivenNames x; clear_value x; revert x; intro _) | apply kept_setTrunk | split

theorem kept_beginCourse (p : ℕ) (c : ℕ) (j : ℕ) (s : State) (h0 : Kept q τ W r₀ s) [Can W .sent] [Can W .regs] [Can W .cmd]
    [Can W .lane] [Can W .sas] [Can W .trk] [Can W .bnd] [Can W .keys] [Can W .obs] : Kept q τ W r₀ (beginCourse p c j s) := by
  unfold beginCourse
  with_reducible repeat' first
    | assumption
    | (extract_lets +onlyGivenNames x; refine (?_ : Kept q τ W r₀ x → _) (?_ : Kept q τ W r₀ x); intro hx; clear_value x; revert x; intro _ _;
        rotate_left; dsimp -zeta only [x]; clear x)
    | (extract_lets +onlyGivenNames x; clear_value x; revert x; intro _) | apply kept_advanceCount | apply kept_setTrunk | split

theorem kept_headerTx (p : ℕ) (s : State) (h0 : Kept q τ W r₀ s) [Can W .freeCount] [Can W .sent] [Can W .regs] [Can W .cmd]
    [Can W .lane] [Can W .sas] [Can W .trk] [Can W .bnd] [Can W .keys] [Can W .obs] : Kept q τ W r₀ (headerTx p s) := by
  unfold headerTx
  with_reducible repeat' first
    | assumption
    | (extract_lets +onlyGivenNames x; refine (?_ : Kept q τ W r₀ x → _) (?_ : Kept q τ W r₀ x); intro hx; clear_value x; revert x; intro _ _;
        rotate_left; dsimp -zeta only [x]; clear x)
    | (extract_lets +onlyGivenNames x; clear_value x; revert x; intro _) | apply kept_sendGroup | apply kept_drawBits
    | apply kept_setTrunk | apply kept_rawCount | apply kept_trkCount | apply kept_beginCourse | apply kept_sendTrunk
    | simp -zeta only [kept_mk, can, true_or, or_true] | split

theorem kept_execCourseHeaderTx (x1 : ℕ) (port : ℕ) (s : State) (h0 : Kept q τ W r₀ s) [Can W .freeCount] [Can W .sent] [Can W .regs]
    [Can W .cmd] [Can W .lane] [Can W .sas] [Can W .trk] [Can W .bnd] [Can W .keys] [Can W .obs] : KeptOut q τ W r₀
    (execCourseHeaderTx x1 port s) := by
  unfold execCourseHeaderTx
  with_reducible repeat' first | assumption | apply kept_ev | apply kept_headerTx | intro s₁ h₁

theorem kept_execUnitRx (x1 : ℕ) (port : ℕ) (path : ℕ) (unit : UnitInfo) (s : State) (h0 : Kept q τ W r₀ s) [Can W .freeCount]
    [Can W .sent] [Can W .regs] [Can W .cmd] [Can W .lane] [Can W .port] [Can W .sas] [Can W .brk] [Can W .trk] [Can W .que]
    [Can W .bnd] [Can W .keys] [Can W .obs] [Can W .evr] : KeptOut q τ W r₀ (execUnitRx x1 port path unit s) := by
  unfold execUnitRx
  with_reducible repeat' first | assumption | apply kept_ev | apply kept_unitRx | intro s₁ h₁

theorem kept_execLinkDown (x1 : ℕ) (sp : ℕ) (localFault : Bool) (s : State) (h0 : Kept q τ W r₀ s) [Can W .sent] [Can W .regs]
    [Can W .cmd] [Can W .lane] [Can W .port] [Can W .brk] [Can W .trk] [Can W .que] [Can W .obs] [Can W .evr] : KeptOut q τ W r₀
    (execLinkDown x1 sp localFault s) := by
  unfold execLinkDown
  with_reducible repeat' first | assumption | apply kept_ev | apply kept_portDown | intro s₁ h₁

theorem kept_execPassUnitRx (x1 : ℕ) (port : ℕ) (path : ℕ) (unit : UnitInfo) (s : State) (h0 : Kept q τ W r₀ s) [Can W .sent]
    [Can W .regs] [Can W .cmd] [Can W .port] [Can W .brk] [Can W .trk] [Can W .que] [Can W .obs] [Can W .evr] : KeptOut q τ W r₀
    (execPassUnitRx x1 port path unit s) := by
  unfold execPassUnitRx
  with_reducible repeat' first | assumption | apply kept_ev | apply kept_passUnit | intro s₁ h₁

theorem kept_execTrunkKeyEngage (x1 : ℕ) (port : ℕ) (s : State) (h0 : Kept q τ W r₀ s) [Can W .trk] : KeptOut q τ W r₀
    (execTrunkKeyEngage x1 port s) := by
  unfold execTrunkKeyEngage
  with_reducible repeat' first | assumption | apply kept_ev | apply kept_engage | intro s₁ h₁ | split

theorem kept_execPathConfig (x1 : Hdr) (b : Body) (s : State) (h0 : Kept q τ W r₀ s) [Can W .sent] [Can W .regs] [Can W .cmd]
    [Can W .lane] [Can W .port] [Can W .sas] [Can W .brk] [Can W .trk] [Can W .que] [Can W .bnd] [Can W .keys] [Can W .dks] [Can W .obs]
    [Can W .evr] : KeptOut q τ W r₀ (execPathConfig x1 b s) := by
  unfold execPathConfig
  with_reducible repeat' first | assumption | apply kept_run | apply kept_ansPathConfig | intro s₁ h₁

theorem kept_lofDeclare (p : ℕ) (s : State) (h0 : Kept q τ W r₀ s) [Can W .regs] [Can W .port] [Can W .trk] [Can W .obs] [Can W .evr]
    : Kept q τ W r₀ (lofDeclare p s) := by
  unfold lofDeclare
  with_reducible repeat' first
    | assumption | (extract_lets +onlyGivenNames x; clear_value x; revert x; intro _) | apply kept_settleFaults | apply kept_record
    | apply kept_setTrunk | split

theorem kept_phaseErase (p : ℕ) (s : State) (h0 : Kept q τ W r₀ s) [Can W .regs] [Can W .trk] [Can W .keys] [Can W .obs] [Can W .evr]
    : Kept q τ W r₀ (phaseErase p s) := by
  unfold phaseErase
  with_reducible repeat' first
    | assumption | (extract_lets +onlyGivenNames x; clear_value x; revert x; intro _) | apply kept_record | apply kept_setTrunk | split

theorem kept_execPhaseOldKeyErase (x1 : ℕ) (port : ℕ) (s : State) (h0 : Kept q τ W r₀ s) [Can W .regs] [Can W .trk] [Can W .keys]
    [Can W .obs] [Can W .evr] : KeptOut q τ W r₀ (execPhaseOldKeyErase x1 port s) := by
  unfold execPhaseOldKeyErase
  with_reducible repeat' first | assumption | apply kept_ev | apply kept_phaseErase | intro s₁ h₁ | split

theorem kept_execAisInsert (x1 : ℕ) (port : ℕ) (path : ℕ) (s : State) (h0 : Kept q τ W r₀ s) [Can W .trk] : KeptOut q τ W r₀
    (execAisInsert x1 port path s) := by
  unfold execAisInsert
  with_reducible repeat' first | assumption | apply kept_ev | apply kept_aisInsert | intro s₁ h₁

theorem kept_execLofDeclare (x1 : ℕ) (port : ℕ) (s : State) (h0 : Kept q τ W r₀ s) [Can W .regs] [Can W .port] [Can W .trk] [Can W .obs]
    [Can W .evr] : KeptOut q τ W r₀ (execLofDeclare x1 port s) := by
  unfold execLofDeclare
  with_reducible repeat' first | assumption | apply kept_ev | apply kept_lofDeclare | intro s₁ h₁

theorem kept_pmSecond (p : ℕ) (s : State) (h0 : Kept q τ W r₀ s) [Can W .trk] : Kept q τ W r₀ (pmSecond p s) := by
  unfold pmSecond
  with_reducible repeat' first
    | assumption
    | (extract_lets +onlyGivenNames x; refine (?_ : Kept q τ W r₀ x → _) (?_ : Kept q τ W r₀ x); intro hx; clear_value x; revert x; intro _ _;
        rotate_left; dsimp -zeta only [x]; clear x)
    | (extract_lets +onlyGivenNames x; clear_value x; revert x; intro _) | apply kept_secCount | apply kept_rawCount | apply kept_setTrunk
    | refine kept_foldl _ _ ?_ (fun s₁ x₁ h₁ => ?_) | split

theorem kept_execPmSecond (x1 : ℕ) (port : ℕ) (s : State) (h0 : Kept q τ W r₀ s) [Can W .trk] : KeptOut q τ W r₀
    (execPmSecond x1 port s) := by
  unfold execPmSecond
  with_reducible repeat' first | assumption | apply kept_ev | apply kept_pmSecond | intro s₁ h₁

/-! ## Ptp -/

theorem kept_updPtp (port : ℕ) (f : PtpPort → PtpPort) (s : State) (h0 : Kept q τ W r₀ s) [Can W .time] : Kept q τ W r₀
    (updPtp port f s) := by
  unfold updPtp
  with_reducible repeat' first
    | assumption | (extract_lets +onlyGivenNames x; clear_value x; revert x; intro _) | simp -zeta only [kept_mk, can, true_or, or_true]

theorem kept_syncMeasured (x1 : PtpPort) (d : ℤ) (s : State) (h0 : Kept q τ W r₀ s) [Can W .freeCount] [Can W .sent] [Can W .regs]
    [Can W .cmd] [Can W .time] [Can W .trk] [Can W .que] [Can W .dks] [Can W .obs] [Can W .evr] : Kept q τ W r₀
    (syncMeasured x1 d s) := by
  unfold syncMeasured
  with_reducible repeat' first
    | assumption
    | (extract_lets +onlyGivenNames x; refine (?_ : Kept q τ W r₀ x → _) (?_ : Kept q τ W r₀ x); intro hx; clear_value x; revert x; intro _ _;
        rotate_left; dsimp -zeta only [x]; clear x)
    | (extract_lets +onlyGivenNames x; clear_value x; revert x; intro _) | apply kept_updPtp | apply kept_measure | split

theorem kept_dropOneStep (n : ℕ) (s : State) (h0 : Kept q τ W r₀ s) [Can W .time] : Kept q τ W r₀ (dropOneStep n s) := by
  unfold dropOneStep
  with_reducible repeat' first
    | assumption | (extract_lets +onlyGivenNames x; clear_value x; revert x; intro _) | simp -zeta only [kept_mk, can, true_or, or_true]

theorem kept_ptpProtect (x1 : PtpPort) (s : State) (h0 : Kept q τ W r₀ s) [Can W .freeCount] [Can W .sent] [Can W .regs] [Can W .cmd]
    [Can W .lane] [Can W .port] [Can W .sas] [Can W .brk] [Can W .trk] [Can W .bnd] [Can W .keys] [Can W .obs] [Can W .evr]
    : Kept q τ W r₀ (ptpProtect x1 s).1 := by
  unfold ptpProtect
  with_reducible repeat' first
    | assumption | (extract_lets +onlyGivenNames x; clear_value x; revert x; intro _) | apply kept_assignPn | apply kept_saCount
    | simp -zeta only [kept_mk, can, true_or, or_true] | split | refine kept_snd (by assumption) ?_

theorem kept_oneStepDispatch (n : ℕ) (s : State) (h0 : Kept q τ W r₀ s) [Can W .freeCount] [Can W .sent] [Can W .regs] [Can W .cmd]
    [Can W .lane] [Can W .port] [Can W .time] [Can W .sas] [Can W .brk] [Can W .trk] [Can W .bnd] [Can W .keys] [Can W .obs]
    [Can W .evr] : Kept q τ W r₀ (oneStepDispatch n s) := by
  unfold oneStepDispatch
  with_reducible repeat' first
    | assumption | (extract_lets +onlyGivenNames x; clear_value x; revert x; intro _) | apply kept_dropOneStep | apply kept_ptpProtect
    | simp -zeta only [kept_mk, can, true_or, or_true] | split | refine kept_fst (by assumption) ?_

theorem kept_writeServo (w : Word) (s : State) (h0 : Kept q τ W r₀ s) [Can W .regs] [Can W .time] [Can W .obs] [Can W .evr]
    : Kept q τ W r₀ (writeServo w s) := by
  unfold writeServo
  with_reducible repeat' first
    | assumption | (extract_lets +onlyGivenNames x; clear_value x; revert x; intro _) | apply kept_refChoose | apply kept_setReg

theorem kept_freeReserved (b : ℕ) (s : State) (h0 : Kept q τ W r₀ s) [Can W .sas] [Can W .brk] : Kept q τ W r₀ (freeReserved b s) := by
  unfold freeReserved
  with_reducible repeat' first | assumption | apply kept_releaseBank | split

theorem kept_ansPtpConfig (b : Body) (s : State) (h0 : Kept q τ W r₀ s) [Can W .regs] [Can W .time] [Can W .sas] [Can W .brk]
    [Can W .obs] [Can W .evr] : KeptAns q τ W r₀ (ansPtpConfig b s) := by
  unfold ansPtpConfig
  with_reducible repeat' first
    | assumption
    | (extract_lets +onlyGivenNames x; refine (?_ : Kept q τ W r₀ x → _) (?_ : Kept q τ W r₀ x); intro hx; clear_value x; revert x; intro _ _;
        rotate_left; dsimp -zeta only [x]; clear x)
    | (extract_lets +onlyGivenNames x; clear_value x; revert x; intro _) | apply kept_fillBanks | apply kept_freeReserved
    | apply kept_writeServo | simp -zeta only [kept_mk, can, true_or, or_true] | exact KeptAns.fail | exact KeptAns.hold
    | apply KeptAns.done | split

theorem kept_runBmca (s : State) (h0 : Kept q τ W r₀ s) [Can W .time] : Kept q τ W r₀ (runBmca s) := by
  unfold runBmca
  with_reducible repeat' first | assumption | apply kept_updPtp | refine kept_foldl _ _ ?_ (fun s₁ x₁ h₁ => ?_)

theorem kept_ptpUse (x1 : PtpPort) (m : PtpMsg) (at_ : ℕ) (s : State) (h0 : Kept q τ W r₀ s) [Can W .freeCount] [Can W .sent]
    [Can W .regs] [Can W .cmd] [Can W .time] [Can W .trk] [Can W .que] [Can W .dks] [Can W .obs] [Can W .evr] : Kept q τ W r₀
    (ptpUse x1 m at_ s) := by
  unfold ptpUse
  with_reducible repeat' first
    | assumption | (extract_lets +onlyGivenNames x; clear_value x; revert x; intro _) | apply kept_updPtp | apply kept_syncMeasured
    | apply kept_runBmca | split

theorem kept_takeArrival (port : ℕ) (s : State) (h0 : Kept q τ W r₀ s) [Can W .time] : KeptSnd q τ W r₀ (takeArrival port s) := by
  unfold takeArrival
  with_reducible repeat' first
    | assumption | (extract_lets +onlyGivenNames x; clear_value x; revert x; intro _) | simp -zeta only [kept_mk, can, true_or, or_true]
    | exact keptSnd_none | apply keptSnd_some | split

theorem kept_execOnestepRelease (x1 : ℕ) (n : ℕ) (s : State) (h0 : Kept q τ W r₀ s) [Can W .sent] [Can W .regs] [Can W .cmd]
    [Can W .port] [Can W .time] [Can W .obs] [Can W .evr] : KeptOut q τ W r₀ (execOnestepRelease x1 n s) := by
  unfold execOnestepRelease
  with_reducible repeat' first | assumption | apply kept_ev | apply kept_oneStepRelease | intro s₁ h₁

theorem kept_execOnestepDispatch (x1 : ℕ) (n : ℕ) (s : State) (h0 : Kept q τ W r₀ s) [Can W .freeCount] [Can W .sent] [Can W .regs]
    [Can W .cmd] [Can W .lane] [Can W .port] [Can W .time] [Can W .sas] [Can W .brk] [Can W .trk] [Can W .bnd] [Can W .keys]
    [Can W .obs] [Can W .evr] : KeptOut q τ W r₀ (execOnestepDispatch x1 n s) := by
  unfold execOnestepDispatch
  with_reducible repeat' first | assumption | apply kept_ev | apply kept_oneStepDispatch | intro s₁ h₁

theorem kept_ptpRx (port : ℕ) (m : PtpMsg) (s : State) (h0 : Kept q τ W r₀ s) [Can W .freeCount] [Can W .sent] [Can W .regs]
    [Can W .cmd] [Can W .time] [Can W .trk] [Can W .que] [Can W .dks] [Can W .obs] [Can W .evr] : Kept q τ W r₀ (ptpRx port m s) := by
  unfold ptpRx
  with_reducible repeat' first
    | assumption | (extract_lets +onlyGivenNames x; clear_value x; revert x; intro _) | apply kept_takeArrival | apply kept_ptpUse
    | simp -zeta only [kept_mk, can, true_or, or_true] | split | refine kept_optSnd (by assumption) ?_

theorem kept_execPtpMessageRx (x1 : ℕ) (port : ℕ) (msg : PtpMsg) (s : State) (h0 : Kept q τ W r₀ s) [Can W .freeCount] [Can W .sent]
    [Can W .regs] [Can W .cmd] [Can W .time] [Can W .trk] [Can W .que] [Can W .dks] [Can W .obs] [Can W .evr] : KeptOut q τ W r₀
    (execPtpMessageRx x1 port msg s) := by
  unfold execPtpMessageRx
  with_reducible repeat' first | assumption | apply kept_ev | apply kept_ptpRx | intro s₁ h₁

theorem kept_inject (x1 : PtpPort) (m : PtpMsg) (dep : ℕ) (s : State) (h0 : Kept q τ W r₀ s) [Can W .time] : Kept q τ W r₀
    (inject x1 m dep s) := by
  unfold inject
  with_reducible repeat' first
    | assumption
    | (extract_lets +onlyGivenNames x; refine (?_ : Kept q τ W r₀ x → _) (?_ : Kept q τ W r₀ x); intro hx; clear_value x; revert x; intro _ _;
        rotate_left; dsimp -zeta only [x]; clear x)
    | (extract_lets +onlyGivenNames x; clear_value x; revert x; intro _) | apply kept_updPtp
    | simp -zeta only [kept_mk, can, true_or, or_true] | split

theorem kept_ptpTx (port : ℕ) (kind : ℕ) (dep : ℕ) (s : State) (h0 : Kept q τ W r₀ s) [Can W .freeCount] [Can W .sent] [Can W .regs]
    [Can W .cmd] [Can W .lane] [Can W .port] [Can W .time] [Can W .sas] [Can W .brk] [Can W .trk] [Can W .bnd] [Can W .keys]
    [Can W .obs] [Can W .evr] : Kept q τ W r₀ (ptpTx port kind dep s) := by
  unfold ptpTx
  with_reducible repeat' first
    | assumption
    | (extract_lets +onlyGivenNames x; refine (?_ : Kept q τ W r₀ x → _) (?_ : Kept q τ W r₀ x); intro hx; clear_value x; revert x; intro _ _;
        rotate_left; dsimp -zeta only [x]; clear x)
    | (extract_lets +onlyGivenNames x; clear_value x; revert x; intro _) | apply kept_runBmca | apply kept_inject | apply kept_ptpProtect
    | apply kept_sendPtp | apply kept_updPtp | split | refine kept_fst (by assumption) ?_

theorem kept_execPtpMessageTx (x1 : ℕ) (port : ℕ) (kind : ℕ) (dep : ℕ) (s : State) (h0 : Kept q τ W r₀ s) [Can W .freeCount]
    [Can W .sent] [Can W .regs] [Can W .cmd] [Can W .lane] [Can W .port] [Can W .time] [Can W .sas] [Can W .brk] [Can W .trk]
    [Can W .bnd] [Can W .keys] [Can W .obs] [Can W .evr] : KeptOut q τ W r₀ (execPtpMessageTx x1 port kind dep s) := by
  unfold execPtpMessageTx
  with_reducible repeat' first | assumption | apply kept_ev | apply kept_ptpTx | intro s₁ h₁

theorem kept_execPtpConfig (x1 : Hdr) (b : Body) (s : State) (h0 : Kept q τ W r₀ s) [Can W .sent] [Can W .regs] [Can W .cmd]
    [Can W .time] [Can W .sas] [Can W .brk] [Can W .obs] [Can W .evr] : KeptOut q τ W r₀ (execPtpConfig x1 b s) := by
  unfold execPtpConfig
  with_reducible repeat' first | assumption | apply kept_run | apply kept_ansPtpConfig | intro s₁ h₁

/-! ## Bond -/

theorem kept_authFail (typ : ℕ) (rec : Bool) (m : BondRx) (s : State) (h0 : Kept q τ W r₀ s) [Can W .regs] [Can W .obs] [Can W .evr]
    : Kept q τ W r₀ (authFail typ rec m s) := by
  unfold authFail
  with_reducible repeat' first
    | assumption
    | (extract_lets +onlyGivenNames x; refine (?_ : Kept q τ W r₀ x → _) (?_ : Kept q τ W r₀ x); intro hx; clear_value x; revert x; intro _ _;
        rotate_left; dsimp -zeta only [x]; clear x)
    | apply kept_bump | apply kept_record | split

theorem kept_syncReq (s : State) (h0 : Kept q τ W r₀ s) [Can W .sent] [Can W .regs] [Can W .cmd] [Can W .lane] [Can W .bnd] [Can W .obs]
    : Kept q τ W r₀ (syncReq s) := by
  unfold syncReq
  with_reducible repeat' first
    | assumption
    | (extract_lets +onlyGivenNames x; refine (?_ : Kept q τ W r₀ x → _) (?_ : Kept q τ W r₀ x); intro hx; clear_value x; revert x; intro _ _;
        rotate_left; dsimp -zeta only [x]; clear x)
    | (extract_lets +onlyGivenNames x; clear_value x; revert x; intro _) | apply kept_setRole | apply kept_sendBond
    | simp -zeta only [kept_mk, can, true_or, or_true] | split

theorem kept_loseSync (reason : ℕ) (s : State) (h0 : Kept q τ W r₀ s) [Can W .sent] [Can W .regs] [Can W .cmd] [Can W .lane]
    [Can W .bnd] [Can W .obs] [Can W .evr] : Kept q τ W r₀ (loseSync reason s) := by
  unfold loseSync
  with_reducible repeat' first
    | assumption
    | (extract_lets +onlyGivenNames x; refine (?_ : Kept q τ W r₀ x → _) (?_ : Kept q τ W r₀ x); intro hx; clear_value x; revert x; intro _ _;
        rotate_left; dsimp -zeta only [x]; clear x)
    | apply kept_record | apply kept_syncReq | apply kept_setRole | split

theorem kept_underMac (typ : Nat) (m : BondRx) (f : State → State) (s : State) (h0 : Kept q τ W r₀ s)
    (hf : ∀ s, Kept q τ W r₀ s → Kept q τ W r₀ (f s)) [Can W .sent] [Can W .regs] [Can W .cmd] [Can W .lane] [Can W .bnd] [Can W .obs] [Can W .evr] : Kept q τ W r₀ (underMac typ m f s) := by
  unfold underMac
  repeat' split
  · exact h0
  · exact kept_authFail _ _ _ _ h0
  · exact kept_loseSync _ _ h0
  · exact hf _ h0

theorem kept_mirrorScIn (key : ℕ) (present : Bool) (sci : ℕ) (cfg : Word) (window : ℕ) (link : Word) (thresh : ℕ) (retire : ℕ)
    (s : State) (h0 : Kept q τ W r₀ s) [Can W .cls] [Can W .sas] : Kept q τ W r₀
    (mirrorScIn key present sci cfg window link thresh retire s) := by
  unfold mirrorScIn
  with_reducible repeat' first
    | assumption
    | (extract_lets +onlyGivenNames x; refine (?_ : Kept q τ W r₀ x → _) (?_ : Kept q τ W r₀ x); intro hx; clear_value x; revert x; intro _ _;
        rotate_left; dsimp -zeta only [x]; clear x)
    | (extract_lets +onlyGivenNames x; clear_value x; revert x; intro _) | apply kept_setSc | apply kept_unlearn
    | simp -zeta only [kept_mk, can, true_or, or_true] | split

theorem kept_mirrorSaIn (entry : ℕ) (rx : Bool) (an : ℕ) (port : ℕ) (sc : ℕ) (gen : ℕ) (iv : List Word) (init : ℕ) (wrapped : List Word)
    (s : State) (h0 : Kept q τ W r₀ s) [Can W .sas] [Can W .keys] : Kept q τ W r₀
    (mirrorSaIn entry rx an port sc gen iv init wrapped s) := by
  unfold mirrorSaIn
  with_reducible repeat' first
    | assumption | (extract_lets +onlyGivenNames x; clear_value x; revert x; intro _) | apply kept_storeValue | apply kept_setSc
    | apply kept_setSa | simp -zeta only [kept_mk, can, true_or, or_true] | apply kept_getDFst | split

theorem kept_mirrorStateIn (entry : ℕ) (st : ℕ) (active : Option ℕ) (s : State) (h0 : Kept q τ W r₀ s) [Can W .sas] [Can W .brk]
    : Kept q τ W r₀ (mirrorStateIn entry st active s) := by
  unfold mirrorStateIn
  with_reducible repeat' first
    | assumption
    | (extract_lets +onlyGivenNames x; refine (?_ : Kept q τ W r₀ x → _) (?_ : Kept q τ W r₀ x); intro hx; clear_value x; revert x; intro _ _;
        rotate_left; dsimp -zeta only [x]; clear x)
    | (extract_lets +onlyGivenNames x; clear_value x; revert x; intro _) | apply kept_releaseBank | apply kept_setSa
    | simp -zeta only [kept_mk, can, true_or, or_true] | split

theorem kept_mirrorPathIn (b : Body) (s : State) (h0 : Kept q τ W r₀ s) [Can W .sent] [Can W .regs] [Can W .cmd] [Can W .lane]
    [Can W .port] [Can W .brk] [Can W .trk] [Can W .que] [Can W .obs] [Can W .evr] : Kept q τ W r₀ (mirrorPathIn b s) := by
  unfold mirrorPathIn
  with_reducible repeat' first
    | assumption
    | (extract_lets +onlyGivenNames x; refine (?_ : Kept q τ W r₀ x → _) (?_ : Kept q τ W r₀ x); intro hx; clear_value x; revert x; intro _ _;
        rotate_left; dsimp -zeta only [x]; clear x)
    | (extract_lets +onlyGivenNames x; clear_value x; revert x; intro _) | apply kept_applyElems | apply kept_applyTrunkElem
    | apply kept_setTrunk | apply kept_applyPathElem | apply kept_settleFaults | apply kept_yieldPasses
    | refine kept_foldl _ _ ?_ (fun s₁ x₁ h₁ => ?_) | intro s₁ h₁ | apply kept_getD | apply keptOpt_mapFst | split | intro v

theorem kept_mirrorMkaIn (ca : ℕ) (present : Bool) (txSc : ℕ) (rxSc : ℕ) (cak : ℕ) (ckn : Body) (server : Bool) (ps : List ℕ)
    (s : State) (h0 : Kept q τ W r₀ s) [Can W .sas] : Kept q τ W r₀ (mirrorMkaIn ca present txSc rxSc cak ckn server ps s) := by
  unfold mirrorMkaIn
  with_reducible repeat' first
    | assumption | (extract_lets +onlyGivenNames x; clear_value x; revert x; intro _) | simp -zeta only [kept_mk, can, true_or, or_true]
    | split

theorem kept_applyRec (x1 : MirrorBody) (s : State) (h0 : Kept q τ W r₀ s) [Can W .sent] [Can W .regs] [Can W .cmd] [Can W .lane]
    [Can W .port] [Can W .cls] [Can W .sas] [Can W .brk] [Can W .trk] [Can W .que] [Can W .bnd] [Can W .keys] [Can W .obs] [Can W .evr]
    : Kept q τ W r₀ (applyRec x1 s) := by
  unfold applyRec
  with_reducible repeat' first
    | assumption | (extract_lets +onlyGivenNames x; clear_value x; revert x; intro _) | apply kept_mirrorScIn | apply kept_mirrorSaIn
    | apply kept_mirrorStateIn | apply kept_setTrunk | apply kept_addWork | apply kept_mirrorPathIn | apply kept_mirrorMkaIn
    | simp -zeta only [kept_mk, can, true_or, or_true] | split

theorem kept_drainRecs (n : Nat) (s : State) (h0 : Kept q τ W r₀ s) [Can W .sent] [Can W .regs] [Can W .cmd] [Can W .lane] [Can W .port]
    [Can W .cls] [Can W .sas] [Can W .brk] [Can W .trk] [Can W .que] [Can W .bnd] [Can W .keys] [Can W .obs] [Can W .evr]
    : Kept q τ W r₀ (drainRecs n s) := by
  induction n generalizing s with
  | zero => exact h0
  | succ n ih =>
    unfold drainRecs
    split
    · exact h0
    · refine ih _ (kept_applyRec _ _ ?_)
      simpa -zeta only [kept_mk, can, true_or, or_true]

theorem kept_checkDone (s : State) (h0 : Kept q τ W r₀ s) [Can W .sent] [Can W .lane] [Can W .bnd] : Kept q τ W r₀ (checkDone s) := by
  unfold checkDone
  with_reducible repeat' first
    | assumption | (extract_lets +onlyGivenNames x; clear_value x; revert x; intro _) | apply kept_sendBond
    | simp -zeta only [kept_mk, can, true_or, or_true] | split

theorem kept_absorb (s : State) (h0 : Kept q τ W r₀ s) [Can W .sent] [Can W .regs] [Can W .cmd] [Can W .lane] [Can W .port] [Can W .cls]
    [Can W .sas] [Can W .brk] [Can W .trk] [Can W .que] [Can W .bnd] [Can W .keys] [Can W .obs] [Can W .evr] : Kept q τ W r₀
    (absorb s) := by
  unfold absorb
  with_reducible repeat' first
    | assumption
    | (extract_lets +onlyGivenNames x; refine (?_ : Kept q τ W r₀ x → _) (?_ : Kept q τ W r₀ x); intro hx; clear_value x; revert x; intro _ _;
        rotate_left; dsimp -zeta only [x]; clear x)
    | (extract_lets +onlyGivenNames x; clear_value x; revert x; intro _) | apply kept_drainRecs | apply kept_checkDone
    | apply kept_sendBond | simp -zeta only [kept_mk, can, true_or, or_true] | split

theorem kept_mirrorRx (m : BondRx) (s : State) (h0 : Kept q τ W r₀ s) [Can W .sent] [Can W .regs] [Can W .cmd] [Can W .lane]
    [Can W .port] [Can W .cls] [Can W .sas] [Can W .brk] [Can W .trk] [Can W .que] [Can W .bnd] [Can W .keys] [Can W .obs] [Can W .evr]
    : Kept q τ W r₀ (mirrorRx m s) := by
  unfold mirrorRx
  with_reducible repeat' first
    | assumption
    | (extract_lets +onlyGivenNames x; refine (?_ : Kept q τ W r₀ x → _) (?_ : Kept q τ W r₀ x); intro hx; clear_value x; revert x; intro _ _;
        rotate_left; dsimp -zeta only [x]; clear x)
    | (extract_lets +onlyGivenNames x; clear_value x; revert x; intro _) | apply kept_absorb
    | simp -zeta only [kept_mk, can, true_or, or_true] | split

theorem kept_execMirrorRx (x1 : ℕ) (m : BondRx) (s : State) (h0 : Kept q τ W r₀ s) [Can W .sent] [Can W .regs] [Can W .cmd]
    [Can W .lane] [Can W .port] [Can W .cls] [Can W .sas] [Can W .brk] [Can W .trk] [Can W .que] [Can W .bnd] [Can W .keys] [Can W .obs]
    [Can W .evr] : KeptOut q τ W r₀ (execMirrorRx x1 m s) := by
  unfold execMirrorRx
  with_reducible repeat' first | assumption | apply kept_ev | apply kept_underMac | apply kept_mirrorRx | intro s₁ h₁

theorem kept_startSession (s : State) (h0 : Kept q τ W r₀ s) [Can W .freeCount] [Can W .sent] [Can W .lane] [Can W .bnd] [Can W .eng]
    [Can W .obs] : Kept q τ W r₀ (startSession s) := by
  unfold startSession
  with_reducible repeat' first
    | assumption | (extract_lets +onlyGivenNames x; clear_value x; revert x; intro _) | apply kept_drawBits | apply kept_drbgUse
    | apply kept_sendBond | simp -zeta only [kept_mk, can, true_or, or_true]

theorem kept_dropSync (s : State) (h0 : Kept q τ W r₀ s) [Can W .sent] [Can W .regs] [Can W .cmd] [Can W .sas] [Can W .trk] [Can W .bnd]
    [Can W .keys] [Can W .obs] : Kept q τ W r₀ (dropSync s) := by
  unfold dropSync
  with_reducible repeat' first
    | assumption | (extract_lets +onlyGivenNames x; clear_value x; revert x; intro _) | apply kept_lapseCeils
    | simp -zeta only [kept_mk, can, true_or, or_true]

theorem kept_flushDatapath (s : State) (h0 : Kept q τ W r₀ s) [Can W .sent] [Can W .regs] [Can W .cmd] [Can W .port] [Can W .brk]
    [Can W .que] [Can W .obs] : Kept q τ W r₀ (flushDatapath s) := by
  unfold flushDatapath
  with_reducible repeat' first
    | assumption
    | (extract_lets +onlyGivenNames x; refine (?_ : Kept q τ W r₀ x → _) (?_ : Kept q τ W r₀ x); intro hx; clear_value x; revert x; intro _ _;
        rotate_left; dsimp -zeta only [x]; clear x)
    | (extract_lets +onlyGivenNames x; clear_value x; revert x; intro _) | apply kept_txDrop
    | simp -zeta only [kept_mk, can, true_or, or_true] | refine kept_foldl _ _ ?_ (fun s₁ x₁ h₁ => ?_)

theorem kept_startTx (entry : ℕ) (s : State) (h0 : Kept q τ W r₀ s) [Can W .freeCount] [Can W .sent] [Can W .regs] [Can W .cmd]
    [Can W .lane] [Can W .port] [Can W .sas] [Can W .brk] [Can W .bnd] [Can W .keys] [Can W .obs] [Can W .evr] : Kept q τ W r₀
    (startTx entry s) := by
  unfold startTx
  with_reducible repeat' first
    | assumption
    | (extract_lets +onlyGivenNames x; refine (?_ : Kept q τ W r₀ x → _) (?_ : Kept q τ W r₀ x); intro hx; clear_value x; revert x; intro _ _;
        rotate_left; dsimp -zeta only [x]; clear x)
    | apply kept_setSa | apply kept_considerAuto | apply kept_threshold | split

theorem kept_fillAll (s : State) (h0 : Kept q τ W r₀ s) [Can W .sas] [Can W .brk] : Kept q τ W r₀ (fillAll s) := by
  unfold fillAll
  with_reducible repeat' first | assumption | apply kept_fillBanks | refine kept_foldl _ _ ?_ (fun s₁ x₁ h₁ => ?_)

theorem kept_takeover (cause : ℕ) (s : State) (h0 : Kept q τ W r₀ s) [Can W .freeCount] [Can W .sent] [Can W .regs] [Can W .cmd]
    [Can W .boot] [Can W .lane] [Can W .port] [Can W .cls] [Can W .sas] [Can W .brk] [Can W .trk] [Can W .bnd] [Can W .keys]
    [Can W .pwr] [Can W .obs] [Can W .evr] : Kept q τ W r₀ (takeover cause s) := by
  unfold takeover
  with_reducible repeat' first
    | assumption
    | (extract_lets +onlyGivenNames x; refine (?_ : Kept q τ W r₀ x → _) (?_ : Kept q τ W r₀ x); intro hx; clear_value x; revert x; intro _ _;
        rotate_left; dsimp -zeta only [x]; clear x)
    | (extract_lets +onlyGivenNames x; clear_value x; revert x; intro _) | apply kept_setRole | apply kept_startTx | apply kept_fillAll
    | apply kept_restartAger | apply kept_raise | apply kept_record | simp -zeta only [kept_mk, can, true_or, or_true]
    | refine kept_foldl _ _ ?_ (fun s₁ x₁ h₁ => ?_) | split

theorem kept_settleRoles (s : State) (h0 : Kept q τ W r₀ s) [Can W .freeCount] [Can W .sent] [Can W .regs] [Can W .cmd] [Can W .boot]
    [Can W .lane] [Can W .port] [Can W .cls] [Can W .sas] [Can W .brk] [Can W .trk] [Can W .que] [Can W .bnd] [Can W .keys] [Can W .pwr]
    [Can W .obs] [Can W .evr] : Kept q τ W r₀ (settleRoles s) := by
  unfold settleRoles
  with_reducible repeat' first
    | assumption
    | (extract_lets +onlyGivenNames x; refine (?_ : Kept q τ W r₀ x → _) (?_ : Kept q τ W r₀ x); intro hx; clear_value x; revert x; intro _ _;
        rotate_left; dsimp -zeta only [x]; clear x)
    | (extract_lets +onlyGivenNames x; clear_value x; revert x; intro _) | apply kept_record | apply kept_setRole | apply kept_dropSync
    | apply kept_flushDatapath | apply kept_takeover | apply kept_syncReq | simp -zeta only [kept_mk, can, true_or, or_true] | split

theorem kept_acceptHello (m : BondRx) (s : State) (h0 : Kept q τ W r₀ s) [Can W .freeCount] [Can W .sent] [Can W .regs] [Can W .cmd]
    [Can W .boot] [Can W .lane] [Can W .port] [Can W .cls] [Can W .sas] [Can W .brk] [Can W .trk] [Can W .que] [Can W .bnd]
    [Can W .keys] [Can W .eng] [Can W .pwr] [Can W .obs] [Can W .evr] : Kept q τ W r₀ (acceptHello m s) := by
  unfold acceptHello
  with_reducible repeat' first
    | assumption
    | (extract_lets +onlyGivenNames x; refine (?_ : Kept q τ W r₀ x → _) (?_ : Kept q τ W r₀ x); intro hx; clear_value x; revert x; intro _ _;
        rotate_left; dsimp -zeta only [x]; clear x)
    | (extract_lets +onlyGivenNames x; clear_value x; revert x; intro _) | apply kept_startSession | apply kept_settleRoles
    | simp -zeta only [kept_mk, can, true_or, or_true] | split

theorem kept_greet (s : State) (h0 : Kept q τ W r₀ s) [Can W .freeCount] [Can W .sent] [Can W .regs] [Can W .cmd] [Can W .boot]
    [Can W .lane] [Can W .port] [Can W .cls] [Can W .sas] [Can W .brk] [Can W .trk] [Can W .que] [Can W .bnd] [Can W .keys] [Can W .eng]
    [Can W .pwr] [Can W .obs] [Can W .evr] : Kept q τ W r₀ (greet s) := by
  unfold greet
  with_reducible repeat' first
    | assumption
    | (extract_lets +onlyGivenNames x; refine (?_ : Kept q τ W r₀ x → _) (?_ : Kept q τ W r₀ x); intro hx; clear_value x; revert x; intro _ _;
        rotate_left; dsimp -zeta only [x]; clear x)
    | (extract_lets +onlyGivenNames x; clear_value x; revert x; intro _) | apply kept_startSession | apply kept_acceptHello
    | simp -zeta only [kept_mk, can, true_or, or_true] | split

theorem kept_leaseTx (s : State) (h0 : Kept q τ W r₀ s) [Can W .sent] [Can W .regs] [Can W .lane] [Can W .bnd] : Kept q τ W r₀
    (leaseTx s) := by
  unfold leaseTx
  with_reducible repeat' first
    | assumption
    | (extract_lets +onlyGivenNames x; refine (?_ : Kept q τ W r₀ x → _) (?_ : Kept q τ W r₀ x); intro hx; clear_value x; revert x; intro _ _;
        rotate_left; dsimp -zeta only [x]; clear x)
    | (extract_lets +onlyGivenNames x; clear_value x; revert x; intro _) | apply kept_bump | apply kept_sendBond
    | simp -zeta only [kept_mk, can, true_or, or_true] | split

theorem kept_execLeaseTx (x1 : ℕ) (s : State) (h0 : Kept q τ W r₀ s) [Can W .sent] [Can W .regs] [Can W .lane] [Can W .bnd]
    : KeptOut q τ W r₀ (execLeaseTx x1 s) := by
  unfold execLeaseTx
  with_reducible repeat' first | assumption | apply kept_ev | apply kept_leaseTx | intro s₁ h₁

theorem kept_snapSa (e : ℕ × Sa) (s : State) (h0 : Kept q τ W r₀ s) [Can W .sent] [Can W .regs] [Can W .cmd] [Can W .lane] [Can W .sas]
    [Can W .trk] [Can W .bnd] [Can W .keys] [Can W .obs] : Kept q τ W r₀ (snapSa e s) := by
  unfold snapSa
  with_reducible repeat' first
    | assumption
    | (extract_lets +onlyGivenNames x; refine (?_ : Kept q τ W r₀ x → _) (?_ : Kept q τ W r₀ x); intro hx; clear_value x; revert x; intro _ _;
        rotate_left; dsimp -zeta only [x]; clear x)
    | (extract_lets +onlyGivenNames x; clear_value x; revert x; intro _) | apply kept_mirror | apply kept_askRx | split

theorem kept_snapTrunk (p : ℕ) (s : State) (h0 : Kept q τ W r₀ s) [Can W .sent] [Can W .lane] [Can W .bnd] : Kept q τ W r₀
    (snapTrunk p s) := by
  unfold snapTrunk
  with_reducible repeat' first
    | assumption
    | (extract_lets +onlyGivenNames x; refine (?_ : Kept q τ W r₀ x → _) (?_ : Kept q τ W r₀ x); intro hx; clear_value x; revert x; intro _ _;
        rotate_left; dsimp -zeta only [x]; clear x)
    | (extract_lets +onlyGivenNames x; clear_value x; revert x; intro _) | apply kept_mirror
    | refine kept_foldl _ _ ?_ (fun s₁ x₁ h₁ => ?_)

theorem kept_syncReqRx (s : State) (h0 : Kept q τ W r₀ s) [Can W .sent] [Can W .regs] [Can W .cmd] [Can W .lane] [Can W .sas]
    [Can W .trk] [Can W .bnd] [Can W .keys] [Can W .obs] : Kept q τ W r₀ (syncReqRx s) := by
  unfold syncReqRx
  with_reducible repeat' first
    | assumption
    | (extract_lets +onlyGivenNames x; refine (?_ : Kept q τ W r₀ x → _) (?_ : Kept q τ W r₀ x); intro hx; clear_value x; revert x; intro _ _;
        rotate_left; dsimp -zeta only [x]; clear x)
    | (extract_lets +onlyGivenNames x; clear_value x; revert x; intro _) | apply kept_dropSync | apply kept_mirrorSc | apply kept_snapSa
    | apply kept_snapTrunk | apply kept_setCa | apply kept_mirror | apply kept_sendBond | simp -zeta only [kept_mk, can, true_or, or_true]
    | refine kept_foldl _ _ ?_ (fun s₁ x₁ h₁ => ?_) | split

theorem kept_fenceOff (cause : ℕ) (note : ℕ) (s : State) (h0 : Kept q τ W r₀ s) [Can W .sent] [Can W .regs] [Can W .cmd] [Can W .port]
    [Can W .sas] [Can W .brk] [Can W .trk] [Can W .que] [Can W .bnd] [Can W .keys] [Can W .obs] [Can W .evr] : Kept q τ W r₀
    (fenceOff cause note s) := by
  unfold fenceOff
  with_reducible repeat' first
    | assumption
    | (extract_lets +onlyGivenNames x; refine (?_ : Kept q τ W r₀ x → _) (?_ : Kept q τ W r₀ x); intro hx; clear_value x; revert x; intro _ _;
        rotate_left; dsimp -zeta only [x]; clear x)
    | apply kept_dropSync | apply kept_flushDatapath | apply kept_record | apply kept_setRole | split

theorem kept_syncAckRx (s : State) (h0 : Kept q τ W r₀ s) [Can W .sent] [Can W .regs] [Can W .cmd] [Can W .bnd] [Can W .obs]
    [Can W .evr] : Kept q τ W r₀ (syncAckRx s) := by
  unfold syncAckRx
  with_reducible repeat' first
    | assumption
    | (extract_lets +onlyGivenNames x; refine (?_ : Kept q τ W r₀ x → _) (?_ : Kept q τ W r₀ x); intro hx; clear_value x; revert x; intro _ _;
        rotate_left; dsimp -zeta only [x]; clear x)
    | apply kept_setRole | apply kept_record | split

theorem kept_execSyncAckRx (x1 : ℕ) (m : BondRx) (s : State) (h0 : Kept q τ W r₀ s) [Can W .sent] [Can W .regs] [Can W .cmd]
    [Can W .lane] [Can W .bnd] [Can W .obs] [Can W .evr] : KeptOut q τ W r₀ (execSyncAckRx x1 m s) := by
  unfold execSyncAckRx
  with_reducible repeat' first | assumption | apply kept_ev | apply kept_underMac | apply kept_syncAckRx | intro s₁ h₁

theorem kept_gapTimeout (s : State) (h0 : Kept q τ W r₀ s) [Can W .sent] [Can W .regs] [Can W .cmd] [Can W .lane] [Can W .bnd]
    [Can W .obs] [Can W .evr] : Kept q τ W r₀ (gapTimeout s) := by
  unfold gapTimeout
  with_reducible repeat' first | assumption | apply kept_loseSync | split

theorem kept_resignRx (typ : ℕ) (cause : ℕ) (m : BondRx) (s : State) (h0 : Kept q τ W r₀ s) [Can W .freeCount] [Can W .sent]
    [Can W .regs] [Can W .cmd] [Can W .boot] [Can W .lane] [Can W .port] [Can W .cls] [Can W .sas] [Can W .brk] [Can W .trk]
    [Can W .bnd] [Can W .keys] [Can W .pwr] [Can W .obs] [Can W .evr] : Kept q τ W r₀ (resignRx typ cause m s) := by
  unfold resignRx
  with_reducible repeat' first
    | assumption
    | (extract_lets +onlyGivenNames x; refine (?_ : Kept q τ W r₀ x → _) (?_ : Kept q τ W r₀ x); intro hx; clear_value x; revert x; intro _ _;
        rotate_left; dsimp -zeta only [x]; clear x)
    | (extract_lets +onlyGivenNames x; clear_value x; revert x; intro _) | apply kept_takeover | apply kept_record
    | simp -zeta only [kept_mk, can, true_or, or_true] | split

theorem kept_resign (cause : ℕ) (forced : Bool) (s : State) (h0 : Kept q τ W r₀ s) [Can W .sent] [Can W .regs] [Can W .cmd]
    [Can W .lane] [Can W .port] [Can W .sas] [Can W .brk] [Can W .trk] [Can W .que] [Can W .bnd] [Can W .keys] [Can W .obs] [Can W .evr]
    : Kept q τ W r₀ (resign cause forced s) := by
  unfold resign
  with_reducible repeat' first
    | assumption
    | (extract_lets +onlyGivenNames x; refine (?_ : Kept q τ W r₀ x → _) (?_ : Kept q τ W r₀ x); intro hx; clear_value x; revert x; intro _ _;
        rotate_left; dsimp -zeta only [x]; clear x)
    | apply kept_loseSync | apply kept_fenceOff | apply kept_sendBond | apply kept_record | split

theorem kept_execResignCondition (x1 : ℕ) (cause : ℕ) (s : State) (h0 : Kept q τ W r₀ s) [Can W .sent] [Can W .regs] [Can W .cmd]
    [Can W .lane] [Can W .port] [Can W .sas] [Can W .brk] [Can W .trk] [Can W .que] [Can W .bnd] [Can W .keys] [Can W .obs] [Can W .evr]
    : KeptOut q τ W r₀ (execResignCondition x1 cause s) := by
  unfold execResignCondition
  with_reducible repeat' first | assumption | apply kept_ev | apply kept_resign | intro s₁ h₁ | split

theorem kept_dropBond (s : State) (h0 : Kept q τ W r₀ s) [Can W .sent] [Can W .regs] [Can W .cmd] [Can W .sas] [Can W .trk] [Can W .bnd]
    [Can W .keys] [Can W .obs] : Kept q τ W r₀ (dropBond s) := by
  unfold dropBond
  with_reducible repeat' first
    | assumption
    | (extract_lets +onlyGivenNames x; refine (?_ : Kept q τ W r₀ x → _) (?_ : Kept q τ W r₀ x); intro hx; clear_value x; revert x; intro _ _;
        rotate_left; dsimp -zeta only [x]; clear x)
    | (extract_lets +onlyGivenNames x; clear_value x; revert x; intro _) | apply kept_dropSync
    | simp -zeta only [kept_mk, can, true_or, or_true]

theorem kept_joinBond (world : ℕ) (ws : List Word) (s : State) (h0 : Kept q τ W r₀ s) [Can W .freeCount] [Can W .sent] [Can W .regs]
    [Can W .cmd] [Can W .boot] [Can W .lane] [Can W .port] [Can W .cls] [Can W .sas] [Can W .brk] [Can W .trk] [Can W .que] [Can W .bnd]
    [Can W .keys] [Can W .eng] [Can W .pwr] [Can W .obs] [Can W .evr] : KeptAns q τ W r₀ (joinBond world ws s) := by
  unfold joinBond
  with_reducible repeat' first
    | assumption
    | (extract_lets +onlyGivenNames x; refine (?_ : Kept q τ W r₀ x → _) (?_ : Kept q τ W r₀ x); intro hx; clear_value x; revert x; intro _ _;
        rotate_left; dsimp -zeta only [x]; clear x)
    | (extract_lets +onlyGivenNames x; clear_value x; revert x; intro _) | apply kept_record | apply kept_dropBond
    | apply kept_flushDatapath | apply kept_touchKey | apply kept_greet | apply kept_setRole
    | simp -zeta only [kept_mk, can, true_or, or_true] | exact KeptAns.fail | exact KeptAns.defer | exact KeptAns.hold
    | apply KeptAns.done | split

theorem kept_ansBondConfig (x1 : Hdr) (b : Body) (s : State) (h0 : Kept q τ W r₀ s) [Can W .freeCount] [Can W .sent] [Can W .regs]
    [Can W .cmd] [Can W .boot] [Can W .lane] [Can W .port] [Can W .cls] [Can W .sas] [Can W .brk] [Can W .trk] [Can W .que] [Can W .bnd]
    [Can W .keys] [Can W .eng] [Can W .pwr] [Can W .obs] [Can W .evr] : KeptAns q τ W r₀ (ansBondConfig x1 b s) := by
  unfold ansBondConfig
  with_reducible repeat' first
    | assumption | (extract_lets +onlyGivenNames x; clear_value x; revert x; intro _) | apply kept_setRole | apply kept_dropBond
    | apply kept_joinBond | apply kept_takeover | apply kept_record | exact KeptAns.fail | apply KeptAns.done | split

theorem kept_execBondConfigLeave (x1 : Hdr) (b : Body) (s : State) (h0 : Kept q τ W r₀ s) [Can W .freeCount] [Can W .sent] [Can W .regs]
    [Can W .cmd] [Can W .boot] [Can W .lane] [Can W .port] [Can W .cls] [Can W .sas] [Can W .brk] [Can W .trk] [Can W .que] [Can W .bnd]
    [Can W .keys] [Can W .eng] [Can W .pwr] [Can W .obs] [Can W .evr] : KeptOut q τ W r₀ (execBondConfigLeave x1 b s) := by
  unfold execBondConfigLeave
  with_reducible repeat' first | assumption | apply kept_run | apply kept_ansBondConfig | intro s₁ h₁

theorem kept_leaseExpiry (s : State) (h0 : Kept q τ W r₀ s) [Can W .freeCount] [Can W .sent] [Can W .regs] [Can W .cmd] [Can W .boot]
    [Can W .lane] [Can W .port] [Can W .cls] [Can W .sas] [Can W .brk] [Can W .trk] [Can W .bnd] [Can W .keys] [Can W .pwr] [Can W .obs]
    [Can W .evr] : Kept q τ W r₀ (leaseExpiry s) := by
  unfold leaseExpiry
  with_reducible repeat' first | assumption | apply kept_takeover | split

theorem kept_execLeaseExpiry (x1 : ℕ) (s : State) (h0 : Kept q τ W r₀ s) [Can W .freeCount] [Can W .sent] [Can W .regs] [Can W .cmd]
    [Can W .boot] [Can W .lane] [Can W .port] [Can W .cls] [Can W .sas] [Can W .brk] [Can W .trk] [Can W .bnd] [Can W .keys]
    [Can W .pwr] [Can W .obs] [Can W .evr] : KeptOut q τ W r₀ (execLeaseExpiry x1 s) := by
  unfold execLeaseExpiry
  with_reducible repeat' first | assumption | apply kept_ev | apply kept_leaseExpiry | intro s₁ h₁

theorem kept_fence (cause : ℕ) (note : ℕ) (s : State) (h0 : Kept q τ W r₀ s) [Can W .sent] [Can W .regs] [Can W .cmd] [Can W .lane]
    [Can W .port] [Can W .sas] [Can W .brk] [Can W .trk] [Can W .que] [Can W .bnd] [Can W .keys] [Can W .obs] [Can W .evr]
    : Kept q τ W r₀ (fence cause note s) := by
  unfold fence
  with_reducible repeat' first | assumption | apply kept_sendBond | apply kept_fenceOff | split

theorem kept_leaseFence (s : State) (h0 : Kept q τ W r₀ s) [Can W .sent] [Can W .regs] [Can W .cmd] [Can W .lane] [Can W .port]
    [Can W .sas] [Can W .brk] [Can W .trk] [Can W .que] [Can W .bnd] [Can W .keys] [Can W .obs] [Can W .evr] : Kept q τ W r₀
    (leaseFence s) := by
  unfold leaseFence
  with_reducible repeat' first | assumption | apply kept_fence | split

theorem kept_execLeaseFence (x1 : ℕ) (s : State) (h0 : Kept q τ W r₀ s) [Can W .sent] [Can W .regs] [Can W .cmd] [Can W .lane]
    [Can W .port] [Can W .sas] [Can W .brk] [Can W .trk] [Can W .que] [Can W .bnd] [Can W .keys] [Can W .obs] [Can W .evr]
    : KeptOut q τ W r₀ (execLeaseFence x1 s) := by
  unfold execLeaseFence
  with_reducible repeat' first | assumption | apply kept_ev | apply kept_leaseFence | intro s₁ h₁

theorem kept_execRefLoss (x1 : ℕ) (quad : ℕ) (s : State) (h0 : Kept q τ W r₀ s) [Can W .sent] [Can W .regs] [Can W .cmd] [Can W .lane]
    [Can W .port] [Can W .sas] [Can W .brk] [Can W .trk] [Can W .que] [Can W .bnd] [Can W .keys] [Can W .obs] [Can W .evr]
    : KeptOut q τ W r₀ (execRefLoss x1 quad s) := by
  unfold execRefLoss
  with_reducible repeat' first
    | assumption
    | (extract_lets +onlyGivenNames x; refine (?_ : Kept q τ W r₀ x → _) (?_ : Kept q τ W r₀ x); intro hx; clear_value x; revert x; intro _ _;
        rotate_left; dsimp -zeta only [x]; clear x)
    | apply kept_ev | apply kept_refLoss | apply kept_fence | apply kept_loseSync | intro s₁ h₁ | split

theorem kept_syncDoneRx (s : State) (h0 : Kept q τ W r₀ s) [Can W .sent] [Can W .lane] [Can W .bnd] : Kept q τ W r₀ (syncDoneRx s) := by
  unfold syncDoneRx
  with_reducible repeat' first
    | assumption
    | (extract_lets +onlyGivenNames x; refine (?_ : Kept q τ W r₀ x → _) (?_ : Kept q τ W r₀ x); intro hx; clear_value x; revert x; intro _ _;
        rotate_left; dsimp -zeta only [x]; clear x)
    | (extract_lets +onlyGivenNames x; clear_value x; revert x; intro _) | apply kept_sendBond
    | simp -zeta only [kept_mk, can, true_or, or_true] | split

theorem kept_execSyncDoneRx (x1 : ℕ) (m : BondRx) (s : State) (h0 : Kept q τ W r₀ s) [Can W .sent] [Can W .regs] [Can W .cmd]
    [Can W .lane] [Can W .bnd] [Can W .obs] [Can W .evr] : KeptOut q τ W r₀ (execSyncDoneRx x1 m s) := by
  unfold execSyncDoneRx
  with_reducible repeat' first | assumption | apply kept_ev | apply kept_underMac | apply kept_syncDoneRx | intro s₁ h₁

theorem kept_leaseAckRx (m : BondRx) (s : State) (h0 : Kept q τ W r₀ s) [Can W .sent] [Can W .regs] [Can W .cmd] [Can W .sas]
    [Can W .trk] [Can W .bnd] [Can W .keys] [Can W .obs] : Kept q τ W r₀ (leaseAckRx m s) := by
  unfold leaseAckRx
  with_reducible repeat' first
    | assumption
    | (extract_lets +onlyGivenNames x; refine (?_ : Kept q τ W r₀ x → _) (?_ : Kept q τ W r₀ x); intro hx; clear_value x; revert x; intro _ _;
        rotate_left; dsimp -zeta only [x]; clear x)
    | (extract_lets +onlyGivenNames x; clear_value x; revert x; intro _) | apply kept_dropSync
    | simp -zeta only [kept_mk, can, true_or, or_true] | split

theorem kept_ansBondStatus (s : State) (h0 : Kept q τ W r₀ s) : KeptAns q τ W r₀ (ansBondStatus s) := by
  unfold ansBondStatus
  with_reducible repeat' first | assumption | (extract_lets +onlyGivenNames x; clear_value x; revert x; intro _) | apply KeptAns.done

theorem kept_execBondStatus (x1 : Hdr) (b : Body) (s : State) (h0 : Kept q τ W r₀ s) [Can W .sent] [Can W .regs] [Can W .cmd]
    [Can W .obs] [Can W .evr] : KeptOut q τ W r₀ (execBondStatus x1 b s) := by
  unfold execBondStatus
  with_reducible repeat' first | assumption | apply kept_run | apply kept_ansBondStatus

theorem kept_snapshotEndRx (m : BondRx) (s : State) (h0 : Kept q τ W r₀ s) [Can W .sent] [Can W .regs] [Can W .cmd] [Can W .lane]
    [Can W .port] [Can W .cls] [Can W .sas] [Can W .brk] [Can W .trk] [Can W .que] [Can W .bnd] [Can W .keys] [Can W .obs] [Can W .evr]
    : Kept q τ W r₀ (snapshotEndRx m s) := by
  unfold snapshotEndRx
  with_reducible repeat' first
    | assumption | (extract_lets +onlyGivenNames x; clear_value x; revert x; intro _) | apply kept_absorb
    | simp -zeta only [kept_mk, can, true_or, or_true] | split

theorem kept_execBondForce (x1 : Hdr) (b : Body) (s : State) (h0 : Kept q τ W r₀ s) [Can W .freeCount] [Can W .sent] [Can W .regs]
    [Can W .cmd] [Can W .boot] [Can W .lane] [Can W .port] [Can W .cls] [Can W .sas] [Can W .brk] [Can W .trk] [Can W .que] [Can W .bnd]
    [Can W .keys] [Can W .eng] [Can W .pwr] [Can W .obs] [Can W .evr] : KeptOut q τ W r₀ (execBondForce x1 b s) := by
  unfold execBondForce
  with_reducible repeat' first | assumption | apply kept_run | apply kept_ansBondConfig | intro s₁ h₁

theorem kept_execSyncReqRx (x1 : ℕ) (m : BondRx) (s : State) (h0 : Kept q τ W r₀ s) [Can W .sent] [Can W .regs] [Can W .cmd]
    [Can W .lane] [Can W .sas] [Can W .trk] [Can W .bnd] [Can W .keys] [Can W .obs] [Can W .evr] : KeptOut q τ W r₀
    (execSyncReqRx x1 m s) := by
  unfold execSyncReqRx
  with_reducible repeat' first | assumption | apply kept_ev | apply kept_underMac | apply kept_syncReqRx | intro s₁ h₁

theorem kept_mirrorAckRx (m : BondRx) (s : State) (h0 : Kept q τ W r₀ s) [Can W .sent] [Can W .regs] [Can W .cmd] [Can W .sas]
    [Can W .trk] [Can W .bnd] [Can W .keys] [Can W .obs] : Kept q τ W r₀ (mirrorAckRx m s) := by
  unfold mirrorAckRx
  with_reducible repeat' first
    | assumption | (extract_lets +onlyGivenNames x; clear_value x; revert x; intro _) | apply kept_releaseCeils
    | simp -zeta only [kept_mk, can, true_or, or_true] | split

theorem kept_execLeaseAckRx (x1 : ℕ) (m : BondRx) (s : State) (h0 : Kept q τ W r₀ s) [Can W .sent] [Can W .regs] [Can W .cmd]
    [Can W .lane] [Can W .sas] [Can W .trk] [Can W .bnd] [Can W .keys] [Can W .obs] [Can W .evr] : KeptOut q τ W r₀
    (execLeaseAckRx x1 m s) := by
  unfold execLeaseAckRx
  with_reducible repeat' first | assumption | apply kept_ev | apply kept_underMac | apply kept_leaseAckRx | intro s₁ h₁

theorem kept_execMirrorAckRx (x1 : ℕ) (m : BondRx) (s : State) (h0 : Kept q τ W r₀ s) [Can W .sent] [Can W .regs] [Can W .cmd]
    [Can W .lane] [Can W .sas] [Can W .trk] [Can W .bnd] [Can W .keys] [Can W .obs] [Can W .evr] : KeptOut q τ W r₀
    (execMirrorAckRx x1 m s) := by
  unfold execMirrorAckRx
  with_reducible repeat' first | assumption | apply kept_ev | apply kept_underMac | apply kept_mirrorAckRx | intro s₁ h₁

theorem kept_execBondConfigJoin (x1 : Hdr) (b : Body) (s : State) (h0 : Kept q τ W r₀ s) [Can W .freeCount] [Can W .sent] [Can W .regs]
    [Can W .cmd] [Can W .boot] [Can W .lane] [Can W .port] [Can W .cls] [Can W .sas] [Can W .brk] [Can W .trk] [Can W .que] [Can W .bnd]
    [Can W .keys] [Can W .eng] [Can W .pwr] [Can W .obs] [Can W .evr] : KeptOut q τ W r₀ (execBondConfigJoin x1 b s) := by
  unfold execBondConfigJoin
  with_reducible repeat' first | assumption | apply kept_run | apply kept_ansBondConfig | intro s₁ h₁

theorem kept_leaseRx (m : BondRx) (s : State) (h0 : Kept q τ W r₀ s) [Can W .sent] [Can W .regs] [Can W .cmd] [Can W .lane] [Can W .bnd]
    [Can W .obs] : Kept q τ W r₀ (leaseRx m s) := by
  unfold leaseRx
  with_reducible repeat' first
    | assumption
    | (extract_lets +onlyGivenNames x; refine (?_ : Kept q τ W r₀ x → _) (?_ : Kept q τ W r₀ x); intro hx; clear_value x; revert x; intro _ _;
        rotate_left; dsimp -zeta only [x]; clear x)
    | (extract_lets +onlyGivenNames x; clear_value x; revert x; intro _) | apply kept_syncReq | apply kept_setRole | apply kept_sendBond
    | simp -zeta only [kept_mk, can, true_or, or_true] | split

theorem kept_bondResume (s : State) (h0 : Kept q τ W r₀ s) [Can W .freeCount] [Can W .sent] [Can W .regs] [Can W .cmd] [Can W .boot]
    [Can W .lane] [Can W .port] [Can W .cls] [Can W .sas] [Can W .brk] [Can W .trk] [Can W .que] [Can W .bnd] [Can W .keys] [Can W .eng]
    [Can W .pwr] [Can W .obs] [Can W .evr] : Kept q τ W r₀ (bondResume s) := by
  unfold bondResume
  with_reducible repeat' first | assumption | apply kept_greet | apply kept_setRole | split

theorem kept_retransmit (s : State) (h0 : Kept q τ W r₀ s) [Can W .sent] [Can W .regs] [Can W .lane] [Can W .bnd] : Kept q τ W r₀
    (retransmit s) := by
  unfold retransmit
  with_reducible repeat' first
    | assumption
    | (extract_lets +onlyGivenNames x; refine (?_ : Kept q τ W r₀ x → _) (?_ : Kept q τ W r₀ x); intro hx; clear_value x; revert x; intro _ _;
        rotate_left; dsimp -zeta only [x]; clear x)
    | (extract_lets +onlyGivenNames x; clear_value x; revert x; intro _) | apply kept_bump | apply kept_sendBond
    | simp -zeta only [kept_mk, can, true_or, or_true] | refine kept_foldl _ _ ?_ (fun s₁ x₁ h₁ => ?_) | split

theorem kept_execMirrorRetransmit (x1 : ℕ) (s : State) (h0 : Kept q τ W r₀ s) [Can W .sent] [Can W .regs] [Can W .lane] [Can W .bnd]
    : KeptOut q τ W r₀ (execMirrorRetransmit x1 s) := by
  unfold execMirrorRetransmit
  with_reducible repeat' first | assumption | apply kept_ev | apply kept_retransmit | intro s₁ h₁

theorem kept_execResignRx (x1 : ℕ) (m : BondRx) (s : State) (h0 : Kept q τ W r₀ s) [Can W .freeCount] [Can W .sent] [Can W .regs]
    [Can W .cmd] [Can W .boot] [Can W .lane] [Can W .port] [Can W .cls] [Can W .sas] [Can W .brk] [Can W .trk] [Can W .bnd]
    [Can W .keys] [Can W .pwr] [Can W .obs] [Can W .evr] : KeptOut q τ W r₀ (execResignRx x1 m s) := by
  unfold execResignRx
  with_reducible repeat' first | assumption | apply kept_ev | apply kept_underMac | apply kept_resignRx | intro s₁ h₁

theorem kept_execMirrorGapTimeout (x1 : ℕ) (s : State) (h0 : Kept q τ W r₀ s) [Can W .sent] [Can W .regs] [Can W .cmd] [Can W .lane]
    [Can W .bnd] [Can W .obs] [Can W .evr] : KeptOut q τ W r₀ (execMirrorGapTimeout x1 s) := by
  unfold execMirrorGapTimeout
  with_reducible repeat' first | assumption | apply kept_ev | apply kept_gapTimeout | intro s₁ h₁

theorem kept_execLeaseRx (x1 : ℕ) (m : BondRx) (s : State) (h0 : Kept q τ W r₀ s) [Can W .sent] [Can W .regs] [Can W .cmd] [Can W .lane]
    [Can W .bnd] [Can W .obs] [Can W .evr] : KeptOut q τ W r₀ (execLeaseRx x1 m s) := by
  unfold execLeaseRx
  with_reducible repeat' first | assumption | apply kept_ev | apply kept_underMac | apply kept_leaseRx | intro s₁ h₁

theorem kept_execSnapshotEndRx (x1 : ℕ) (m : BondRx) (s : State) (h0 : Kept q τ W r₀ s) [Can W .sent] [Can W .regs] [Can W .cmd]
    [Can W .lane] [Can W .port] [Can W .cls] [Can W .sas] [Can W .brk] [Can W .trk] [Can W .que] [Can W .bnd] [Can W .keys] [Can W .obs]
    [Can W .evr] : KeptOut q τ W r₀ (execSnapshotEndRx x1 m s) := by
  unfold execSnapshotEndRx
  with_reducible repeat' first | assumption | apply kept_ev | apply kept_underMac | apply kept_snapshotEndRx | intro s₁ h₁

theorem kept_helloRx (m : BondRx) (s : State) (h0 : Kept q τ W r₀ s) [Can W .freeCount] [Can W .sent] [Can W .regs] [Can W .cmd]
    [Can W .boot] [Can W .lane] [Can W .port] [Can W .cls] [Can W .sas] [Can W .brk] [Can W .trk] [Can W .que] [Can W .bnd]
    [Can W .keys] [Can W .eng] [Can W .pwr] [Can W .obs] [Can W .evr] : Kept q τ W r₀ (helloRx m s) := by
  unfold helloRx
  with_reducible repeat' first
    | assumption | (extract_lets +onlyGivenNames x; clear_value x; revert x; intro _) | apply kept_authFail | apply kept_loseSync
    | apply kept_acceptHello | simp -zeta only [kept_mk, can, true_or, or_true] | split

theorem kept_execHelloRx (x1 : ℕ) (m : BondRx) (s : State) (h0 : Kept q τ W r₀ s) [Can W .freeCount] [Can W .sent] [Can W .regs]
    [Can W .cmd] [Can W .boot] [Can W .lane] [Can W .port] [Can W .cls] [Can W .sas] [Can W .brk] [Can W .trk] [Can W .que] [Can W .bnd]
    [Can W .keys] [Can W .eng] [Can W .pwr] [Can W .obs] [Can W .evr] : KeptOut q τ W r₀ (execHelloRx x1 m s) := by
  unfold execHelloRx
  with_reducible repeat' first | assumption | apply kept_ev | apply kept_helloRx | intro s₁ h₁

theorem kept_ansBondResign (s : State) (h0 : Kept q τ W r₀ s) [Can W .sent] [Can W .regs] [Can W .cmd] [Can W .lane] [Can W .port]
    [Can W .sas] [Can W .brk] [Can W .trk] [Can W .que] [Can W .bnd] [Can W .keys] [Can W .obs] [Can W .evr] : KeptAns q τ W r₀
    (ansBondResign s) := by
  unfold ansBondResign
  with_reducible repeat' first | assumption | apply kept_resign | exact KeptAns.fail | apply KeptAns.done | split

theorem kept_linkChange (s : State) (h0 : Kept q τ W r₀ s) [Can W .freeCount] [Can W .sent] [Can W .lane] [Can W .bnd] [Can W .eng]
    [Can W .obs] : Kept q τ W r₀ (linkChange s) := by
  unfold linkChange
  with_reducible repeat' first
    | assumption
    | (extract_lets +onlyGivenNames x; refine (?_ : Kept q τ W r₀ x → _) (?_ : Kept q τ W r₀ x); intro hx; clear_value x; revert x; intro _ _;
        rotate_left; dsimp -zeta only [x]; clear x)
    | (extract_lets +onlyGivenNames x; clear_value x; revert x; intro _) | apply kept_startSession
    | simp -zeta only [kept_mk, can, true_or, or_true] | split

theorem kept_execBondLinkStateChange (x1 : ℕ) (s : State) (h0 : Kept q τ W r₀ s) [Can W .freeCount] [Can W .sent] [Can W .lane]
    [Can W .bnd] [Can W .eng] [Can W .obs] : KeptOut q τ W r₀ (execBondLinkStateChange x1 s) := by
  unfold execBondLinkStateChange
  with_reducible repeat' first | assumption | apply kept_ev | apply kept_linkChange | intro s₁ h₁

theorem kept_execBondResign (x1 : Hdr) (b : Body) (s : State) (h0 : Kept q τ W r₀ s) [Can W .sent] [Can W .regs] [Can W .cmd]
    [Can W .lane] [Can W .port] [Can W .sas] [Can W .brk] [Can W .trk] [Can W .que] [Can W .bnd] [Can W .keys] [Can W .obs] [Can W .evr]
    : KeptOut q τ W r₀ (execBondResign x1 b s) := by
  unfold execBondResign
  with_reducible repeat' first | assumption | apply kept_run | apply kept_ansBondResign | intro s₁ h₁

theorem kept_execFencedRx (x1 : ℕ) (m : BondRx) (s : State) (h0 : Kept q τ W r₀ s) [Can W .freeCount] [Can W .sent] [Can W .regs]
    [Can W .cmd] [Can W .boot] [Can W .lane] [Can W .port] [Can W .cls] [Can W .sas] [Can W .brk] [Can W .trk] [Can W .bnd]
    [Can W .keys] [Can W .pwr] [Can W .obs] [Can W .evr] : KeptOut q τ W r₀ (execFencedRx x1 m s) := by
  unfold execFencedRx
  with_reducible repeat' first | assumption | apply kept_ev | apply kept_underMac | apply kept_resignRx | intro s₁ h₁

end Sys2Proof.Machine
end

