-- ==== Sys2Proof/Laws/KeptVault.lean ====
section
/-! SUPPORT. What every operation keeps: jobs, keys and engines. One lemma for each function; `Kept` is defined in Laws/Kept.lean. -/
namespace Sys2Proof.Machine
open Sys2Proof
set_option linter.unusedSimpArgs false
set_option linter.unusedTactic false
set_option linter.unreachableTactic false
variable {q : List Instr} {τ : Nat} {W : Part → Bool} {r₀ : State}

/-! ## Jobs -/

theorem kept_putJob (id : ℕ) (j : Job) (s : State) (h0 : Kept q τ W r₀ s) [Can W .eng] : Kept q τ W r₀ (putJob id j s) := by
  unfold putJob
  with_reducible repeat' first
    | assumption | (extract_lets +onlyGivenNames x; clear_value x; revert x; intro _) | simp -zeta only [kept_mk, can, true_or, or_true]

theorem kept_yieldPoint (k : ℕ) (s : State) (h0 : Kept q τ W r₀ s) [Can W .regs] [Can W .lane] [Can W .eng] [Can W .obs] : Kept q τ W r₀
    (yieldPoint k s) := by
  unfold yieldPoint
  with_reducible repeat' first
    | assumption
    | (extract_lets +onlyGivenNames x; refine (?_ : Kept q τ W r₀ x → _) (?_ : Kept q τ W r₀ x); intro hx; clear_value x; revert x; intro _ _;
        rotate_left; dsimp -zeta only [x]; clear x)
    | (extract_lets +onlyGivenNames x; clear_value x; revert x; intro _) | apply kept_putJob | apply kept_perf | apply kept_bump | split

theorem kept_resumeJob (k : ℕ) (s : State) (h0 : Kept q τ W r₀ s) [Can W .eng] : Kept q τ W r₀ (resumeJob k s) := by
  unfold resumeJob
  with_reducible repeat' first | assumption | apply kept_putJob | split

theorem kept_fillUnits (engine : ℕ) (s : State) (h0 : Kept q τ W r₀ s) [Can W .lane] [Can W .eng] [Can W .obs] : Kept q τ W r₀
    (fillUnits engine s) := by
  unfold fillUnits
  with_reducible repeat' first | assumption | apply kept_perf | apply kept_putJob | refine kept_foldl _ _ ?_ (fun s₁ x₁ h₁ => ?_) | split

theorem kept_tidyUnits (s : State) (h0 : Kept q τ W r₀ s) [Can W .lane] [Can W .eng] [Can W .obs] : Kept q τ W r₀ (tidyUnits s) := by
  unfold tidyUnits
  with_reducible repeat' first
    | assumption
    | (extract_lets +onlyGivenNames x; refine (?_ : Kept q τ W r₀ x → _) (?_ : Kept q τ W r₀ x); intro hx; clear_value x; revert x; intro _ _;
        rotate_left; dsimp -zeta only [x]; clear x)
    | apply kept_resumeJob | apply kept_fillUnits | refine kept_foldl _ _ ?_ (fun s₁ x₁ h₁ => ?_) | split

theorem kept_dropJob (id : ℕ) (s : State) (h0 : Kept q τ W r₀ s) [Can W .eng] : Kept q τ W r₀ (dropJob id s) := by
  unfold dropJob
  with_reducible repeat' first
    | assumption | (extract_lets +onlyGivenNames x; clear_value x; revert x; intro _) | simp -zeta only [kept_mk, can, true_or, or_true]

theorem kept_endJob (id : ℕ) (status : ℕ) (elems : Body) (s : State) (h0 : Kept q τ W r₀ s) [Can W .sent] [Can W .regs] [Can W .cmd]
    [Can W .keys] [Can W .eng] [Can W .dks] [Can W .obs] [Can W .evr] : Kept q τ W r₀ (endJob id status elems s) := by
  unfold endJob
  with_reducible repeat' first
    | assumption | apply kept_settleTenants | apply kept_settleKeyErase | apply kept_finishWhere | apply kept_dropJob

theorem kept_abortJobs (p : Job → Bool) (status : ℕ) (s : State) (h0 : Kept q τ W r₀ s) [Can W .sent] [Can W .regs] [Can W .cmd]
    [Can W .lane] [Can W .keys] [Can W .eng] [Can W .dks] [Can W .obs] [Can W .evr] : Kept q τ W r₀ (abortJobs p status s) := by
  unfold abortJobs
  with_reducible repeat' first | assumption | apply kept_tidyUnits | apply kept_endJob | refine kept_foldl _ _ ?_ (fun s₁ x₁ h₁ => ?_)

theorem kept_execKilnYieldPoint (x1 : ℕ) (lane : ℕ) (s : State) (h0 : Kept q τ W r₀ s) [Can W .regs] [Can W .lane] [Can W .eng]
    [Can W .obs] : KeptOut q τ W r₀ (execKilnYieldPoint x1 lane s) := by
  unfold execKilnYieldPoint
  with_reducible repeat' first | assumption | apply kept_ev | apply kept_yieldPoint | intro s₁ h₁

theorem kept_setUnit14 (engine : ℕ) (k : ℕ) (x : Lane14) (s : State) (h0 : Kept q τ W r₀ s) [Can W .eng] : Kept q τ W r₀
    (setUnit14 engine k x s) := by
  unfold setUnit14
  with_reducible repeat' first
    | assumption | (extract_lets +onlyGivenNames x; clear_value x; revert x; intro _) | simp -zeta only [kept_mk, can, true_or, or_true]
    | split

theorem kept_drainOut (engine : ℕ) (s : State) (h0 : Kept q τ W r₀ s) [Can W .sent] [Can W .regs] [Can W .cmd] [Can W .keys]
    [Can W .eng] [Can W .dks] [Can W .obs] [Can W .evr] : Kept q τ W r₀ (drainOut engine s) := by
  unfold drainOut
  with_reducible repeat' first | assumption | apply kept_endJob | refine kept_foldl _ _ ?_ (fun s₁ x₁ h₁ => ?_) | split

theorem kept_unitFault (engine : ℕ) (k : ℕ) (check : ℕ) (kat : Bool) (s : State) (h0 : Kept q τ W r₀ s) [Can W .sent] [Can W .regs]
    [Can W .cmd] [Can W .keys] [Can W .eng] [Can W .dks] [Can W .obs] [Can W .evr] : Kept q τ W r₀
    (unitFault engine k check kat s) := by
  unfold unitFault
  with_reducible repeat' first
    | assumption
    | (extract_lets +onlyGivenNames x; refine (?_ : Kept q τ W r₀ x → _) (?_ : Kept q τ W r₀ x); intro hx; clear_value x; revert x; intro _ _;
        rotate_left; dsimp -zeta only [x]; clear x)
    | (extract_lets +onlyGivenNames x; clear_value x; revert x; intro _) | apply kept_record | apply kept_bump | apply kept_setUnit14
    | apply kept_kindFailed | apply kept_drainOut | split

theorem kept_rngStarted (s : State) (h0 : Kept q τ W r₀ s) [Can W .eng] : Kept q τ W r₀ (rngStarted s) := by
  unfold rngStarted
  with_reducible repeat' first
    | assumption | (extract_lets +onlyGivenNames x; clear_value x; revert x; intro _) | simp -zeta only [kept_mk, can, true_or, or_true]
    | split

theorem kept_execRngStartupDone (x1 : ℕ) (s : State) (h0 : Kept q τ W r₀ s) [Can W .eng] : KeptOut q τ W r₀
    (execRngStartupDone x1 s) := by
  unfold execRngStartupDone
  with_reducible repeat' first | assumption | apply kept_ev | apply kept_rngStarted | intro s₁ h₁

theorem kept_withDrbg (f : State → Ans) (s : State) (h0 : Kept q τ W r₀ s)
    (hf : ∀ s, Kept q τ W r₀ s → KeptAns q τ W r₀ (f s)) [Can W .eng] [Can W .obs] : KeptAns q τ W r₀ (withDrbg f s) := by
  unfold withDrbg
  repeat' split
  · exact KeptAns.fail
  · exact KeptAns.hold
  · exact hf _ (kept_drbgUse _ h0)

theorem kept_keyFails (handle : ℕ) (s : State) (h0 : Kept q τ W r₀ s) [Can W .sent] [Can W .regs] [Can W .cmd] [Can W .lane]
    [Can W .keys] [Can W .eng] [Can W .dks] [Can W .obs] [Can W .evr] : Kept q τ W r₀ (keyFails handle s) := by
  unfold keyFails
  with_reducible repeat' first
    | assumption
    | (extract_lets +onlyGivenNames x; refine (?_ : Kept q τ W r₀ x → _) (?_ : Kept q τ W r₀ x); intro hx; clear_value x; revert x; intro _ _;
        rotate_left; dsimp -zeta only [x]; clear x)
    | apply kept_record | apply kept_dropKey | apply kept_abortJobs | split

theorem kept_keyReload (handle : ℕ) (ok : Bool) (s : State) (h0 : Kept q τ W r₀ s) [Can W .sent] [Can W .regs] [Can W .cmd]
    [Can W .lane] [Can W .keys] [Can W .eng] [Can W .dks] [Can W .obs] [Can W .evr] : Kept q τ W r₀ (keyReload handle ok s) := by
  unfold keyReload
  with_reducible repeat' first
    | assumption
    | (extract_lets +onlyGivenNames x; refine (?_ : Kept q τ W r₀ x → _) (?_ : Kept q τ W r₀ x); intro hx; clear_value x; revert x; intro _ _;
        rotate_left; dsimp -zeta only [x]; clear x)
    | apply kept_keyFails | apply kept_perf | apply kept_makeRoom | apply kept_setKey | split

theorem kept_fillPage (p : ℕ) (s : State) (h0 : Kept q τ W r₀ s) [Can W .lane] [Can W .eng] : Kept q τ W r₀ (fillPage p s) := by
  unfold fillPage
  with_reducible repeat' first
    | assumption | (extract_lets +onlyGivenNames x; clear_value x; revert x; intro _) | apply kept_putJob | split

theorem kept_submit (j : Job) (s : State) (h0 : Kept q τ W r₀ s) [Can W .lane] [Can W .keys] [Can W .eng] [Can W .dks] [Can W .obs]
    : KeptAns q τ W r₀ (submit j s) := by
  unfold submit
  with_reducible repeat' first
    | assumption
    | (extract_lets +onlyGivenNames x; refine (?_ : Kept q τ W r₀ x → _) (?_ : Kept q τ W r₀ x); intro hx; clear_value x; revert x; intro _ _;
        rotate_left; dsimp -zeta only [x]; clear x)
    | (extract_lets +onlyGivenNames x; clear_value x; revert x; intro _) | apply kept_takeSlot | apply kept_touchKey | apply kept_putJob
    | apply kept_fillPage | apply kept_fillUnits | simp -zeta only [kept_mk, can, true_or, or_true] | exact KeptAns.fail
    | apply KeptAns.wait | split | refine kept_opt (by assumption) ?_

theorem kept_reseed0 (s : State) (h0 : Kept q τ W r₀ s) [Can W .eng] : Kept q τ W r₀ (reseed0 s) := by
  unfold reseed0
  with_reducible repeat' first
    | assumption | (extract_lets +onlyGivenNames x; clear_value x; revert x; intro _) | simp -zeta only [kept_mk, can, true_or, or_true]

theorem kept_drbgReseed (inst : ℕ) (s : State) (h0 : Kept q τ W r₀ s) [Can W .eng] : Kept q τ W r₀ (drbgReseed inst s) := by
  unfold drbgReseed
  with_reducible repeat' first
    | assumption | (extract_lets +onlyGivenNames x; clear_value x; revert x; intro _) | apply kept_reseed0
    | simp -zeta only [kept_mk, can, true_or, or_true] | split

theorem kept_deliver (id : ℕ) (j : Job) (s : State) (h0 : Kept q τ W r₀ s) [Can W .sent] [Can W .regs] [Can W .cmd] [Can W .keys]
    [Can W .eng] [Can W .dks] [Can W .obs] [Can W .evr] : Kept q τ W r₀ (deliver id j s) := by
  unfold deliver
  with_reducible repeat' first
    | assumption | apply kept_endJob | apply kept_bump | apply kept_storeValue | split | refine kept_optFst (by assumption) ?_

theorem kept_unitJobEnd (engine : ℕ) (k : ℕ) (fault : Option ℕ) (kat : Bool) (s : State) (h0 : Kept q τ W r₀ s) [Can W .freeCount]
    [Can W .sent] [Can W .regs] [Can W .cmd] [Can W .lane] [Can W .keys] [Can W .eng] [Can W .dks] [Can W .obs] [Can W .evr]
    : Kept q τ W r₀ (unitJobEnd engine k fault kat s) := by
  unfold unitJobEnd
  with_reducible repeat' first
    | assumption
    | (extract_lets +onlyGivenNames x; refine (?_ : Kept q τ W r₀ x → _) (?_ : Kept q τ W r₀ x); intro hx; clear_value x; revert x; intro _ _;
        rotate_left; dsimp -zeta only [x]; clear x)
    | (extract_lets +onlyGivenNames x; clear_value x; revert x; intro _) | apply kept_bump | apply kept_drawBits | apply kept_perf
    | apply kept_unitFault | apply kept_endJob | apply kept_deliver | apply kept_fillUnits | apply kept_resumeJob
    | simp -zeta only [kept_mk, can, true_or, or_true] | split

theorem kept_execLatticeJobEnd (x1 : ℕ) (pipe : ℕ) (fault : Option ℕ) (kat : Bool) (s : State) (h0 : Kept q τ W r₀ s) [Can W .freeCount]
    [Can W .sent] [Can W .regs] [Can W .cmd] [Can W .lane] [Can W .keys] [Can W .eng] [Can W .dks] [Can W .obs] [Can W .evr]
    : KeptOut q τ W r₀ (execLatticeJobEnd x1 pipe fault kat s) := by
  unfold execLatticeJobEnd
  with_reducible repeat' first | assumption | apply kept_ev | apply kept_unitJobEnd | intro s₁ h₁ | split

theorem kept_rngFail (test : ℕ) (s : State) (h0 : Kept q τ W r₀ s) [Can W .sent] [Can W .regs] [Can W .cmd] [Can W .keys] [Can W .eng]
    [Can W .obs] [Can W .evr] : Kept q τ W r₀ (rngFail test s) := by
  unfold rngFail
  with_reducible repeat' first
    | assumption
    | (extract_lets +onlyGivenNames x; refine (?_ : Kept q τ W r₀ x → _) (?_ : Kept q τ W r₀ x); intro hx; clear_value x; revert x; intro _ _;
        rotate_left; dsimp -zeta only [x]; clear x)
    | (extract_lets +onlyGivenNames x; clear_value x; revert x; intro _) | apply kept_record | apply kept_kindFailed
    | simp -zeta only [kept_mk, can, true_or, or_true] | split

theorem kept_execRngHealthFail (x1 : ℕ) (test : ℕ) (s : State) (h0 : Kept q τ W r₀ s) [Can W .sent] [Can W .regs] [Can W .cmd]
    [Can W .keys] [Can W .eng] [Can W .obs] [Can W .evr] : KeptOut q τ W r₀ (execRngHealthFail x1 test s) := by
  unfold execRngHealthFail
  with_reducible repeat' first | assumption | apply kept_ev | apply kept_rngFail | intro s₁ h₁

theorem kept_brief (engine world : Nat) (f : State → Ans) (s : State) (h0 : Kept q τ W r₀ s)
    (hf : ∀ s, Kept q τ W r₀ s → KeptAns q τ W r₀ (f s)) [Can W .dks] : KeptAns q τ W r₀ (brief engine world f s) := by
  unfold brief
  split
  · exact KeptAns.fail
  · split
    · exact KeptAns.fail
    · rename_i e
      exact hf _ (kept_opt e (kept_takeSlot _ _ h0))

theorem kept_drawElem (typ : ℕ) (n : ℕ) (s : State) (h0 : Kept q τ W r₀ s) [Can W .freeCount] : Kept q τ W r₀ (drawElem typ n s).2 := by
  unfold drawElem
  with_reducible repeat' first | assumption | apply kept_drawWords

theorem kept_execDrbgReseed (x1 : ℕ) (inst : ℕ) (s : State) (h0 : Kept q τ W r₀ s) [Can W .eng] : KeptOut q τ W r₀
    (execDrbgReseed x1 inst s) := by
  unfold execDrbgReseed
  with_reducible repeat' first | assumption | apply kept_ev | apply kept_drbgReseed | intro s₁ h₁

theorem kept_execKeyReload (x1 : ℕ) (handle : ℕ) (ok : Bool) (s : State) (h0 : Kept q τ W r₀ s) [Can W .sent] [Can W .regs] [Can W .cmd]
    [Can W .lane] [Can W .keys] [Can W .eng] [Can W .dks] [Can W .obs] [Can W .evr] : KeptOut q τ W r₀
    (execKeyReload x1 handle ok s) := by
  unfold execKeyReload
  with_reducible repeat' first | assumption | apply kept_ev | apply kept_keyReload | intro s₁ h₁

theorem kept_zeroiseSas (s : State) (h0 : Kept q τ W r₀ s) [Can W .sent] [Can W .regs] [Can W .cmd] [Can W .lane] [Can W .sas]
    [Can W .brk] [Can W .trk] [Can W .bnd] [Can W .keys] [Can W .obs] : Kept q τ W r₀ (zeroiseSas s) := by
  unfold zeroiseSas
  with_reducible repeat' first
    | assumption
    | (extract_lets +onlyGivenNames x; refine (?_ : Kept q τ W r₀ x → _) (?_ : Kept q τ W r₀ x); intro hx; clear_value x; revert x; intro _ _;
        rotate_left; dsimp -zeta only [x]; clear x)
    | (extract_lets +onlyGivenNames x; clear_value x; revert x; intro _) | apply kept_finishWhere | apply kept_removeSc
    | apply kept_settleCas | simp -zeta only [kept_mk, can, true_or, or_true] | refine kept_foldl _ _ ?_ (fun s₁ x₁ h₁ => ?_)

theorem kept_execKilnJobEnd (x1 : ℕ) (lane : ℕ) (fault : Option ℕ) (kat : Bool) (s : State) (h0 : Kept q τ W r₀ s) [Can W .freeCount]
    [Can W .sent] [Can W .regs] [Can W .cmd] [Can W .lane] [Can W .keys] [Can W .eng] [Can W .dks] [Can W .obs] [Can W .evr]
    : KeptOut q τ W r₀ (execKilnJobEnd x1 lane fault kat s) := by
  unfold execKilnJobEnd
  with_reducible repeat' first | assumption | apply kept_ev | apply kept_unitJobEnd | intro s₁ h₁ | split

theorem kept_zeroiseKeys (s : State) (h0 : Kept q τ W r₀ s) [Can W .keys] : Kept q τ W r₀ (zeroiseKeys s) := by
  unfold zeroiseKeys
  with_reducible repeat' first
    | assumption | (extract_lets +onlyGivenNames x; clear_value x; revert x; intro _) | simp -zeta only [kept_mk, can, true_or, or_true]

/-! ## Keys -/

theorem kept_useTickets (b : Body) (s : State) (h0 : Kept q τ W r₀ s) [Can W .keys] : Kept q τ W r₀ (useTickets b s) := by
  unfold useTickets
  with_reducible repeat' first
    | assumption | (extract_lets +onlyGivenNames x; clear_value x; revert x; intro _) | simp -zeta only [kept_mk, can, true_or, or_true]

theorem kept_dual (opcode : Nat) (h : Hdr) (b : Body) (f : Nat → Nat → State → Ans) (s : State) (h0 : Kept q τ W r₀ s)
    (hf : ∀ a c s, Kept q τ W r₀ s → KeptAns q τ W r₀ (f a c s)) [Can W .keys] : KeptAns q τ W r₀ (dual opcode h b f s) := by
  unfold dual
  split
  · exact hf _ _ _ (kept_useTickets _ _ h0)
  · exact KeptAns.fail

theorem kept_endCred (c : Cred) (mailbox : ℕ) (tag : ℕ) (s : State) (h0 : Kept q τ W r₀ s) [Can W .sent] [Can W .regs] [Can W .cmd]
    [Can W .obs] : Kept q τ W r₀ (endCred c mailbox tag s) := by
  unfold endCred
  with_reducible repeat' first
    | assumption
    | (extract_lets +onlyGivenNames x; refine (?_ : Kept q τ W r₀ x → _) (?_ : Kept q τ W r₀ x); intro hx; clear_value x; revert x; intro _ _;
        rotate_left; dsimp -zeta only [x]; clear x)
    | (extract_lets +onlyGivenNames x; clear_value x; revert x; intro _) | apply kept_finish | apply kept_endSession
    | refine kept_foldl _ _ ?_ (fun s₁ x₁ h₁ => ?_)

theorem kept_ansOfficerRevoke (x1 : Hdr) (b : Body) (s : State) (h0 : Kept q τ W r₀ s) [Can W .sent] [Can W .regs] [Can W .cmd]
    [Can W .keys] [Can W .obs] [Can W .evr] : KeptAns q τ W r₀ (ansOfficerRevoke x1 b s) := by
  unfold ansOfficerRevoke
  with_reducible repeat' first
    | assumption
    | (extract_lets +onlyGivenNames x; refine (?_ : Kept q τ W r₀ x → _) (?_ : Kept q τ W r₀ x); intro hx; clear_value x; revert x; intro _ _;
        rotate_left; dsimp -zeta only [x]; clear x)
    | (extract_lets +onlyGivenNames x; clear_value x; revert x; intro _) | apply kept_dual | apply kept_endCred | apply kept_record
    | simp -zeta only [kept_mk, can, true_or, or_true] | intro s₁ h₁ | exact KeptAns.fail | apply KeptAns.done | split

theorem kept_execOfficerRevoke (x1 : Hdr) (b : Body) (s : State) (h0 : Kept q τ W r₀ s) [Can W .sent] [Can W .regs] [Can W .cmd]
    [Can W .keys] [Can W .obs] [Can W .evr] : KeptOut q τ W r₀ (execOfficerRevoke x1 b s) := by
  unfold execOfficerRevoke
  with_reducible repeat' first | assumption | apply kept_run | apply kept_ansOfficerRevoke | intro s₁ h₁

theorem kept_withKey (r : KeyRes) (f : Key → Ans) (hf : ∀ k, KeptAns q τ W r₀ (f k)) : KeptAns q τ W r₀ (withKey r f) := by
  unfold withKey
  split
  · exact KeptAns.fail
  · exact KeptAns.defer
  · exact KeptAns.hold
  · exact hf _

theorem kept_storeNow (typ : Word) (use : Word) (owner : ℕ) (value : ℕ) (rest : Body) (s : State) (h0 : Kept q τ W r₀ s) [Can W .keys]
    : KeptAns q τ W r₀ (storeNow typ use owner value rest s) := by
  unfold storeNow
  with_reducible repeat' first
    | assumption | apply kept_storeValue | exact KeptAns.fail | apply KeptAns.done | split | refine kept_optFst (by assumption) ?_

theorem kept_ansKeyImport (x1 : Hdr) (b : Body) (kwpOk : Bool) (valid : Bool) (typ : Word) (use : Word) (own : Word) (value : ℕ)
    (s : State) (h0 : Kept q τ W r₀ s) [Can W .keys] [Can W .dks] [Can W .obs] : KeptAns q τ W r₀
    (ansKeyImport x1 b kwpOk valid typ use own value s) := by
  unfold ansKeyImport
  with_reducible repeat' first
    | assumption | (extract_lets +onlyGivenNames x; clear_value x; revert x; intro _) | apply kept_withKey | apply kept_brief
    | apply kept_storeNow | apply kept_touchKey | intro s₁ h₁ | exact KeptAns.fail | split | intro v

theorem kept_ansDualAuthorise (x1 : Hdr) (b : Body) (s : State) (h0 : Kept q τ W r₀ s) [Can W .freeCount] [Can W .regs] [Can W .keys]
    [Can W .obs] [Can W .evr] : KeptAns q τ W r₀ (ansDualAuthorise x1 b s) := by
  unfold ansDualAuthorise
  with_reducible repeat' first
    | assumption
    | (extract_lets +onlyGivenNames x; refine (?_ : Kept q τ W r₀ x → _) (?_ : Kept q τ W r₀ x); intro hx; clear_value x; revert x; intro _ _;
        rotate_left; dsimp -zeta only [x]; clear x)
    | (extract_lets +onlyGivenNames x; clear_value x; revert x; intro _) | apply kept_drawBits | apply kept_record
    | simp -zeta only [kept_mk, can, true_or, or_true] | exact KeptAns.fail | apply KeptAns.done | split

theorem kept_execDualAuthorise (x1 : Hdr) (b : Body) (s : State) (h0 : Kept q τ W r₀ s) [Can W .freeCount] [Can W .sent] [Can W .regs]
    [Can W .cmd] [Can W .keys] [Can W .obs] [Can W .evr] : KeptOut q τ W r₀ (execDualAuthorise x1 b s) := by
  unfold execDualAuthorise
  with_reducible repeat' first | assumption | apply kept_run | apply kept_ansDualAuthorise | intro s₁ h₁

theorem kept_execKeyImportWrapped (x1 : Hdr) (b : Body) (kwpOk : Bool) (valid : Bool) (typ : Word) (use : Word) (own : Word) (value : ℕ)
    (s : State) (h0 : Kept q τ W r₀ s) [Can W .sent] [Can W .regs] [Can W .cmd] [Can W .keys] [Can W .dks] [Can W .obs] [Can W .evr]
    : KeptOut q τ W r₀ (execKeyImportWrapped x1 b kwpOk valid typ use own value s) := by
  unfold execKeyImportWrapped
  with_reducible repeat' first | assumption | apply kept_run | apply kept_ansKeyImport | intro s₁ h₁

theorem kept_ansKeyGenerate (x1 : Hdr) (b : Body) (s : State) (h0 : Kept q τ W r₀ s) [Can W .freeCount] [Can W .lane] [Can W .keys]
    [Can W .eng] [Can W .dks] [Can W .obs] : KeptAns q τ W r₀ (ansKeyGenerate x1 b s) := by
  unfold ansKeyGenerate
  with_reducible repeat' first
    | assumption
    | (extract_lets +onlyGivenNames x; refine (?_ : Kept q τ W r₀ x → _) (?_ : Kept q τ W r₀ x); intro hx; clear_value x; revert x; intro _ _;
        rotate_left; dsimp -zeta only [x]; clear x)
    | (extract_lets +onlyGivenNames x; clear_value x; revert x; intro _) | apply kept_withDrbg | apply kept_reseed0 | apply kept_drawBits
    | apply kept_brief | apply kept_storeNow | apply kept_submit | simp -zeta only [kept_mk, can, true_or, or_true] | intro s₁ h₁
    | exact KeptAns.fail | split

theorem kept_ansDebugEnable (x1 : Hdr) (b : Body) (s : State) (h0 : Kept q τ W r₀ s) [Can W .sent] [Can W .regs] [Can W .cmd]
    [Can W .lane] [Can W .sas] [Can W .brk] [Can W .trk] [Can W .bnd] [Can W .keys] [Can W .eng] [Can W .dks] [Can W .obs] [Can W .evr]
    : KeptAns q τ W r₀ (ansDebugEnable x1 b s) := by
  unfold ansDebugEnable
  with_reducible repeat' first
    | assumption
    | (extract_lets +onlyGivenNames x; refine (?_ : Kept q τ W r₀ x → _) (?_ : Kept q τ W r₀ x); intro hx; clear_value x; revert x; intro _ _;
        rotate_left; dsimp -zeta only [x]; clear x)
    | (extract_lets +onlyGivenNames x; clear_value x; revert x; intro _) | apply kept_zeroiseSas | apply kept_zeroiseKeys
    | apply kept_abortJobs | apply kept_useTickets | apply kept_settleApproved | apply kept_record
    | simp -zeta only [kept_mk, can, true_or, or_true] | exact KeptAns.fail | apply KeptAns.done | split

theorem kept_execKeyGenerate (x1 : Hdr) (b : Body) (s : State) (h0 : Kept q τ W r₀ s) [Can W .freeCount] [Can W .sent] [Can W .regs]
    [Can W .cmd] [Can W .lane] [Can W .keys] [Can W .eng] [Can W .dks] [Can W .obs] [Can W .evr] : KeptOut q τ W r₀
    (execKeyGenerate x1 b s) := by
  unfold execKeyGenerate
  with_reducible repeat' first | assumption | apply kept_run | apply kept_ansKeyGenerate | intro s₁ h₁

theorem kept_ansKeyErase (x1 : Hdr) (b : Body) (s : State) (h0 : Kept q τ W r₀ s) [Can W .keys] : KeptAns q τ W r₀
    (ansKeyErase x1 b s) := by
  unfold ansKeyErase
  with_reducible repeat' first
    | assumption | (extract_lets +onlyGivenNames x; clear_value x; revert x; intro _) | apply kept_withKey | apply kept_eraseKey
    | apply kept_setKey | apply KeptAns.done | apply KeptAns.wait | split | intro v

theorem kept_execKeyErase (x1 : Hdr) (b : Body) (s : State) (h0 : Kept q τ W r₀ s) [Can W .sent] [Can W .regs] [Can W .cmd]
    [Can W .keys] [Can W .obs] [Can W .evr] : KeptOut q τ W r₀ (execKeyErase x1 b s) := by
  unfold execKeyErase
  with_reducible repeat' first | assumption | apply kept_run | apply kept_ansKeyErase | intro s₁ h₁

theorem kept_attest (kind : ℕ) (handle : ℕ) (attrs : List Word) (commit : List ℕ) (nonce : List Word) (s : State) (h0 : Kept q τ W r₀ s)
    : KeptAns q τ W r₀ (attest kind handle attrs commit nonce s) := by
  unfold attest
  with_reducible repeat' first | assumption | apply KeptAns.done

theorem kept_ansKeyAttest (x1 : Hdr) (b : Body) (s : State) (h0 : Kept q τ W r₀ s) [Can W .keys] [Can W .eng] [Can W .dks] [Can W .obs]
    : KeptAns q τ W r₀ (ansKeyAttest x1 b s) := by
  unfold ansKeyAttest
  with_reducible repeat' first
    | assumption | (extract_lets +onlyGivenNames x; clear_value x; revert x; intro _) | apply kept_withDrbg | apply kept_attest
    | apply kept_brief | apply kept_touchKey | intro s₁ h₁ | exact KeptAns.fail | exact KeptAns.defer | exact KeptAns.hold | split

theorem kept_expireTicket (id : ℕ) (s : State) (h0 : Kept q τ W r₀ s) [Can W .keys] : Kept q τ W r₀ (expireTicket id s) := by
  unfold expireTicket
  with_reducible repeat' first
    | assumption | (extract_lets +onlyGivenNames x; clear_value x; revert x; intro _) | simp -zeta only [kept_mk, can, true_or, or_true]

theorem kept_execKeyAttest (x1 : Hdr) (b : Body) (s : State) (h0 : Kept q τ W r₀ s) [Can W .sent] [Can W .regs] [Can W .cmd]
    [Can W .keys] [Can W .eng] [Can W .dks] [Can W .obs] [Can W .evr] : KeptOut q τ W r₀ (execKeyAttest x1 b s) := by
  unfold execKeyAttest
  with_reducible repeat' first | assumption | apply kept_run | apply kept_ansKeyAttest | intro s₁ h₁

theorem kept_ansLifecycleChange (x1 : Hdr) (b : Body) (s : State) (h0 : Kept q τ W r₀ s) [Can W .cmd] [Can W .boot] [Can W .keys]
    : KeptAns q τ W r₀ (ansLifecycleChange x1 b s) := by
  unfold ansLifecycleChange
  with_reducible repeat' first
    | assumption
    | (extract_lets +onlyGivenNames x; refine (?_ : Kept q τ W r₀ x → _) (?_ : Kept q τ W r₀ x); intro hx; clear_value x; revert x; intro _ _;
        rotate_left; dsimp -zeta only [x]; clear x)
    | (extract_lets +onlyGivenNames x; clear_value x; revert x; intro _) | apply kept_dual | apply kept_startOp
    | simp -zeta only [kept_mk, can, true_or, or_true] | intro s₁ h₁ | exact KeptAns.fail | apply KeptAns.prog | split

theorem kept_enrol (own : ℕ) (issuer : ℕ) (ws : List Word) (s : State) (h0 : Kept q τ W r₀ s) [Can W .regs] [Can W .keys] [Can W .obs]
    [Can W .evr] : KeptAns q τ W r₀ (enrol own issuer ws s) := by
  unfold enrol
  with_reducible repeat' first
    | assumption
    | (extract_lets +onlyGivenNames x; refine (?_ : Kept q τ W r₀ x → _) (?_ : Kept q τ W r₀ x); intro hx; clear_value x; revert x; intro _ _;
        rotate_left; dsimp -zeta only [x]; clear x)
    | (extract_lets +onlyGivenNames x; clear_value x; revert x; intro _) | apply kept_record
    | simp -zeta only [kept_mk, can, true_or, or_true] | exact KeptAns.fail | apply KeptAns.done | split

theorem kept_ansOfficerEnrol (x1 : Hdr) (b : Body) (s : State) (h0 : Kept q τ W r₀ s) [Can W .sent] [Can W .regs] [Can W .cmd]
    [Can W .keys] [Can W .obs] [Can W .evr] : KeptAns q τ W r₀ (ansOfficerEnrol x1 b s) := by
  unfold ansOfficerEnrol
  with_reducible repeat' first
    | assumption | (extract_lets +onlyGivenNames x; clear_value x; revert x; intro _) | apply kept_enrol | apply kept_endCred
    | apply kept_dual | intro s₁ h₁ | exact KeptAns.fail | apply KeptAns.done | split | refine kept_doneEq (by assumption) ?_

theorem kept_execTicketExpiry (x1 : ℕ) (ticket : ℕ) (s : State) (h0 : Kept q τ W r₀ s) [Can W .keys] : KeptOut q τ W r₀
    (execTicketExpiry x1 ticket s) := by
  unfold execTicketExpiry
  with_reducible repeat' first | assumption | apply kept_ev | apply kept_expireTicket | intro s₁ h₁

theorem kept_execDebugEnable (x1 : Hdr) (b : Body) (s : State) (h0 : Kept q τ W r₀ s) [Can W .sent] [Can W .regs] [Can W .cmd]
    [Can W .lane] [Can W .sas] [Can W .brk] [Can W .trk] [Can W .bnd] [Can W .keys] [Can W .eng] [Can W .dks] [Can W .obs] [Can W .evr]
    : KeptOut q τ W r₀ (execDebugEnable x1 b s) := by
  unfold execDebugEnable
  with_reducible repeat' first | assumption | apply kept_run | apply kept_ansDebugEnable | intro s₁ h₁

theorem kept_execOfficerEnrol (x1 : Hdr) (b : Body) (s : State) (h0 : Kept q τ W r₀ s) [Can W .sent] [Can W .regs] [Can W .cmd]
    [Can W .keys] [Can W .obs] [Can W .evr] : KeptOut q τ W r₀ (execOfficerEnrol x1 b s) := by
  unfold execOfficerEnrol
  with_reducible repeat' first | assumption | apply kept_run | apply kept_ansOfficerEnrol | intro s₁ h₁

theorem kept_ansKeyExport (x1 : Hdr) (b : Body) (s : State) (h0 : Kept q τ W r₀ s) [Can W .keys] [Can W .dks] [Can W .obs]
    : KeptAns q τ W r₀ (ansKeyExport x1 b s) := by
  unfold ansKeyExport
  with_reducible repeat' first
    | assumption | (extract_lets +onlyGivenNames x; clear_value x; revert x; intro _) | apply kept_withKey | apply kept_brief
    | apply kept_touchKey | intro s₁ h₁ | exact KeptAns.fail | apply KeptAns.done | split | intro v

theorem kept_execKeyExportWrapped (x1 : Hdr) (b : Body) (s : State) (h0 : Kept q τ W r₀ s) [Can W .sent] [Can W .regs] [Can W .cmd]
    [Can W .keys] [Can W .dks] [Can W .obs] [Can W .evr] : KeptOut q τ W r₀ (execKeyExportWrapped x1 b s) := by
  unfold execKeyExportWrapped
  with_reducible repeat' first | assumption | apply kept_run | apply kept_ansKeyExport | intro s₁ h₁

theorem kept_execLifecycleChange (x1 : Hdr) (b : Body) (s : State) (h0 : Kept q τ W r₀ s) [Can W .sent] [Can W .regs] [Can W .cmd]
    [Can W .boot] [Can W .keys] [Can W .obs] [Can W .evr] : KeptOut q τ W r₀ (execLifecycleChange x1 b s) := by
  unfold execLifecycleChange
  with_reducible repeat' first | assumption | apply kept_run | apply kept_ansLifecycleChange | intro s₁ h₁

/-! ## Engines -/

theorem kept_ansBlocks (x1 : Hdr) (b : Body) (usage : ℕ) (s : State) (h0 : Kept q τ W r₀ s) [Can W .lane] [Can W .keys] [Can W .eng]
    [Can W .dks] [Can W .obs] : KeptAns q τ W r₀ (ansBlocks x1 b usage s) := by
  unfold ansBlocks
  with_reducible repeat' first
    | assumption | (extract_lets +onlyGivenNames x; clear_value x; revert x; intro _) | apply kept_withKey | apply kept_submit
    | exact KeptAns.fail | exact KeptAns.hold | split | intro v

theorem kept_ansKemDecap (x1 : Hdr) (b : Body) (s : State) (h0 : Kept q τ W r₀ s) [Can W .lane] [Can W .keys] [Can W .eng] [Can W .dks]
    [Can W .obs] : KeptAns q τ W r₀ (ansKemDecap x1 b s) := by
  unfold ansKemDecap
  with_reducible repeat' first
    | assumption | (extract_lets +onlyGivenNames x; clear_value x; revert x; intro _) | apply kept_ansBlocks | apply kept_withKey
    | apply kept_submit | simp -zeta only [kept_mk, can, true_or, or_true] | exact KeptAns.fail | split | intro v

theorem kept_execKemDecap (x1 : Hdr) (b : Body) (s : State) (h0 : Kept q τ W r₀ s) [Can W .sent] [Can W .regs] [Can W .cmd]
    [Can W .lane] [Can W .keys] [Can W .eng] [Can W .dks] [Can W .obs] [Can W .evr] : KeptOut q τ W r₀ (execKemDecap x1 b s) := by
  unfold execKemDecap
  with_reducible repeat' first | assumption | apply kept_run | apply kept_ansKemDecap | intro s₁ h₁

theorem kept_ansKeyAgree (x1 : Hdr) (b : Body) (bad : InputCheck) (s : State) (h0 : Kept q τ W r₀ s) [Can W .lane] [Can W .keys]
    [Can W .eng] [Can W .dks] [Can W .obs] : KeptAns q τ W r₀ (ansKeyAgree x1 b bad s) := by
  unfold ansKeyAgree
  with_reducible repeat' first
    | assumption
    | (extract_lets +onlyGivenNames x; refine (?_ : (∀ v, KeptAns q τ W r₀ (x v)) → _) (?_ : ∀ v, KeptAns q τ W r₀ (x v)); intro hx; clear_value x; revert x; intro _ hx;
        rotate_left; dsimp -zeta only [x]; clear x)
    | (extract_lets +onlyGivenNames x; clear_value x; revert x; intro _) | apply kept_withKey | apply kept_submit
    | simp -zeta only [kept_mk, can, true_or, or_true] | exact KeptAns.fail | exact hx _ | split | intro v

theorem kept_execKeyAgree (x1 : Hdr) (b : Body) (bad : InputCheck) (s : State) (h0 : Kept q τ W r₀ s) [Can W .sent] [Can W .regs]
    [Can W .cmd] [Can W .lane] [Can W .keys] [Can W .eng] [Can W .dks] [Can W .obs] [Can W .evr] : KeptOut q τ W r₀
    (execKeyAgree x1 b bad s) := by
  unfold execKeyAgree
  with_reducible repeat' first | assumption | apply kept_run | apply kept_ansKeyAgree | intro s₁ h₁

theorem kept_encapTo (x1 : Hdr) (b : Body) (a : ℕ) (ek : List Word) (handle : Option ℕ) (bad : InputCheck) (s : State) (h0
    : Kept q τ W r₀ s) [Can W .freeCount] [Can W .lane] [Can W .keys] [Can W .eng] [Can W .dks] [Can W .obs] : KeptAns q τ W r₀
    (encapTo x1 b a ek handle bad s) := by
  unfold encapTo
  with_reducible repeat' first
    | assumption | (extract_lets +onlyGivenNames x; clear_value x; revert x; intro _) | apply kept_withDrbg | apply kept_drawBits
    | apply kept_submit | simp -zeta only [kept_mk, can, true_or, or_true] | intro s₁ h₁ | exact KeptAns.fail | split

theorem kept_ansKemEncap (x1 : Hdr) (b : Body) (bad : InputCheck) (s : State) (h0 : Kept q τ W r₀ s) [Can W .freeCount] [Can W .lane]
    [Can W .keys] [Can W .eng] [Can W .dks] [Can W .obs] : KeptAns q τ W r₀ (ansKemEncap x1 b bad s) := by
  unfold ansKemEncap
  with_reducible repeat' first
    | assumption | (extract_lets +onlyGivenNames x; clear_value x; revert x; intro _) | apply kept_ansBlocks | apply kept_encapTo
    | apply kept_withKey | split | intro v

theorem kept_verifyUnder (x1 : Hdr) (b : Body) (a : ℕ) (n : ℕ) (handle : Option ℕ) (verdict : Bool) (bad : InputCheck) (s : State) (h0
    : Kept q τ W r₀ s) [Can W .lane] [Can W .keys] [Can W .eng] [Can W .dks] [Can W .obs] : KeptAns q τ W r₀
    (verifyUnder x1 b a n handle verdict bad s) := by
  unfold verifyUnder
  with_reducible repeat' first
    | assumption | (extract_lets +onlyGivenNames x; clear_value x; revert x; intro _) | apply kept_brief | apply kept_touchKey
    | apply kept_submit | simp -zeta only [kept_mk, can, true_or, or_true] | intro s₁ h₁ | exact KeptAns.fail | apply KeptAns.done | split

theorem kept_releasePage (p : ℕ) (s : State) (h0 : Kept q τ W r₀ s) [Can W .regs] [Can W .eng] [Can W .obs] [Can W .evr] : Kept q τ W r₀
    (releasePage p s) := by
  unfold releasePage
  with_reducible repeat' first
    | assumption | (extract_lets +onlyGivenNames x; clear_value x; revert x; intro _) | apply kept_record
    | simp -zeta only [kept_mk, can, true_or, or_true]

theorem kept_pageJobEnd (p : ℕ) (s : State) (h0 : Kept q τ W r₀ s) [Can W .sent] [Can W .regs] [Can W .cmd] [Can W .lane] [Can W .keys]
    [Can W .eng] [Can W .dks] [Can W .obs] [Can W .evr] : Kept q τ W r₀ (pageJobEnd p s) := by
  unfold pageJobEnd
  with_reducible repeat' first
    | assumption
    | (extract_lets +onlyGivenNames x; refine (?_ : Kept q τ W r₀ x → _) (?_ : Kept q τ W r₀ x); intro hx; clear_value x; revert x; intro _ _;
        rotate_left; dsimp -zeta only [x]; clear x)
    | apply kept_fillPage | apply kept_deliver | apply kept_finishWhere | apply kept_releasePage | split

theorem kept_execVciJobEnd (x1 : ℕ) (page : ℕ) (s : State) (h0 : Kept q τ W r₀ s) [Can W .sent] [Can W .regs] [Can W .cmd] [Can W .lane]
    [Can W .keys] [Can W .eng] [Can W .dks] [Can W .obs] [Can W .evr] : KeptOut q τ W r₀ (execVciJobEnd x1 page s) := by
  unfold execVciJobEnd
  with_reducible repeat' first | assumption | apply kept_ev | apply kept_pageJobEnd | intro s₁ h₁

theorem kept_ansHash (x1 : Hdr) (b : Body) (s : State) (h0 : Kept q τ W r₀ s) [Can W .dks] : KeptAns q τ W r₀ (ansHash x1 b s) := by
  unfold ansHash
  with_reducible repeat' first
    | assumption | (extract_lets +onlyGivenNames x; clear_value x; revert x; intro _) | apply kept_brief | intro s₁ h₁
    | apply KeptAns.done

theorem kept_execHash (x1 : Hdr) (b : Body) (s : State) (h0 : Kept q τ W r₀ s) [Can W .sent] [Can W .regs] [Can W .cmd] [Can W .dks]
    [Can W .obs] [Can W .evr] : KeptOut q τ W r₀ (execHash x1 b s) := by
  unfold execHash
  with_reducible repeat' first | assumption | apply kept_run | apply kept_ansHash | intro s₁ h₁

theorem kept_signJob (x1 : Hdr) (b : Body) (a : ℕ) (handle : ℕ) (s : State) (h0 : Kept q τ W r₀ s) [Can W .freeCount] [Can W .lane]
    [Can W .keys] [Can W .eng] [Can W .dks] [Can W .obs] : KeptAns q τ W r₀ (signJob x1 b a handle s) := by
  unfold signJob
  with_reducible repeat' first | assumption | apply kept_drawElem | apply kept_submit

theorem kept_ansVerify (x1 : Hdr) (b : Body) (verdict : Bool) (bad : InputCheck) (s : State) (h0 : Kept q τ W r₀ s) [Can W .lane]
    [Can W .keys] [Can W .eng] [Can W .dks] [Can W .obs] : KeptAns q τ W r₀ (ansVerify x1 b verdict bad s) := by
  unfold ansVerify
  with_reducible repeat' first
    | assumption | (extract_lets +onlyGivenNames x; clear_value x; revert x; intro _) | apply kept_verifyUnder | apply kept_withKey
    | split | intro v

theorem kept_execVerify (x1 : Hdr) (b : Body) (verdict : Bool) (bad : InputCheck) (s : State) (h0 : Kept q τ W r₀ s) [Can W .sent]
    [Can W .regs] [Can W .cmd] [Can W .lane] [Can W .keys] [Can W .eng] [Can W .dks] [Can W .obs] [Can W .evr] : KeptOut q τ W r₀
    (execVerify x1 b verdict bad s) := by
  unfold execVerify
  with_reducible repeat' first | assumption | apply kept_run | apply kept_ansVerify | intro s₁ h₁

theorem kept_ansDrbgRead (x1 : Hdr) (b : Body) (s : State) (h0 : Kept q τ W r₀ s) [Can W .freeCount] [Can W .eng] [Can W .dks]
    [Can W .obs] : KeptAns q τ W r₀ (ansDrbgRead x1 b s) := by
  unfold ansDrbgRead
  with_reducible repeat' first
    | assumption | apply kept_withDrbg | apply kept_brief | apply kept_drawElem | simp -zeta only [kept_mk, can, true_or, or_true]
    | intro s₁ h₁ | apply KeptAns.done

theorem kept_execDrbgRead (x1 : Hdr) (b : Body) (s : State) (h0 : Kept q τ W r₀ s) [Can W .freeCount] [Can W .sent] [Can W .regs]
    [Can W .cmd] [Can W .eng] [Can W .dks] [Can W .obs] [Can W .evr] : KeptOut q τ W r₀ (execDrbgRead x1 b s) := by
  unfold execDrbgRead
  with_reducible repeat' first | assumption | apply kept_run | apply kept_ansDrbgRead | intro s₁ h₁

theorem kept_ansSign (x1 : Hdr) (b : Body) (s : State) (h0 : Kept q τ W r₀ s) [Can W .freeCount] [Can W .lane] [Can W .keys]
    [Can W .eng] [Can W .dks] [Can W .obs] : KeptAns q τ W r₀ (ansSign x1 b s) := by
  unfold ansSign
  with_reducible repeat' first
    | assumption | (extract_lets +onlyGivenNames x; clear_value x; revert x; intro _) | apply kept_withKey | apply kept_brief
    | apply kept_touchKey | apply kept_withDrbg | apply kept_signJob | intro s₁ h₁ | exact KeptAns.fail | apply KeptAns.done | split
    | intro v

theorem kept_execSign (x1 : Hdr) (b : Body) (s : State) (h0 : Kept q τ W r₀ s) [Can W .freeCount] [Can W .sent] [Can W .regs]
    [Can W .cmd] [Can W .lane] [Can W .keys] [Can W .eng] [Can W .dks] [Can W .obs] [Can W .evr] : KeptOut q τ W r₀
    (execSign x1 b s) := by
  unfold execSign
  with_reducible repeat' first | assumption | apply kept_run | apply kept_ansSign | intro s₁ h₁

theorem kept_execKemEncap (x1 : Hdr) (b : Body) (bad : InputCheck) (s : State) (h0 : Kept q τ W r₀ s) [Can W .freeCount] [Can W .sent]
    [Can W .regs] [Can W .cmd] [Can W .lane] [Can W .keys] [Can W .eng] [Can W .dks] [Can W .obs] [Can W .evr] : KeptOut q τ W r₀
    (execKemEncap x1 b bad s) := by
  unfold execKemEncap
  with_reducible repeat' first | assumption | apply kept_run | apply kept_ansKemEncap | intro s₁ h₁

theorem kept_ansVciPageAssign (b : Body) (s : State) (h0 : Kept q τ W r₀ s) [Can W .regs] [Can W .eng] [Can W .obs] [Can W .evr]
    : KeptAns q τ W r₀ (ansVciPageAssign b s) := by
  unfold ansVciPageAssign
  with_reducible repeat' first
    | assumption | (extract_lets +onlyGivenNames x; clear_value x; revert x; intro _) | apply kept_releasePage | apply kept_record
    | simp -zeta only [kept_mk, can, true_or, or_true] | exact KeptAns.fail | exact KeptAns.hold | apply KeptAns.done | apply KeptAns.wait
    | split

theorem kept_execVciPageAssign (x1 : Hdr) (b : Body) (s : State) (h0 : Kept q τ W r₀ s) [Can W .sent] [Can W .regs] [Can W .cmd]
    [Can W .eng] [Can W .obs] [Can W .evr] : KeptOut q τ W r₀ (execVciPageAssign x1 b s) := by
  unfold execVciPageAssign
  with_reducible repeat' first | assumption | apply kept_run | apply kept_ansVciPageAssign | intro s₁ h₁

end Sys2Proof.Machine
end

