-- ==== Sys2Proof/Laws/KeptDomain.lean ====
section
/-! SUPPORT. What every operation keeps: the security domain. One lemma for each function; `Kept` is defined in Laws/Kept.lean. -/
namespace Sys2Proof.Machine
open Sys2Proof
set_option linter.unusedSimpArgs false
set_option linter.unusedTactic false
set_option linter.unreachableTactic false
variable {q : List Instr} {τ : Nat} {W : Part → Bool} {r₀ : State}

/-! ## Domain -/

theorem kept_endSvc (o : SvcOp) (status : ℕ) (elems : Body) (s : State) (h0 : Kept q τ W r₀ s) [Can W .sent] [Can W .regs] [Can W .cmd]
    [Can W .keys] [Can W .dks] [Can W .obs] : Kept q τ W r₀ (endSvc o status elems s) := by
  unfold endSvc
  with_reducible repeat' first
    | assumption
    | (extract_lets +onlyGivenNames x; refine (?_ : Kept q τ W r₀ x → _) (?_ : Kept q τ W r₀ x); intro hx; clear_value x; revert x; intro _ _;
        rotate_left; dsimp -zeta only [x]; clear x)
    | (extract_lets +onlyGivenNames x; clear_value x; revert x; intro _) | apply kept_eraseKey | apply kept_finishWhere
    | simp -zeta only [kept_mk, can, true_or, or_true] | split

theorem kept_onActive (h : Hdr) (f : State → Ans) (s : State) (h0 : Kept q τ W r₀ s)
    (hf : ∀ s, Kept q τ W r₀ s → KeptAns q τ W r₀ (f s)) : KeptAns q τ W r₀ (onActive h f s) := by
  unfold onActive
  split
  · exact KeptAns.fail
  · exact hf _ h0

theorem kept_ansTenantCreate (x1 : Hdr) (b : Body) (s : State) (h0 : Kept q τ W r₀ s) [Can W .sent] [Can W .regs] [Can W .cmd]
    [Can W .keys] [Can W .eng] [Can W .dks] [Can W .obs] [Can W .evr] : KeptAns q τ W r₀ (ansTenantCreate x1 b s) := by
  unfold ansTenantCreate
  with_reducible repeat' first
    | assumption
    | (extract_lets +onlyGivenNames x; refine (?_ : Kept q τ W r₀ x → _) (?_ : Kept q τ W r₀ x); intro hx; clear_value x; revert x; intro _ _;
        rotate_left; dsimp -zeta only [x]; clear x)
    | (extract_lets +onlyGivenNames x; clear_value x; revert x; intro _) | apply kept_onActive | apply kept_endCred | apply kept_endJob
    | apply kept_setKey | apply kept_removeTenant | simp -zeta only [kept_mk, can, true_or, or_true]
    | refine kept_foldl _ _ ?_ (fun s₁ x₁ h₁ => ?_) | intro s₁ h₁ | exact KeptAns.fail | exact KeptAns.hold | apply KeptAns.done
    | apply KeptAns.wait | split

theorem kept_execTenantCreate (x1 : Hdr) (b : Body) (s : State) (h0 : Kept q τ W r₀ s) [Can W .sent] [Can W .regs] [Can W .cmd]
    [Can W .keys] [Can W .eng] [Can W .dks] [Can W .obs] [Can W .evr] : KeptOut q τ W r₀ (execTenantCreate x1 b s) := by
  unfold execTenantCreate
  with_reducible repeat' first | assumption | apply kept_run | apply kept_ansTenantCreate | intro s₁ h₁

theorem kept_serviceWork (f : State → Ans) (s : State) (h0 : Kept q τ W r₀ s)
    (hf : ∀ s, Kept q τ W r₀ s → KeptAns q τ W r₀ (f s)) [Can W .eng] [Can W .dks] [Can W .obs] : KeptAns q τ W r₀ (serviceWork f s) := by
  unfold serviceWork
  split
  · exact KeptAns.fail
  · exact kept_brief _ _ _ _ h0 fun s h => kept_withDrbg _ _ h fun s h => hf _ (kept_reseed0 _ h)

theorem kept_storeAll (l : List (Nat × Nat)) (s : State) (h0 : Kept q τ W r₀ s) [Can W .freeCount] [Can W .keys] : KeptFst q τ W r₀
    (storeAll l s) := by
  induction l generalizing s with
  | nil => exact keptFst_some h0
  | cons e r ih =>
    unfold storeAll
    split
    · exact keptFst_none
    · rename_i e1
      exact keptFst_mapFst _ (ih _ (kept_optFst e1 (kept_storeKey _ _ _ _ h0))) fun _ h => h

theorem kept_newTek (g : Group) (active : ℕ) (s : State) (h0 : Kept q τ W r₀ s) [Can W .freeCount] [Can W .keys] : KeptFst q τ W r₀
    (newTek g active s) := by
  unfold newTek
  with_reducible repeat' first | assumption | apply kept_storeAll | refine keptFst_mapFst _ ?_ (fun c h => ?_)

theorem kept_rotateEph (s : State) (h0 : Kept q τ W r₀ s) [Can W .freeCount] [Can W .dks] : Kept q τ W r₀ (rotateEph s) := by
  unfold rotateEph
  with_reducible repeat' first
    | assumption | (extract_lets +onlyGivenNames x; clear_value x; revert x; intro _) | apply kept_drawBits
    | simp -zeta only [kept_mk, can, true_or, or_true] | split

theorem kept_buildBundle (d : ℕ) (content : List ℕ) (s : State) (h0 : Kept q τ W r₀ s) [Can W .freeCount] [Can W .dks] : Kept q τ W r₀
    (buildBundle d content s).2 := by
  unfold buildBundle
  with_reducible repeat' first
    | assumption
    | (extract_lets +onlyGivenNames x; refine (?_ : Kept q τ W r₀ x → _) (?_ : Kept q τ W r₀ x); intro hx; clear_value x; revert x; intro _ _;
        rotate_left; dsimp -zeta only [x]; clear x)
    | (extract_lets +onlyGivenNames x; clear_value x; revert x; intro _) | apply kept_rotateEph | apply kept_drawBits
    | apply kept_drawWords | simp -zeta only [kept_mk, can, true_or, or_true]

theorem kept_deliverBundles (kind : ℕ) (group : ℕ) (content : List ℕ) (ds : List ℕ) (s : State) (h0 : Kept q τ W r₀ s)
    [Can W .freeCount] [Can W .dks] : Kept q τ W r₀ (deliverBundles kind group content ds s) := by
  unfold deliverBundles
  with_reducible repeat' first
    | assumption | apply kept_buildBundle | apply kept_deliverTo | simp -zeta only [kept_mk, can, true_or, or_true]
    | refine kept_foldl _ _ ?_ (fun s₁ x₁ h₁ => ?_)

theorem kept_copyGroup (id : ℕ) (s : State) (h0 : Kept q τ W r₀ s) [Can W .freeCount] [Can W .sent] [Can W .dks] : Kept q τ W r₀
    (copyGroup id s) := by
  unfold copyGroup
  with_reducible repeat' first
    | assumption | (extract_lets +onlyGivenNames x; clear_value x; revert x; intro _) | apply kept_pump | apply kept_deliverBundles

theorem kept_nextTek (id : ℕ) (s : State) (h0 : Kept q τ W r₀ s) [Can W .freeCount] [Can W .sent] [Can W .keys] [Can W .eng]
    [Can W .dks] : Kept q τ W r₀ (nextTek id s) := by
  unfold nextTek
  with_reducible repeat' first
    | assumption | (extract_lets +onlyGivenNames x; clear_value x; revert x; intro _) | apply kept_newTek | apply kept_reseed0
    | apply kept_copyGroup | simp -zeta only [kept_mk, can, true_or, or_true] | split | refine kept_optFst (by assumption) ?_

theorem kept_execTekNextGenerate (x1 : ℕ) (group : ℕ) (s : State) (h0 : Kept q τ W r₀ s) [Can W .freeCount] [Can W .sent] [Can W .keys]
    [Can W .eng] [Can W .dks] : KeptOut q τ W r₀ (execTekNextGenerate x1 group s) := by
  unfold execTekNextGenerate
  with_reducible repeat' first | assumption | apply kept_ev | apply kept_nextTek | intro s₁ h₁

theorem kept_sendDelta (group : ℕ) (d : ℕ) (ds : List ℕ) (s : State) (h0 : Kept q τ W r₀ s) [Can W .dks] : Kept q τ W r₀
    (sendDelta group d ds s) := by
  unfold sendDelta
  with_reducible repeat' first | assumption | (extract_lets +onlyGivenNames x; clear_value x; revert x; intro _) | apply kept_deliverTo

theorem kept_eraseAll (l : List ℕ) (s : State) (h0 : Kept q τ W r₀ s) [Can W .keys] : Kept q τ W r₀ (eraseAll l s) := by
  unfold eraseAll
  with_reducible repeat' first | assumption | apply kept_eraseKey | refine kept_foldl _ _ ?_ (fun s₁ x₁ h₁ => ?_)

theorem kept_storeTeks (alg : Nat) (l : List (Nat × Nat × Nat)) (s : State) (h0 : Kept q τ W r₀ s) [Can W .keys] : KeptFst q τ W r₀
    (storeTeks alg l s) := by
  induction l generalizing s with
  | nil => exact keptFst_some h0
  | cons e r ih =>
    unfold storeTeks
    split
    · exact keptFst_none
    · rename_i s₁ n e₁
      exact keptFst_mapFst _ (ih _ (kept_optFst e₁ (kept_storeValue _ _ _ _ _ h0))) fun _ h => h

theorem kept_copyPolicy (c : PolicyCopy) (s : State) (h0 : Kept q τ W r₀ s) [Can W .keys] [Can W .dks] : KeptAns q τ W r₀
    (copyPolicy c s) := by
  unfold copyPolicy
  with_reducible repeat' first
    | assumption
    | (extract_lets +onlyGivenNames x; refine (?_ : Kept q τ W r₀ x → _) (?_ : Kept q τ W r₀ x); intro hx; clear_value x; revert x; intro _ _;
        rotate_left; dsimp -zeta only [x]; clear x)
    | (extract_lets +onlyGivenNames x; clear_value x; revert x; intro _) | apply kept_eraseAll | apply kept_storeTeks
    | simp -zeta only [kept_mk, can, true_or, or_true] | exact KeptAns.fail | apply KeptAns.done | split
    | refine kept_optFst (by assumption) ?_

theorem kept_armSnap (at_ : ℕ) (s : State) (h0 : Kept q τ W r₀ s) [Can W .regs] [Can W .time] [Can W .dks] [Can W .obs] [Can W .evr]
    : Kept q τ W r₀ (armSnap at_ s) := by
  unfold armSnap
  with_reducible repeat' first
    | assumption | (extract_lets +onlyGivenNames x; clear_value x; revert x; intro _) | apply kept_armMatch
    | simp -zeta only [kept_mk, can, true_or, or_true]

theorem kept_inDdr (f : State → Ans) (s : State) (h0 : Kept q τ W r₀ s)
    (hf : ∀ s, Kept q τ W r₀ s → KeptAns q τ W r₀ (f s)) : KeptAns q τ W r₀ (inDdr f s) := by
  unfold inDdr
  split
  · exact KeptAns.fail
  · exact hf _ h0

theorem kept_ansEnrolDelta (x1 : Hdr) (b : Body) (sigOk : Bool) (s : State) (h0 : Kept q τ W r₀ s) [Can W .sent] [Can W .regs]
    [Can W .cmd] [Can W .dks] [Can W .obs] : KeptAns q τ W r₀ (ansEnrolDelta x1 b sigOk s) := by
  unfold ansEnrolDelta
  with_reducible repeat' first
    | assumption
    | (extract_lets +onlyGivenNames x; refine (?_ : Kept q τ W r₀ x → _) (?_ : Kept q τ W r₀ x); intro hx; clear_value x; revert x; intro _ _;
        rotate_left; dsimp -zeta only [x]; clear x)
    | (extract_lets +onlyGivenNames x; clear_value x; revert x; intro _) | apply kept_onActive | apply kept_brief | apply kept_endCred
    | simp -zeta only [kept_mk, can, true_or, or_true] | intro s₁ h₁ | exact KeptAns.fail | apply KeptAns.done | split

theorem kept_execDomainEnrolRosterDelta (x1 : Hdr) (b : Body) (sigOk : Bool) (s : State) (h0 : Kept q τ W r₀ s) [Can W .sent]
    [Can W .regs] [Can W .cmd] [Can W .dks] [Can W .obs] [Can W .evr] : KeptOut q τ W r₀ (execDomainEnrolRosterDelta x1 b sigOk s) := by
  unfold execDomainEnrolRosterDelta
  with_reducible repeat' first | assumption | apply kept_run | apply kept_inDdr | apply kept_ansEnrolDelta | intro s₁ h₁

theorem kept_ansEnrolChallenge (x1 : Hdr) (ok : Bool) (serial : ℕ) (idDig : List Word) (s : State) (h0 : Kept q τ W r₀ s)
    [Can W .freeCount] [Can W .eng] [Can W .dks] [Can W .obs] : KeptAns q τ W r₀ (ansEnrolChallenge x1 ok serial idDig s) := by
  unfold ansEnrolChallenge
  with_reducible repeat' first
    | assumption | (extract_lets +onlyGivenNames x; clear_value x; revert x; intro _) | apply kept_onActive | apply kept_serviceWork
    | apply kept_drawWords | simp -zeta only [kept_mk, can, true_or, or_true] | intro s₁ h₁ | exact KeptAns.fail | apply KeptAns.done
    | split

theorem kept_execDomainEnrolChallenge (x1 : Hdr) (b : Body) (ok : Bool) (serial : ℕ) (idDig : List Word) (s : State) (h0
    : Kept q τ W r₀ s) [Can W .freeCount] [Can W .sent] [Can W .regs] [Can W .cmd] [Can W .eng] [Can W .dks] [Can W .obs] [Can W .evr]
    : KeptOut q τ W r₀ (execDomainEnrolChallenge x1 b ok serial idDig s) := by
  unfold execDomainEnrolChallenge
  with_reducible repeat' first | assumption | apply kept_run | apply kept_inDdr | apply kept_ansEnrolChallenge | intro s₁ h₁

theorem kept_takeMembership (m : Membership) (s : State) (h0 : Kept q τ W r₀ s) [Can W .dks] : Kept q τ W r₀ (takeMembership m s) := by
  unfold takeMembership
  with_reducible repeat' first
    | assumption | (extract_lets +onlyGivenNames x; clear_value x; revert x; intro _) | simp -zeta only [kept_mk, can, true_or, or_true]

theorem kept_ansEnrolAccept (x1 : Hdr) (b : Body) (sigOk : Bool) (s : State) (h0 : Kept q τ W r₀ s) [Can W .dks] : KeptAns q τ W r₀
    (ansEnrolAccept x1 b sigOk s) := by
  unfold ansEnrolAccept
  with_reducible repeat' first
    | assumption | (extract_lets +onlyGivenNames x; clear_value x; revert x; intro _) | apply kept_onActive | apply kept_brief
    | apply kept_takeMembership | simp -zeta only [kept_mk, can, true_or, or_true] | intro s₁ h₁ | exact KeptAns.fail | apply KeptAns.done
    | split

theorem kept_execDomainEnrolAccept (x1 : Hdr) (b : Body) (sigOk : Bool) (s : State) (h0 : Kept q τ W r₀ s) [Can W .sent] [Can W .regs]
    [Can W .cmd] [Can W .dks] [Can W .obs] [Can W .evr] : KeptOut q τ W r₀ (execDomainEnrolAccept x1 b sigOk s) := by
  unfold execDomainEnrolAccept
  with_reducible repeat' first | assumption | apply kept_run | apply kept_inDdr | apply kept_ansEnrolAccept | intro s₁ h₁

theorem kept_endRollover (x1 : Rollover) (s : State) (h0 : Kept q τ W r₀ s) [Can W .sent] [Can W .regs] [Can W .cmd] [Can W .dks]
    [Can W .obs] [Can W .evr] : Kept q τ W r₀ (endRollover x1 s) := by
  unfold endRollover
  with_reducible repeat' first
    | assumption
    | (extract_lets +onlyGivenNames x; refine (?_ : Kept q τ W r₀ x → _) (?_ : Kept q τ W r₀ x); intro hx; clear_value x; revert x; intro _ _;
        rotate_left; dsimp -zeta only [x]; clear x)
    | (extract_lets +onlyGivenNames x; clear_value x; revert x; intro _) | apply kept_record2 | apply kept_endOp
    | simp -zeta only [kept_mk, can, true_or, or_true]

theorem kept_settleRollover (s : State) (h0 : Kept q τ W r₀ s) [Can W .sent] [Can W .regs] [Can W .cmd] [Can W .dks] [Can W .obs]
    [Can W .evr] : Kept q τ W r₀ (settleRollover s) := by
  unfold settleRollover
  with_reducible repeat' first
    | assumption | (extract_lets +onlyGivenNames x; clear_value x; revert x; intro _) | apply kept_endRollover | split

theorem kept_commitRollover (x1 : Rollover) (s : State) (h0 : Kept q τ W r₀ s) [Can W .sent] [Can W .regs] [Can W .cmd] [Can W .keys]
    [Can W .dks] [Can W .obs] [Can W .evr] : Kept q τ W r₀ (commitRollover x1 s) := by
  unfold commitRollover
  with_reducible repeat' first
    | assumption
    | (extract_lets +onlyGivenNames x; refine (?_ : Kept q τ W r₀ x → _) (?_ : Kept q τ W r₀ x); intro hx; clear_value x; revert x; intro _ _;
        rotate_left; dsimp -zeta only [x]; clear x)
    | (extract_lets +onlyGivenNames x; clear_value x; revert x; intro _) | apply kept_eraseAll | apply kept_settleRollover
    | apply kept_pump | apply kept_deliverTo | simp -zeta only [kept_mk, can, true_or, or_true]

theorem kept_rolloverDue (s : State) (h0 : Kept q τ W r₀ s) [Can W .sent] [Can W .regs] [Can W .cmd] [Can W .keys] [Can W .dks]
    [Can W .obs] [Can W .evr] : Kept q τ W r₀ (rolloverDue s) := by
  unfold rolloverDue
  with_reducible repeat' first
    | assumption | (extract_lets +onlyGivenNames x; clear_value x; revert x; intro _) | apply kept_endOp | apply kept_dropRollover
    | apply kept_commitRollover | split

theorem kept_ansEnrolPrepare (x1 : Hdr) (b : Body) (s : State) (h0 : Kept q τ W r₀ s) [Can W .freeCount] [Can W .keys] [Can W .eng]
    [Can W .dks] [Can W .obs] : KeptAns q τ W r₀ (ansEnrolPrepare x1 b s) := by
  unfold ansEnrolPrepare
  with_reducible repeat' first
    | assumption
    | (extract_lets +onlyGivenNames x; refine (?_ : Kept q τ W r₀ x → _) (?_ : Kept q τ W r₀ x); intro hx; clear_value x; revert x; intro _ _;
        rotate_left; dsimp -zeta only [x]; clear x)
    | (extract_lets +onlyGivenNames x; clear_value x; revert x; intro _) | apply kept_onActive | apply kept_serviceWork
    | apply kept_storeAll | apply kept_eraseAll | simp -zeta only [kept_mk, can, true_or, or_true] | intro s₁ h₁ | exact KeptAns.fail
    | apply KeptAns.done | split | refine kept_optFst (by assumption) ?_

theorem kept_execDomainEnrolPrepare (x1 : Hdr) (b : Body) (s : State) (h0 : Kept q τ W r₀ s) [Can W .freeCount] [Can W .sent]
    [Can W .regs] [Can W .cmd] [Can W .keys] [Can W .eng] [Can W .dks] [Can W .obs] [Can W .evr] : KeptOut q τ W r₀
    (execDomainEnrolPrepare x1 b s) := by
  unfold execDomainEnrolPrepare
  with_reducible repeat' first | assumption | apply kept_run | apply kept_inDdr | apply kept_ansEnrolPrepare | intro s₁ h₁

theorem kept_takeAbort (b : Body) (x : Bundle) (s : State) (h0 : Kept q τ W r₀ s) [Can W .keys] [Can W .dks] : KeptAns q τ W r₀
    (takeAbort b x s) := by
  unfold takeAbort
  with_reducible repeat' first
    | assumption
    | (extract_lets +onlyGivenNames x; refine (?_ : Kept q τ W r₀ x → _) (?_ : Kept q τ W r₀ x); intro hx; clear_value x; revert x; intro _ _;
        rotate_left; dsimp -zeta only [x]; clear x)
    | (extract_lets +onlyGivenNames x; clear_value x; revert x; intro _) | apply kept_eraseAll
    | simp -zeta only [kept_mk, can, true_or, or_true] | exact KeptAns.fail | apply KeptAns.done | split

theorem kept_expireTeks (id : ℕ) (s : State) (h0 : Kept q τ W r₀ s) [Can W .keys] [Can W .dks] : Kept q τ W r₀ (expireTeks id s) := by
  unfold expireTeks
  with_reducible repeat' first
    | assumption
    | (extract_lets +onlyGivenNames x; refine (?_ : Kept q τ W r₀ x → _) (?_ : Kept q τ W r₀ x); intro hx; clear_value x; revert x; intro _ _;
        rotate_left; dsimp -zeta only [x]; clear x)
    | (extract_lets +onlyGivenNames x; clear_value x; revert x; intro _) | apply kept_eraseAll
    | simp -zeta only [kept_mk, can, true_or, or_true] | split

theorem kept_execTekExpiry (x1 : ℕ) (group : ℕ) (s : State) (h0 : Kept q τ W r₀ s) [Can W .keys] [Can W .dks] : KeptOut q τ W r₀
    (execTekExpiry x1 group s) := by
  unfold execTekExpiry
  with_reducible repeat' first | assumption | apply kept_ev | apply kept_expireTeks | intro s₁ h₁

theorem kept_execRolloverDeadline (x1 : ℕ) (s : State) (h0 : Kept q τ W r₀ s) [Can W .sent] [Can W .regs] [Can W .cmd] [Can W .keys]
    [Can W .dks] [Can W .obs] [Can W .evr] : KeptOut q τ W r₀ (execRolloverDeadline x1 s) := by
  unfold execRolloverDeadline
  with_reducible repeat' first | assumption | apply kept_ev | apply kept_rolloverDue | intro s₁ h₁

theorem kept_startSvc (kind : ℕ) (ds : List Delivery) (o : SvcOp) (s : State) (h0 : Kept q τ W r₀ s) [Can W .sent] [Can W .dks]
    : Kept q τ W r₀ (startSvc kind ds o s) := by
  unfold startSvc
  with_reducible repeat' first
    | assumption | (extract_lets +onlyGivenNames x; clear_value x; revert x; intro _) | apply kept_pump
    | simp -zeta only [kept_mk, can, true_or, or_true]

theorem kept_settleSvc (o : SvcOp) (s : State) (h0 : Kept q τ W r₀ s) [Can W .sent] [Can W .regs] [Can W .cmd] [Can W .keys]
    [Can W .dks] [Can W .obs] : Kept q τ W r₀ (settleSvc o s) := by
  unfold settleSvc
  with_reducible repeat' first
    | assumption | (extract_lets +onlyGivenNames x; clear_value x; revert x; intro _) | apply kept_endSvc | split

theorem kept_settleAllSvc (s : State) (h0 : Kept q τ W r₀ s) [Can W .sent] [Can W .regs] [Can W .cmd] [Can W .keys] [Can W .dks]
    [Can W .obs] : Kept q τ W r₀ (settleAllSvc s) := by
  unfold settleAllSvc
  with_reducible repeat' first | assumption | apply kept_settleSvc | refine kept_foldl _ _ ?_ (fun s₁ x₁ h₁ => ?_)

theorem kept_setDelivery (i : ℕ) (x : Delivery) (s : State) (h0 : Kept q τ W r₀ s) [Can W .dks] : Kept q τ W r₀ (setDelivery i x s) := by
  unfold setDelivery
  with_reducible repeat' first
    | assumption | (extract_lets +onlyGivenNames x; clear_value x; revert x; intro _) | simp -zeta only [kept_mk, can, true_or, or_true]

theorem kept_retry (d : ℕ) (s : State) (h0 : Kept q τ W r₀ s) [Can W .freeCount] [Can W .sent] [Can W .regs] [Can W .cmd] [Can W .keys]
    [Can W .dks] [Can W .obs] [Can W .evr] : Kept q τ W r₀ (retry d s) := by
  unfold retry
  with_reducible repeat' first
    | assumption
    | (extract_lets +onlyGivenNames x; refine (?_ : Kept q τ W r₀ x → _) (?_ : Kept q τ W r₀ x); intro hx; clear_value x; revert x; intro _ _;
        rotate_left; dsimp -zeta only [x]; clear x)
    | apply kept_drawBits | apply kept_pump | apply kept_settleAllSvc | apply kept_setDelivery | apply kept_sendDelivery
    | apply kept_settleRollover | simp -zeta only [kept_mk, can, true_or, or_true] | split

theorem kept_execDksRetry (x1 : ℕ) (device : ℕ) (s : State) (h0 : Kept q τ W r₀ s) [Can W .freeCount] [Can W .sent] [Can W .regs]
    [Can W .cmd] [Can W .keys] [Can W .dks] [Can W .obs] [Can W .evr] : KeptOut q τ W r₀ (execDksRetry x1 device s) := by
  unfold execDksRetry
  with_reducible repeat' first | assumption | apply kept_ev | apply kept_retry | intro s₁ h₁

theorem kept_setRoster (d : ℕ) (x1 : Roster) (s : State) (h0 : Kept q τ W r₀ s) [Can W .dks] : Kept q τ W r₀ (setRoster d x1 s) := by
  unfold setRoster
  with_reducible repeat' first
    | assumption | (extract_lets +onlyGivenNames x; clear_value x; revert x; intro _) | simp -zeta only [kept_mk, can, true_or, or_true]

theorem kept_answered (x : Delivery) (ret : List Word) (s : State) (h0 : Kept q τ W r₀ s) [Can W .regs] [Can W .dks] : Kept q τ W r₀
    (answered x ret s) := by
  unfold answered
  with_reducible repeat' first
    | assumption
    | (extract_lets +onlyGivenNames x; refine (?_ : Kept q τ W r₀ x → _) (?_ : Kept q τ W r₀ x); intro hx; clear_value x; revert x; intro _ _;
        rotate_left; dsimp -zeta only [x]; clear x)
    | (extract_lets +onlyGivenNames x; clear_value x; revert x; intro _) | apply kept_bump | apply kept_deliverTo | apply kept_sendDelta
    | apply kept_setRoster | simp -zeta only [kept_mk, can, true_or, or_true] | split

theorem kept_catchUp (d : ℕ) (s : State) (h0 : Kept q τ W r₀ s) [Can W .dks] : Kept q τ W r₀ (catchUp d s) := by
  unfold catchUp
  with_reducible repeat' first | assumption | apply kept_deliverTo | split

theorem kept_peerCompletion (d : ℕ) (status : ℕ) (handle : ℕ) (ret : List Word) (s : State) (h0 : Kept q τ W r₀ s) [Can W .sent]
    [Can W .regs] [Can W .cmd] [Can W .keys] [Can W .dks] [Can W .obs] [Can W .evr] : Kept q τ W r₀
    (peerCompletion d status handle ret s) := by
  unfold peerCompletion
  with_reducible repeat' first
    | assumption
    | (extract_lets +onlyGivenNames x; refine (?_ : Kept q τ W r₀ x → _) (?_ : Kept q τ W r₀ x); intro hx; clear_value x; revert x; intro _ _;
        rotate_left; dsimp -zeta only [x]; clear x)
    | (extract_lets +onlyGivenNames x; clear_value x; revert x; intro _) | apply kept_answered | apply kept_setDelivery
    | apply kept_settleRollover | apply kept_settleAllSvc | apply kept_pump | apply kept_catchUp
    | simp -zeta only [kept_mk, can, true_or, or_true] | split

theorem kept_execDomainPeerCompletionRx (x1 : ℕ) (device : ℕ) (status : ℕ) (handle : ℕ) (words : List Word) (s : State) (h0
    : Kept q τ W r₀ s) [Can W .sent] [Can W .regs] [Can W .cmd] [Can W .keys] [Can W .dks] [Can W .obs] [Can W .evr] : KeptOut q τ W r₀
    (execDomainPeerCompletionRx x1 device status handle words s) := by
  unfold execDomainPeerCompletionRx
  with_reducible repeat' first | assumption | apply kept_ev | apply kept_peerCompletion | intro s₁ h₁

theorem kept_ansDomainSnapshot (x1 : Hdr) (b : Body) (s : State) (h0 : Kept q τ W r₀ s) [Can W .sent] [Can W .regs] [Can W .time]
    [Can W .dks] [Can W .obs] [Can W .evr] : KeptAns q τ W r₀ (ansDomainSnapshot x1 b s) := by
  unfold ansDomainSnapshot
  with_reducible repeat' first
    | assumption
    | (extract_lets +onlyGivenNames x; refine (?_ : Kept q τ W r₀ x → _) (?_ : Kept q τ W r₀ x); intro hx; clear_value x; revert x; intro _ _;
        rotate_left; dsimp -zeta only [x]; clear x)
    | (extract_lets +onlyGivenNames x; clear_value x; revert x; intro _) | apply kept_armSnap | apply kept_startSvc | exact KeptAns.fail
    | apply KeptAns.done | apply KeptAns.wait | split

theorem kept_gdoiPhase1 (m : GdoiMsg) (s : State) (h0 : Kept q τ W r₀ s) [Can W .sent] [Can W .dks] : Kept q τ W r₀ (gdoiPhase1 m s) := by
  unfold gdoiPhase1
  with_reducible repeat' first
    | assumption | (extract_lets +onlyGivenNames x; clear_value x; revert x; intro _) | apply kept_send
    | simp -zeta only [kept_mk, can, true_or, or_true] | split

theorem kept_gdoiPull (m : GdoiMsg) (s : State) (h0 : Kept q τ W r₀ s) [Can W .sent] [Can W .regs] : Kept q τ W r₀ (gdoiPull m s) := by
  unfold gdoiPull
  with_reducible repeat' first | assumption | apply kept_send | apply kept_bump | split

theorem kept_gdoiRx (m : GdoiMsg) (s : State) (h0 : Kept q τ W r₀ s) [Can W .sent] [Can W .regs] [Can W .dks] : Kept q τ W r₀
    (gdoiRx m s) := by
  unfold gdoiRx
  with_reducible repeat' first | assumption | apply kept_bump | apply kept_gdoiPhase1 | apply kept_gdoiPull | split

theorem kept_arpRx (ip : ℕ) (mac : ℕ) (s : State) (h0 : Kept q τ W r₀ s) [Can W .sent] : Kept q τ W r₀ (arpRx ip mac s) := by
  unfold arpRx
  with_reducible repeat' first | assumption | apply kept_send | split

theorem kept_execArpRequestRx (x1 : ℕ) (ip : ℕ) (mac : ℕ) (s : State) (h0 : Kept q τ W r₀ s) [Can W .sent] : KeptOut q τ W r₀
    (execArpRequestRx x1 ip mac s) := by
  unfold execArpRequestRx
  with_reducible repeat' first | assumption | apply kept_ev | apply kept_arpRx | intro s₁ h₁

theorem kept_ansEnrolAdmit (x1 : Hdr) (b : Body) (sigOk : Bool) (s : State) (h0 : Kept q τ W r₀ s) [Can W .sent] [Can W .regs]
    [Can W .eng] [Can W .dks] [Can W .obs] [Can W .evr] : KeptAns q τ W r₀ (ansEnrolAdmit x1 b sigOk s) := by
  unfold ansEnrolAdmit
  with_reducible repeat' first
    | assumption
    | (extract_lets +onlyGivenNames x; refine (?_ : Kept q τ W r₀ x → _) (?_ : Kept q τ W r₀ x); intro hx; clear_value x; revert x; intro _ _;
        rotate_left; dsimp -zeta only [x]; clear x)
    | (extract_lets +onlyGivenNames x; clear_value x; revert x; intro _) | apply kept_onActive | apply kept_serviceWork
    | apply kept_setRoster | apply kept_record | apply kept_startSvc | simp -zeta only [kept_mk, can, true_or, or_true] | intro s₁ h₁
    | exact KeptAns.fail | apply KeptAns.done | apply KeptAns.wait | split

theorem kept_execDomainEnrolAdmit (x1 : Hdr) (b : Body) (sigOk : Bool) (s : State) (h0 : Kept q τ W r₀ s) [Can W .sent] [Can W .regs]
    [Can W .cmd] [Can W .eng] [Can W .dks] [Can W .obs] [Can W .evr] : KeptOut q τ W r₀ (execDomainEnrolAdmit x1 b sigOk s) := by
  unfold execDomainEnrolAdmit
  with_reducible repeat' first | assumption | apply kept_run | apply kept_inDdr | apply kept_ansEnrolAdmit | intro s₁ h₁

theorem kept_ansGdoiMemberRemove (x1 : Hdr) (b : Body) (s : State) (h0 : Kept q τ W r₀ s) [Can W .dks] : KeptAns q τ W r₀
    (ansGdoiMemberRemove x1 b s) := by
  unfold ansGdoiMemberRemove
  with_reducible repeat' first
    | assumption | (extract_lets +onlyGivenNames x; clear_value x; revert x; intro _) | apply kept_onActive
    | simp -zeta only [kept_mk, can, true_or, or_true] | intro s₁ h₁ | exact KeptAns.fail | apply KeptAns.done | split

theorem kept_execGdoiMemberRemove (x1 : Hdr) (b : Body) (s : State) (h0 : Kept q τ W r₀ s) [Can W .sent] [Can W .regs] [Can W .cmd]
    [Can W .dks] [Can W .obs] [Can W .evr] : KeptOut q τ W r₀ (execGdoiMemberRemove x1 b s) := by
  unfold execGdoiMemberRemove
  with_reducible repeat' first | assumption | apply kept_run | apply kept_inDdr | apply kept_ansGdoiMemberRemove | intro s₁ h₁

theorem kept_takePackage (b : Body) (x : Bundle) (s : State) (h0 : Kept q τ W r₀ s) [Can W .dks] : KeptAns q τ W r₀
    (takePackage b x s) := by
  unfold takePackage
  with_reducible repeat' first
    | assumption | (extract_lets +onlyGivenNames x; clear_value x; revert x; intro _) | simp -zeta only [kept_mk, can, true_or, or_true]
    | exact KeptAns.fail | apply KeptAns.done | split

theorem kept_ansTenantRateSet (x1 : Hdr) (b : Body) (s : State) (h0 : Kept q τ W r₀ s) [Can W .dks] : KeptAns q τ W r₀
    (ansTenantRateSet x1 b s) := by
  unfold ansTenantRateSet
  with_reducible repeat' first
    | assumption | (extract_lets +onlyGivenNames x; clear_value x; revert x; intro _) | apply kept_onActive
    | simp -zeta only [kept_mk, can, true_or, or_true] | intro s₁ h₁ | exact KeptAns.fail | exact KeptAns.hold | apply KeptAns.done
    | split

theorem kept_createDomain (s : State) (h0 : Kept q τ W r₀ s) [Can W .freeCount] [Can W .keys] [Can W .dks] : KeptOpt q τ W r₀
    (createDomain s) := by
  unfold createDomain
  with_reducible repeat' first
    | assumption | (extract_lets +onlyGivenNames x; clear_value x; revert x; intro _) | apply kept_storeAll | apply kept_drawBits
    | simp -zeta only [kept_mk, can, true_or, or_true] | exact keptOpt_none | apply keptOpt_some | split
    | refine kept_optFst (by assumption) ?_

theorem kept_ansDomainRollover (x1 : Hdr) (b : Body) (s : State) (h0 : Kept q τ W r₀ s) [Can W .freeCount] [Can W .sent] [Can W .cmd]
    [Can W .keys] [Can W .eng] [Can W .dks] [Can W .obs] : KeptAns q τ W r₀ (ansDomainRollover x1 b s) := by
  unfold ansDomainRollover
  with_reducible repeat' first
    | assumption
    | (extract_lets +onlyGivenNames x; refine (?_ : Kept q τ W r₀ x → _) (?_ : Kept q τ W r₀ x); intro hx; clear_value x; revert x; intro _ _;
        rotate_left; dsimp -zeta only [x]; clear x)
    | (extract_lets +onlyGivenNames x; clear_value x; revert x; intro _) | apply kept_onActive | apply kept_dual | apply kept_serviceWork
    | apply kept_storeAll | apply kept_createDomain | apply kept_startOp | apply kept_pump | apply kept_deliverTo
    | apply kept_deliverBundles | simp -zeta only [kept_mk, can, true_or, or_true] | intro s₁ h₁ | exact KeptAns.fail | apply KeptAns.prog
    | apply keptOpt_some | split | refine kept_opt (by assumption) ?_ | refine kept_optFst (by assumption) ?_

theorem kept_ansEnrolRevoke (x1 : Hdr) (b : Body) (s : State) (h0 : Kept q τ W r₀ s) [Can W .sent] [Can W .regs] [Can W .cmd]
    [Can W .dks] [Can W .obs] : KeptAns q τ W r₀ (ansEnrolRevoke x1 b s) := by
  unfold ansEnrolRevoke
  with_reducible repeat' first
    | assumption
    | (extract_lets +onlyGivenNames x; refine (?_ : Kept q τ W r₀ x → _) (?_ : Kept q τ W r₀ x); intro hx; clear_value x; revert x; intro _ _;
        rotate_left; dsimp -zeta only [x]; clear x)
    | (extract_lets +onlyGivenNames x; clear_value x; revert x; intro _) | apply kept_onActive | apply kept_setRoster | apply kept_pump
    | apply kept_sendDelta | apply kept_endCred | simp -zeta only [kept_mk, can, true_or, or_true] | intro s₁ h₁ | exact KeptAns.fail
    | apply KeptAns.done | split

theorem kept_execDomainEnrolRevoke (x1 : Hdr) (b : Body) (s : State) (h0 : Kept q τ W r₀ s) [Can W .sent] [Can W .regs] [Can W .cmd]
    [Can W .dks] [Can W .obs] [Can W .evr] : KeptOut q τ W r₀ (execDomainEnrolRevoke x1 b s) := by
  unfold execDomainEnrolRevoke
  with_reducible repeat' first | assumption | apply kept_run | apply kept_inDdr | apply kept_ansEnrolRevoke | intro s₁ h₁

theorem kept_ansGdoiMemberAdd (x1 : Hdr) (b : Body) (s : State) (h0 : Kept q τ W r₀ s) [Can W .dks] : KeptAns q τ W r₀
    (ansGdoiMemberAdd x1 b s) := by
  unfold ansGdoiMemberAdd
  with_reducible repeat' first
    | assumption | (extract_lets +onlyGivenNames x; clear_value x; revert x; intro _) | apply kept_onActive
    | simp -zeta only [kept_mk, can, true_or, or_true] | intro s₁ h₁ | exact KeptAns.fail | apply KeptAns.done | split

theorem kept_ansDistribute (b : Body) (s : State) (h0 : Kept q τ W r₀ s) [Can W .freeCount] [Can W .sent] [Can W .keys] [Can W .eng]
    [Can W .dks] [Can W .obs] : KeptAns q τ W r₀ (ansDistribute b s) := by
  unfold ansDistribute
  with_reducible repeat' first
    | assumption
    | (extract_lets +onlyGivenNames x; refine (?_ : Kept q τ W r₀ x → _) (?_ : Kept q τ W r₀ x); intro hx; clear_value x; revert x; intro _ _;
        rotate_left; dsimp -zeta only [x]; clear x)
    | (extract_lets +onlyGivenNames x; clear_value x; revert x; intro _) | apply kept_serviceWork | apply kept_startSvc
    | apply kept_storeKey | apply kept_deliverBundles | simp -zeta only [kept_mk, can, true_or, or_true] | intro s₁ h₁
    | exact KeptAns.fail | apply KeptAns.wait | split | refine kept_optFst (by assumption) ?_

theorem kept_installTrunkKey (e : Elem) (out : Body) (s : State) (h0 : Kept q τ W r₀ s) [Can W .sent] [Can W .lane] [Can W .sas]
    [Can W .bnd] [Can W .keys] [Can W .dks] [Can W .obs] : KeptAns q τ W r₀ (installTrunkKey e out s) := by
  unfold installTrunkKey
  with_reducible repeat' first
    | assumption | apply kept_applyKeyElem | apply kept_mirror | exact KeptAns.fail | apply KeptAns.done | split
    | refine kept_inl (by assumption) ?_

theorem kept_takeTrunkKey (b : Body) (end_ : ℕ) (value : ℕ) (more : Body) (s : State) (h0 : Kept q τ W r₀ s) [Can W .sent] [Can W .lane]
    [Can W .sas] [Can W .bnd] [Can W .keys] [Can W .dks] [Can W .obs] : KeptAns q τ W r₀ (takeTrunkKey b end_ value more s) := by
  unfold takeTrunkKey
  with_reducible repeat' first
    | assumption | apply kept_storeValue | apply kept_installTrunkKey | exact KeptAns.fail | apply KeptAns.done | split
    | refine kept_optFst (by assumption) ?_

theorem kept_agreeTrunk (b : Body) (x : Bundle) (s : State) (h0 : Kept q τ W r₀ s) [Can W .freeCount] [Can W .sent] [Can W .lane]
    [Can W .sas] [Can W .bnd] [Can W .keys] [Can W .eng] [Can W .dks] [Can W .obs] : KeptAns q τ W r₀ (agreeTrunk b x s) := by
  unfold agreeTrunk
  with_reducible repeat' first
    | assumption
    | (extract_lets +onlyGivenNames x; refine (?_ : Kept q τ W r₀ x → _) (?_ : Kept q τ W r₀ x); intro hx; clear_value x; revert x; intro _ _;
        rotate_left; dsimp -zeta only [x]; clear x)
    | (extract_lets +onlyGivenNames x; clear_value x; revert x; intro _) | apply kept_withDrbg | apply kept_drawBits
    | apply kept_takeTrunkKey | simp -zeta only [kept_mk, can, true_or, or_true] | intro s₁ h₁ | exact KeptAns.fail | apply KeptAns.done
    | apply KeptAns.spent | split

theorem kept_takeCommit (b : Body) (x : Bundle) (s : State) (h0 : Kept q τ W r₀ s) [Can W .keys] [Can W .dks] : KeptAns q τ W r₀
    (takeCommit b x s) := by
  unfold takeCommit
  with_reducible repeat' first
    | assumption
    | (extract_lets +onlyGivenNames x; refine (?_ : Kept q τ W r₀ x → _) (?_ : Kept q τ W r₀ x); intro hx; clear_value x; revert x; intro _ _;
        rotate_left; dsimp -zeta only [x]; clear x)
    | (extract_lets +onlyGivenNames x; clear_value x; revert x; intro _) | apply kept_eraseAll
    | simp -zeta only [kept_mk, can, true_or, or_true] | exact KeptAns.fail | apply KeptAns.done | split

theorem kept_takeBundle (b : Body) (x : Bundle) (s : State) (h0 : Kept q τ W r₀ s) [Can W .keys] [Can W .dks] : KeptAns q τ W r₀
    (takeBundle b x s) := by
  unfold takeBundle
  with_reducible repeat' first
    | assumption
    | (extract_lets +onlyGivenNames x; refine (?_ : Kept q τ W r₀ x → _) (?_ : Kept q τ W r₀ x); intro hx; clear_value x; revert x; intro _ _;
        rotate_left; dsimp -zeta only [x]; clear x)
    | (extract_lets +onlyGivenNames x; clear_value x; revert x; intro _) | apply kept_copyPolicy | apply kept_storeValue
    | simp -zeta only [kept_mk, can, true_or, or_true] | exact KeptAns.fail | apply KeptAns.done | split
    | refine kept_optFst (by assumption) ?_

theorem kept_ansTarget (x1 : Hdr) (b : Body) (x : Bundle) (s : State) (h0 : Kept q τ W r₀ s) [Can W .freeCount] [Can W .sent]
    [Can W .lane] [Can W .sas] [Can W .bnd] [Can W .keys] [Can W .eng] [Can W .dks] [Can W .obs] : KeptAns q τ W r₀
    (ansTarget x1 b x s) := by
  unfold ansTarget
  with_reducible repeat' first
    | assumption | apply kept_brief | apply kept_agreeTrunk | apply kept_takePackage | apply kept_takeCommit | apply kept_takeAbort
    | apply kept_takeBundle | intro s₁ h₁ | exact KeptAns.fail | split

theorem kept_ansDomainKeyDistribute (x1 : Hdr) (b : Body) (bundle : Option Bundle) (s : State) (h0 : Kept q τ W r₀ s) [Can W .freeCount]
    [Can W .sent] [Can W .lane] [Can W .sas] [Can W .bnd] [Can W .keys] [Can W .eng] [Can W .dks] [Can W .obs] : KeptAns q τ W r₀
    (ansDomainKeyDistribute x1 b bundle s) := by
  unfold ansDomainKeyDistribute
  with_reducible repeat' first
    | assumption | apply kept_onActive | apply kept_ansDistribute | apply kept_ansTarget | intro s₁ h₁ | exact KeptAns.fail | split

theorem kept_ansGroupPolicySet (x1 : Hdr) (b : Body) (s : State) (h0 : Kept q τ W r₀ s) [Can W .freeCount] [Can W .sent] [Can W .keys]
    [Can W .eng] [Can W .dks] [Can W .obs] : KeptAns q τ W r₀ (ansGroupPolicySet x1 b s) := by
  unfold ansGroupPolicySet
  with_reducible repeat' first
    | assumption
    | (extract_lets +onlyGivenNames x; refine (?_ : Kept q τ W r₀ x → _) (?_ : Kept q τ W r₀ x); intro hx; clear_value x; revert x; intro _ _;
        rotate_left; dsimp -zeta only [x]; clear x)
    | (extract_lets +onlyGivenNames x; refine (?_ : (∀ v, Kept q τ W r₀ v → Kept q τ W r₀ (x v)) → _) (?_ : ∀ v, Kept q τ W r₀ v → Kept q τ W r₀ (x v)); intro hx; clear_value x; revert x; intro _ hx;
        rotate_left; dsimp -zeta only [x]; clear x)
    | (extract_lets +onlyGivenNames x; clear_value x; revert x; intro _) | apply kept_onActive | apply kept_eraseAll
    | apply kept_copyGroup | apply kept_serviceWork | apply kept_newTek | simp -zeta only [kept_mk, can, true_or, or_true] | intro s₁ h₁
    | exact KeptAns.fail | apply KeptAns.done | refine hx _ ?_ | split | refine kept_optFst (by assumption) ?_

theorem kept_execGroupPolicySet (x1 : Hdr) (b : Body) (s : State) (h0 : Kept q τ W r₀ s) [Can W .freeCount] [Can W .sent] [Can W .regs]
    [Can W .cmd] [Can W .keys] [Can W .eng] [Can W .dks] [Can W .obs] [Can W .evr] : KeptOut q τ W r₀ (execGroupPolicySet x1 b s) := by
  unfold execGroupPolicySet
  with_reducible repeat' first | assumption | apply kept_run | apply kept_inDdr | apply kept_ansGroupPolicySet | intro s₁ h₁

theorem kept_execDomainKeyDistribute (x1 : Hdr) (b : Body) (bundle : Option Bundle) (s : State) (h0 : Kept q τ W r₀ s)
    [Can W .freeCount] [Can W .sent] [Can W .regs] [Can W .cmd] [Can W .lane] [Can W .sas] [Can W .bnd] [Can W .keys] [Can W .eng]
    [Can W .dks] [Can W .obs] [Can W .evr] : KeptOut q τ W r₀ (execDomainKeyDistribute x1 b bundle s) := by
  unfold execDomainKeyDistribute
  with_reducible repeat' first | assumption | apply kept_run | apply kept_inDdr | apply kept_ansDomainKeyDistribute | intro s₁ h₁

theorem kept_execGdoiMessageRx (x1 : ℕ) (msg : GdoiMsg) (s : State) (h0 : Kept q τ W r₀ s) [Can W .sent] [Can W .regs] [Can W .dks]
    : KeptOut q τ W r₀ (execGdoiMessageRx x1 msg s) := by
  unfold execGdoiMessageRx
  with_reducible repeat' first | assumption | apply kept_ev | apply kept_gdoiRx | intro s₁ h₁

theorem kept_execEphemeralKeyRotate (x1 : ℕ) (s : State) (h0 : Kept q τ W r₀ s) [Can W .freeCount] [Can W .dks] : KeptOut q τ W r₀
    (execEphemeralKeyRotate x1 s) := by
  unfold execEphemeralKeyRotate
  with_reducible repeat' first | assumption | apply kept_ev | apply kept_rotateEph | intro s₁ h₁

theorem kept_execDomainSnapshot (x1 : Hdr) (b : Body) (s : State) (h0 : Kept q τ W r₀ s) [Can W .sent] [Can W .regs] [Can W .cmd]
    [Can W .time] [Can W .dks] [Can W .obs] [Can W .evr] : KeptOut q τ W r₀ (execDomainSnapshot x1 b s) := by
  unfold execDomainSnapshot
  with_reducible repeat' first | assumption | apply kept_run | apply kept_inDdr | apply kept_ansDomainSnapshot | intro s₁ h₁

theorem kept_execDomainRollover (x1 : Hdr) (b : Body) (s : State) (h0 : Kept q τ W r₀ s) [Can W .freeCount] [Can W .sent] [Can W .regs]
    [Can W .cmd] [Can W .keys] [Can W .eng] [Can W .dks] [Can W .obs] [Can W .evr] : KeptOut q τ W r₀ (execDomainRollover x1 b s) := by
  unfold execDomainRollover
  with_reducible repeat' first | assumption | apply kept_run | apply kept_inDdr | apply kept_ansDomainRollover | intro s₁ h₁

theorem kept_execGdoiMemberAdd (x1 : Hdr) (b : Body) (s : State) (h0 : Kept q τ W r₀ s) [Can W .sent] [Can W .regs] [Can W .cmd]
    [Can W .dks] [Can W .obs] [Can W .evr] : KeptOut q τ W r₀ (execGdoiMemberAdd x1 b s) := by
  unfold execGdoiMemberAdd
  with_reducible repeat' first | assumption | apply kept_run | apply kept_inDdr | apply kept_ansGdoiMemberAdd | intro s₁ h₁

theorem kept_execTenantRateSet (x1 : Hdr) (b : Body) (s : State) (h0 : Kept q τ W r₀ s) [Can W .sent] [Can W .regs] [Can W .cmd]
    [Can W .dks] [Can W .obs] [Can W .evr] : KeptOut q τ W r₀ (execTenantRateSet x1 b s) := by
  unfold execTenantRateSet
  with_reducible repeat' first | assumption | apply kept_run | apply kept_ansTenantRateSet | intro s₁ h₁

end Sys2Proof.Machine
end

