-- ==== Sys2Proof/Laws/KeptMemory.lean ====
section
/-! SUPPORT. What every operation keeps: memory, tamper, power, observation and boot. One lemma for each function; `Kept` is defined in Laws/Kept.lean. -/
namespace Sys2Proof.Machine
open Sys2Proof
set_option linter.unusedSimpArgs false
set_option linter.unusedTactic false
set_option linter.unreachableTactic false
variable {q : List Instr} {τ : Nat} {W : Part → Bool} {r₀ : State}

/-! ## Memory -/

/-- Replacing a channel keeps the canonical form where the new one's data has it, and is what it was where data may not change. -/
theorem kept_setChannel (ch : Nat) (c : Channel) (s : State) (h0 : Kept q τ W r₀ s) (hc : DataOk W r₀ ch c.data)
    [Can W .mem] : Kept q τ W r₀ (setChannel ch c s) := by
  unfold setChannel
  split
  · rename_i h
    subst h
    exact ⟨h0.queue, h0.time, h0.regs, hc, h0.mem1, fun p hp => by
      have hf := h0.frame p hp
      cases p <;> first | exact hf | exact ⟨hc.2 hp, hf.2⟩ | exact absurd hp (by simp [can])⟩
  · rename_i h
    have hc' : DataOk W r₀ 1 c.data := ⟨hc.1, fun e => (hc.2 e).trans (by simp [channel, h])⟩
    exact ⟨h0.queue, h0.time, h0.regs, h0.mem0, hc', fun p hp => by
      have hf := h0.frame p hp
      cases p <;> first | exact hf | exact ⟨hf.1, hc'.2 hp⟩ | exact absurd hp (by simp [can])⟩

theorem ok_channel {s : State} (h0 : Kept q τ W r₀ s) (ch : Nat) : DataOk W r₀ ch (channel s ch).data := by
  unfold channel
  split
  · rename_i h; subst h; exact h0.mem0
  · rename_i h; exact ⟨h0.mem1.1, fun e => (h0.mem1.2 e).trans (by simp [channel, h])⟩

/-- A change of the memory controller that leaves the data of both channels as it is. -/
theorem kept_memEq {s s' : State} (h : Kept q τ W r₀ s) [Can W .mem] (e : s' = { s with mem := s'.mem })
    (h4 : s'.mem.c0.data = s.mem.c0.data) (h5 : s'.mem.c1.data = s.mem.c1.data) : Kept q τ W r₀ s' := by
  rw [e]
  exact ⟨h.queue, h.time, h.regs, h4 ▸ h.mem0, h5 ▸ h.mem1, fun p hp => Part.same_trans
    (by cases p <;> first | rfl | exact ⟨h4, h5⟩ | exact absurd hp (by simp [can])) (h.frame p hp)⟩

/-- A byte stored keeps the canonical form. -/
theorem wf_ddrPut {d : List Host.Cell} (h : Memory.wf d = true) (a : Nat) (v : BitVec 8) : Memory.wf (ddrPut d a v) = true := by
  simp only [Memory.wf, Bool.and_eq_true] at h ⊢
  unfold ddrPut
  split
  · exact ⟨wfTable_del h.1 a, all_del h.2 a⟩
  · rename_i hv
    exact ⟨wfTable_put h.1 a v, all_put h.2 (by simpa using hv)⟩

/-- Words stored keep the canonical form. -/
theorem wf_putWords {d : List Host.Cell} (h : Memory.wf d = true) (a : Nat) (ws : List Word) : Memory.wf (putWords d a ws) = true := by
  have key : ∀ (l : List Nat) (x : List Host.Cell × Nat), Memory.wf x.1 = true →
      Memory.wf ((l.foldl (fun (x : List Host.Cell × Nat) b => (ddrPut x.1 x.2 (BitVec.ofNat 8 b), x.2 + 1)) x)).1 = true := by
    intro l
    induction l with
    | nil => exact fun _ h => h
    | cons b r ih => exact fun x hx => ih _ (wf_ddrPut hx _ _)
  exact key _ _ h

theorem ok_putWords {ch d} (h : DataOk W r₀ ch d) (a : Nat) (ws : List Word) [Can W .ddr] :
    DataOk W r₀ ch (putWords d a ws) := ⟨wf_putWords h.1 a ws, fun e => absurd (can (W := W) (p := .ddr)) (by simp [e])⟩

/-- The channel as a partial write merges with it keeps the canonical form. -/
theorem ok_mergedLine {s : State} (h0 : Kept q τ W r₀ s) (ch addr : Nat) (whole : Bool) (f : MemFault) [Can W .ddr] :
    DataOk W r₀ ch (mergedLine ch addr whole f s).data := by
  unfold mergedLine
  split
  · split
    · exact ok_channel h0 ch
    · exact ok_putWords (ok_channel h0 ch) _ _
  · exact ok_channel h0 ch

theorem kept_startRoll (op : Option ℕ) (s : State) (h0 : Kept q τ W r₀ s) [Can W .freeCount] [Can W .eng] [Can W .mem] [Can W .obs]
    : Kept q τ W r₀ (startRoll op s) := by
  unfold startRoll
  with_reducible repeat' first
    | assumption | (extract_lets +onlyGivenNames x; have hx : x = (x : MemSt) := rfl; clear hx; dsimp -zeta only [x]; clear x)
    | apply kept_drawBits | apply kept_drbgUse | simp -zeta only [kept_mk, can, true_or, or_true]
    | simp -zeta only [kept_mkMem, can, true_or, or_true]

theorem kept_ansMemKeyRoll (x1 : Hdr) (s : State) (h0 : Kept q τ W r₀ s) [Can W .freeCount] [Can W .cmd] [Can W .eng] [Can W .mem]
    [Can W .obs] : KeptAns q τ W r₀ (ansMemKeyRoll x1 s) := by
  unfold ansMemKeyRoll
  with_reducible repeat' first
    | assumption | (extract_lets +onlyGivenNames x; clear_value x; revert x; intro _) | apply kept_withDrbg | apply kept_startRoll
    | apply kept_startOp | intro s₁ h₁ | exact KeptAns.fail | exact KeptAns.defer | apply KeptAns.prog | split

theorem kept_putLine (ch : ℕ) (addr : ℕ) (s : State) (h0 : Kept q τ W r₀ s) [Can W .sent] : Kept q τ W r₀ (putLine ch addr s) := by
  unfold putLine
  with_reducible repeat' first | assumption | (extract_lets +onlyGivenNames x; clear_value x; revert x; intro _) | apply kept_send

theorem kept_writeNode (ch : ℕ) (node : ℕ) (s : State) (h0 : Kept q τ W r₀ s) [Can W .sent] [Can W .mem] : Kept q τ W r₀
    (writeNode ch node s) := by
  unfold writeNode
  with_reducible repeat' first
    | assumption
    | (extract_lets +onlyGivenNames x; refine (?_ : DataOk W r₀ ch x.data → _) (?_ : DataOk W r₀ ch x.data); intro hx; clear_value x; revert x; intro _ _;
        rotate_left; dsimp -zeta only [x]; clear x)
    | exact ok_channel (by assumption) _ | refine kept_setChannel _ _ _ ?_ ?_ | apply kept_putLine
    | simp -zeta only [kept_mk, can, true_or, or_true] | split

theorem kept_memAnswer (master : ℕ) (ws : List Word) (err : Bool) (s : State) (h0 : Kept q τ W r₀ s) [Can W .sent] : Kept q τ W r₀
    (memAnswer master ws err s) := by
  unfold memAnswer
  with_reducible repeat' first | assumption | apply kept_send

theorem kept_wallHit (master : ℕ) (ch : ℕ) (addr : ℕ) (write : Bool) (s : State) (h0 : Kept q τ W r₀ s) [Can W .sent] [Can W .regs]
    [Can W .obs] [Can W .evr] : Kept q τ W r₀ (wallHit master ch addr write s) := by
  unfold wallHit
  with_reducible repeat' first | assumption | apply kept_memAnswer | apply kept_record | apply kept_perf | apply kept_bump

theorem kept_useNode (ch : ℕ) (node : ℕ) (dirty : Bool) (s : State) (h0 : Kept q τ W r₀ s) [Can W .mem] [Can W .obs] : Kept q τ W r₀
    (useNode ch node dirty s) := by
  unfold useNode
  with_reducible repeat' first
    | (apply kept_memEq; assumption; all_goals rfl)
    | (extract_lets +onlyGivenNames x; have hx : x = (x : MemSt) := rfl; clear hx; dsimp -zeta only [x]; clear x)
    | (extract_lets +onlyGivenNames x; clear_value x; revert x; intro _) | apply kept_perf

theorem kept_flushNodes (s : State) (h0 : Kept q τ W r₀ s) [Can W .sent] [Can W .mem] [Can W .obs] : Kept q τ W r₀ (flushNodes s) := by
  unfold flushNodes
  with_reducible repeat' first
    | assumption | (apply kept_memEq; assumption; all_goals rfl)
    | (extract_lets +onlyGivenNames x; refine (?_ : Kept q τ W r₀ x → _) (?_ : Kept q τ W r₀ x); intro hx; clear_value x; revert x; intro _ _;
        rotate_left; dsimp -zeta only [x]; clear x)
    | apply kept_writeNode | apply kept_useNode | refine kept_foldl _ _ ?_ (fun s₁ x₁ h₁ => ?_) | split

theorem kept_sweepEnd (s : State) (h0 : Kept q τ W r₀ s) [Can W .sent] [Can W .regs] [Can W .cmd] [Can W .mem] [Can W .obs] [Can W .evr]
    : Kept q τ W r₀ (sweepEnd s) := by
  unfold sweepEnd
  with_reducible repeat' first
    | assumption | (apply kept_memEq; assumption; all_goals rfl)
    | (extract_lets +onlyGivenNames x; have hx : x = (x : MemSt) := rfl; clear hx; dsimp -zeta only [x]; clear x)
    | (extract_lets +onlyGivenNames x; refine (?_ : Kept q τ W r₀ x → _) (?_ : Kept q τ W r₀ x); intro hx; clear_value x; revert x; intro _ _;
        rotate_left; dsimp -zeta only [x]; clear x)
    | apply kept_flushNodes | apply kept_record | apply kept_endOp | split

theorem kept_startMemory (s : State) (h0 : Kept q τ W r₀ s) [Can W .mem] : Kept q τ W r₀ (startMemory s) := by
  unfold startMemory
  with_reducible repeat' first
    | assumption | (apply kept_memEq; assumption; all_goals rfl)
    | (extract_lets +onlyGivenNames x; have hx : x = (x : MemSt) := rfl; clear hx; dsimp -zeta only [x]; clear x) | split

theorem kept_trained (ch : Nat) (ok : Bool) (cap : Nat) (s : State) (h0 : Kept q τ W r₀ s) [Can W .regs] [Can W .mem] [Can W .obs]
    [Can W .evr] : Kept q τ W r₀ (trained ch ok cap s) := by
  unfold trained
  extract_lets c s₁ off
  split
  · exact h0
  · have h1 : Kept q τ W r₀ s₁ := kept_setChannel _ _ _ h0 (ok_channel h0 _)
    split
    · exact kept_startMemory _ h1
    · split
      · exact h1
      · exact kept_record _ _ _ (kept_memEq h1 rfl rfl rfl)

theorem kept_rollDue (s : State) (h0 : Kept q τ W r₀ s) [Can W .freeCount] [Can W .eng] [Can W .mem] [Can W .obs] : Kept q τ W r₀
    (rollDue s) := by
  unfold rollDue
  with_reducible repeat' first | assumption | apply kept_startRoll | split

theorem kept_enterHalt (cause : ℕ) (s : State) (h0 : Kept q τ W r₀ s) [Can W .sent] [Can W .regs] [Can W .cmd] [Can W .lane]
    [Can W .port] [Can W .sas] [Can W .brk] [Can W .trk] [Can W .que] [Can W .bnd] [Can W .keys] [Can W .eng] [Can W .dks] [Can W .mem]
    [Can W .obs] [Can W .evr] : Kept q τ W r₀ (enterHalt cause s) := by
  unfold enterHalt
  with_reducible repeat' first
    | assumption | (apply kept_memEq; assumption; all_goals rfl)
    | (extract_lets +onlyGivenNames x; have hx : x = (x : MemSt) := rfl; clear hx; dsimp -zeta only [x]; clear x)
    | (extract_lets +onlyGivenNames x; refine (?_ : Kept q τ W r₀ x → _) (?_ : Kept q τ W r₀ x); intro hx; clear_value x; revert x; intro _ _;
        rotate_left; dsimp -zeta only [x]; clear x)
    | (extract_lets +onlyGivenNames x; clear_value x; revert x; intro _) | apply kept_resign | apply kept_flushDatapath
    | apply kept_abortJobs | apply kept_zeroiseSas | apply kept_finish | apply kept_snapTrigger
    | refine kept_foldl _ _ ?_ (fun s₁ x₁ h₁ => ?_)

theorem kept_integrityFail (kind : ℕ) (master : ℕ) (ch : ℕ) (addr : ℕ) (s : State) (h0 : Kept q τ W r₀ s) [Can W .sent] [Can W .regs]
    [Can W .cmd] [Can W .lane] [Can W .port] [Can W .sas] [Can W .brk] [Can W .trk] [Can W .que] [Can W .bnd] [Can W .keys] [Can W .eng]
    [Can W .dks] [Can W .mem] [Can W .obs] [Can W .evr] : Kept q τ W r₀ (integrityFail kind master ch addr s) := by
  unfold integrityFail
  with_reducible repeat' first
    | assumption
    | (extract_lets +onlyGivenNames x; refine (?_ : Kept q τ W r₀ x → _) (?_ : Kept q τ W r₀ x); intro hx; clear_value x; revert x; intro _ _;
        rotate_left; dsimp -zeta only [x]; clear x)
    | apply kept_bumpFld | apply kept_setReg | apply kept_enterHalt | apply kept_record | apply kept_notify | split

theorem kept_memInitialised (s : State) (h0 : Kept q τ W r₀ s) [Can W .mem] : Kept q τ W r₀ (memInitialised s) := by
  unfold memInitialised
  with_reducible repeat' first
    | assumption | (apply kept_memEq; assumption; all_goals rfl)
    | (extract_lets +onlyGivenNames x; have hx : x = (x : MemSt) := rfl; clear hx; dsimp -zeta only [x]; clear x) | split

theorem kept_drawMemKey (s : State) (h0 : Kept q τ W r₀ s) [Can W .freeCount] [Can W .eng] [Can W .mem] [Can W .obs] : Kept q τ W r₀
    (drawMemKey s) := by
  unfold drawMemKey
  with_reducible repeat' first
    | assumption | (extract_lets +onlyGivenNames x; have hx : x = (x : MemSt) := rfl; clear hx; dsimp -zeta only [x]; clear x)
    | apply kept_drawBits | apply kept_drbgUse | simp -zeta only [kept_mk, can, true_or, or_true]
    | simp -zeta only [kept_mkMem, can, true_or, or_true]

theorem kept_usePath (ch : ℕ) (level : ℕ) (idx : ℕ) (dirty : Bool) (s : State) (h0 : Kept q τ W r₀ s) [Can W .mem] [Can W .obs]
    : Kept q τ W r₀ (usePath ch level idx dirty s) := by
  unfold usePath
  with_reducible repeat' first
    | assumption
    | (extract_lets +onlyGivenNames x; refine (?_ : Kept q τ W r₀ x → _) (?_ : Kept q τ W r₀ x); intro hx; clear_value x; revert x; intro _ _;
        rotate_left; dsimp -zeta only [x]; clear x)
    | apply kept_useNode | refine kept_foldl _ _ ?_ (fun s₁ x₁ h₁ => ?_)

theorem kept_trimCache (n : Nat) (s : State) (h0 : Kept q τ W r₀ s) [Can W .sent] [Can W .mem] [Can W .obs] : Kept q τ W r₀
    (trimCache n s) := by
  induction n generalizing s with
  | zero => exact h0
  | succ n ih =>
    unfold trimCache
    split
    · exact h0
    · split
      · exact h0
      · rename_i k dirty r e
        have h1 : Kept q τ W r₀ { s with mem := { s.mem with cache := r } } := kept_memEq h0 rfl rfl rfl
        extract_lets _ s₁
        have h2 : Kept q τ W r₀ s₁ := h1
        clear_value s₁
        split
        · exact ih _ h2
        · refine ih _ ?_
          split
          · exact kept_usePath _ _ _ _ _ (kept_writeNode _ _ _ h2)
          · exact kept_writeNode _ _ _ h2

theorem kept_verifyPath (ch : ℕ) (addr : ℕ) (dirty : Bool) (s : State) (h0 : Kept q τ W r₀ s) [Can W .sent] [Can W .mem] [Can W .obs]
    : Kept q τ W r₀ (verifyPath ch addr dirty s) := by
  unfold verifyPath
  with_reducible repeat' first | assumption | apply kept_trimCache | apply kept_usePath

theorem kept_countLine (ch : ℕ) (addr : ℕ) (s : State) (h0 : Kept q τ W r₀ s) [Can W .sent] [Can W .mem] [Can W .obs] : Kept q τ W r₀
    (countLine ch addr s) := by
  unfold countLine
  with_reducible repeat' first
    | assumption
    | (extract_lets +onlyGivenNames x; refine (?_ : DataOk W r₀ ch x.data → _) (?_ : DataOk W r₀ ch x.data); intro hx; clear_value x; revert x; intro _ _;
        rotate_left; dsimp -zeta only [x]; clear x)
    | exact ok_channel (by assumption) _ | refine kept_setChannel _ _ _ ?_ ?_
    | (extract_lets +onlyGivenNames x; clear_value x; revert x; intro _) | apply kept_verifyPath
    | simp -zeta only [kept_mk, can, true_or, or_true] | split

theorem kept_execMemKeyRoll (x1 : Hdr) (b : Body) (s : State) (h0 : Kept q τ W r₀ s) [Can W .freeCount] [Can W .sent] [Can W .regs]
    [Can W .cmd] [Can W .eng] [Can W .mem] [Can W .obs] [Can W .evr] : KeptOut q τ W r₀ (execMemKeyRoll x1 b s) := by
  unfold execMemKeyRoll
  with_reducible repeat' first | assumption | apply kept_run | apply kept_ansMemKeyRoll | intro s₁ h₁

theorem kept_execSweepEnd (x1 : ℕ) (s : State) (h0 : Kept q τ W r₀ s) [Can W .sent] [Can W .regs] [Can W .cmd] [Can W .mem] [Can W .obs]
    [Can W .evr] : KeptOut q τ W r₀ (execSweepEnd x1 s) := by
  unfold execSweepEnd
  with_reducible repeat' first | assumption | apply kept_ev | apply kept_sweepEnd | intro s₁ h₁

theorem kept_storeLine (ch : ℕ) (addr : ℕ) (s : State) (h0 : Kept q τ W r₀ s) [Can W .sent] [Can W .mem] [Can W .obs] : Kept q τ W r₀
    (storeLine ch addr s) := by
  unfold storeLine
  with_reducible repeat' first | assumption | apply kept_putLine | apply kept_countLine

theorem kept_correct (ch : ℕ) (addr : ℕ) (dev : ℕ) (s : State) (h0 : Kept q τ W r₀ s) [Can W .freeCount] [Can W .sent] [Can W .regs]
    [Can W .mem] [Can W .obs] [Can W .evr] : Kept q τ W r₀ (correct ch addr dev s) := by
  unfold correct
  with_reducible repeat' first
    | assumption | apply kept_drawBits | apply kept_storeLine | apply kept_record | apply kept_perf | apply kept_bump

theorem kept_repairs (ch : ℕ) (addr : ℕ) (f : MemFault) (s : State) (h0 : Kept q τ W r₀ s) [Can W .freeCount] [Can W .sent]
    [Can W .regs] [Can W .mem] [Can W .obs] [Can W .evr] : Kept q τ W r₀ (repairs ch addr f s) := by
  unfold repairs
  with_reducible repeat' first | assumption | apply kept_correct | apply kept_record | apply kept_bump | split

theorem kept_memRead (master : ℕ) (ch : ℕ) (addr : ℕ) (f : MemFault) (s : State) (h0 : Kept q τ W r₀ s) [Can W .freeCount] [Can W .sent]
    [Can W .regs] [Can W .cmd] [Can W .lane] [Can W .port] [Can W .sas] [Can W .brk] [Can W .trk] [Can W .que] [Can W .bnd]
    [Can W .keys] [Can W .eng] [Can W .dks] [Can W .mem] [Can W .obs] [Can W .evr] : Kept q τ W r₀ (memRead master ch addr f s) := by
  unfold memRead
  with_reducible repeat' first
    | assumption
    | (extract_lets +onlyGivenNames x; refine (?_ : Kept q τ W r₀ x → _) (?_ : Kept q τ W r₀ x); intro hx; clear_value x; revert x; intro _ _;
        rotate_left; dsimp -zeta only [x]; clear x)
    | apply kept_memAnswer | apply kept_bumpFld | apply kept_wallHit | apply kept_integrityFail | apply kept_perf | apply kept_repairs
    | apply kept_verifyPath | split

theorem kept_execMemRead (x1 : ℕ) (master : ℕ) (ch : ℕ) (addr : ℕ) (fault : MemFault) (s : State) (h0 : Kept q τ W r₀ s)
    [Can W .freeCount] [Can W .sent] [Can W .regs] [Can W .cmd] [Can W .lane] [Can W .port] [Can W .sas] [Can W .brk] [Can W .trk]
    [Can W .que] [Can W .bnd] [Can W .keys] [Can W .eng] [Can W .dks] [Can W .mem] [Can W .obs] [Can W .evr] : KeptOut q τ W r₀
    (execMemRead x1 master ch addr fault s) := by
  unfold execMemRead
  with_reducible repeat' first | assumption | apply kept_ev | apply kept_memRead | intro s₁ h₁ | split

theorem kept_ansMemStatus (s : State) (h0 : Kept q τ W r₀ s) : KeptAns q τ W r₀ (ansMemStatus s) := by
  unfold ansMemStatus
  with_reducible repeat' first | assumption | apply KeptAns.done

theorem kept_execMemStatus (x1 : Hdr) (b : Body) (s : State) (h0 : Kept q τ W r₀ s) [Can W .sent] [Can W .regs] [Can W .cmd]
    [Can W .obs] [Can W .evr] : KeptOut q τ W r₀ (execMemStatus x1 b s) := by
  unfold execMemStatus
  with_reducible repeat' first | assumption | apply kept_run | apply kept_ansMemStatus

theorem kept_execKeyRollDue (x1 : ℕ) (s : State) (h0 : Kept q τ W r₀ s) [Can W .freeCount] [Can W .eng] [Can W .mem] [Can W .obs]
    : KeptOut q τ W r₀ (execKeyRollDue x1 s) := by
  unfold execKeyRollDue
  with_reducible repeat' first | assumption | apply kept_ev | apply kept_rollDue | intro s₁ h₁

theorem kept_execDdrTrainingDone (x1 : ℕ) (ch : ℕ) (ok : Bool) (cap : ℕ) (s : State) (h0 : Kept q τ W r₀ s) [Can W .regs] [Can W .mem]
    [Can W .obs] [Can W .evr] : KeptOut q τ W r₀ (execDdrTrainingDone x1 ch ok cap s) := by
  unfold execDdrTrainingDone
  with_reducible repeat' first | assumption | apply kept_ev | apply kept_trained | intro s₁ h₁ | split

theorem kept_execMemInitDone (x1 : ℕ) (s : State) (h0 : Kept q τ W r₀ s) [Can W .mem] : KeptOut q τ W r₀ (execMemInitDone x1 s) := by
  unfold execMemInitDone
  with_reducible repeat' first | assumption | apply kept_ev | apply kept_memInitialised | intro s₁ h₁

theorem kept_memWrite (master : ℕ) (ch : ℕ) (addr : ℕ) (words : List Word) (whole : Bool) (f : MemFault) (s : State) (h0
    : Kept q τ W r₀ s) [Can W .freeCount] [Can W .sent] [Can W .regs] [Can W .cmd] [Can W .lane] [Can W .port] [Can W .sas] [Can W .brk]
    [Can W .trk] [Can W .que] [Can W .bnd] [Can W .keys] [Can W .eng] [Can W .dks] [Can W .mem] [Can W .obs] [Can W .evr] [Can W .ddr]
    : Kept q τ W r₀ (memWrite master ch addr words whole f s) := by
  unfold memWrite
  with_reducible repeat' first
    | assumption
    | (extract_lets +onlyGivenNames x; refine (?_ : DataOk W r₀ ch x.data → _) (?_ : DataOk W r₀ ch x.data); intro hx; clear_value x; revert x; intro _ _;
        rotate_left; dsimp -zeta only [x]; clear x)
    | exact ok_mergedLine (by assumption) _ _ _ _ | apply ok_putWords | refine kept_setChannel _ _ _ ?_ ?_
    | (extract_lets +onlyGivenNames x; refine (?_ : Kept q τ W r₀ x → _) (?_ : Kept q τ W r₀ x); intro hx; clear_value x; revert x; intro _ _;
        rotate_left; dsimp -zeta only [x]; clear x)
    | (extract_lets +onlyGivenNames x; clear_value x; revert x; intro _) | apply kept_memAnswer | apply kept_wallHit
    | apply kept_integrityFail | apply kept_perf | apply kept_repairs | apply kept_storeLine | split

theorem kept_execMemWrite (x1 : ℕ) (master : ℕ) (ch : ℕ) (addr : ℕ) (words : List Word) (whole : Bool) (fault : MemFault) (s : State)
    (h0 : Kept q τ W r₀ s) [Can W .freeCount] [Can W .sent] [Can W .regs] [Can W .cmd] [Can W .lane] [Can W .port] [Can W .sas]
    [Can W .brk] [Can W .trk] [Can W .que] [Can W .bnd] [Can W .keys] [Can W .eng] [Can W .dks] [Can W .mem] [Can W .obs] [Can W .evr]
    [Can W .ddr] : KeptOut q τ W r₀ (execMemWrite x1 master ch addr words whole fault s) := by
  unfold execMemWrite
  with_reducible repeat' first | assumption | apply kept_ev | apply kept_memWrite | intro s₁ h₁ | split

/-! ## Tamper -/

theorem kept_setSource (e : Elem) (s : State) (h0 : Kept q τ W r₀ s) [Can W .regs] : Kept q τ W r₀ (setSource e s).1 := by
  unfold setSource
  with_reducible repeat' first | assumption | (extract_lets +onlyGivenNames x; clear_value x; revert x; intro _) | apply kept_setFld

theorem kept_applySource (e : Elem) (s : State) (h0 : Kept q τ W r₀ s) [Can W .regs] [Can W .obs] [Can W .evr] : Kept q τ W r₀
    (applySource e s).1 := by
  unfold applySource
  with_reducible repeat' first
    | assumption | (extract_lets +onlyGivenNames x; clear_value x; revert x; intro _) | apply kept_setSource | apply kept_record
    | simp -zeta only [kept_mk, can, true_or, or_true] | split

theorem kept_noteTamper (s : State) (h0 : Kept q τ W r₀ s) [Can W .sent] [Can W .regs] [Can W .cmd] [Can W .tmp] [Can W .obs]
    : Kept q τ W r₀ (noteTamper s) := by
  unfold noteTamper
  with_reducible repeat' first
    | assumption
    | (extract_lets +onlyGivenNames x; refine (?_ : Kept q τ W r₀ x → _) (?_ : Kept q τ W r₀ x); intro hx; clear_value x; revert x; intro _ _;
        rotate_left; dsimp -zeta only [x]; clear x)
    | (extract_lets +onlyGivenNames x; clear_value x; revert x; intro _) | apply kept_notify
    | simp -zeta only [kept_mk, can, true_or, or_true] | split

theorem kept_tamperHalt (s : State) (h0 : Kept q τ W r₀ s) [Can W .sent] [Can W .regs] [Can W .cmd] [Can W .lane] [Can W .port]
    [Can W .sas] [Can W .brk] [Can W .trk] [Can W .que] [Can W .bnd] [Can W .keys] [Can W .eng] [Can W .dks] [Can W .mem] [Can W .tmp]
    [Can W .obs] [Can W .evr] : Kept q τ W r₀ (tamperHalt s) := by
  unfold tamperHalt
  with_reducible repeat' first
    | assumption | (apply kept_memEq; assumption; all_goals rfl)
    | (extract_lets +onlyGivenNames x; have hx : x = (x : MemSt) := rfl; clear hx; dsimp -zeta only [x]; clear x)
    | (extract_lets +onlyGivenNames x; refine (?_ : Kept q τ W r₀ x → _) (?_ : Kept q τ W r₀ x); intro hx; clear_value x; revert x; intro _ _;
        rotate_left; dsimp -zeta only [x]; clear x)
    | apply kept_noteTamper | apply kept_enterHalt | split

theorem kept_nextTested (n : Nat) (s : State) (h0 : Kept q τ W r₀ s) [Can W .sent] [Can W .regs] [Can W .cmd] [Can W .tmp] [Can W .obs]
    [Can W .evr] : Kept q τ W r₀ (nextTested n s) := by
  induction n generalizing s with
  | zero => exact h0
  | succ n ih =>
    unfold nextTested
    split
    · exact h0
    · split
      · exact kept_endOp _ _ _ _ (kept_record _ _ _ (by simpa -zeta only [kept_mk, can, true_or, or_true]))
      · split
        · simpa -zeta only [kept_mk, can, true_or, or_true]
        · exact ih _ (by simpa -zeta only [kept_mk, can, true_or, or_true])

theorem kept_ansTamperTest (x1 : Hdr) (b : Body) (s : State) (h0 : Kept q τ W r₀ s) [Can W .sent] [Can W .regs] [Can W .cmd]
    [Can W .tmp] [Can W .obs] [Can W .evr] : KeptAns q τ W r₀ (ansTamperTest x1 b s) := by
  unfold ansTamperTest
  with_reducible repeat' first
    | assumption
    | (extract_lets +onlyGivenNames x; refine (?_ : Kept q τ W r₀ x → _) (?_ : Kept q τ W r₀ x); intro hx; clear_value x; revert x; intro _ _;
        rotate_left; dsimp -zeta only [x]; clear x)
    | (extract_lets +onlyGivenNames x; clear_value x; revert x; intro _) | apply kept_startOp | apply kept_nextTested
    | simp -zeta only [kept_mk, can, true_or, or_true] | exact KeptAns.fail | apply KeptAns.prog | split

theorem kept_setTemp (e : Elem) (s : State) (h0 : Kept q τ W r₀ s) [Can W .regs] : Kept q τ W r₀ (setTemp e s).1 := by
  unfold setTemp
  with_reducible repeat' first | assumption | apply kept_setFld

theorem kept_applyTemp (e : Elem) (s : State) (h0 : Kept q τ W r₀ s) [Can W .regs] [Can W .obs] [Can W .evr] : Kept q τ W r₀
    (applyTemp e s).1 := by
  unfold applyTemp
  with_reducible repeat' first
    | assumption | apply kept_setTemp | apply kept_record | simp -zeta only [kept_mk, can, true_or, or_true] | split

theorem kept_applyTamperElem (x : State × Body) (e : Elem) (h0 : Kept q τ W r₀ x.1) [Can W .regs] [Can W .obs] [Can W .evr]
    : Kept q τ W r₀ (applyTamperElem x e).1 := by
  unfold applyTamperElem
  dsimp only
  split
  · exact kept_applySource _ _ h0
  · split
    · exact kept_applyTemp _ _ h0
    · exact h0

theorem kept_latchAlarm (n : ℕ) (resp : ℕ) (onBatt : Bool) (s : State) (h0 : Kept q τ W r₀ s) [Can W .tmp] : Kept q τ W r₀
    (latchAlarm n resp onBatt s) := by
  unfold latchAlarm
  with_reducible repeat' first
    | assumption | (extract_lets +onlyGivenNames x; clear_value x; revert x; intro _) | simp -zeta only [kept_mk, can, true_or, or_true]
    | split

theorem kept_countAlarm (n : ℕ) (s : State) (h0 : Kept q τ W r₀ s) [Can W .regs] [Can W .tmp] : Kept q τ W r₀ (countAlarm n s) := by
  unfold countAlarm
  with_reducible repeat' first
    | assumption | (extract_lets +onlyGivenNames x; clear_value x; revert x; intro _) | apply kept_bumpFld
    | simp -zeta only [kept_mk, can, true_or, or_true]

theorem kept_zeroiseRoot (s : State) (h0 : Kept q τ W r₀ s) [Can W .boot] : Kept q τ W r₀ (zeroiseRoot s) := by
  unfold zeroiseRoot
  with_reducible repeat' first
    | assumption | (extract_lets +onlyGivenNames x; clear_value x; revert x; intro _) | simp -zeta only [kept_mk, can, true_or, or_true]

theorem kept_offAlarm (n : ℕ) (s : State) (h0 : Kept q τ W r₀ s) [Can W .regs] [Can W .boot] [Can W .tmp] : Kept q τ W r₀
    (offAlarm n s) := by
  unfold offAlarm
  with_reducible repeat' first
    | assumption
    | (extract_lets +onlyGivenNames x; refine (?_ : Kept q τ W r₀ x → _) (?_ : Kept q τ W r₀ x); intro hx; clear_value x; revert x; intro _ _;
        rotate_left; dsimp -zeta only [x]; clear x)
    | (extract_lets +onlyGivenNames x; clear_value x; revert x; intro _) | apply kept_latchAlarm | apply kept_countAlarm
    | apply kept_zeroiseRoot | split

theorem kept_joinGroup (l : List ℕ) (s : State) (h0 : Kept q τ W r₀ s) [Can W .tmp] : Kept q τ W r₀ (joinGroup l s) := by
  unfold joinGroup
  with_reducible repeat' first
    | assumption | (extract_lets +onlyGivenNames x; clear_value x; revert x; intro _) | simp -zeta only [kept_mk, can, true_or, or_true]

theorem kept_zeroiseAll (s : State) (h0 : Kept q τ W r₀ s) [Can W .sent] [Can W .regs] [Can W .cmd] [Can W .lane] [Can W .sas]
    [Can W .brk] [Can W .trk] [Can W .bnd] [Can W .keys] [Can W .eng] [Can W .dks] [Can W .mem] [Can W .obs] [Can W .evr]
    : Kept q τ W r₀ (zeroiseAll s) := by
  have key : ∀ s : State, Kept q τ W r₀ s →
      Kept q τ W r₀ { s with keys := { s.keys with tickets := [] }, mem := { s.mem with keyed := false, key := 0, keyOld := 0 } } := fun s h =>
    kept_memEq (s := { s with keys := { s.keys with tickets := [] } }) (by simpa -zeta only [kept_mk, can, true_or, or_true]) rfl rfl rfl
  exact key _ (kept_foldl _ _ (kept_foldl _ _ (kept_zeroiseSas _ (kept_zeroiseKeys _ (kept_abortJobs _ _ _ h0)))
    fun _ _ h => kept_finish _ _ _ _ _ h) fun _ _ h => kept_endSession _ _ h)

theorem kept_freeze (s : State) (h0 : Kept q τ W r₀ s) [Can W .sent] [Can W .regs] [Can W .cmd] [Can W .lane] [Can W .port] [Can W .brk]
    [Can W .que] [Can W .keys] [Can W .eng] [Can W .dks] [Can W .tmp] [Can W .obs] [Can W .evr] : Kept q τ W r₀ (freeze s) := by
  unfold freeze
  with_reducible repeat' first
    | assumption | (extract_lets +onlyGivenNames x; clear_value x; revert x; intro _) | apply kept_abortJobs | apply kept_flushDatapath
    | simp -zeta only [kept_mk, can, true_or, or_true] | split

theorem kept_act (n : ℕ) (s : State) (h0 : Kept q τ W r₀ s) [Can W .sent] [Can W .regs] [Can W .cmd] [Can W .boot] [Can W .lane]
    [Can W .port] [Can W .sas] [Can W .brk] [Can W .trk] [Can W .que] [Can W .bnd] [Can W .keys] [Can W .eng] [Can W .dks] [Can W .mem]
    [Can W .tmp] [Can W .obs] [Can W .evr] : Kept q τ W r₀ (act n s) := by
  unfold act
  with_reducible repeat' first
    | assumption | (extract_lets +onlyGivenNames x; clear_value x; revert x; intro _) | apply kept_zeroiseRoot | apply kept_zeroiseAll
    | apply kept_tamperHalt | apply kept_freeze | apply kept_noteTamper | simp -zeta only [kept_mk, can, true_or, or_true] | split

theorem kept_alarm (l : List ℕ) (again : ℕ → Bool) (s : State) (h0 : Kept q τ W r₀ s) [Can W .sent] [Can W .regs] [Can W .cmd]
    [Can W .boot] [Can W .lane] [Can W .port] [Can W .sas] [Can W .brk] [Can W .trk] [Can W .que] [Can W .bnd] [Can W .keys]
    [Can W .eng] [Can W .dks] [Can W .mem] [Can W .tmp] [Can W .obs] [Can W .evr] : Kept q τ W r₀ (alarm l again s) := by
  unfold alarm
  with_reducible repeat' first
    | assumption
    | (extract_lets +onlyGivenNames x; refine (?_ : Kept q τ W r₀ x → _) (?_ : Kept q τ W r₀ x); intro hx; clear_value x; revert x; intro _ _;
        rotate_left; dsimp -zeta only [x]; clear x)
    | (extract_lets +onlyGivenNames x; clear_value x; revert x; intro _) | apply kept_offAlarm | apply kept_joinGroup
    | apply kept_countAlarm | apply kept_snapTrigger | apply kept_latchAlarm | apply kept_resign | apply kept_act | apply kept_recordResp
    | simp -zeta only [kept_mk, can, true_or, or_true] | refine kept_foldl _ _ ?_ (fun s₁ x₁ h₁ => ?_) | split

theorem kept_rearm (again : ℕ → Bool) (s : State) (h0 : Kept q τ W r₀ s) [Can W .sent] [Can W .regs] [Can W .cmd] [Can W .boot]
    [Can W .lane] [Can W .port] [Can W .sas] [Can W .brk] [Can W .trk] [Can W .que] [Can W .bnd] [Can W .keys] [Can W .eng] [Can W .dks]
    [Can W .mem] [Can W .tmp] [Can W .obs] [Can W .evr] : Kept q τ W r₀ (rearm again s) := by
  unfold rearm
  with_reducible repeat' first | assumption | apply kept_alarm

theorem kept_ansTamperConfig (b : Body) (s : State) (h0 : Kept q τ W r₀ s) [Can W .sent] [Can W .regs] [Can W .cmd] [Can W .boot]
    [Can W .lane] [Can W .port] [Can W .sas] [Can W .brk] [Can W .trk] [Can W .que] [Can W .bnd] [Can W .keys] [Can W .eng] [Can W .dks]
    [Can W .mem] [Can W .tmp] [Can W .obs] [Can W .evr] : KeptAns q τ W r₀ (ansTamperConfig b s) := by
  unfold ansTamperConfig
  with_reducible repeat' first
    | assumption | apply kept_applyTamperElem | apply kept_settleApproved | apply kept_rearm
    | simp -zeta only [kept_mk, can, true_or, or_true] | refine kept_foldlFst _ _ ?_ (fun s₁ x₁ h₁ => ?_) | exact KeptAns.fail
    | apply KeptAns.done | split

theorem kept_testDone (detected : Option ℕ) (s : State) (h0 : Kept q τ W r₀ s) [Can W .sent] [Can W .regs] [Can W .cmd] [Can W .boot]
    [Can W .lane] [Can W .port] [Can W .sas] [Can W .brk] [Can W .trk] [Can W .que] [Can W .bnd] [Can W .keys] [Can W .eng] [Can W .dks]
    [Can W .mem] [Can W .tmp] [Can W .obs] [Can W .evr] : Kept q τ W r₀ (testDone detected s) := by
  unfold testDone
  with_reducible repeat' first
    | assumption
    | (extract_lets +onlyGivenNames x; refine (?_ : Kept q τ W r₀ x → _) (?_ : Kept q τ W r₀ x); intro hx; clear_value x; revert x; intro _ _;
        rotate_left; dsimp -zeta only [x]; clear x)
    | (extract_lets +onlyGivenNames x; clear_value x; revert x; intro _) | apply kept_record | apply kept_katFailure
    | apply kept_nextTested | apply kept_rearm | simp -zeta only [kept_mk, can, true_or, or_true] | split

theorem kept_resetSources (s : State) (h0 : Kept q τ W r₀ s) [Can W .regs] : Kept q τ W r₀ (resetSources s) := by
  unfold resetSources
  with_reducible repeat' first | assumption | apply kept_setReg | refine kept_foldl _ _ ?_ (fun s₁ x₁ h₁ => ?_)

theorem kept_conditionClear (n : ℕ) (s : State) (h0 : Kept q τ W r₀ s) [Can W .tmp] : Kept q τ W r₀ (conditionClear n s) := by
  unfold conditionClear
  with_reducible repeat' first
    | assumption | (extract_lets +onlyGivenNames x; clear_value x; revert x; intro _) | simp -zeta only [kept_mk, can, true_or, or_true]

theorem kept_execTamperConditionClear (x1 : ℕ) (source : ℕ) (s : State) (h0 : Kept q τ W r₀ s) [Can W .tmp] : KeptOut q τ W r₀
    (execTamperConditionClear x1 source s) := by
  unfold execTamperConditionClear
  with_reducible repeat' first | assumption | apply kept_ev | apply kept_conditionClear | intro s₁ h₁

theorem kept_tamperAlarm (sources : ℕ) (s : State) (h0 : Kept q τ W r₀ s) [Can W .sent] [Can W .regs] [Can W .cmd] [Can W .boot]
    [Can W .lane] [Can W .port] [Can W .sas] [Can W .brk] [Can W .trk] [Can W .que] [Can W .bnd] [Can W .keys] [Can W .eng] [Can W .dks]
    [Can W .mem] [Can W .tmp] [Can W .obs] [Can W .evr] : Kept q τ W r₀ (tamperAlarm sources s) := by
  unfold tamperAlarm
  with_reducible repeat' first
    | assumption | (extract_lets +onlyGivenNames x; clear_value x; revert x; intro _) | apply kept_rearm
    | simp -zeta only [kept_mk, can, true_or, or_true]

theorem kept_ansTamperFuse (x1 : Hdr) (b : Body) (blown : Bool) (s : State) (h0 : Kept q τ W r₀ s) [Can W .sent] [Can W .regs]
    [Can W .cmd] [Can W .keys] [Can W .tmp] [Can W .obs] [Can W .evr] : KeptAns q τ W r₀ (ansTamperFuse x1 b blown s) := by
  unfold ansTamperFuse
  with_reducible repeat' first
    | assumption | (extract_lets +onlyGivenNames x; clear_value x; revert x; intro _) | apply kept_dual | apply kept_settleApproved
    | apply kept_record | simp -zeta only [kept_mk, can, true_or, or_true] | intro s₁ h₁ | exact KeptAns.fail | apply KeptAns.done | split

theorem kept_execTamperFuse (x1 : Hdr) (b : Body) (blown : Bool) (s : State) (h0 : Kept q τ W r₀ s) [Can W .sent] [Can W .regs]
    [Can W .cmd] [Can W .keys] [Can W .tmp] [Can W .obs] [Can W .evr] : KeptOut q τ W r₀ (execTamperFuse x1 b blown s) := by
  unfold execTamperFuse
  with_reducible repeat' first | assumption | apply kept_run | apply kept_ansTamperFuse | intro s₁ h₁

theorem kept_execTamperAlarm (x1 : ℕ) (sources : ℕ) (s : State) (h0 : Kept q τ W r₀ s) [Can W .sent] [Can W .regs] [Can W .cmd]
    [Can W .boot] [Can W .lane] [Can W .port] [Can W .sas] [Can W .brk] [Can W .trk] [Can W .que] [Can W .bnd] [Can W .keys]
    [Can W .eng] [Can W .dks] [Can W .mem] [Can W .tmp] [Can W .obs] [Can W .evr] : KeptOut q τ W r₀
    (execTamperAlarm x1 sources s) := by
  unfold execTamperAlarm
  with_reducible repeat' first | assumption | apply kept_ev | apply kept_tamperAlarm | intro s₁ h₁

theorem kept_execTamperTestSourceDone (x1 : ℕ) (detected : Option ℕ) (s : State) (h0 : Kept q τ W r₀ s) [Can W .sent] [Can W .regs]
    [Can W .cmd] [Can W .boot] [Can W .lane] [Can W .port] [Can W .sas] [Can W .brk] [Can W .trk] [Can W .que] [Can W .bnd]
    [Can W .keys] [Can W .eng] [Can W .dks] [Can W .mem] [Can W .tmp] [Can W .obs] [Can W .evr] : KeptOut q τ W r₀
    (execTamperTestSourceDone x1 detected s) := by
  unfold execTamperTestSourceDone
  with_reducible repeat' first | assumption | apply kept_ev | apply kept_testDone | intro s₁ h₁

theorem kept_ansTamperRearm (x1 : Hdr) (b : Body) (s : State) (h0 : Kept q τ W r₀ s) [Can W .sent] [Can W .regs] [Can W .cmd]
    [Can W .boot] [Can W .lane] [Can W .port] [Can W .sas] [Can W .brk] [Can W .trk] [Can W .que] [Can W .bnd] [Can W .keys]
    [Can W .eng] [Can W .dks] [Can W .mem] [Can W .tmp] [Can W .obs] [Can W .evr] : KeptAns q τ W r₀ (ansTamperRearm x1 b s) := by
  unfold ansTamperRearm
  with_reducible repeat' first
    | assumption
    | (extract_lets +onlyGivenNames x; refine (?_ : Kept q τ W r₀ x → _) (?_ : Kept q τ W r₀ x); intro hx; clear_value x; revert x; intro _ _;
        rotate_left; dsimp -zeta only [x]; clear x)
    | (extract_lets +onlyGivenNames x; clear_value x; revert x; intro _) | apply kept_dual | apply kept_rearm | apply kept_resetSources
    | apply kept_record | simp -zeta only [kept_mk, can, true_or, or_true] | intro s₁ h₁ | exact KeptAns.fail | apply KeptAns.done | split

theorem kept_execTamperRearm (x1 : Hdr) (b : Body) (s : State) (h0 : Kept q τ W r₀ s) [Can W .sent] [Can W .regs] [Can W .cmd]
    [Can W .boot] [Can W .lane] [Can W .port] [Can W .sas] [Can W .brk] [Can W .trk] [Can W .que] [Can W .bnd] [Can W .keys]
    [Can W .eng] [Can W .dks] [Can W .mem] [Can W .tmp] [Can W .obs] [Can W .evr] : KeptOut q τ W r₀ (execTamperRearm x1 b s) := by
  unfold execTamperRearm
  with_reducible repeat' first | assumption | apply kept_run | apply kept_ansTamperRearm | intro s₁ h₁

theorem kept_execTamperTest (x1 : Hdr) (b : Body) (s : State) (h0 : Kept q τ W r₀ s) [Can W .sent] [Can W .regs] [Can W .cmd]
    [Can W .tmp] [Can W .obs] [Can W .evr] : KeptOut q τ W r₀ (execTamperTest x1 b s) := by
  unfold execTamperTest
  with_reducible repeat' first | assumption | apply kept_run | apply kept_ansTamperTest | intro s₁ h₁

theorem kept_execTamperConfig (x1 : Hdr) (b : Body) (s : State) (h0 : Kept q τ W r₀ s) [Can W .sent] [Can W .regs] [Can W .cmd]
    [Can W .boot] [Can W .lane] [Can W .port] [Can W .sas] [Can W .brk] [Can W .trk] [Can W .que] [Can W .bnd] [Can W .keys]
    [Can W .eng] [Can W .dks] [Can W .mem] [Can W .tmp] [Can W .obs] [Can W .evr] : KeptOut q τ W r₀ (execTamperConfig x1 b s) := by
  unfold execTamperConfig
  with_reducible repeat' first | assumption | apply kept_run | apply kept_ansTamperConfig | intro s₁ h₁

/-! ## Power -/

theorem kept_startWake (cause : ℕ) (s : State) (h0 : Kept q τ W r₀ s) [Can W .boot] [Can W .pwr] : Kept q τ W r₀ (startWake cause s) := by
  unfold startWake
  with_reducible repeat' first
    | assumption | (extract_lets +onlyGivenNames x; clear_value x; revert x; intro _) | simp -zeta only [kept_mk, can, true_or, or_true]
    | split

theorem kept_markQueued (f : PwrReq → PwrReq) (s : State) (h0 : Kept q τ W r₀ s) [Can W .pwr] : Kept q τ W r₀ (markQueued f s) := by
  unfold markQueued
  with_reducible repeat' first
    | assumption | (extract_lets +onlyGivenNames x; clear_value x; revert x; intro _) | simp -zeta only [kept_mk, can, true_or, or_true]

theorem kept_perfSettle (s : State) (h0 : Kept q τ W r₀ s) [Can W .freeCount] [Can W .obs] : Kept q τ W r₀ (perfSettle s) := by
  unfold perfSettle
  with_reducible repeat' first
    | assumption
    | (extract_lets +onlyGivenNames x; refine (?_ : Kept q τ W r₀ x → _) (?_ : Kept q τ W r₀ x); intro hx; clear_value x; revert x; intro _ _;
        rotate_left; dsimp -zeta only [x]; clear x)
    | (extract_lets +onlyGivenNames x; clear_value x; revert x; intro _) | apply kept_perf | apply kept_drawBits
    | simp -zeta only [kept_mk, can, true_or, or_true] | refine kept_foldl _ _ ?_ (fun s₁ x₁ h₁ => ?_) | split

theorem kept_beginPower (target : ℕ) (s : State) (h0 : Kept q τ W r₀ s) [Can W .freeCount] [Can W .sent] [Can W .regs] [Can W .cmd]
    [Can W .port] [Can W .brk] [Can W .que] [Can W .pwr] [Can W .obs] : Kept q τ W r₀ (beginPower target s) := by
  unfold beginPower
  with_reducible repeat' first
    | assumption
    | (extract_lets +onlyGivenNames x; refine (?_ : Kept q τ W r₀ x → _) (?_ : Kept q τ W r₀ x); intro hx; clear_value x; revert x; intro _ _;
        rotate_left; dsimp -zeta only [x]; clear x)
    | (extract_lets +onlyGivenNames x; clear_value x; revert x; intro _) | apply kept_perfSettle | apply kept_flushDatapath
    | simp -zeta only [kept_mk, can, true_or, or_true] | split

theorem kept_ansPowerStateSet (x1 : Hdr) (b : Body) (s : State) (h0 : Kept q τ W r₀ s) [Can W .freeCount] [Can W .sent] [Can W .regs]
    [Can W .cmd] [Can W .port] [Can W .brk] [Can W .que] [Can W .pwr] [Can W .obs] : KeptAns q τ W r₀ (ansPowerStateSet x1 b s) := by
  unfold ansPowerStateSet
  with_reducible repeat' first
    | assumption
    | (extract_lets +onlyGivenNames x; refine (?_ : Kept q τ W r₀ x → _) (?_ : Kept q τ W r₀ x); intro hx; clear_value x; revert x; intro _ _;
        rotate_left; dsimp -zeta only [x]; clear x)
    | (extract_lets +onlyGivenNames x; clear_value x; revert x; intro _) | apply kept_markQueued | apply kept_beginPower
    | simp -zeta only [kept_mk, can, true_or, or_true] | exact KeptAns.fail | apply KeptAns.done | apply KeptAns.wait | split

theorem kept_execPowerStateSet (x1 : Hdr) (b : Body) (s : State) (h0 : Kept q τ W r₀ s) [Can W .freeCount] [Can W .sent] [Can W .regs]
    [Can W .cmd] [Can W .port] [Can W .brk] [Can W .que] [Can W .pwr] [Can W .obs] [Can W .evr] : KeptOut q τ W r₀
    (execPowerStateSet x1 b s) := by
  unfold execPowerStateSet
  with_reducible repeat' first | assumption | apply kept_run | apply kept_ansPowerStateSet | intro s₁ h₁

theorem kept_gateReturn (s : State) (e : ℕ) (h0 : Kept q τ W r₀ s) [Can W .que] : Kept q τ W r₀ (gateReturn s e) := by
  unfold gateReturn
  with_reducible repeat' first
    | assumption | (extract_lets +onlyGivenNames x; clear_value x; revert x; intro _) | apply kept_changeList | apply kept_setEgress
    | split

theorem kept_finishPower (final : ℕ) (s : State) (h0 : Kept q τ W r₀ s) [Can W .sent] [Can W .regs] [Can W .cmd] [Can W .pwr]
    [Can W .obs] : Kept q τ W r₀ (finishPower final s) := by
  unfold finishPower
  with_reducible repeat' first
    | assumption
    | (extract_lets +onlyGivenNames x; refine (?_ : Kept q τ W r₀ x → _) (?_ : Kept q τ W r₀ x); intro hx; clear_value x; revert x; intro _ _;
        rotate_left; dsimp -zeta only [x]; clear x)
    | (extract_lets +onlyGivenNames x; clear_value x; revert x; intro _) | apply kept_finish
    | simp -zeta only [kept_mk, can, true_or, or_true] | refine kept_foldl _ _ ?_ (fun s₁ x₁ h₁ => ?_) | split

theorem kept_powerReached (new : ℕ) (s : State) (h0 : Kept q τ W r₀ s) [Can W .freeCount] [Can W .sent] [Can W .regs] [Can W .cmd]
    [Can W .port] [Can W .brk] [Can W .que] [Can W .pwr] [Can W .obs] [Can W .evr] : Kept q τ W r₀ (powerReached new s) := by
  unfold powerReached
  with_reducible repeat' first
    | assumption
    | (extract_lets +onlyGivenNames x; refine (?_ : Kept q τ W r₀ x → _) (?_ : Kept q τ W r₀ x); intro hx; clear_value x; revert x; intro _ _;
        rotate_left; dsimp -zeta only [x]; clear x)
    | (extract_lets +onlyGivenNames x; clear_value x; revert x; intro _) | apply kept_perfSettle | apply kept_record
    | apply kept_finishPower | apply kept_markQueued | apply kept_beginPower | simp -zeta only [kept_mk, can, true_or, or_true] | split

theorem kept_settleDvfs (b : ℕ) (fault : Bool) (s : State) (h0 : Kept q τ W r₀ s) [Can W .sent] [Can W .regs] [Can W .cmd] [Can W .obs]
    : Kept q τ W r₀ (settleDvfs b fault s) := by
  unfold settleDvfs
  with_reducible repeat' first
    | assumption | (extract_lets +onlyGivenNames x; clear_value x; revert x; intro _) | apply kept_finishWhere | split

theorem kept_setDvfs (b : ℕ) (d : Dvfs) (s : State) (h0 : Kept q τ W r₀ s) [Can W .pwr] : Kept q τ W r₀ (setDvfs b d s) := by
  unfold setDvfs
  with_reducible repeat' first
    | assumption | (extract_lets +onlyGivenNames x; clear_value x; revert x; intro _) | simp -zeta only [kept_mk, can, true_or, or_true]

theorem kept_beginDvfs (b : ℕ) (f : ℕ) (s : State) (h0 : Kept q τ W r₀ s) [Can W .pwr] : Kept q τ W r₀ (beginDvfs b f s) := by
  unfold beginDvfs
  with_reducible repeat' first | assumption | (extract_lets +onlyGivenNames x; clear_value x; revert x; intro _) | apply kept_setDvfs

theorem kept_askDvfs (b : ℕ) (f : ℕ) (s : State) (h0 : Kept q τ W r₀ s) [Can W .pwr] : Kept q τ W r₀ (askDvfs b f s) := by
  unfold askDvfs
  with_reducible repeat' first
    | assumption | (extract_lets +onlyGivenNames x; clear_value x; revert x; intro _) | apply kept_setDvfs | apply kept_beginDvfs | split

theorem kept_applyStored (b : ℕ) (s : State) (h0 : Kept q τ W r₀ s) [Can W .pwr] : Kept q τ W r₀ (applyStored b s) := by
  unfold applyStored
  with_reducible repeat' first
    | assumption | (extract_lets +onlyGivenNames x; clear_value x; revert x; intro _) | apply kept_askDvfs | apply kept_setDvfs | split

theorem kept_standbyReturn (s : State) (h0 : Kept q τ W r₀ s) [Can W .freeCount] [Can W .sent] [Can W .regs] [Can W .cmd] [Can W .lane]
    [Can W .port] [Can W .brk] [Can W .trk] [Can W .que] [Can W .pwr] [Can W .obs] [Can W .evr] : Kept q τ W r₀ (standbyReturn s) := by
  unfold standbyReturn
  with_reducible repeat' first
    | assumption
    | (extract_lets +onlyGivenNames x; refine (?_ : Kept q τ W r₀ x → _) (?_ : Kept q τ W r₀ x); intro hx; clear_value x; revert x; intro _ _;
        rotate_left; dsimp -zeta only [x]; clear x)
    | (extract_lets +onlyGivenNames x; clear_value x; revert x; intro _) | apply kept_gateReturn | apply kept_powerLanes
    | apply kept_powerReached | apply kept_settleDvfs | apply kept_applyStored | simp -zeta only [kept_mk, can, true_or, or_true]
    | refine kept_foldl _ _ ?_ (fun s₁ x₁ h₁ => ?_) | split

theorem kept_execStandbyReturnDone (x1 : ℕ) (s : State) (h0 : Kept q τ W r₀ s) [Can W .freeCount] [Can W .sent] [Can W .regs]
    [Can W .cmd] [Can W .lane] [Can W .port] [Can W .brk] [Can W .trk] [Can W .que] [Can W .pwr] [Can W .obs] [Can W .evr]
    : KeptOut q τ W r₀ (execStandbyReturnDone x1 s) := by
  unfold execStandbyReturnDone
  with_reducible repeat' first | assumption | apply kept_ev | apply kept_standbyReturn | intro s₁ h₁

theorem kept_wakeBy (bit_ : ℕ) (cause : ℕ) (s : State) (h0 : Kept q τ W r₀ s) [Can W .boot] [Can W .pwr] : Kept q τ W r₀
    (wakeBy bit_ cause s) := by
  unfold wakeBy
  with_reducible repeat' first | assumption | apply kept_startWake | split

theorem kept_execWakeNLow (x1 : ℕ) (s : State) (h0 : Kept q τ W r₀ s) [Can W .boot] [Can W .pwr] : KeptOut q τ W r₀
    (execWakeNLow x1 s) := by
  unfold execWakeNLow
  with_reducible repeat' first | assumption | apply kept_ev | apply kept_wakeBy | intro s₁ h₁

theorem kept_ansDvfsSet (b : Body) (s : State) (h0 : Kept q τ W r₀ s) [Can W .regs] [Can W .pwr] : KeptAns q τ W r₀ (ansDvfsSet b s) := by
  unfold ansDvfsSet
  with_reducible repeat' first
    | assumption
    | (extract_lets +onlyGivenNames x; refine (?_ : Kept q τ W r₀ x → _) (?_ : Kept q τ W r₀ x); intro hx; clear_value x; revert x; intro _ _;
        rotate_left; dsimp -zeta only [x]; clear x)
    | (extract_lets +onlyGivenNames x; clear_value x; revert x; intro _) | apply kept_askDvfs | apply kept_setFld | exact KeptAns.hold
    | apply KeptAns.done | apply KeptAns.waits | split

theorem kept_ansWakeConfig (b : Body) (s : State) (h0 : Kept q τ W r₀ s) [Can W .regs] : KeptAns q τ W r₀ (ansWakeConfig b s) := by
  unfold ansWakeConfig
  with_reducible repeat' first
    | assumption
    | (extract_lets +onlyGivenNames x; refine (?_ : Kept q τ W r₀ x → _) (?_ : Kept q τ W r₀ x); intro hx; clear_value x; revert x; intro _ _;
        rotate_left; dsimp -zeta only [x]; clear x)
    | (extract_lets +onlyGivenNames x; clear_value x; revert x; intro _) | apply kept_setFld | apply kept_setReg | apply KeptAns.done
    | split

theorem kept_rtcWake (s : State) (h0 : Kept q τ W r₀ s) [Can W .boot] [Can W .pwr] : Kept q τ W r₀ (rtcWake s) := by
  unfold rtcWake
  with_reducible repeat' first | assumption | apply kept_wakeBy | split

theorem kept_endDvfs (b : ℕ) (live : ℕ) (vout : ℕ) (fault : Bool) (s : State) (h0 : Kept q τ W r₀ s) [Can W .freeCount] [Can W .sent]
    [Can W .regs] [Can W .cmd] [Can W .pwr] [Can W .obs] : Kept q τ W r₀ (endDvfs b live vout fault s) := by
  unfold endDvfs
  with_reducible repeat' first
    | assumption
    | (extract_lets +onlyGivenNames x; refine (?_ : Kept q τ W r₀ x → _) (?_ : Kept q τ W r₀ x); intro hx; clear_value x; revert x; intro _ _;
        rotate_left; dsimp -zeta only [x]; clear x)
    | (extract_lets +onlyGivenNames x; clear_value x; revert x; intro _) | apply kept_setDvfs | apply kept_perfSettle
    | apply kept_finishWhere | apply kept_applyStored

theorem kept_rampDone (b : ℕ) (s : State) (h0 : Kept q τ W r₀ s) [Can W .freeCount] [Can W .sent] [Can W .regs] [Can W .cmd]
    [Can W .pwr] [Can W .obs] : Kept q τ W r₀ (rampDone b s) := by
  unfold rampDone
  with_reducible repeat' first
    | assumption | (extract_lets +onlyGivenNames x; clear_value x; revert x; intro _) | apply kept_endDvfs | split

theorem kept_execPllRampDone (x1 : ℕ) (brick : ℕ) (s : State) (h0 : Kept q τ W r₀ s) [Can W .freeCount] [Can W .sent] [Can W .regs]
    [Can W .cmd] [Can W .pwr] [Can W .obs] : KeptOut q τ W r₀ (execPllRampDone x1 brick s) := by
  unfold execPllRampDone
  with_reducible repeat' first | assumption | apply kept_ev | apply kept_rampDone | intro s₁ h₁ | split

theorem kept_execRtcAlarm (x1 : ℕ) (s : State) (h0 : Kept q τ W r₀ s) [Can W .boot] [Can W .pwr] : KeptOut q τ W r₀
    (execRtcAlarm x1 s) := by
  unfold execRtcAlarm
  with_reducible repeat' first | assumption | apply kept_ev | apply kept_rtcWake | intro s₁ h₁

theorem kept_voutConfirm (b : ℕ) (mv : ℕ) (s : State) (h0 : Kept q τ W r₀ s) [Can W .pwr] : Kept q τ W r₀ (voutConfirm b mv s) := by
  unfold voutConfirm
  with_reducible repeat' first
    | assumption | (extract_lets +onlyGivenNames x; clear_value x; revert x; intro _) | apply kept_setDvfs | split

theorem kept_execDvfsVoutConfirm (x1 : ℕ) (brick : ℕ) (mv : ℕ) (s : State) (h0 : Kept q τ W r₀ s) [Can W .pwr] : KeptOut q τ W r₀
    (execDvfsVoutConfirm x1 brick mv s) := by
  unfold execDvfsVoutConfirm
  with_reducible repeat' first | assumption | apply kept_ev | apply kept_voutConfirm | intro s₁ h₁ | split

theorem kept_execWakeConfig (x1 : Hdr) (b : Body) (s : State) (h0 : Kept q τ W r₀ s) [Can W .sent] [Can W .regs] [Can W .cmd]
    [Can W .obs] [Can W .evr] : KeptOut q τ W r₀ (execWakeConfig x1 b s) := by
  unfold execWakeConfig
  with_reducible repeat' first | assumption | apply kept_run | apply kept_ansWakeConfig | intro s₁ h₁

theorem kept_dvfsFault (b : ℕ) (cause : ℕ) (s : State) (h0 : Kept q τ W r₀ s) [Can W .freeCount] [Can W .sent] [Can W .regs]
    [Can W .cmd] [Can W .pwr] [Can W .obs] [Can W .evr] : Kept q τ W r₀ (dvfsFault b cause s) := by
  unfold dvfsFault
  with_reducible repeat' first
    | assumption
    | (extract_lets +onlyGivenNames x; refine (?_ : Kept q τ W r₀ x → _) (?_ : Kept q τ W r₀ x); intro hx; clear_value x; revert x; intro _ _;
        rotate_left; dsimp -zeta only [x]; clear x)
    | (extract_lets +onlyGivenNames x; clear_value x; revert x; intro _) | apply kept_raise | apply kept_record | apply kept_endDvfs
    | split

theorem kept_execDvfsFault (x1 : ℕ) (brick : ℕ) (cause : ℕ) (s : State) (h0 : Kept q τ W r₀ s) [Can W .freeCount] [Can W .sent]
    [Can W .regs] [Can W .cmd] [Can W .pwr] [Can W .obs] [Can W .evr] : KeptOut q τ W r₀ (execDvfsFault x1 brick cause s) := by
  unfold execDvfsFault
  with_reducible repeat' first | assumption | apply kept_ev | apply kept_dvfsFault | intro s₁ h₁ | split

theorem kept_sleepCommit (s : State) (h0 : Kept q τ W r₀ s) [Can W .sent] [Can W .regs] [Can W .cmd] [Can W .lane] [Can W .time]
    [Can W .sas] [Can W .brk] [Can W .trk] [Can W .bnd] [Can W .keys] [Can W .eng] [Can W .dks] [Can W .mem] [Can W .pwr] [Can W .obs]
    [Can W .evr] : Kept q τ W r₀ (sleepCommit s) := by
  unfold sleepCommit
  with_reducible repeat' first
    | assumption | (extract_lets +onlyGivenNames x; have hx : x = (x : MemSt) := rfl; clear hx; dsimp -zeta only [x]; clear x)
    | (extract_lets +onlyGivenNames x; refine (?_ : Kept q τ W r₀ x → _) (?_ : Kept q τ W r₀ x); intro hx; clear_value x; revert x; intro _ _;
        rotate_left; dsimp -zeta only [x]; clear x)
    | (extract_lets +onlyGivenNames x; clear_value x; revert x; intro _) | apply kept_record | apply kept_zeroiseSas
    | apply kept_zeroiseKeys | apply kept_abortJobs | apply kept_commitAll | apply kept_saveTime | apply kept_finishPower
    | apply kept_markQueued | simp -zeta only [kept_mk, can, true_or, or_true] | simp -zeta only [kept_mkMem, can, true_or, or_true]
    | split

theorem kept_standbyEntry (s : State) (h0 : Kept q τ W r₀ s) [Can W .freeCount] [Can W .sent] [Can W .regs] [Can W .cmd] [Can W .lane]
    [Can W .port] [Can W .brk] [Can W .trk] [Can W .que] [Can W .pwr] [Can W .obs] [Can W .evr] : Kept q τ W r₀ (standbyEntry s) := by
  unfold standbyEntry
  with_reducible repeat' first
    | assumption
    | (extract_lets +onlyGivenNames x; refine (?_ : Kept q τ W r₀ x → _) (?_ : Kept q τ W r₀ x); intro hx; clear_value x; revert x; intro _ _;
        rotate_left; dsimp -zeta only [x]; clear x)
    | (extract_lets +onlyGivenNames x; clear_value x; revert x; intro _) | apply kept_takeDown | apply kept_setDvfs
    | apply kept_powerReached | simp -zeta only [kept_mk, can, true_or, or_true] | refine kept_foldl _ _ ?_ (fun s₁ x₁ h₁ => ?_) | split

theorem kept_execStandbyEntryDone (x1 : ℕ) (s : State) (h0 : Kept q τ W r₀ s) [Can W .freeCount] [Can W .sent] [Can W .regs]
    [Can W .cmd] [Can W .lane] [Can W .port] [Can W .brk] [Can W .trk] [Can W .que] [Can W .pwr] [Can W .obs] [Can W .evr]
    : KeptOut q τ W r₀ (execStandbyEntryDone x1 s) := by
  unfold execStandbyEntryDone
  with_reducible repeat' first | assumption | apply kept_ev | apply kept_standbyEntry | intro s₁ h₁

theorem kept_execDvfsSet (x1 : Hdr) (b : Body) (s : State) (h0 : Kept q τ W r₀ s) [Can W .sent] [Can W .regs] [Can W .cmd] [Can W .pwr]
    [Can W .obs] [Can W .evr] : KeptOut q τ W r₀ (execDvfsSet x1 b s) := by
  unfold execDvfsSet
  with_reducible repeat' first | assumption | apply kept_run | apply kept_ansDvfsSet | intro s₁ h₁

theorem kept_execSleepCommitPoint (x1 : ℕ) (s : State) (h0 : Kept q τ W r₀ s) [Can W .sent] [Can W .regs] [Can W .cmd] [Can W .lane]
    [Can W .time] [Can W .sas] [Can W .brk] [Can W .trk] [Can W .bnd] [Can W .keys] [Can W .eng] [Can W .dks] [Can W .mem] [Can W .pwr]
    [Can W .obs] [Can W .evr] : KeptOut q τ W r₀ (execSleepCommitPoint x1 s) := by
  unfold execSleepCommitPoint
  with_reducible repeat' first | assumption | apply kept_ev | apply kept_sleepCommit | intro s₁ h₁

theorem kept_idleEntry (s : State) (h0 : Kept q τ W r₀ s) [Can W .freeCount] [Can W .sent] [Can W .regs] [Can W .cmd] [Can W .port]
    [Can W .brk] [Can W .que] [Can W .pwr] [Can W .obs] [Can W .evr] : Kept q τ W r₀ (idleEntry s) := by
  unfold idleEntry
  with_reducible repeat' first | assumption | apply kept_powerReached | split

theorem kept_slowWake (addr : ℕ) (s : State) (h0 : Kept q τ W r₀ s) [Can W .boot] [Can W .pwr] : Kept q τ W r₀ (slowWake addr s) := by
  unfold slowWake
  with_reducible repeat' first | assumption | apply kept_wakeBy | split

theorem kept_execSlowPortWake (x1 : ℕ) (addr : ℕ) (s : State) (h0 : Kept q τ W r₀ s) [Can W .boot] [Can W .pwr] : KeptOut q τ W r₀
    (execSlowPortWake x1 addr s) := by
  unfold execSlowPortWake
  with_reducible repeat' first | assumption | apply kept_ev | apply kept_slowWake | intro s₁ h₁

theorem kept_execIdleEntryDone (x1 : ℕ) (s : State) (h0 : Kept q τ W r₀ s) [Can W .freeCount] [Can W .sent] [Can W .regs] [Can W .cmd]
    [Can W .port] [Can W .brk] [Can W .que] [Can W .pwr] [Can W .obs] [Can W .evr] : KeptOut q τ W r₀ (execIdleEntryDone x1 s) := by
  unfold execIdleEntryDone
  with_reducible repeat' first | assumption | apply kept_ev | apply kept_idleEntry | intro s₁ h₁

theorem kept_idleReturn (s : State) (h0 : Kept q τ W r₀ s) [Can W .freeCount] [Can W .sent] [Can W .regs] [Can W .cmd] [Can W .port]
    [Can W .brk] [Can W .que] [Can W .pwr] [Can W .obs] [Can W .evr] : Kept q τ W r₀ (idleReturn s) := by
  unfold idleReturn
  with_reducible repeat' first | assumption | apply kept_powerReached | split

theorem kept_execIdleReturnDone (x1 : ℕ) (s : State) (h0 : Kept q τ W r₀ s) [Can W .freeCount] [Can W .sent] [Can W .regs] [Can W .cmd]
    [Can W .port] [Can W .brk] [Can W .que] [Can W .pwr] [Can W .obs] [Can W .evr] : KeptOut q τ W r₀ (execIdleReturnDone x1 s) := by
  unfold execIdleReturnDone
  with_reducible repeat' first | assumption | apply kept_ev | apply kept_idleReturn | intro s₁ h₁

/-! ## Observe -/

theorem kept_clearTables (s : State) (h0 : Kept q τ W r₀ s) [Can W .sent] [Can W .regs] [Can W .cmd] [Can W .lane] [Can W .cls]
    [Can W .sas] [Can W .brk] [Can W .trk] [Can W .que] [Can W .bnd] [Can W .keys] [Can W .obs] : Kept q τ W r₀ (clearTables s) := by
  unfold clearTables
  with_reducible repeat' first
    | assumption
    | (extract_lets +onlyGivenNames x; refine (?_ : Kept q τ W r₀ x → _) (?_ : Kept q τ W r₀ x); intro hx; clear_value x; revert x; intro _ _;
        rotate_left; dsimp -zeta only [x]; clear x)
    | (extract_lets +onlyGivenNames x; clear_value x; revert x; intro _) | apply kept_zeroiseSas
    | simp -zeta only [kept_mk, can, true_or, or_true]

theorem kept_settleSelftest (s : State) (h0 : Kept q τ W r₀ s) [Can W .sent] [Can W .regs] [Can W .cmd] [Can W .lane] [Can W .cls]
    [Can W .sas] [Can W .brk] [Can W .trk] [Can W .que] [Can W .bnd] [Can W .keys] [Can W .obs] [Can W .evr] : Kept q τ W r₀
    (settleSelftest s) := by
  unfold settleSelftest
  with_reducible repeat' first
    | assumption
    | (extract_lets +onlyGivenNames x; refine (?_ : Kept q τ W r₀ x → _) (?_ : Kept q τ W r₀ x); intro hx; clear_value x; revert x; intro _ _;
        rotate_left; dsimp -zeta only [x]; clear x)
    | (extract_lets +onlyGivenNames x; clear_value x; revert x; intro _) | apply kept_record | apply kept_clearTables | apply kept_endOp
    | simp -zeta only [kept_mk, can, true_or, or_true] | split

theorem kept_unitResult (u : ℕ) (x1 : ℕ) (s : State) (h0 : Kept q τ W r₀ s) [Can W .sent] [Can W .regs] [Can W .cmd] [Can W .lane]
    [Can W .cls] [Can W .sas] [Can W .brk] [Can W .trk] [Can W .que] [Can W .bnd] [Can W .keys] [Can W .obs] [Can W .evr]
    : Kept q τ W r₀ (unitResult u x1 s) := by
  unfold unitResult
  with_reducible repeat' first
    | assumption | (extract_lets +onlyGivenNames x; clear_value x; revert x; intro _) | apply kept_settleSelftest
    | simp -zeta only [kept_mk, can, true_or, or_true] | split

theorem kept_unitFails (u : ℕ) (s : State) (h0 : Kept q τ W r₀ s) [Can W .freeCount] [Can W .sent] [Can W .regs] [Can W .cmd]
    [Can W .keys] [Can W .eng] [Can W .dks] [Can W .obs] [Can W .evr] : Kept q τ W r₀ (unitFails u s) := by
  unfold unitFails
  with_reducible repeat' first
    | assumption
    | (extract_lets +onlyGivenNames x; refine (?_ : Kept q τ W r₀ x → _) (?_ : Kept q τ W r₀ x); intro hx; clear_value x; revert x; intro _ _;
        rotate_left; dsimp -zeta only [x]; clear x)
    | (extract_lets +onlyGivenNames x; clear_value x; revert x; intro _) | apply kept_drainOut | apply kept_kindFailed | apply kept_record
    | apply kept_setUnit14 | apply kept_drawBits | simp -zeta only [kept_mk, can, true_or, or_true] | split

theorem kept_istRun (u : ℕ) (ok : Bool) (s : State) (h0 : Kept q τ W r₀ s) [Can W .freeCount] [Can W .sent] [Can W .regs] [Can W .cmd]
    [Can W .lane] [Can W .cls] [Can W .sas] [Can W .brk] [Can W .trk] [Can W .que] [Can W .bnd] [Can W .keys] [Can W .eng] [Can W .dks]
    [Can W .obs] [Can W .evr] : Kept q τ W r₀ (istRun u ok s) := by
  unfold istRun
  with_reducible repeat' first
    | assumption
    | (extract_lets +onlyGivenNames x; refine (?_ : Kept q τ W r₀ x → _) (?_ : Kept q τ W r₀ x); intro hx; clear_value x; revert x; intro _ _;
        rotate_left; dsimp -zeta only [x]; clear x)
    | (extract_lets +onlyGivenNames x; clear_value x; revert x; intro _) | apply kept_settleSelftest | apply kept_unitResult
    | apply kept_unitFails | simp -zeta only [kept_mk, can, true_or, or_true] | split

theorem kept_execIstInterval (x1 : ℕ) (unit : ℕ) (ok : Bool) (s : State) (h0 : Kept q τ W r₀ s) [Can W .freeCount] [Can W .sent]
    [Can W .regs] [Can W .cmd] [Can W .lane] [Can W .cls] [Can W .sas] [Can W .brk] [Can W .trk] [Can W .que] [Can W .bnd] [Can W .keys]
    [Can W .eng] [Can W .dks] [Can W .obs] [Can W .evr] : KeptOut q τ W r₀ (execIstInterval x1 unit ok s) := by
  unfold execIstInterval
  with_reducible repeat' first | assumption | apply kept_ev | apply kept_istRun | intro s₁ h₁

theorem kept_ansRecorderClear (x1 : Hdr) (b : Body) (s : State) (h0 : Kept q τ W r₀ s) [Can W .regs] [Can W .keys] [Can W .obs]
    [Can W .evr] : KeptAns q τ W r₀ (ansRecorderClear x1 b s) := by
  unfold ansRecorderClear
  with_reducible repeat' first
    | assumption
    | (extract_lets +onlyGivenNames x; refine (?_ : Kept q τ W r₀ x → _) (?_ : Kept q τ W r₀ x); intro hx; clear_value x; revert x; intro _ _;
        rotate_left; dsimp -zeta only [x]; clear x)
    | (extract_lets +onlyGivenNames x; clear_value x; revert x; intro _) | apply kept_dual | apply kept_commitAll | apply kept_recordResp
    | simp -zeta only [kept_mk, can, true_or, or_true] | intro s₁ h₁ | apply KeptAns.done

theorem kept_execRecorderClear (x1 : Hdr) (b : Body) (s : State) (h0 : Kept q τ W r₀ s) [Can W .sent] [Can W .regs] [Can W .cmd]
    [Can W .keys] [Can W .obs] [Can W .evr] : KeptOut q τ W r₀ (execRecorderClear x1 b s) := by
  unfold execRecorderClear
  with_reducible repeat' first | assumption | apply kept_run | apply kept_ansRecorderClear | intro s₁ h₁

theorem kept_snapPin (s : State) (h0 : Kept q τ W r₀ s) [Can W .regs] [Can W .obs] [Can W .evr] : Kept q τ W r₀ (snapPin s) := by
  unfold snapPin
  with_reducible repeat' first | assumption | apply kept_snapTrigger

theorem kept_releaseSnap (k : ℕ) (s : State) (h0 : Kept q τ W r₀ s) [Can W .obs] : Kept q τ W r₀ (releaseSnap k s) := by
  unfold releaseSnap
  with_reducible repeat' first | assumption | (extract_lets +onlyGivenNames x; clear_value x; revert x; intro _) | apply kept_setBank

theorem kept_ansSnapRead (b : Body) (s : State) (h0 : Kept q τ W r₀ s) [Can W .obs] : KeptAns q τ W r₀ (ansSnapRead b s) := by
  unfold ansSnapRead
  with_reducible repeat' first
    | assumption | (extract_lets +onlyGivenNames x; clear_value x; revert x; intro _) | apply kept_releaseSnap | exact KeptAns.fail
    | apply KeptAns.done | split

theorem kept_execSnapRead (x1 : Hdr) (b : Body) (s : State) (h0 : Kept q τ W r₀ s) [Can W .sent] [Can W .regs] [Can W .cmd] [Can W .obs]
    [Can W .evr] : KeptOut q τ W r₀ (execSnapRead x1 b s) := by
  unfold execSnapRead
  with_reducible repeat' first | assumption | apply kept_run | apply kept_ansSnapRead | intro s₁ h₁

theorem kept_loseBanks (b : ℕ) (k : ℕ) (s : State) (h0 : Kept q τ W r₀ s) [Can W .sas] [Can W .brk] : Kept q τ W r₀
    (loseBanks b k s) := by
  unfold loseBanks
  with_reducible repeat' first
    | assumption
    | (extract_lets +onlyGivenNames x; refine (?_ : Kept q τ W r₀ x → _) (?_ : Kept q τ W r₀ x); intro hx; clear_value x; revert x; intro _ _;
        rotate_left; dsimp -zeta only [x]; clear x)
    | (extract_lets +onlyGivenNames x; clear_value x; revert x; intro _) | apply kept_setBrick
    | simp -zeta only [kept_mk, can, true_or, or_true]

theorem kept_ansSnapArm (b : Body) (s : State) (h0 : Kept q τ W r₀ s) [Can W .regs] [Can W .time] [Can W .dks] [Can W .obs] [Can W .evr]
    : KeptAns q τ W r₀ (ansSnapArm b s) := by
  unfold ansSnapArm
  with_reducible repeat' first
    | assumption
    | (extract_lets +onlyGivenNames x; refine (?_ : Kept q τ W r₀ x → _) (?_ : Kept q τ W r₀ x); intro hx; clear_value x; revert x; intro _ _;
        rotate_left; dsimp -zeta only [x]; clear x)
    | (extract_lets +onlyGivenNames x; clear_value x; revert x; intro _) | apply kept_setFld | apply kept_armMatch
    | apply kept_snapTrigger | apply KeptAns.done | split

theorem kept_commitDue (s : State) (h0 : Kept q τ W r₀ s) [Can W .evr] : Kept q τ W r₀ (commitDue s) := by
  unfold commitDue
  with_reducible repeat' first | assumption | apply kept_commit | split

theorem kept_ansRecorderRead (b : Body) (s : State) (h0 : Kept q τ W r₀ s) [Can W .eng] [Can W .obs] : KeptAns q τ W r₀
    (ansRecorderRead b s) := by
  unfold ansRecorderRead
  with_reducible repeat' first
    | assumption | (extract_lets +onlyGivenNames x; clear_value x; revert x; intro _) | apply kept_withDrbg | intro s₁ h₁
    | exact KeptAns.fail | apply KeptAns.done | split

theorem kept_execRecorderRead (x1 : Hdr) (b : Body) (s : State) (h0 : Kept q τ W r₀ s) [Can W .sent] [Can W .regs] [Can W .cmd]
    [Can W .eng] [Can W .obs] [Can W .evr] : KeptOut q τ W r₀ (execRecorderRead x1 b s) := by
  unfold execRecorderRead
  with_reducible repeat' first | assumption | apply kept_run | apply kept_ansRecorderRead | intro s₁ h₁

theorem kept_tileFails (b : ℕ) (k : ℕ) (s : State) (h0 : Kept q τ W r₀ s) [Can W .sent] [Can W .regs] [Can W .cmd] [Can W .lane]
    [Can W .port] [Can W .sas] [Can W .brk] [Can W .trk] [Can W .que] [Can W .bnd] [Can W .keys] [Can W .obs] [Can W .evr]
    : Kept q τ W r₀ (tileFails b k s) := by
  unfold tileFails
  with_reducible repeat' first
    | assumption
    | (extract_lets +onlyGivenNames x; refine (?_ : Kept q τ W r₀ x → _) (?_ : Kept q τ W r₀ x); intro hx; clear_value x; revert x; intro _ _;
        rotate_left; dsimp -zeta only [x]; clear x)
    | (extract_lets +onlyGivenNames x; clear_value x; revert x; intro _) | apply kept_setTile | apply kept_resign | apply kept_kindFailed
    | apply kept_record | apply kept_loseBanks

theorem kept_tileTestDone (b : ℕ) (k : ℕ) (ok : Bool) (s : State) (h0 : Kept q τ W r₀ s) [Can W .sent] [Can W .regs] [Can W .cmd]
    [Can W .lane] [Can W .port] [Can W .cls] [Can W .sas] [Can W .brk] [Can W .trk] [Can W .que] [Can W .bnd] [Can W .keys] [Can W .obs]
    [Can W .evr] : Kept q τ W r₀ (tileTestDone b k ok s) := by
  unfold tileTestDone
  with_reducible repeat' first
    | assumption | (extract_lets +onlyGivenNames x; clear_value x; revert x; intro _) | apply kept_unitResult | apply kept_setTile
    | apply kept_tileFails | split

theorem kept_takeSample (n : ℕ) (value : ℕ) (s : State) (h0 : Kept q τ W r₀ s) [Can W .regs] [Can W .obs] : Kept q τ W r₀
    (takeSample n value s) := by
  unfold takeSample
  with_reducible repeat' first
    | assumption | (extract_lets +onlyGivenNames x; clear_value x; revert x; intro _) | apply kept_bumpFld | apply kept_raise
    | simp -zeta only [kept_mk, can, true_or, or_true] | split

theorem kept_execPerfSample (x1 : ℕ) (counter : ℕ) (value : ℕ) (s : State) (h0 : Kept q τ W r₀ s) [Can W .regs] [Can W .obs]
    : KeptOut q τ W r₀ (execPerfSample x1 counter value s) := by
  unfold execPerfSample
  with_reducible repeat' first | assumption | apply kept_ev | apply kept_takeSample | intro s₁ h₁

theorem kept_closeWindow (code : ℕ) (s : State) (h0 : Kept q τ W r₀ s) [Can W .regs] [Can W .obs] [Can W .evr] : Kept q τ W r₀
    (closeWindow code s) := by
  unfold closeWindow
  with_reducible repeat' first
    | assumption | (extract_lets +onlyGivenNames x; clear_value x; revert x; intro _) | apply kept_recordResp
    | simp -zeta only [kept_mk, can, true_or, or_true] | split

theorem kept_istOverdue (u : ℕ) (s : State) (h0 : Kept q τ W r₀ s) [Can W .sent] [Can W .regs] [Can W .cmd] [Can W .lane] [Can W .cls]
    [Can W .sas] [Can W .brk] [Can W .trk] [Can W .que] [Can W .bnd] [Can W .keys] [Can W .obs] [Can W .evr] : Kept q τ W r₀
    (istOverdue u s) := by
  unfold istOverdue
  with_reducible repeat' first
    | assumption
    | (extract_lets +onlyGivenNames x; refine (?_ : Kept q τ W r₀ x → _) (?_ : Kept q τ W r₀ x); intro hx; clear_value x; revert x; intro _ _;
        rotate_left; dsimp -zeta only [x]; clear x)
    | (extract_lets +onlyGivenNames x; clear_value x; revert x; intro _) | apply kept_settleSelftest | apply kept_record
    | apply kept_setTile | simp -zeta only [kept_mk, can, true_or, or_true] | split

theorem kept_tileTestStart (b : ℕ) (k : ℕ) (s : State) (h0 : Kept q τ W r₀ s) [Can W .sent] [Can W .regs] [Can W .cmd] [Can W .lane]
    [Can W .cls] [Can W .sas] [Can W .brk] [Can W .trk] [Can W .que] [Can W .bnd] [Can W .keys] [Can W .obs] [Can W .evr]
    : Kept q τ W r₀ (tileTestStart b k s) := by
  unfold tileTestStart
  with_reducible repeat' first
    | assumption
    | (extract_lets +onlyGivenNames x; refine (?_ : Kept q τ W r₀ x → _) (?_ : Kept q τ W r₀ x); intro hx; clear_value x; revert x; intro _ _;
        rotate_left; dsimp -zeta only [x]; clear x)
    | (extract_lets +onlyGivenNames x; clear_value x; revert x; intro _) | apply kept_settleSelftest | apply kept_setTile | split

theorem kept_ansSelftestRun (x1 : Hdr) (b : Body) (s : State) (h0 : Kept q τ W r₀ s) [Can W .sent] [Can W .regs] [Can W .cmd]
    [Can W .lane] [Can W .cls] [Can W .sas] [Can W .brk] [Can W .trk] [Can W .que] [Can W .bnd] [Can W .keys] [Can W .obs] [Can W .evr]
    : KeptAns q τ W r₀ (ansSelftestRun x1 b s) := by
  unfold ansSelftestRun
  with_reducible repeat' first
    | assumption
    | (extract_lets +onlyGivenNames x; refine (?_ : Kept q τ W r₀ x → _) (?_ : Kept q τ W r₀ x); intro hx; clear_value x; revert x; intro _ _;
        rotate_left; dsimp -zeta only [x]; clear x)
    | (extract_lets +onlyGivenNames x; clear_value x; revert x; intro _) | apply kept_startOp | apply kept_settleSelftest
    | simp -zeta only [kept_mk, can, true_or, or_true] | exact KeptAns.fail | apply KeptAns.prog | split

theorem kept_triggered (source : ℕ) (s : State) (h0 : Kept q τ W r₀ s) [Can W .regs] [Can W .obs] [Can W .evr] : Kept q τ W r₀
    (triggered source s) := by
  unfold triggered
  with_reducible repeat' first | assumption | apply kept_snapTrigger | split

theorem kept_execSnapInEdge (x1 : ℕ) (s : State) (h0 : Kept q τ W r₀ s) [Can W .regs] [Can W .obs] [Can W .evr] : KeptOut q τ W r₀
    (execSnapInEdge x1 s) := by
  unfold execSnapInEdge
  with_reducible repeat' first | assumption | apply kept_ev | apply kept_snapPin | intro s₁ h₁

theorem kept_applySel (e : Elem) (s : State) (h0 : Kept q τ W r₀ s) [Can W .regs] [Can W .obs] : Kept q τ W r₀ (applySel e s).1 := by
  unfold applySel
  with_reducible repeat' first
    | assumption
    | (extract_lets +onlyGivenNames x; refine (?_ : Kept q τ W r₀ x → _) (?_ : Kept q τ W r₀ x); intro hx; clear_value x; revert x; intro _ _;
        rotate_left; dsimp -zeta only [x]; clear x)
    | (extract_lets +onlyGivenNames x; clear_value x; revert x; intro _) | apply kept_setFld
    | simp -zeta only [kept_mk, can, true_or, or_true]

theorem kept_ansPerfRead (s : State) (h0 : Kept q τ W r₀ s) [Can W .freeCount] [Can W .obs] : KeptAns q τ W r₀ (ansPerfRead s) := by
  unfold ansPerfRead
  with_reducible repeat' first
    | assumption
    | (extract_lets +onlyGivenNames x; refine (?_ : Kept q τ W r₀ x → _) (?_ : Kept q τ W r₀ x); intro hx; clear_value x; revert x; intro _ _;
        rotate_left; dsimp -zeta only [x]; clear x)
    | (extract_lets +onlyGivenNames x; clear_value x; revert x; intro _) | apply kept_perfSettle
    | simp -zeta only [kept_mk, can, true_or, or_true] | apply KeptAns.done

theorem kept_refillToken (code : ℕ) (s : State) (h0 : Kept q τ W r₀ s) [Can W .evr] : Kept q τ W r₀ (refillToken code s) := by
  unfold refillToken
  with_reducible repeat' first
    | assumption | (extract_lets +onlyGivenNames x; clear_value x; revert x; intro _) | simp -zeta only [kept_mk, can, true_or, or_true]
    | split

theorem kept_execTokenRefill (x1 : ℕ) (code : ℕ) (s : State) (h0 : Kept q τ W r₀ s) [Can W .evr] : KeptOut q τ W r₀
    (execTokenRefill x1 code s) := by
  unfold execTokenRefill
  with_reducible repeat' first | assumption | apply kept_ev | apply kept_refillToken | intro s₁ h₁

theorem kept_execEvIstOverdue (x1 : ℕ) (unit : ℕ) (s : State) (h0 : Kept q τ W r₀ s) [Can W .sent] [Can W .regs] [Can W .cmd]
    [Can W .lane] [Can W .cls] [Can W .sas] [Can W .brk] [Can W .trk] [Can W .que] [Can W .bnd] [Can W .keys] [Can W .obs] [Can W .evr]
    : KeptOut q τ W r₀ (execEvIstOverdue x1 unit s) := by
  unfold execEvIstOverdue
  with_reducible repeat' first | assumption | apply kept_ev | apply kept_istOverdue | intro s₁ h₁

theorem kept_execTileTestStart (x1 : ℕ) (brick : ℕ) (tile : ℕ) (s : State) (h0 : Kept q τ W r₀ s) [Can W .sent] [Can W .regs]
    [Can W .cmd] [Can W .lane] [Can W .cls] [Can W .sas] [Can W .brk] [Can W .trk] [Can W .que] [Can W .bnd] [Can W .keys] [Can W .obs]
    [Can W .evr] : KeptOut q τ W r₀ (execTileTestStart x1 brick tile s) := by
  unfold execTileTestStart
  with_reducible repeat' first | assumption | apply kept_ev | apply kept_tileTestStart | intro s₁ h₁ | split

theorem kept_execSnapshotTrigger (x1 : ℕ) (source : ℕ) (s : State) (h0 : Kept q τ W r₀ s) [Can W .regs] [Can W .obs] [Can W .evr]
    : KeptOut q τ W r₀ (execSnapshotTrigger x1 source s) := by
  unfold execSnapshotTrigger
  with_reducible repeat' first | assumption | apply kept_ev | apply kept_triggered | intro s₁ h₁

theorem kept_perfClearAll (s : State) (h0 : Kept q τ W r₀ s) [Can W .obs] : Kept q τ W r₀ (perfClearAll s) := by
  unfold perfClearAll
  with_reducible repeat' first
    | assumption | (extract_lets +onlyGivenNames x; clear_value x; revert x; intro _) | simp -zeta only [kept_mk, can, true_or, or_true]

theorem kept_execSelftestRun (x1 : Hdr) (b : Body) (s : State) (h0 : Kept q τ W r₀ s) [Can W .sent] [Can W .regs] [Can W .cmd]
    [Can W .lane] [Can W .cls] [Can W .sas] [Can W .brk] [Can W .trk] [Can W .que] [Can W .bnd] [Can W .keys] [Can W .obs] [Can W .evr]
    : KeptOut q τ W r₀ (execSelftestRun x1 b s) := by
  unfold execSelftestRun
  with_reducible repeat' first | assumption | apply kept_run | apply kept_ansSelftestRun | intro s₁ h₁

theorem kept_execSnapArm (x1 : Hdr) (b : Body) (s : State) (h0 : Kept q τ W r₀ s) [Can W .sent] [Can W .regs] [Can W .cmd] [Can W .time]
    [Can W .dks] [Can W .obs] [Can W .evr] : KeptOut q τ W r₀ (execSnapArm x1 b s) := by
  unfold execSnapArm
  with_reducible repeat' first | assumption | apply kept_run | apply kept_ansSnapArm | intro s₁ h₁

theorem kept_ansPerfConfig (b : Body) (s : State) (h0 : Kept q τ W r₀ s) [Can W .freeCount] [Can W .regs] [Can W .obs]
    : KeptAns q τ W r₀ (ansPerfConfig b s) := by
  unfold ansPerfConfig
  split
  rename_i s₁ rep e
  have h1 : Kept q τ W r₀ s₁ :=
    kept_fst e (kept_foldlFst _ _ (kept_perfSettle _ h0) fun p x h => kept_applySel _ _ h)
  refine KeptAns.done ?_
  repeat' split
  · exact kept_perfClearAll _ (kept_setFld _ _ _ _ _ h1)
  · exact kept_perfClearAll _ h1
  · exact kept_setFld _ _ _ _ _ h1
  · exact h1

theorem kept_execPerfConfig (x1 : Hdr) (b : Body) (s : State) (h0 : Kept q τ W r₀ s) [Can W .freeCount] [Can W .sent] [Can W .regs]
    [Can W .cmd] [Can W .obs] [Can W .evr] : KeptOut q τ W r₀ (execPerfConfig x1 b s) := by
  unfold execPerfConfig
  with_reducible repeat' first | assumption | apply kept_run | apply kept_ansPerfConfig | intro s₁ h₁

theorem kept_execRecorderCommit (x1 : ℕ) (s : State) (h0 : Kept q τ W r₀ s) [Can W .evr] : KeptOut q τ W r₀
    (execRecorderCommit x1 s) := by
  unfold execRecorderCommit
  with_reducible repeat' first | assumption | apply kept_ev | apply kept_commitDue | intro s₁ h₁

theorem kept_execPerfRead (x1 : Hdr) (b : Body) (s : State) (h0 : Kept q τ W r₀ s) [Can W .freeCount] [Can W .sent] [Can W .regs]
    [Can W .cmd] [Can W .obs] [Can W .evr] : KeptOut q τ W r₀ (execPerfRead x1 b s) := by
  unfold execPerfRead
  with_reducible repeat' first | assumption | apply kept_run | apply kept_ansPerfRead | intro s₁ h₁

theorem kept_execSuppressionWindowClose (x1 : ℕ) (code : ℕ) (s : State) (h0 : Kept q τ W r₀ s) [Can W .regs] [Can W .obs] [Can W .evr]
    : KeptOut q τ W r₀ (execSuppressionWindowClose x1 code s) := by
  unfold execSuppressionWindowClose
  with_reducible repeat' first | assumption | apply kept_ev | apply kept_closeWindow | intro s₁ h₁

theorem kept_execTileTestDone (x1 : ℕ) (brick : ℕ) (tile : ℕ) (ok : Bool) (s : State) (h0 : Kept q τ W r₀ s) [Can W .sent] [Can W .regs]
    [Can W .cmd] [Can W .lane] [Can W .port] [Can W .cls] [Can W .sas] [Can W .brk] [Can W .trk] [Can W .que] [Can W .bnd] [Can W .keys]
    [Can W .obs] [Can W .evr] : KeptOut q τ W r₀ (execTileTestDone x1 brick tile ok s) := by
  unfold execTileTestDone
  with_reducible repeat' first | assumption | apply kept_ev | apply kept_tileTestDone | intro s₁ h₁ | split

/-! ## Boot -/

/-- The registers a loss of state leaves are canonical: a filter with new words, none of them the reset word. -/
theorem wf_keepRegs (keep : RClass → Bool) {m : KMap Word} (h : Regs.wf m = true) : Regs.wf (keepRegs keep m) = true := by
  simp only [Regs.wf, Bool.and_eq_true, List.all_eq_true, decide_eq_true_eq, wfTable] at h ⊢
  unfold keepRegs
  refine ⟨risingFrom_filterMap ?_ h.1, ?_⟩
  · intro e x hx
    dsimp only at hx
    split at hx
    · cases hx
    · cases hx; rfl
  · intro x hx
    obtain ⟨e, _, he⟩ := List.mem_filterMap.1 hx
    dsimp only at he
    split at he
    · cases he
    · rename_i hne
      cases he; exact hne

theorem kept_loseState (keepS keepP : Bool) (s : State) (h0 : Kept q τ W r₀ s) [Can W .regs] [Can W .cmd] [Can W .boot] [Can W .lane]
    [Can W .port] [Can W .time] [Can W .cls] [Can W .sas] [Can W .brk] [Can W .trk] [Can W .que] [Can W .bnd] [Can W .keys] [Can W .eng]
    [Can W .dks] [Can W .mem] [Can W .tmp] [Can W .pwr] [Can W .obs] [Can W .evr] [Can W .ddr] : Kept q τ W r₀
    (loseState keepS keepP s) :=
  ⟨h0.queue, h0.time, wf_keepRegs _ h0.regs, ⟨rfl, fun e => absurd (can (W := W) (p := .ddr)) (by simp [e])⟩, ⟨rfl, fun e => absurd (can (W := W) (p := .ddr)) (by simp [e])⟩,
    fun p hp => Part.same_trans (by cases p <;> first | rfl | exact absurd hp (by simp [can])) (h0.frame p hp)⟩

theorem kept_setFlashBank (b : Bool) (x : Bank) (s : State) (h0 : Kept q τ W r₀ s) [Can W .boot] : Kept q τ W r₀
    (setFlashBank b x s) := by
  unfold setFlashBank
  with_reducible repeat' first
    | assumption | (extract_lets +onlyGivenNames x; clear_value x; revert x; intro _) | simp -zeta only [kept_mk, can, true_or, or_true]
    | split

theorem kept_ansImageWrite (b : Body) (s : State) (h0 : Kept q τ W r₀ s) [Can W .cmd] [Can W .boot] : KeptAns q τ W r₀
    (ansImageWrite b s) := by
  unfold ansImageWrite
  with_reducible repeat' first
    | assumption | (extract_lets +onlyGivenNames x; clear_value x; revert x; intro _) | apply kept_setFlashBank
    | simp -zeta only [kept_mk, can, true_or, or_true] | exact KeptAns.fail | apply KeptAns.done | split

theorem kept_execImageWrite (x1 : Hdr) (b : Body) (s : State) (h0 : Kept q τ W r₀ s) [Can W .sent] [Can W .regs] [Can W .cmd]
    [Can W .boot] [Can W .obs] [Can W .evr] : KeptOut q τ W r₀ (execImageWrite x1 b s) := by
  unfold execImageWrite
  with_reducible repeat' first | assumption | apply kept_run | apply kept_ansImageWrite | intro s₁ h₁

theorem kept_ansImageActivate (x1 : Hdr) (ok : Bool) (s : State) (h0 : Kept q τ W r₀ s) [Can W .sent] [Can W .regs] [Can W .cmd]
    [Can W .boot] [Can W .obs] : KeptAns q τ W r₀ (ansImageActivate x1 ok s) := by
  unfold ansImageActivate
  with_reducible repeat' first
    | assumption
    | (extract_lets +onlyGivenNames x; refine (?_ : Kept q τ W r₀ x → _) (?_ : Kept q τ W r₀ x); intro hx; clear_value x; revert x; intro _ _;
        rotate_left; dsimp -zeta only [x]; clear x)
    | (extract_lets +onlyGivenNames x; clear_value x; revert x; intro _) | apply kept_startOp | apply kept_endOp | apply kept_setFlashBank
    | simp -zeta only [kept_mk, can, true_or, or_true] | exact KeptAns.fail | apply KeptAns.prog | split

theorem kept_execImageActivate (x1 : Hdr) (b : Body) (ok : Bool) (s : State) (h0 : Kept q τ W r₀ s) [Can W .sent] [Can W .regs]
    [Can W .cmd] [Can W .boot] [Can W .obs] [Can W .evr] : KeptOut q τ W r₀ (execImageActivate x1 b ok s) := by
  unfold execImageActivate
  with_reducible repeat' first | assumption | apply kept_run | apply kept_ansImageActivate | intro s₁ h₁

theorem kept_writeJournal (s : State) (h0 : Kept q τ W r₀ s) [Can W .boot] : Kept q τ W r₀ (writeJournal s) := by
  unfold writeJournal
  with_reducible repeat' first
    | assumption | (extract_lets +onlyGivenNames x; clear_value x; revert x; intro _) | simp -zeta only [kept_mk, can, true_or, or_true]

theorem kept_trialCommit (s : State) (h0 : Kept q τ W r₀ s) [Can W .boot] [Can W .keys] : Kept q τ W r₀ (trialCommit s) := by
  unfold trialCommit
  with_reducible repeat' first
    | assumption | (extract_lets +onlyGivenNames x; clear_value x; revert x; intro _) | apply kept_writeJournal
    | simp -zeta only [kept_mk, can, true_or, or_true] | split

theorem kept_execTrialCommit (x1 : ℕ) (s : State) (h0 : Kept q τ W r₀ s) [Can W .boot] [Can W .keys] : KeptOut q τ W r₀
    (execTrialCommit x1 s) := by
  unfold execTrialCommit
  with_reducible repeat' first | assumption | apply kept_ev | apply kept_trialCommit | intro s₁ h₁

theorem kept_resetBy (kind : ℕ) (s : State) (h0 : Kept q τ W r₀ s) [Can W .regs] [Can W .cmd] [Can W .boot] [Can W .lane] [Can W .port]
    [Can W .time] [Can W .cls] [Can W .sas] [Can W .brk] [Can W .trk] [Can W .que] [Can W .bnd] [Can W .keys] [Can W .eng] [Can W .dks]
    [Can W .mem] [Can W .tmp] [Can W .pwr] [Can W .obs] [Can W .evr] [Can W .ddr] : Kept q τ W r₀ (resetBy kind s) := by
  unfold resetBy
  with_reducible repeat' first
    | assumption
    | (extract_lets +onlyGivenNames x; refine (?_ : Kept q τ W r₀ x → _) (?_ : Kept q τ W r₀ x); intro hx; clear_value x; revert x; intro _ _;
        rotate_left; dsimp -zeta only [x]; clear x)
    | (extract_lets +onlyGivenNames x; clear_value x; revert x; intro _) | apply kept_saveTime | apply kept_loseState | apply kept_raise
    | apply kept_setFld | simp -zeta only [kept_mk, can, true_or, or_true] | split

theorem kept_haltReset (s : State) (h0 : Kept q τ W r₀ s) [Can W .regs] [Can W .cmd] [Can W .boot] [Can W .lane] [Can W .port]
    [Can W .time] [Can W .cls] [Can W .sas] [Can W .brk] [Can W .trk] [Can W .que] [Can W .bnd] [Can W .keys] [Can W .eng] [Can W .dks]
    [Can W .mem] [Can W .tmp] [Can W .pwr] [Can W .obs] [Can W .evr] [Can W .ddr] : Kept q τ W r₀ (haltReset s) := by
  unfold haltReset
  with_reducible repeat' first
    | assumption | (extract_lets +onlyGivenNames x; clear_value x; revert x; intro _) | apply kept_resetBy | split

theorem kept_bootKeys (s : State) (h0 : Kept q τ W r₀ s) [Can W .freeCount] [Can W .sas] [Can W .keys] : Kept q τ W r₀ (bootKeys s) := by
  unfold bootKeys
  with_reducible repeat' first
    | assumption | (extract_lets +onlyGivenNames x; clear_value x; revert x; intro _) | apply kept_drawBits
    | simp -zeta only [kept_mk, can, true_or, or_true]

theorem kept_openKeys (s : State) (h0 : Kept q τ W r₀ s) [Can W .keys] : Kept q τ W r₀ (openKeys s) := by
  unfold openKeys
  with_reducible repeat' first
    | assumption | (extract_lets +onlyGivenNames x; clear_value x; revert x; intro _) | simp -zeta only [kept_mk, can, true_or, or_true]
    | split

theorem kept_startFirmware (s : State) (h0 : Kept q τ W r₀ s) [Can W .freeCount] [Can W .regs] [Can W .boot] [Can W .lane] [Can W .sas]
    [Can W .keys] [Can W .eng] [Can W .mem] [Can W .obs] [Can W .evr] : Kept q τ W r₀ (startFirmware s) := by
  unfold startFirmware
  with_reducible repeat' first
    | assumption
    | (extract_lets +onlyGivenNames x; refine (?_ : Kept q τ W r₀ x → _) (?_ : Kept q τ W r₀ x); intro hx; clear_value x; revert x; intro _ _;
        rotate_left; dsimp -zeta only [x]; clear x)
    | (extract_lets +onlyGivenNames x; clear_value x; revert x; intro _) | apply kept_powerLanes | apply kept_drawMemKey
    | apply kept_bootKeys | apply kept_openKeys | apply kept_record | simp -zeta only [kept_mk, can, true_or, or_true] | split

theorem kept_measureBank (b : Bool) (s : State) (h0 : Kept q τ W r₀ s) [Can W .boot] : Kept q τ W r₀ (measureBank b s) := by
  unfold measureBank
  with_reducible repeat' first | assumption | (extract_lets +onlyGivenNames x; clear_value x; revert x; intro _) | apply kept_setFlashBank

theorem kept_imageBoot (okA : Bool) (okB : Bool) (s : State) (h0 : Kept q τ W r₀ s) [Can W .freeCount] [Can W .regs] [Can W .boot]
    [Can W .lane] [Can W .sas] [Can W .keys] [Can W .eng] [Can W .mem] [Can W .obs] [Can W .evr] : Kept q τ W r₀
    (imageBoot okA okB s) := by
  unfold imageBoot
  with_reducible repeat' first
    | assumption
    | (extract_lets +onlyGivenNames x; refine (?_ : Kept q τ W r₀ x → _) (?_ : Kept q τ W r₀ x); intro hx; clear_value x; revert x; intro _ _;
        rotate_left; dsimp -zeta only [x]; clear x)
    | (extract_lets +onlyGivenNames x; refine (?_ : (∀ v, Kept q τ W r₀ (x v)) → _) (?_ : ∀ v, Kept q τ W r₀ (x v)); intro hx; clear_value x; revert x; intro _ hx;
        rotate_left; dsimp -zeta only [x]; clear x)
    | (extract_lets +onlyGivenNames x; clear_value x; revert x; intro _) | apply kept_raise | apply kept_startFirmware
    | apply kept_measureBank | simp -zeta only [kept_mk, can, true_or, or_true] | exact hx _ | split | intro v

theorem kept_execImageBoot (x1 : ℕ) (okA : Bool) (okB : Bool) (s : State) (h0 : Kept q τ W r₀ s) [Can W .freeCount] [Can W .regs]
    [Can W .boot] [Can W .lane] [Can W .sas] [Can W .keys] [Can W .eng] [Can W .mem] [Can W .obs] [Can W .evr] : KeptOut q τ W r₀
    (execImageBoot x1 okA okB s) := by
  unfold execImageBoot
  with_reducible repeat' first | assumption | apply kept_ev | apply kept_imageBoot | intro s₁ h₁

theorem kept_resealDone (s : State) (h0 : Kept q τ W r₀ s) [Can W .sent] [Can W .regs] [Can W .cmd] [Can W .boot] [Can W .keys]
    [Can W .obs] : Kept q τ W r₀ (resealDone s) := by
  unfold resealDone
  with_reducible repeat' first
    | assumption | (extract_lets +onlyGivenNames x; clear_value x; revert x; intro _) | apply kept_endOp | apply kept_writeJournal
    | simp -zeta only [kept_mk, can, true_or, or_true] | split

theorem kept_execImageResealDone (x1 : ℕ) (s : State) (h0 : Kept q τ W r₀ s) [Can W .sent] [Can W .regs] [Can W .cmd] [Can W .boot]
    [Can W .keys] [Can W .obs] : KeptOut q τ W r₀ (execImageResealDone x1 s) := by
  unfold execImageResealDone
  with_reducible repeat' first | assumption | apply kept_ev | apply kept_resealDone | intro s₁ h₁

theorem kept_destroy (old : ℕ) (new : ℕ) (s : State) (h0 : Kept q τ W r₀ s) [Can W .freeCount] [Can W .boot] [Can W .keys] [Can W .dks]
    [Can W .evr] : Kept q τ W r₀ (destroy old new s) := by
  unfold destroy
  with_reducible repeat' first
    | assumption
    | (extract_lets +onlyGivenNames x; refine (?_ : Kept q τ W r₀ x → _) (?_ : Kept q τ W r₀ x); intro hx; clear_value x; revert x; intro _ _;
        rotate_left; dsimp -zeta only [x]; clear x)
    | (extract_lets +onlyGivenNames x; clear_value x; revert x; intro _) | apply kept_drawBits
    | simp -zeta only [kept_mk, can, true_or, or_true] | split

theorem kept_recordLife (s : State) (h0 : Kept q τ W r₀ s) [Can W .regs] [Can W .boot] [Can W .keys] [Can W .obs] [Can W .evr]
    : Kept q τ W r₀ (recordLife s) := by
  unfold recordLife
  with_reducible repeat' first
    | assumption
    | (extract_lets +onlyGivenNames x; refine (?_ : Kept q τ W r₀ x → _) (?_ : Kept q τ W r₀ x); intro hx; clear_value x; revert x; intro _ _;
        rotate_left; dsimp -zeta only [x]; clear x)
    | (extract_lets +onlyGivenNames x; clear_value x; revert x; intro _) | apply kept_record
    | simp -zeta only [kept_mk, can, true_or, or_true] | split

theorem kept_settleLife (s : State) (h0 : Kept q τ W r₀ s) [Can W .freeCount] [Can W .boot] [Can W .keys] [Can W .dks] [Can W .evr]
    : Kept q τ W r₀ (settleLife s) := by
  unfold settleLife
  with_reducible repeat' first
    | assumption
    | (extract_lets +onlyGivenNames x; refine (?_ : Kept q τ W r₀ x → _) (?_ : Kept q τ W r₀ x); intro hx; clear_value x; revert x; intro _ _;
        rotate_left; dsimp -zeta only [x]; clear x)
    | (extract_lets +onlyGivenNames x; clear_value x; revert x; intro _) | apply kept_destroy
    | simp -zeta only [kept_mk, can, true_or, or_true] | split

theorem kept_initBbd (s : State) (h0 : Kept q τ W r₀ s) [Can W .regs] [Can W .boot] [Can W .time] [Can W .tmp] [Can W .evr]
    : Kept q τ W r₀ (initBbd s) := by
  unfold initBbd
  have hr := wf_keepRegs (fun c => decide (c ≠ .b)) h0.regs
  generalize keepRegs (fun c => decide (c ≠ .b)) s.regs = r at hr ⊢
  split
  · exact h0
  · exact ⟨h0.queue, h0.time, hr, h0.mem0, h0.mem1, fun p hp => Part.same_trans
      (by cases p <;> first | rfl | exact ⟨rfl, rfl⟩ | exact absurd hp (by simp [can])) (h0.frame p hp)⟩

theorem kept_recordBoot (s : State) (h0 : Kept q τ W r₀ s) [Can W .regs] [Can W .obs] [Can W .evr] : Kept q τ W r₀ (recordBoot s) := by
  unfold recordBoot
  with_reducible repeat' first
    | assumption
    | (extract_lets +onlyGivenNames x; refine (?_ : Kept q τ W r₀ x → _) (?_ : Kept q τ W r₀ x); intro hx; clear_value x; revert x; intro _ _;
        rotate_left; dsimp -zeta only [x]; clear x)
    | (extract_lets +onlyGivenNames x; clear_value x; revert x; intro _) | apply kept_recordResp
    | simp -zeta only [kept_mk, can, true_or, or_true] | refine kept_foldl _ _ ?_ (fun s₁ x₁ h₁ => ?_)

theorem kept_startBoot (cause : ℕ) (s : State) (h0 : Kept q τ W r₀ s) [Can W .freeCount] [Can W .sent] [Can W .regs] [Can W .cmd]
    [Can W .boot] [Can W .lane] [Can W .port] [Can W .time] [Can W .sas] [Can W .brk] [Can W .trk] [Can W .que] [Can W .bnd]
    [Can W .keys] [Can W .eng] [Can W .dks] [Can W .mem] [Can W .tmp] [Can W .obs] [Can W .evr] : Kept q τ W r₀
    (startBoot cause s) := by
  unfold startBoot
  with_reducible repeat' first
    | assumption
    | (extract_lets +onlyGivenNames x; refine (?_ : Kept q τ W r₀ x → _) (?_ : Kept q τ W r₀ x); intro hx; clear_value x; revert x; intro _ _;
        rotate_left; dsimp -zeta only [x]; clear x)
    | (extract_lets +onlyGivenNames x; clear_value x; revert x; intro _) | apply kept_settleLife | apply kept_initBbd
    | apply kept_recordBoot | apply kept_rearm | apply kept_newEpoch | apply kept_restoreTime
    | simp -zeta only [kept_mk, can, true_or, or_true]

theorem kept_expressReady (s : State) (h0 : Kept q τ W r₀ s) [Can W .freeCount] [Can W .boot] [Can W .cls] [Can W .brk] : Kept q τ W r₀
    (expressReady s) := by
  unfold expressReady
  with_reducible repeat' first
    | assumption
    | (extract_lets +onlyGivenNames x; refine (?_ : Kept q τ W r₀ x → _) (?_ : Kept q τ W r₀ x); intro hx; clear_value x; revert x; intro _ _;
        rotate_left; dsimp -zeta only [x]; clear x)
    | (extract_lets +onlyGivenNames x; clear_value x; revert x; intro _) | apply kept_setBrick | apply kept_drawSeeds
    | simp -zeta only [kept_mk, can, true_or, or_true] | refine kept_foldl _ _ ?_ (fun s₁ x₁ h₁ => ?_) | split

theorem kept_sleepReached (s : State) (h0 : Kept q τ W r₀ s) [Can W .regs] [Can W .cmd] [Can W .boot] [Can W .lane] [Can W .port]
    [Can W .time] [Can W .cls] [Can W .sas] [Can W .brk] [Can W .trk] [Can W .que] [Can W .bnd] [Can W .keys] [Can W .eng] [Can W .dks]
    [Can W .mem] [Can W .tmp] [Can W .pwr] [Can W .obs] [Can W .evr] [Can W .ddr] : Kept q τ W r₀ (sleepReached s) := by
  unfold sleepReached
  with_reducible repeat' first
    | assumption
    | (extract_lets +onlyGivenNames x; refine (?_ : Kept q τ W r₀ x → _) (?_ : Kept q τ W r₀ x); intro hx; clear_value x; revert x; intro _ _;
        rotate_left; dsimp -zeta only [x]; clear x)
    | (extract_lets +onlyGivenNames x; clear_value x; revert x; intro _) | apply kept_loseState | apply kept_startWake
    | apply kept_rtcWake | simp -zeta only [kept_mk, can, true_or, or_true] | split

theorem kept_vaultKat (s : State) (h0 : Kept q τ W r₀ s) [Can W .boot] [Can W .obs] : Kept q τ W r₀ (vaultKat s) := by
  unfold vaultKat
  with_reducible repeat' first
    | assumption | (extract_lets +onlyGivenNames x; clear_value x; revert x; intro _) | simp -zeta only [kept_mk, can, true_or, or_true]
    | split

theorem kept_tamperReset (s : State) (h0 : Kept q τ W r₀ s) [Can W .regs] [Can W .cmd] [Can W .boot] [Can W .lane] [Can W .port]
    [Can W .time] [Can W .cls] [Can W .sas] [Can W .brk] [Can W .trk] [Can W .que] [Can W .bnd] [Can W .keys] [Can W .eng] [Can W .dks]
    [Can W .mem] [Can W .tmp] [Can W .pwr] [Can W .obs] [Can W .evr] [Can W .ddr] : Kept q τ W r₀ (tamperReset s) := by
  unfold tamperReset
  with_reducible repeat' first | assumption | apply kept_resetBy | split

theorem kept_warmReset (s : State) (h0 : Kept q τ W r₀ s) [Can W .regs] [Can W .cmd] [Can W .boot] [Can W .lane] [Can W .port]
    [Can W .time] [Can W .cls] [Can W .sas] [Can W .brk] [Can W .trk] [Can W .que] [Can W .bnd] [Can W .keys] [Can W .eng] [Can W .dks]
    [Can W .mem] [Can W .tmp] [Can W .pwr] [Can W .obs] [Can W .evr] [Can W .ddr] : Kept q τ W r₀ (warmReset s) := by
  unfold warmReset
  with_reducible repeat' first | assumption | apply kept_resetBy | split

theorem kept_execCommandWarmReset (x1 : ℕ) (s : State) (h0 : Kept q τ W r₀ s) [Can W .regs] [Can W .cmd] [Can W .boot] [Can W .lane]
    [Can W .port] [Can W .time] [Can W .cls] [Can W .sas] [Can W .brk] [Can W .trk] [Can W .que] [Can W .bnd] [Can W .keys] [Can W .eng]
    [Can W .dks] [Can W .mem] [Can W .tmp] [Can W .pwr] [Can W .obs] [Can W .evr] [Can W .ddr] : KeptOut q τ W r₀
    (execCommandWarmReset x1 s) := by
  unfold execCommandWarmReset
  with_reducible repeat' first | assumption | apply kept_ev | apply kept_warmReset | intro s₁ h₁

theorem kept_execTamperReset (x1 : ℕ) (s : State) (h0 : Kept q τ W r₀ s) [Can W .regs] [Can W .cmd] [Can W .boot] [Can W .lane]
    [Can W .port] [Can W .time] [Can W .cls] [Can W .sas] [Can W .brk] [Can W .trk] [Can W .que] [Can W .bnd] [Can W .keys] [Can W .eng]
    [Can W .dks] [Can W .mem] [Can W .tmp] [Can W .pwr] [Can W .obs] [Can W .evr] [Can W .ddr] : KeptOut q τ W r₀
    (execTamperReset x1 s) := by
  unfold execTamperReset
  with_reducible repeat' first | assumption | apply kept_ev | apply kept_tamperReset | intro s₁ h₁

theorem kept_execVaultKatPass (x1 : ℕ) (s : State) (h0 : Kept q τ W r₀ s) [Can W .boot] [Can W .obs] : KeptOut q τ W r₀
    (execVaultKatPass x1 s) := by
  unfold execVaultKatPass
  with_reducible repeat' first | assumption | apply kept_ev | apply kept_vaultKat | intro s₁ h₁

theorem kept_execBrownOutReset (x1 : ℕ) (s : State) (h0 : Kept q τ W r₀ s) [Can W .regs] [Can W .cmd] [Can W .boot] [Can W .lane]
    [Can W .port] [Can W .time] [Can W .cls] [Can W .sas] [Can W .brk] [Can W .trk] [Can W .que] [Can W .bnd] [Can W .keys] [Can W .eng]
    [Can W .dks] [Can W .mem] [Can W .tmp] [Can W .pwr] [Can W .obs] [Can W .evr] [Can W .ddr] : KeptOut q τ W r₀
    (execBrownOutReset x1 s) := by
  unfold execBrownOutReset
  with_reducible repeat' first | assumption | apply kept_ev | apply kept_resetBy | intro s₁ h₁

theorem kept_ansImageStatus (s : State) (h0 : Kept q τ W r₀ s) : KeptAns q τ W r₀ (ansImageStatus s) := by
  unfold ansImageStatus
  with_reducible repeat' first | assumption | (extract_lets +onlyGivenNames x; clear_value x; revert x; intro _) | apply KeptAns.done

theorem kept_aonBrownout (s : State) (h0 : Kept q τ W r₀ s) [Can W .regs] [Can W .cmd] [Can W .boot] [Can W .lane] [Can W .port]
    [Can W .time] [Can W .cls] [Can W .sas] [Can W .brk] [Can W .trk] [Can W .que] [Can W .bnd] [Can W .keys] [Can W .eng] [Can W .dks]
    [Can W .mem] [Can W .tmp] [Can W .pwr] [Can W .obs] [Can W .evr] [Can W .ddr] : Kept q τ W r₀ (aonBrownout s) := by
  unfold aonBrownout
  with_reducible repeat' first | assumption | apply kept_resetBy | split

theorem kept_execAonBrownout (x1 : ℕ) (s : State) (h0 : Kept q τ W r₀ s) [Can W .regs] [Can W .cmd] [Can W .boot] [Can W .lane]
    [Can W .port] [Can W .time] [Can W .cls] [Can W .sas] [Can W .brk] [Can W .trk] [Can W .que] [Can W .bnd] [Can W .keys] [Can W .eng]
    [Can W .dks] [Can W .mem] [Can W .tmp] [Can W .pwr] [Can W .obs] [Can W .evr] [Can W .ddr] : KeptOut q τ W r₀
    (execAonBrownout x1 s) := by
  unfold execAonBrownout
  with_reducible repeat' first | assumption | apply kept_ev | apply kept_aonBrownout | intro s₁ h₁

theorem kept_copyLatch (s : State) (h0 : Kept q τ W r₀ s) [Can W .regs] [Can W .tmp] [Can W .obs] [Can W .evr] : Kept q τ W r₀
    (copyLatch s) := by
  unfold copyLatch
  with_reducible repeat' first
    | assumption
    | (extract_lets +onlyGivenNames x; refine (?_ : Kept q τ W r₀ x → _) (?_ : Kept q τ W r₀ x); intro hx; clear_value x; revert x; intro _ _;
        rotate_left; dsimp -zeta only [x]; clear x)
    | (extract_lets +onlyGivenNames x; clear_value x; revert x; intro _) | apply kept_record
    | simp -zeta only [kept_mk, can, true_or, or_true] | refine kept_foldl _ _ ?_ (fun s₁ x₁ h₁ => ?_)

theorem kept_reloadKeys (s : State) (h0 : Kept q τ W r₀ s) [Can W .keys] : Kept q τ W r₀ (reloadKeys s) := by
  unfold reloadKeys
  with_reducible repeat' first
    | assumption | (extract_lets +onlyGivenNames x; clear_value x; revert x; intro _) | simp -zeta only [kept_mk, can, true_or, or_true]

theorem kept_resumeRollover (s : State) (h0 : Kept q τ W r₀ s) [Can W .sent] [Can W .regs] [Can W .cmd] [Can W .keys] [Can W .dks]
    [Can W .obs] [Can W .evr] : Kept q τ W r₀ (resumeRollover s) := by
  unfold resumeRollover
  with_reducible repeat' first
    | assumption | (extract_lets +onlyGivenNames x; clear_value x; revert x; intro _) | apply kept_dropRollover
    | apply kept_settleRollover | apply kept_pump | apply kept_deliverTo | split

theorem kept_fullReady (s : State) (h0 : Kept q τ W r₀ s) [Can W .sent] [Can W .regs] [Can W .cmd] [Can W .boot] [Can W .keys]
    [Can W .dks] [Can W .mem] [Can W .tmp] [Can W .obs] [Can W .evr] : Kept q τ W r₀ (fullReady s) := by
  unfold fullReady
  with_reducible repeat' first
    | assumption | (extract_lets +onlyGivenNames x; have hx : x = (x : MemSt) := rfl; clear hx; dsimp -zeta only [x]; clear x)
    | (extract_lets +onlyGivenNames x; refine (?_ : Kept q τ W r₀ x → _) (?_ : Kept q τ W r₀ x); intro hx; clear_value x; revert x; intro _ _;
        rotate_left; dsimp -zeta only [x]; clear x)
    | (extract_lets +onlyGivenNames x; clear_value x; revert x; intro _) | apply kept_commitAll | apply kept_recordLife
    | apply kept_copyLatch | apply kept_reloadKeys | apply kept_settleApproved | apply kept_resumeRollover
    | simp -zeta only [kept_mkMem, can, true_or, or_true] | split

theorem kept_execFullReady (x1 : ℕ) (s : State) (h0 : Kept q τ W r₀ s) [Can W .sent] [Can W .regs] [Can W .cmd] [Can W .boot]
    [Can W .keys] [Can W .dks] [Can W .mem] [Can W .tmp] [Can W .obs] [Can W .evr] : KeptOut q τ W r₀ (execFullReady x1 s) := by
  unfold execFullReady
  with_reducible repeat' first | assumption | apply kept_ev | apply kept_fullReady | intro s₁ h₁

theorem kept_execSleepReached (x1 : ℕ) (s : State) (h0 : Kept q τ W r₀ s) [Can W .regs] [Can W .cmd] [Can W .boot] [Can W .lane]
    [Can W .port] [Can W .time] [Can W .cls] [Can W .sas] [Can W .brk] [Can W .trk] [Can W .que] [Can W .bnd] [Can W .keys] [Can W .eng]
    [Can W .dks] [Can W .mem] [Can W .tmp] [Can W .pwr] [Can W .obs] [Can W .evr] [Can W .ddr] : KeptOut q τ W r₀
    (execSleepReached x1 s) := by
  unfold execSleepReached
  with_reducible repeat' first | assumption | apply kept_ev | apply kept_sleepReached | intro s₁ h₁

theorem kept_wakeDone (s : State) (h0 : Kept q τ W r₀ s) [Can W .freeCount] [Can W .sent] [Can W .regs] [Can W .cmd] [Can W .boot]
    [Can W .lane] [Can W .port] [Can W .time] [Can W .sas] [Can W .brk] [Can W .trk] [Can W .que] [Can W .bnd] [Can W .keys]
    [Can W .eng] [Can W .dks] [Can W .mem] [Can W .tmp] [Can W .pwr] [Can W .obs] [Can W .evr] : Kept q τ W r₀ (wakeDone s) := by
  unfold wakeDone
  with_reducible repeat' first
    | assumption | (extract_lets +onlyGivenNames x; clear_value x; revert x; intro _) | apply kept_record | apply kept_startBoot
    | simp -zeta only [kept_mk, can, true_or, or_true] | split

theorem kept_beginTrial (s : State) (h0 : Kept q τ W r₀ s) [Can W .regs] [Can W .boot] [Can W .keys] : Kept q τ W r₀ (beginTrial s) := by
  unfold beginTrial
  with_reducible repeat' first
    | assumption
    | (extract_lets +onlyGivenNames x; refine (?_ : Kept q τ W r₀ x → _) (?_ : Kept q τ W r₀ x); intro hx; clear_value x; revert x; intro _ _;
        rotate_left; dsimp -zeta only [x]; clear x)
    | (extract_lets +onlyGivenNames x; clear_value x; revert x; intro _) | apply kept_raise | apply kept_writeJournal
    | simp -zeta only [kept_mk, can, true_or, or_true] | split

theorem kept_execHaltResetTimer (x1 : ℕ) (s : State) (h0 : Kept q τ W r₀ s) [Can W .regs] [Can W .cmd] [Can W .boot] [Can W .lane]
    [Can W .port] [Can W .time] [Can W .cls] [Can W .sas] [Can W .brk] [Can W .trk] [Can W .que] [Can W .bnd] [Can W .keys] [Can W .eng]
    [Can W .dks] [Can W .mem] [Can W .tmp] [Can W .pwr] [Can W .obs] [Can W .evr] [Can W .ddr] : KeptOut q τ W r₀
    (execHaltResetTimer x1 s) := by
  unfold execHaltResetTimer
  with_reducible repeat' first | assumption | apply kept_ev | apply kept_haltReset | intro s₁ h₁

theorem kept_execImageStatus (x1 : Hdr) (b : Body) (s : State) (h0 : Kept q τ W r₀ s) [Can W .sent] [Can W .regs] [Can W .cmd]
    [Can W .obs] [Can W .evr] : KeptOut q τ W r₀ (execImageStatus x1 b s) := by
  unfold execImageStatus
  with_reducible repeat' first | assumption | apply kept_run | apply kept_ansImageStatus

theorem kept_execPinReset (x1 : ℕ) (s : State) (h0 : Kept q τ W r₀ s) [Can W .regs] [Can W .cmd] [Can W .boot] [Can W .lane]
    [Can W .port] [Can W .time] [Can W .cls] [Can W .sas] [Can W .brk] [Can W .trk] [Can W .que] [Can W .bnd] [Can W .keys] [Can W .eng]
    [Can W .dks] [Can W .mem] [Can W .tmp] [Can W .pwr] [Can W .obs] [Can W .evr] [Can W .ddr] : KeptOut q τ W r₀
    (execPinReset x1 s) := by
  unfold execPinReset
  with_reducible repeat' first | assumption | apply kept_ev | apply kept_resetBy | intro s₁ h₁

theorem kept_windowExpiry (s : State) (h0 : Kept q τ W r₀ s) [Can W .boot] : Kept q τ W r₀ (windowExpiry s) := by
  unfold windowExpiry
  with_reducible repeat' first
    | assumption | (extract_lets +onlyGivenNames x; clear_value x; revert x; intro _) | simp -zeta only [kept_mk, can, true_or, or_true]
    | split

theorem kept_release (balls : ℕ) (s : State) (h0 : Kept q τ W r₀ s) [Can W .freeCount] [Can W .sent] [Can W .regs] [Can W .cmd]
    [Can W .boot] [Can W .lane] [Can W .port] [Can W .time] [Can W .sas] [Can W .brk] [Can W .trk] [Can W .que] [Can W .bnd]
    [Can W .keys] [Can W .eng] [Can W .dks] [Can W .mem] [Can W .tmp] [Can W .obs] [Can W .evr] : Kept q τ W r₀ (release balls s) := by
  unfold release
  with_reducible repeat' first
    | assumption | (extract_lets +onlyGivenNames x; clear_value x; revert x; intro _) | apply kept_startBoot | apply kept_beginTrial
    | simp -zeta only [kept_mk, can, true_or, or_true] | split

theorem kept_execResetRelease (x1 : ℕ) (balls : ℕ) (s : State) (h0 : Kept q τ W r₀ s) [Can W .freeCount] [Can W .sent] [Can W .regs]
    [Can W .cmd] [Can W .boot] [Can W .lane] [Can W .port] [Can W .time] [Can W .sas] [Can W .brk] [Can W .trk] [Can W .que]
    [Can W .bnd] [Can W .keys] [Can W .eng] [Can W .dks] [Can W .mem] [Can W .tmp] [Can W .obs] [Can W .evr] : KeptOut q τ W r₀
    (execResetRelease x1 balls s) := by
  unfold execResetRelease
  with_reducible repeat' first | assumption | apply kept_ev | apply kept_release | intro s₁ h₁

theorem kept_execRecoveryWindowExpiry (x1 : ℕ) (s : State) (h0 : Kept q τ W r₀ s) [Can W .boot] : KeptOut q τ W r₀
    (execRecoveryWindowExpiry x1 s) := by
  unfold execRecoveryWindowExpiry
  with_reducible repeat' first | assumption | apply kept_ev | apply kept_windowExpiry | intro s₁ h₁

theorem kept_execExpressReady (x1 : ℕ) (s : State) (h0 : Kept q τ W r₀ s) [Can W .freeCount] [Can W .boot] [Can W .cls] [Can W .brk]
    : KeptOut q τ W r₀ (execExpressReady x1 s) := by
  unfold execExpressReady
  with_reducible repeat' first | assumption | apply kept_ev | apply kept_expressReady | intro s₁ h₁

theorem kept_execPowerOnReset (x1 : ℕ) (s : State) (h0 : Kept q τ W r₀ s) [Can W .regs] [Can W .cmd] [Can W .boot] [Can W .lane]
    [Can W .port] [Can W .time] [Can W .cls] [Can W .sas] [Can W .brk] [Can W .trk] [Can W .que] [Can W .bnd] [Can W .keys] [Can W .eng]
    [Can W .dks] [Can W .mem] [Can W .tmp] [Can W .pwr] [Can W .obs] [Can W .evr] [Can W .ddr] : KeptOut q τ W r₀
    (execPowerOnReset x1 s) := by
  unfold execPowerOnReset
  with_reducible repeat' first | assumption | apply kept_ev | apply kept_resetBy | intro s₁ h₁

theorem kept_execWakeDone (x1 : ℕ) (s : State) (h0 : Kept q τ W r₀ s) [Can W .freeCount] [Can W .sent] [Can W .regs] [Can W .cmd]
    [Can W .boot] [Can W .lane] [Can W .port] [Can W .time] [Can W .sas] [Can W .brk] [Can W .trk] [Can W .que] [Can W .bnd]
    [Can W .keys] [Can W .eng] [Can W .dks] [Can W .mem] [Can W .tmp] [Can W .pwr] [Can W .obs] [Can W .evr] : KeptOut q τ W r₀
    (execWakeDone x1 s) := by
  unfold execWakeDone
  with_reducible repeat' first | assumption | apply kept_ev | apply kept_wakeDone | intro s₁ h₁

theorem kept_execWatchdogReset (x1 : ℕ) (vault : Bool) (s : State) (h0 : Kept q τ W r₀ s) [Can W .regs] [Can W .cmd] [Can W .boot]
    [Can W .lane] [Can W .port] [Can W .time] [Can W .cls] [Can W .sas] [Can W .brk] [Can W .trk] [Can W .que] [Can W .bnd]
    [Can W .keys] [Can W .eng] [Can W .dks] [Can W .mem] [Can W .tmp] [Can W .pwr] [Can W .obs] [Can W .evr] [Can W .ddr]
    : KeptOut q τ W r₀ (execWatchdogReset x1 vault s) := by
  unfold execWatchdogReset
  with_reducible repeat' first | assumption | apply kept_ev | apply kept_resetBy | intro s₁ h₁

end Sys2Proof.Machine
end

