-- ==== Sys2Proof/Laws/KeptStep.lean ====
section
/-! SUPPORT. What every operation keeps: register access, every command, and the step. One lemma for each function; `Kept` is defined in Laws/Kept.lean. -/
namespace Sys2Proof.Machine
open Sys2Proof
set_option linter.unusedSimpArgs false
set_option linter.unusedTactic false
set_option linter.unreachableTactic false
variable {q : List Instr} {τ : Nat} {W : Part → Bool} {r₀ : State}

/-! ## RegAccess -/

theorem kept_writeTamper (a : ℕ) (asked : Word) (s : State) (h0 : Kept q τ W r₀ s) [Can W .regs] : Kept q τ W r₀
    (writeTamper a asked s) := by
  unfold writeTamper
  with_reducible repeat' first | assumption | apply kept_setTemp | apply kept_setSource | split

theorem kept_unfreeze (s : State) (h0 : Kept q τ W r₀ s) [Can W .freeCount] [Can W .sent] [Can W .regs] [Can W .cmd] [Can W .boot]
    [Can W .lane] [Can W .port] [Can W .cls] [Can W .sas] [Can W .brk] [Can W .trk] [Can W .que] [Can W .bnd] [Can W .keys] [Can W .eng]
    [Can W .tmp] [Can W .pwr] [Can W .obs] [Can W .evr] : Kept q τ W r₀ (unfreeze s) := by
  unfold unfreeze
  with_reducible repeat' first
    | assumption | (extract_lets +onlyGivenNames x; clear_value x; revert x; intro _) | apply kept_bondResume | apply kept_record
    | simp -zeta only [kept_mk, can, true_or, or_true]

theorem kept_holdSwept (s : State) (h0 : Kept q τ W r₀ s) [Can W .mem] : Kept q τ W r₀ (holdSwept s) := by
  have key : ∀ n m : Nat, Kept q τ W r₀ { s with mem := { s.mem with swept := n, sweptAt := m } } :=
    fun _ _ => kept_memEq h0 rfl rfl rfl
  unfold holdSwept
  split
  · exact key _ _
  · exact h0

theorem kept_beforeWrite (a : ℕ) (s : State) (h0 : Kept q τ W r₀ s) [Can W .freeCount] [Can W .time] [Can W .mem] [Can W .obs]
    : Kept q τ W r₀ (beforeWrite a s) := by
  unfold beforeWrite
  with_reducible repeat' first | assumption | apply kept_rebase | apply kept_holdSwept | apply kept_perfSettle | split

theorem kept_quiet (s : State) (h0 : Kept q τ W r₀ s) : Kept q τ W r₀ (quiet s).1 := by
  unfold quiet
  with_reducible repeat' first | assumption

theorem kept_mapChanged (x1 : ℕ) (s : State) (h0 : Kept q τ W r₀ s) [Can W .sent] [Can W .regs] [Can W .cmd] [Can W .lane] [Can W .port]
    [Can W .brk] [Can W .trk] [Can W .que] [Can W .obs] [Can W .evr] : Kept q τ W r₀ (mapChanged x1 s) := by
  unfold mapChanged
  with_reducible repeat' first
    | assumption | apply kept_restartLink | apply kept_laneOut | refine kept_foldl _ _ ?_ (fun s₁ x₁ h₁ => ?_) | split

theorem kept_bondLaneSet (l : ℕ) (on : Bool) (s : State) (h0 : Kept q τ W r₀ s) [Can W .lane] : Kept q τ W r₀ (bondLaneSet l on s) := by
  unfold bondLaneSet
  with_reducible repeat' first
    | assumption | (extract_lets +onlyGivenNames x; clear_value x; revert x; intro _) | apply kept_setBondLane | apply kept_setLane
    | apply kept_laneOut | split

theorem kept_portSet (p : ℕ) (on : Bool) (s : State) (h0 : Kept q τ W r₀ s) [Can W .sent] [Can W .regs] [Can W .cmd] [Can W .lane]
    [Can W .port] [Can W .brk] [Can W .trk] [Can W .que] [Can W .obs] [Can W .evr] : Kept q τ W r₀ (portSet p on s) := by
  unfold portSet
  with_reducible repeat' first
    | assumption
    | (extract_lets +onlyGivenNames x; refine (?_ : Kept q τ W r₀ x → _) (?_ : Kept q τ W r₀ x); intro hx; clear_value x; revert x; intro _ _;
        rotate_left; dsimp -zeta only [x]; clear x)
    | (extract_lets +onlyGivenNames x; clear_value x; revert x; intro _) | apply kept_setLane | apply kept_portDown
    | simp -zeta only [kept_mk, can, true_or, or_true] | refine kept_foldl _ _ ?_ (fun s₁ x₁ h₁ => ?_) | split

theorem kept_honourYields (p : ℕ) (s : State) (h0 : Kept q τ W r₀ s) [Can W .regs] : Kept q τ W r₀ (honourYields p s).1 := by
  unfold honourYields
  with_reducible repeat' first
    | assumption
    | (extract_lets +onlyGivenNames x; refine (?_ : Kept q τ W r₀ x → _) (?_ : Kept q τ W r₀ x); intro hx; clear_value x; revert x; intro _ _;
        rotate_left; dsimp -zeta only [x]; clear x)
    | (extract_lets +onlyGivenNames x; clear_value x; revert x; intro _) | apply kept_setReg

theorem kept_mergeChanged (p : ℕ) (s : State) (h0 : Kept q τ W r₀ s) [Can W .port] : Kept q τ W r₀ (mergeChanged p s) := by
  unfold mergeChanged
  with_reducible repeat' first | assumption | apply kept_startVerify | refine kept_foldl _ _ ?_ (fun s₁ x₁ h₁ => ?_) | split

theorem kept_writeMatch (n : ℕ) (before : State) (ones : Word) (s : State) (h0 : Kept q τ W r₀ before) (h1 : Kept q τ W r₀ s)
    [Can W .regs] [Can W .time] [Can W .dks] [Can W .obs] [Can W .evr] : Kept q τ W r₀ (writeMatch n before ones s) := by
  unfold writeMatch
  with_reducible repeat' first
    | assumption
    | (extract_lets +onlyGivenNames x; refine (?_ : Kept q τ W r₀ x → _) (?_ : Kept q τ W r₀ x); intro hx; clear_value x; revert x; intro _ _;
        rotate_left; dsimp -zeta only [x]; clear x)
    | (extract_lets +onlyGivenNames x; clear_value x; revert x; intro _) | apply kept_setFld | apply kept_fireMatch | apply kept_armMatch
    | apply kept_disarm | split

theorem kept_capture (w : RegWin) (i : ℕ) (s : State) (h0 : Kept q τ W r₀ s) [Can W .regs] : Kept q τ W r₀ (capture w i s) := by
  unfold capture
  with_reducible repeat' first | assumption | apply kept_setReg | refine kept_foldl _ _ ?_ (fun s₁ x₁ h₁ => ?_)

theorem kept_commitQueue (x1 : ℕ) (s : State) (h0 : Kept q τ W r₀ s) [Can W .que] : Kept q τ W r₀ (commitQueue x1 s) := by
  unfold commitQueue
  with_reducible repeat' first
    | assumption
    | (extract_lets +onlyGivenNames x; refine (?_ : Kept q τ W r₀ x → _) (?_ : Kept q τ W r₀ x); intro hx; clear_value x; revert x; intro _ _;
        rotate_left; dsimp -zeta only [x]; clear x)
    | (extract_lets +onlyGivenNames x; clear_value x; revert x; intro _) | apply kept_setQueue | apply kept_reshape

theorem kept_winGo (w : RegWin) (s : State) (h0 : Kept q τ W r₀ s) [Can W .regs] [Can W .que] : Kept q τ W r₀ (winGo w s).1 := by
  unfold winGo
  with_reducible repeat' first
    | assumption
    | (extract_lets +onlyGivenNames x; refine (?_ : Kept q τ W r₀ x → _) (?_ : Kept q τ W r₀ x); intro hx; clear_value x; revert x; intro _ _;
        rotate_left; dsimp -zeta only [x]; clear x)
    | (extract_lets +onlyGivenNames x; clear_value x; revert x; intro _) | apply kept_capture | apply kept_commitQueue | apply kept_setReg
    | split

theorem kept_ageAll (s : State) (h0 : Kept q τ W r₀ s) [Can W .sent] [Can W .regs] [Can W .cmd] [Can W .port] [Can W .brk] [Can W .trk]
    [Can W .que] [Can W .obs] : Kept q τ W r₀ (ageAll s) := by
  unfold ageAll
  with_reducible repeat' first | assumption | apply kept_frameAged | refine kept_foldl _ _ ?_ (fun s₁ x₁ h₁ => ?_)

theorem kept_dueChanged (old : ℕ) (s : State) (h0 : Kept q τ W r₀ s) [Can W .freeCount] [Can W .eng] [Can W .mem] [Can W .obs]
    : Kept q τ W r₀ (dueChanged old s) := by
  unfold dueChanged
  with_reducible repeat' first
    | assumption | (apply kept_memEq; assumption; all_goals rfl)
    | (extract_lets +onlyGivenNames x; have hx : x = (x : MemSt) := rfl; clear hx; dsimp -zeta only [x]; clear x) | apply kept_rollDue
    | split

theorem kept_afterWrite (a : ℕ) (old : State) (ones : Word) (s : State) (h0 : Kept q τ W r₀ old) (h1 : Kept q τ W r₀ s)
    [Can W .freeCount] [Can W .sent] [Can W .regs] [Can W .cmd] [Can W .boot] [Can W .lane] [Can W .port] [Can W .time] [Can W .brk]
    [Can W .trk] [Can W .que] [Can W .eng] [Can W .dks] [Can W .mem] [Can W .pwr] [Can W .obs] [Can W .evr] : Kept q τ W r₀
    (afterWrite a old ones s).1 := by
  unfold afterWrite
  with_reducible repeat' first
    | assumption
    | (extract_lets +onlyGivenNames x; refine (?_ : Kept q τ W r₀ x → _) (?_ : Kept q τ W r₀ x); intro hx; clear_value x; revert x; intro _ _;
        rotate_left; dsimp -zeta only [x]; clear x)
    | (extract_lets +onlyGivenNames x; clear_value x; revert x; intro _) | apply kept_quiet | apply kept_setFld | apply kept_mapChanged
    | apply kept_adaptLane | apply kept_setLane | apply kept_bondLaneSet | apply kept_portSet | apply kept_honourYields
    | apply kept_mergeChanged | apply kept_writeMatch | apply kept_setBrick | apply kept_powerLanes | apply kept_restartLink
    | apply kept_winGo | apply kept_ageAll | apply kept_dueChanged | apply kept_setReg | apply kept_askDvfs | apply kept_snapTrigger
    | apply kept_releaseSnap | apply kept_perfClearAll | simp -zeta only [kept_mk, can, true_or, or_true]
    | refine kept_foldl _ _ ?_ (fun s₁ x₁ h₁ => ?_) | split

theorem kept_writeOne (a : ℕ) (req : Word) (mask : Word) (s : State) (h0 : Kept q τ W r₀ s) [Can W .freeCount] [Can W .sent]
    [Can W .regs] [Can W .cmd] [Can W .boot] [Can W .lane] [Can W .port] [Can W .time] [Can W .cls] [Can W .sas] [Can W .brk]
    [Can W .trk] [Can W .que] [Can W .bnd] [Can W .keys] [Can W .eng] [Can W .dks] [Can W .mem] [Can W .tmp] [Can W .pwr] [Can W .obs]
    [Can W .evr] : Kept q τ W r₀ (writeOne a req mask s).1 := by
  unfold writeOne
  with_reducible repeat' first
    | assumption
    | (extract_lets +onlyGivenNames x; refine (?_ : Kept q τ W r₀ x → _) (?_ : Kept q τ W r₀ x); intro hx; clear_value x; revert x; intro _ _;
        rotate_left; dsimp -zeta only [x]; clear x)
    | (extract_lets +onlyGivenNames x; clear_value x; revert x; intro _) | apply kept_hostStep | apply kept_writeServo | apply kept_setReg
    | apply kept_writeTamper | apply kept_rearm | apply kept_unfreeze | apply kept_beforeWrite | apply kept_afterWrite
    | simp -zeta only [kept_mk, can, true_or, or_true] | split

theorem kept_writeAll (mask : Word) (l : List (Nat × Word)) (s : State) (h0 : Kept q τ W r₀ s) [Can W .freeCount] [Can W .sent]
    [Can W .regs] [Can W .cmd] [Can W .boot] [Can W .lane] [Can W .port] [Can W .time] [Can W .cls] [Can W .sas] [Can W .brk]
    [Can W .trk] [Can W .que] [Can W .bnd] [Can W .keys] [Can W .eng] [Can W .dks] [Can W .mem] [Can W .tmp] [Can W .pwr] [Can W .obs]
    [Can W .evr] : Kept q τ W r₀ (writeAll mask l s).1 := by
  induction l generalizing s with
  | nil => exact h0
  | cons e r ih => exact ih _ (kept_writeOne _ _ _ _ h0)

theorem kept_ansRegWrite (b : Body) (s : State) (h0 : Kept q τ W r₀ s) [Can W .freeCount] [Can W .sent] [Can W .regs] [Can W .cmd]
    [Can W .boot] [Can W .lane] [Can W .port] [Can W .time] [Can W .cls] [Can W .sas] [Can W .brk] [Can W .trk] [Can W .que]
    [Can W .bnd] [Can W .keys] [Can W .eng] [Can W .dks] [Can W .mem] [Can W .tmp] [Can W .pwr] [Can W .obs] [Can W .evr]
    : KeptAns q τ W r₀ (ansRegWrite b s) := by
  unfold ansRegWrite
  with_reducible repeat' first
    | assumption | (extract_lets +onlyGivenNames x; clear_value x; revert x; intro _) | apply kept_writeAll | apply kept_settleApproved
    | simp -zeta only [kept_mk, can, true_or, or_true] | exact KeptAns.fail | apply KeptAns.done | split

theorem kept_runWrite (i : Instr) (x1 : Hdr) (b : Body) (s : State) (h0 : Kept q τ W r₀ s) [Can W .freeCount] [Can W .sent]
    [Can W .regs] [Can W .cmd] [Can W .boot] [Can W .lane] [Can W .port] [Can W .time] [Can W .cls] [Can W .sas] [Can W .brk]
    [Can W .trk] [Can W .que] [Can W .bnd] [Can W .keys] [Can W .eng] [Can W .dks] [Can W .mem] [Can W .tmp] [Can W .pwr] [Can W .obs]
    [Can W .evr] : KeptOut q τ W r₀ (runWrite i x1 b s) := by
  unfold runWrite
  with_reducible repeat' first | assumption | apply kept_run | apply kept_ansRegWrite | intro s₁ h₁

theorem kept_execMatchArm (x1 : Hdr) (n : ℕ) (hi : ℕ) (s : State) (h0 : Kept q τ W r₀ s) [Can W .freeCount] [Can W .sent] [Can W .regs]
    [Can W .cmd] [Can W .boot] [Can W .lane] [Can W .port] [Can W .time] [Can W .cls] [Can W .sas] [Can W .brk] [Can W .trk]
    [Can W .que] [Can W .bnd] [Can W .keys] [Can W .eng] [Can W .dks] [Can W .mem] [Can W .tmp] [Can W .pwr] [Can W .obs] [Can W .evr]
    : KeptOut q τ W r₀ (execMatchArm x1 n hi s) := by
  unfold execMatchArm
  with_reducible repeat' first | assumption | apply kept_runWrite

theorem kept_execPerfRun (x1 : Hdr) (run_ : Bool) (s : State) (h0 : Kept q τ W r₀ s) [Can W .freeCount] [Can W .sent] [Can W .regs]
    [Can W .cmd] [Can W .boot] [Can W .lane] [Can W .port] [Can W .time] [Can W .cls] [Can W .sas] [Can W .brk] [Can W .trk]
    [Can W .que] [Can W .bnd] [Can W .keys] [Can W .eng] [Can W .dks] [Can W .mem] [Can W .tmp] [Can W .pwr] [Can W .obs] [Can W .evr]
    : KeptOut q τ W r₀ (execPerfRun x1 run_ s) := by
  unfold execPerfRun
  with_reducible repeat' first | assumption | apply kept_runWrite

theorem kept_execSnapRelease (x1 : Hdr) (sel : ℕ) (s : State) (h0 : Kept q τ W r₀ s) [Can W .freeCount] [Can W .sent] [Can W .regs]
    [Can W .cmd] [Can W .boot] [Can W .lane] [Can W .port] [Can W .time] [Can W .cls] [Can W .sas] [Can W .brk] [Can W .trk]
    [Can W .que] [Can W .bnd] [Can W .keys] [Can W .eng] [Can W .dks] [Can W .mem] [Can W .tmp] [Can W .pwr] [Can W .obs] [Can W .evr]
    : KeptOut q τ W r₀ (execSnapRelease x1 sel s) := by
  unfold execSnapRelease
  with_reducible repeat' first | assumption | apply kept_runWrite

theorem kept_readAll (l : List Nat) (s : State) (h0 : Kept q τ W r₀ s) [Can W .regs] [Can W .port] [Can W .time] [Can W .obs]
    : Kept q τ W r₀ (readAll l s).2 := by
  induction l generalizing s with
  | nil => exact h0
  | cons e r ih => exact ih _ (kept_readEffect _ _ h0)

theorem kept_ansRegRead (x1 : Hdr) (b : Body) (s : State) (h0 : Kept q τ W r₀ s) [Can W .freeCount] [Can W .regs] [Can W .port]
    [Can W .time] [Can W .obs] : KeptAns q τ W r₀ (ansRegRead x1 b s) := by
  unfold ansRegRead
  with_reducible repeat' first
    | assumption
    | (extract_lets +onlyGivenNames x; refine (?_ : Kept q τ W r₀ x → _) (?_ : Kept q τ W r₀ x); intro hx; clear_value x; revert x; intro _ _;
        rotate_left; dsimp -zeta only [x]; clear x)
    | (extract_lets +onlyGivenNames x; clear_value x; revert x; intro _) | apply kept_perfSettle | apply kept_readAll
    | simp -zeta only [kept_mk, can, true_or, or_true] | exact KeptAns.fail | apply KeptAns.done | split

theorem kept_execRegRead (x1 : Hdr) (b : Body) (s : State) (h0 : Kept q τ W r₀ s) [Can W .freeCount] [Can W .sent] [Can W .regs]
    [Can W .cmd] [Can W .port] [Can W .time] [Can W .obs] [Can W .evr] : KeptOut q τ W r₀ (execRegRead x1 b s) := by
  unfold execRegRead
  with_reducible repeat' first | assumption | apply kept_run | apply kept_ansRegRead | intro s₁ h₁

theorem kept_ansDeviceStatus (s : State) (h0 : Kept q τ W r₀ s) : KeptAns q τ W r₀ (ansDeviceStatus s) := by
  unfold ansDeviceStatus
  with_reducible repeat' first | assumption | apply KeptAns.done

theorem kept_execDeviceStatus (x1 : Hdr) (b : Body) (s : State) (h0 : Kept q τ W r₀ s) [Can W .sent] [Can W .regs] [Can W .cmd]
    [Can W .obs] [Can W .evr] : KeptOut q τ W r₀ (execDeviceStatus x1 b s) := by
  unfold execDeviceStatus
  with_reducible repeat' first | assumption | apply kept_run | apply kept_ansDeviceStatus

theorem kept_execSnapTriggerWrite (x1 : Hdr) (s : State) (h0 : Kept q τ W r₀ s) [Can W .freeCount] [Can W .sent] [Can W .regs]
    [Can W .cmd] [Can W .boot] [Can W .lane] [Can W .port] [Can W .time] [Can W .cls] [Can W .sas] [Can W .brk] [Can W .trk]
    [Can W .que] [Can W .bnd] [Can W .keys] [Can W .eng] [Can W .dks] [Can W .mem] [Can W .tmp] [Can W .pwr] [Can W .obs] [Can W .evr]
    : KeptOut q τ W r₀ (execSnapTriggerWrite x1 s) := by
  unfold execSnapTriggerWrite
  with_reducible repeat' first | assumption | apply kept_runWrite

theorem kept_execRecoveryClr (x1 : Hdr) (s : State) (h0 : Kept q τ W r₀ s) [Can W .freeCount] [Can W .sent] [Can W .regs] [Can W .cmd]
    [Can W .boot] [Can W .lane] [Can W .port] [Can W .time] [Can W .cls] [Can W .sas] [Can W .brk] [Can W .trk] [Can W .que]
    [Can W .bnd] [Can W .keys] [Can W .eng] [Can W .dks] [Can W .mem] [Can W .tmp] [Can W .pwr] [Can W .obs] [Can W .evr]
    : KeptOut q τ W r₀ (execRecoveryClr x1 s) := by
  unfold execRecoveryClr
  with_reducible repeat' first | assumption | apply kept_runWrite

theorem kept_execLaneMapWrite (x1 : Hdr) (quad : ℕ) (value : Word) (s : State) (h0 : Kept q τ W r₀ s) [Can W .freeCount] [Can W .sent]
    [Can W .regs] [Can W .cmd] [Can W .boot] [Can W .lane] [Can W .port] [Can W .time] [Can W .cls] [Can W .sas] [Can W .brk]
    [Can W .trk] [Can W .que] [Can W .bnd] [Can W .keys] [Can W .eng] [Can W .dks] [Can W .mem] [Can W .tmp] [Can W .pwr] [Can W .obs]
    [Can W .evr] : KeptOut q τ W r₀ (execLaneMapWrite x1 quad value s) := by
  unfold execLaneMapWrite
  with_reducible repeat' first | assumption | apply kept_runWrite

theorem kept_rehomeBanks (s : State) (h0 : Kept q τ W r₀ s) [Can W .sas] [Can W .brk] : Kept q τ W r₀ (rehomeBanks s) := by
  unfold rehomeBanks
  with_reducible repeat' first
    | assumption
    | (extract_lets +onlyGivenNames x; refine (?_ : Kept q τ W r₀ x → _) (?_ : Kept q τ W r₀ x); intro hx; clear_value x; revert x; intro _ _;
        rotate_left; dsimp -zeta only [x]; clear x)
    | (extract_lets +onlyGivenNames x; clear_value x; revert x; intro _) | apply kept_setBrick | apply kept_fillBanks
    | simp -zeta only [kept_mk, can, true_or, or_true] | refine kept_foldl _ _ ?_ (fun s₁ x₁ h₁ => ?_)

theorem kept_twinTile (s : State) (h0 : Kept q τ W r₀ s) [Can W .sas] [Can W .brk] : Kept q τ W r₀ (twinTile s) := by
  unfold twinTile
  with_reducible repeat' first
    | assumption | (extract_lets +onlyGivenNames x; clear_value x; revert x; intro _) | apply kept_rehomeBanks | apply kept_setTile
    | split

theorem kept_execExpressEnClear (x1 : Hdr) (brick : ℕ) (s : State) (h0 : Kept q τ W r₀ s) [Can W .freeCount] [Can W .sent] [Can W .regs]
    [Can W .cmd] [Can W .boot] [Can W .lane] [Can W .port] [Can W .time] [Can W .cls] [Can W .sas] [Can W .brk] [Can W .trk]
    [Can W .que] [Can W .bnd] [Can W .keys] [Can W .eng] [Can W .dks] [Can W .mem] [Can W .tmp] [Can W .pwr] [Can W .obs] [Can W .evr]
    : KeptOut q τ W r₀ (execExpressEnClear x1 brick s) := by
  unfold execExpressEnClear
  with_reducible repeat' first | assumption | apply kept_runWrite

theorem kept_execDataflowApply (x1 : Hdr) (value : Word) (s : State) (h0 : Kept q τ W r₀ s) [Can W .freeCount] [Can W .sent]
    [Can W .regs] [Can W .cmd] [Can W .boot] [Can W .lane] [Can W .port] [Can W .time] [Can W .cls] [Can W .sas] [Can W .brk]
    [Can W .trk] [Can W .que] [Can W .bnd] [Can W .keys] [Can W .eng] [Can W .dks] [Can W .mem] [Can W .tmp] [Can W .pwr] [Can W .obs]
    [Can W .evr] : KeptOut q τ W r₀ (execDataflowApply x1 value s) := by
  unfold execDataflowApply
  with_reducible repeat' first | assumption | apply kept_runWrite

theorem kept_lineMode (p : ℕ) (s : State) (h0 : Kept q τ W r₀ s) [Can W .sent] [Can W .regs] [Can W .cmd] [Can W .lane] [Can W .port]
    [Can W .brk] [Can W .trk] [Can W .que] [Can W .obs] [Can W .evr] : Kept q τ W r₀ (lineMode p s) := by
  unfold lineMode
  with_reducible repeat' first
    | assumption
    | (extract_lets +onlyGivenNames x; refine (?_ : Kept q τ W r₀ x → _) (?_ : Kept q τ W r₀ x); intro hx; clear_value x; revert x; intro _ _;
        rotate_left; dsimp -zeta only [x]; clear x)
    | (extract_lets +onlyGivenNames x; clear_value x; revert x; intro _) | apply kept_setTrunk | apply kept_restartLink
    | apply kept_setFld | split

theorem kept_execPortDisable (x1 : Hdr) (port : ℕ) (s : State) (h0 : Kept q τ W r₀ s) [Can W .freeCount] [Can W .sent] [Can W .regs]
    [Can W .cmd] [Can W .boot] [Can W .lane] [Can W .port] [Can W .time] [Can W .cls] [Can W .sas] [Can W .brk] [Can W .trk]
    [Can W .que] [Can W .bnd] [Can W .keys] [Can W .eng] [Can W .dks] [Can W .mem] [Can W .tmp] [Can W .pwr] [Can W .obs] [Can W .evr]
    : KeptOut q τ W r₀ (execPortDisable x1 port s) := by
  unfold execPortDisable
  with_reducible repeat' first | assumption | apply kept_runWrite

theorem kept_execRxEqWrite (x1 : Hdr) (lane : ℕ) (value : Word) (s : State) (h0 : Kept q τ W r₀ s) [Can W .freeCount] [Can W .sent]
    [Can W .regs] [Can W .cmd] [Can W .boot] [Can W .lane] [Can W .port] [Can W .time] [Can W .cls] [Can W .sas] [Can W .brk]
    [Can W .trk] [Can W .que] [Can W .bnd] [Can W .keys] [Can W .eng] [Can W .dks] [Can W .mem] [Can W .tmp] [Can W .pwr] [Can W .obs]
    [Can W .evr] : KeptOut q τ W r₀ (execRxEqWrite x1 lane value s) := by
  unfold execRxEqWrite
  with_reducible repeat' first | assumption | apply kept_runWrite

theorem kept_execPortEnable (x1 : Hdr) (port : ℕ) (s : State) (h0 : Kept q τ W r₀ s) [Can W .freeCount] [Can W .sent] [Can W .regs]
    [Can W .cmd] [Can W .boot] [Can W .lane] [Can W .port] [Can W .time] [Can W .cls] [Can W .sas] [Can W .brk] [Can W .trk]
    [Can W .que] [Can W .bnd] [Can W .keys] [Can W .eng] [Can W .dks] [Can W .mem] [Can W .tmp] [Can W .pwr] [Can W .obs] [Can W .evr]
    : KeptOut q τ W r₀ (execPortEnable x1 port s) := by
  unfold execPortEnable
  with_reducible repeat' first | assumption | apply kept_runWrite

theorem kept_execBondLaneEnable (x1 : Hdr) (value : Word) (s : State) (h0 : Kept q τ W r₀ s) [Can W .freeCount] [Can W .sent]
    [Can W .regs] [Can W .cmd] [Can W .boot] [Can W .lane] [Can W .port] [Can W .time] [Can W .cls] [Can W .sas] [Can W .brk]
    [Can W .trk] [Can W .que] [Can W .bnd] [Can W .keys] [Can W .eng] [Can W .dks] [Can W .mem] [Can W .tmp] [Can W .pwr] [Can W .obs]
    [Can W .evr] : KeptOut q τ W r₀ (execBondLaneEnable x1 value s) := by
  unfold execBondLaneEnable
  with_reducible repeat' first | assumption | apply kept_runWrite

theorem kept_execTmuStepGo (x1 : Hdr) (s : State) (h0 : Kept q τ W r₀ s) [Can W .freeCount] [Can W .sent] [Can W .regs] [Can W .cmd]
    [Can W .boot] [Can W .lane] [Can W .port] [Can W .time] [Can W .cls] [Can W .sas] [Can W .brk] [Can W .trk] [Can W .que]
    [Can W .bnd] [Can W .keys] [Can W .eng] [Can W .dks] [Can W .mem] [Can W .tmp] [Can W .pwr] [Can W .obs] [Can W .evr]
    : KeptOut q τ W r₀ (execTmuStepGo x1 s) := by
  unfold execTmuStepGo
  with_reducible repeat' first | assumption | apply kept_runWrite

theorem kept_ansIdRead (b : Body) (s : State) (h0 : Kept q τ W r₀ s) : KeptAns q τ W r₀ (ansIdRead b s) := by
  unfold ansIdRead
  with_reducible repeat' first | assumption | apply KeptAns.done | split

theorem kept_execPerfClear (x1 : Hdr) (s : State) (h0 : Kept q τ W r₀ s) [Can W .freeCount] [Can W .sent] [Can W .regs] [Can W .cmd]
    [Can W .boot] [Can W .lane] [Can W .port] [Can W .time] [Can W .cls] [Can W .sas] [Can W .brk] [Can W .trk] [Can W .que]
    [Can W .bnd] [Can W .keys] [Can W .eng] [Can W .dks] [Can W .mem] [Can W .tmp] [Can W .pwr] [Can W .obs] [Can W .evr]
    : KeptOut q τ W r₀ (execPerfClear x1 s) := by
  unfold execPerfClear
  with_reducible repeat' first | assumption | apply kept_runWrite

theorem kept_execMaxResWrite (x1 : Hdr) (e : ℕ) (value : Word) (s : State) (h0 : Kept q τ W r₀ s) [Can W .freeCount] [Can W .sent]
    [Can W .regs] [Can W .cmd] [Can W .boot] [Can W .lane] [Can W .port] [Can W .time] [Can W .cls] [Can W .sas] [Can W .brk]
    [Can W .trk] [Can W .que] [Can W .bnd] [Can W .keys] [Can W .eng] [Can W .dks] [Can W .mem] [Can W .tmp] [Can W .pwr] [Can W .obs]
    [Can W .evr] : KeptOut q τ W r₀ (execMaxResWrite x1 e value s) := by
  unfold execMaxResWrite
  with_reducible repeat' first | assumption | apply kept_runWrite

theorem kept_execPwrDvfsWrite (x1 : Hdr) (brick : ℕ) (value : Word) (s : State) (h0 : Kept q τ W r₀ s) [Can W .freeCount] [Can W .sent]
    [Can W .regs] [Can W .cmd] [Can W .boot] [Can W .lane] [Can W .port] [Can W .time] [Can W .cls] [Can W .sas] [Can W .brk]
    [Can W .trk] [Can W .que] [Can W .bnd] [Can W .keys] [Can W .eng] [Can W .dks] [Can W .mem] [Can W .tmp] [Can W .pwr] [Can W .obs]
    [Can W .evr] : KeptOut q τ W r₀ (execPwrDvfsWrite x1 brick value s) := by
  unfold execPwrDvfsWrite
  with_reducible repeat' first | assumption | apply kept_runWrite

theorem kept_execWinGoRead (x1 : Hdr) (win : RegWin) (index : ℕ) (tag : ℕ) (s : State) (h0 : Kept q τ W r₀ s) [Can W .freeCount]
    [Can W .sent] [Can W .regs] [Can W .cmd] [Can W .boot] [Can W .lane] [Can W .port] [Can W .time] [Can W .cls] [Can W .sas]
    [Can W .brk] [Can W .trk] [Can W .que] [Can W .bnd] [Can W .keys] [Can W .eng] [Can W .dks] [Can W .mem] [Can W .tmp] [Can W .pwr]
    [Can W .obs] [Can W .evr] : KeptOut q τ W r₀ (execWinGoRead x1 win index tag s) := by
  unfold execWinGoRead
  with_reducible repeat' first | assumption | apply kept_runWrite

theorem kept_execRollIntervalWrite (x1 : Hdr) (value : Word) (s : State) (h0 : Kept q τ W r₀ s) [Can W .freeCount] [Can W .sent]
    [Can W .regs] [Can W .cmd] [Can W .boot] [Can W .lane] [Can W .port] [Can W .time] [Can W .cls] [Can W .sas] [Can W .brk]
    [Can W .trk] [Can W .que] [Can W .bnd] [Can W .keys] [Can W .eng] [Can W .dks] [Can W .mem] [Can W .tmp] [Can W .pwr] [Can W .obs]
    [Can W .evr] : KeptOut q τ W r₀ (execRollIntervalWrite x1 value s) := by
  unfold execRollIntervalWrite
  with_reducible repeat' first | assumption | apply kept_runWrite

theorem kept_execExpressMaskWrite (x1 : Hdr) (port : ℕ) (value : Word) (s : State) (h0 : Kept q τ W r₀ s) [Can W .freeCount]
    [Can W .sent] [Can W .regs] [Can W .cmd] [Can W .boot] [Can W .lane] [Can W .port] [Can W .time] [Can W .cls] [Can W .sas]
    [Can W .brk] [Can W .trk] [Can W .que] [Can W .bnd] [Can W .keys] [Can W .eng] [Can W .dks] [Can W .mem] [Can W .tmp] [Can W .pwr]
    [Can W .obs] [Can W .evr] : KeptOut q τ W r₀ (execExpressMaskWrite x1 port value s) := by
  unfold execExpressMaskWrite
  with_reducible repeat' first | assumption | apply kept_runWrite

theorem kept_execTestReq (x1 : Hdr) (on : Bool) (s : State) (h0 : Kept q τ W r₀ s) [Can W .freeCount] [Can W .sent] [Can W .regs]
    [Can W .cmd] [Can W .boot] [Can W .lane] [Can W .port] [Can W .time] [Can W .cls] [Can W .sas] [Can W .brk] [Can W .trk]
    [Can W .que] [Can W .bnd] [Can W .keys] [Can W .eng] [Can W .dks] [Can W .mem] [Can W .tmp] [Can W .pwr] [Can W .obs] [Can W .evr]
    : KeptOut q τ W r₀ (execTestReq x1 on s) := by
  unfold execTestReq
  with_reducible repeat' first | assumption | apply kept_runWrite

theorem kept_execFrozenClear (x1 : Hdr) (s : State) (h0 : Kept q τ W r₀ s) [Can W .freeCount] [Can W .sent] [Can W .regs] [Can W .cmd]
    [Can W .boot] [Can W .lane] [Can W .port] [Can W .time] [Can W .cls] [Can W .sas] [Can W .brk] [Can W .trk] [Can W .que]
    [Can W .bnd] [Can W .keys] [Can W .eng] [Can W .dks] [Can W .mem] [Can W .tmp] [Can W .pwr] [Can W .obs] [Can W .evr]
    : KeptOut q τ W r₀ (execFrozenClear x1 s) := by
  unfold execFrozenClear
  with_reducible repeat' first | assumption | apply kept_runWrite

theorem kept_remap (s : State) (h0 : Kept q τ W r₀ s) [Can W .sent] [Can W .regs] [Can W .cmd] [Can W .lane] [Can W .port] [Can W .sas]
    [Can W .brk] [Can W .trk] [Can W .que] [Can W .obs] [Can W .evr] : Kept q τ W r₀ (remap s) := by
  unfold remap
  with_reducible repeat' first
    | assumption
    | (extract_lets +onlyGivenNames x; refine (?_ : Kept q τ W r₀ x → _) (?_ : Kept q τ W r₀ x); intro hx; clear_value x; revert x; intro _ _;
        rotate_left; dsimp -zeta only [x]; clear x)
    | (extract_lets +onlyGivenNames x; clear_value x; revert x; intro _) | apply kept_discardAt | apply kept_dropUnits | apply kept_setFld
    | apply kept_lineMode | apply kept_settleFaults | apply kept_twinTile | apply kept_powerLanes
    | simp -zeta only [kept_mk, can, true_or, or_true] | refine kept_foldl _ _ ?_ (fun s₁ x₁ h₁ => ?_) | split

theorem kept_execDataflowRemap (x1 : ℕ) (s : State) (h0 : Kept q τ W r₀ s) [Can W .sent] [Can W .regs] [Can W .cmd] [Can W .lane]
    [Can W .port] [Can W .sas] [Can W .brk] [Can W .trk] [Can W .que] [Can W .obs] [Can W .evr] : KeptOut q τ W r₀
    (execDataflowRemap x1 s) := by
  unfold execDataflowRemap
  with_reducible repeat' first | assumption | apply kept_ev | apply kept_remap | intro s₁ h₁

theorem kept_execExpressEnSet (x1 : Hdr) (brick : ℕ) (s : State) (h0 : Kept q τ W r₀ s) [Can W .freeCount] [Can W .sent] [Can W .regs]
    [Can W .cmd] [Can W .boot] [Can W .lane] [Can W .port] [Can W .time] [Can W .cls] [Can W .sas] [Can W .brk] [Can W .trk]
    [Can W .que] [Can W .bnd] [Can W .keys] [Can W .eng] [Can W .dks] [Can W .mem] [Can W .tmp] [Can W .pwr] [Can W .obs] [Can W .evr]
    : KeptOut q τ W r₀ (execExpressEnSet x1 brick s) := by
  unfold execExpressEnSet
  with_reducible repeat' first | assumption | apply kept_runWrite

theorem kept_execTxFirWrite (x1 : Hdr) (lane : ℕ) (value : Word) (s : State) (h0 : Kept q τ W r₀ s) [Can W .freeCount] [Can W .sent]
    [Can W .regs] [Can W .cmd] [Can W .boot] [Can W .lane] [Can W .port] [Can W .time] [Can W .cls] [Can W .sas] [Can W .brk]
    [Can W .trk] [Can W .que] [Can W .bnd] [Can W .keys] [Can W .eng] [Can W .dks] [Can W .mem] [Can W .tmp] [Can W .pwr] [Can W .obs]
    [Can W .evr] : KeptOut q τ W r₀ (execTxFirWrite x1 lane value s) := by
  unfold execTxFirWrite
  with_reducible repeat' first | assumption | apply kept_runWrite

theorem kept_execRegWrite (x1 : Hdr) (b : Body) (s : State) (h0 : Kept q τ W r₀ s) [Can W .freeCount] [Can W .sent] [Can W .regs]
    [Can W .cmd] [Can W .boot] [Can W .lane] [Can W .port] [Can W .time] [Can W .cls] [Can W .sas] [Can W .brk] [Can W .trk]
    [Can W .que] [Can W .bnd] [Can W .keys] [Can W .eng] [Can W .dks] [Can W .mem] [Can W .tmp] [Can W .pwr] [Can W .obs] [Can W .evr]
    : KeptOut q τ W r₀ (execRegWrite x1 b s) := by
  unfold execRegWrite
  with_reducible repeat' first | assumption | apply kept_run | apply kept_ansRegWrite | intro s₁ h₁

theorem kept_execWinGoWrite (x1 : Hdr) (win : RegWin) (index : ℕ) (tag : ℕ) (data : List Word) (s : State) (h0 : Kept q τ W r₀ s)
    [Can W .freeCount] [Can W .sent] [Can W .regs] [Can W .cmd] [Can W .boot] [Can W .lane] [Can W .port] [Can W .time] [Can W .cls]
    [Can W .sas] [Can W .brk] [Can W .trk] [Can W .que] [Can W .bnd] [Can W .keys] [Can W .eng] [Can W .dks] [Can W .mem] [Can W .tmp]
    [Can W .pwr] [Can W .obs] [Can W .evr] : KeptOut q τ W r₀ (execWinGoWrite x1 win index tag data s) := by
  unfold execWinGoWrite
  with_reducible repeat' first | assumption | apply kept_runWrite

theorem kept_execIdRead (x1 : Hdr) (b : Body) (s : State) (h0 : Kept q τ W r₀ s) [Can W .sent] [Can W .regs] [Can W .cmd] [Can W .obs]
    [Can W .evr] : KeptOut q τ W r₀ (execIdRead x1 b s) := by
  unfold execIdRead
  with_reducible repeat' first | assumption | apply kept_run | apply kept_ansIdRead

theorem kept_execMatchDisarm (x1 : Hdr) (n : ℕ) (hi : ℕ) (s : State) (h0 : Kept q τ W r₀ s) [Can W .freeCount] [Can W .sent]
    [Can W .regs] [Can W .cmd] [Can W .boot] [Can W .lane] [Can W .port] [Can W .time] [Can W .cls] [Can W .sas] [Can W .brk]
    [Can W .trk] [Can W .que] [Can W .bnd] [Can W .keys] [Can W .eng] [Can W .dks] [Can W .mem] [Can W .tmp] [Can W .pwr] [Can W .obs]
    [Can W .evr] : KeptOut q τ W r₀ (execMatchDisarm x1 n hi s) := by
  unfold execMatchDisarm
  with_reducible repeat' first | assumption | apply kept_runWrite

/-! ## Dispatch -/

/-- Every part of a list may change. -/
def AllW (W : Part → Bool) : List Part → Prop
  | [] => True
  | p :: l => Can W p ∧ AllW W l

theorem allW {l : List Part} (h : ∀ p ∈ l, W p = true) : AllW W l := by
  induction l with
  | nil => exact trivial
  | cons p l ih => exact ⟨⟨h p (List.mem_cons_self ..)⟩, ih fun p hp => h p (List.mem_cons_of_mem _ hp)⟩

/-- Every command answers a next state, and that state is kept; it changes no part but those it touches. -/
theorem kept_exec (i : Instr) (s : State) (h0 : Kept q τ W r₀ s) (hw : ∀ p ∈ touches i, W p = true) : KeptOut q τ W r₀ (exec i s) := by
  cases i with
  | sessionChallenge h b => obtain ⟨_, _, _, _, _, _, _, _⟩ := allW hw; exact kept_execSessionChallenge h b _ h0
  | sessionOpen h b cred challenge pub ek ok => obtain ⟨_, _, _, _, _, _, _, _⟩ := allW hw; exact kept_execSessionOpen h b cred challenge pub ek ok _ h0
  | sessionClose h b => obtain ⟨_, _, _, _, _, _⟩ := allW hw; exact kept_execSessionClose h b _ h0
  | nop h b => obtain ⟨_, _, _, _, _, _⟩ := allW hw; exact kept_execNop h b _ h0
  | opStatus h b op => obtain ⟨_, _, _, _, _, _⟩ := allW hw; exact kept_execOpStatus h b op _ h0
  | cmdAbort h b target => obtain ⟨_, _, _, _, _, _, _, _, _⟩ := allW hw; exact kept_execCmdAbort h b target _ h0
  | eventSubscribe h b mailbox classes => obtain ⟨_, _, _, _, _, _⟩ := allW hw; exact kept_execEventSubscribe h b mailbox classes _ h0
  | idRead h b => obtain ⟨_, _, _, _, _, _⟩ := allW hw; exact kept_execIdRead h b _ h0
  | deviceStatus h b => obtain ⟨_, _, _, _, _, _⟩ := allW hw; exact kept_execDeviceStatus h b _ h0
  | regRead h b => obtain ⟨_, _, _, _, _, _, _, _, _⟩ := allW hw; exact kept_execRegRead h b _ h0
  | regWrite h b => obtain ⟨_, _, _, _, _, _, _, _, _, _, _, _, _, _, _, _, _, _, _, _, _, _, _⟩ := allW hw; exact kept_execRegWrite h b _ h0
  | deviceReset h b => obtain ⟨_, _, _, _, _, _, _⟩ := allW hw; exact kept_execDeviceReset h b _ h0
  | imageWrite h b => obtain ⟨_, _, _, _, _, _, _⟩ := allW hw; exact kept_execImageWrite h b _ h0
  | imageActivate h b ok => obtain ⟨_, _, _, _, _, _, _⟩ := allW hw; exact kept_execImageActivate h b ok _ h0
  | imageResealDone t => obtain ⟨_, _, _, _, _, _, _⟩ := allW hw; exact kept_execImageResealDone t _ h0
  | imageStatus h b => obtain ⟨_, _, _, _, _, _⟩ := allW hw; exact kept_execImageStatus h b _ h0
  | trialCommit t => obtain ⟨_, _, _⟩ := allW hw; exact kept_execTrialCommit t _ h0
  | lanePrbs h b => obtain ⟨_, _, _, _, _, _, _, _⟩ := allW hw; exact kept_execLanePrbs h b _ h0
  | laneMargin h b => obtain ⟨_, _, _, _, _, _, _⟩ := allW hw; exact kept_execLaneMargin h b _ h0
  | laneMarginGroupDone t => obtain ⟨_, _, _, _, _, _, _⟩ := allW hw; exact kept_execLaneMarginGroupDone t _ h0
  | captureRead h b => obtain ⟨_, _, _, _, _, _, _⟩ := allW hw; exact kept_execCaptureRead h b _ h0
  | portStatsRead h b => obtain ⟨_, _, _, _, _, _⟩ := allW hw; exact kept_execPortStatsRead h b _ h0
  | timeRead h b => obtain ⟨_, _, _, _, _, _⟩ := allW hw; exact kept_execTimeRead h b _ h0
  | timeEpochNew h b => obtain ⟨_, _, _, _, _, _, _, _⟩ := allW hw; exact kept_execTimeEpochNew h b _ h0
  | ptpConfig h b => obtain ⟨_, _, _, _, _, _, _, _, _⟩ := allW hw; exact kept_execPtpConfig h b _ h0
  | tableInsert h b => obtain ⟨_, _, _, _, _, _, _⟩ := allW hw; exact kept_execTableInsert h b _ h0
  | tableDelete h b => obtain ⟨_, _, _, _, _, _, _⟩ := allW hw; exact kept_execTableDelete h b _ h0
  | tableRead h b => obtain ⟨_, _, _, _, _, _⟩ := allW hw; exact kept_execTableRead h b _ h0
  | tableRehash h b => obtain ⟨_, _, _, _, _, _, _⟩ := allW hw; exact kept_execTableRehash h b _ h0
  | rehashSwap t brick => obtain ⟨_, _, _, _, _, _⟩ := allW hw; exact kept_execRehashSwap t brick _ h0
  | lpmAdd h b => obtain ⟨_, _, _, _, _, _, _⟩ := allW hw; exact kept_execLpmAdd h b _ h0
  | lpmDelete h b => obtain ⟨_, _, _, _, _, _, _⟩ := allW hw; exact kept_execLpmDelete h b _ h0
  | scCreate h b => obtain ⟨_, _, _, _, _, _, _, _, _, _⟩ := allW hw; exact kept_execScCreate h b _ h0
  | scDelete h b => obtain ⟨_, _, _, _, _, _, _, _, _, _, _⟩ := allW hw; exact kept_execScDelete h b _ h0
  | saInstall h b => obtain ⟨_, _, _, _, _, _, _, _, _⟩ := allW hw; exact kept_execSaInstall h b _ h0
  | keyBusTransferDone t => obtain ⟨_, _, _, _, _, _, _, _, _, _, _, _⟩ := allW hw; exact kept_execKeyBusTransferDone t _ h0
  | saSwitchTx h b => obtain ⟨_, _, _, _, _, _, _, _, _, _⟩ := allW hw; exact kept_execSaSwitchTx h b _ h0
  | switchCommit t sc => obtain ⟨_, _, _, _, _, _, _, _, _⟩ := allW hw; exact kept_execSwitchCommit t sc _ h0
  | saErase h b => obtain ⟨_, _, _, _, _, _, _, _, _, _⟩ := allW hw; exact kept_execSaErase h b _ h0
  | saZeroise t entry => obtain ⟨_, _, _, _, _, _, _, _⟩ := allW hw; exact kept_execSaZeroise t entry _ h0
  | saRead h b => obtain ⟨_, _, _, _, _, _⟩ := allW hw; exact kept_execSaRead h b _ h0
  | mkaConfig h b => obtain ⟨_, _, _, _, _, _, _, _, _, _, _⟩ := allW hw; exact kept_execMkaConfig h b _ h0
  | pathConfig h b => obtain ⟨_, _, _, _, _, _, _, _, _, _, _, _, _, _, _⟩ := allW hw; exact kept_execPathConfig h b _ h0
  | trunkPmRead h b => obtain ⟨_, _, _, _, _, _⟩ := allW hw; exact kept_execTrunkPmRead h b _ h0
  | queueConfig h b => obtain ⟨_, _, _, _, _, _, _⟩ := allW hw; exact kept_execQueueConfig h b _ h0
  | shaperSet h b => obtain ⟨_, _, _, _, _, _, _⟩ := allW hw; exact kept_execShaperSet h b _ h0
  | gclWrite h b => obtain ⟨_, _, _, _, _, _, _⟩ := allW hw; exact kept_execGclWrite h b _ h0
  | gclCommit h b => obtain ⟨_, _, _, _, _, _, _⟩ := allW hw; exact kept_execGclCommit h b _ h0
  | bondConfigJoin h b => obtain ⟨_, _, _, _, _, _, _, _, _, _, _, _, _, _, _, _, _, _, _⟩ := allW hw; exact kept_execBondConfigJoin h b _ h0
  | bondConfigLeave h b => obtain ⟨_, _, _, _, _, _, _, _, _, _, _, _, _, _, _, _, _, _, _⟩ := allW hw; exact kept_execBondConfigLeave h b _ h0
  | bondForce h b => obtain ⟨_, _, _, _, _, _, _, _, _, _, _, _, _, _, _, _, _, _, _⟩ := allW hw; exact kept_execBondForce h b _ h0
  | bondResign h b => obtain ⟨_, _, _, _, _, _, _, _, _, _, _, _, _, _⟩ := allW hw; exact kept_execBondResign h b _ h0
  | bondStatus h b => obtain ⟨_, _, _, _, _, _⟩ := allW hw; exact kept_execBondStatus h b _ h0
  | keyGenerate h b => obtain ⟨_, _, _, _, _, _, _, _, _, _, _⟩ := allW hw; exact kept_execKeyGenerate h b _ h0
  | keyImportWrapped h b kwpOk valid typ use own value => obtain ⟨_, _, _, _, _, _, _, _⟩ := allW hw; exact kept_execKeyImportWrapped h b kwpOk valid typ use own value _ h0
  | keyExportWrapped h b => obtain ⟨_, _, _, _, _, _, _, _⟩ := allW hw; exact kept_execKeyExportWrapped h b _ h0
  | keyErase h b => obtain ⟨_, _, _, _, _, _, _⟩ := allW hw; exact kept_execKeyErase h b _ h0
  | keyAttest h b => obtain ⟨_, _, _, _, _, _, _, _, _⟩ := allW hw; exact kept_execKeyAttest h b _ h0
  | lifecycleChange h b => obtain ⟨_, _, _, _, _, _, _, _⟩ := allW hw; exact kept_execLifecycleChange h b _ h0
  | officerEnrol h b => obtain ⟨_, _, _, _, _, _, _⟩ := allW hw; exact kept_execOfficerEnrol h b _ h0
  | officerRevoke h b => obtain ⟨_, _, _, _, _, _, _⟩ := allW hw; exact kept_execOfficerRevoke h b _ h0
  | dualAuthorise h b => obtain ⟨_, _, _, _, _, _, _, _⟩ := allW hw; exact kept_execDualAuthorise h b _ h0
  | debugEnable h b => obtain ⟨_, _, _, _, _, _, _, _, _, _, _, _, _, _⟩ := allW hw; exact kept_execDebugEnable h b _ h0
  | sign h b => obtain ⟨_, _, _, _, _, _, _, _, _, _, _⟩ := allW hw; exact kept_execSign h b _ h0
  | verify h b verdict bad => obtain ⟨_, _, _, _, _, _, _, _, _, _⟩ := allW hw; exact kept_execVerify h b verdict bad _ h0
  | kemEncap h b bad => obtain ⟨_, _, _, _, _, _, _, _, _, _, _⟩ := allW hw; exact kept_execKemEncap h b bad _ h0
  | kemDecap h b => obtain ⟨_, _, _, _, _, _, _, _, _, _⟩ := allW hw; exact kept_execKemDecap h b _ h0
  | keyAgree h b bad => obtain ⟨_, _, _, _, _, _, _, _, _, _⟩ := allW hw; exact kept_execKeyAgree h b bad _ h0
  | hash h b => obtain ⟨_, _, _, _, _, _, _⟩ := allW hw; exact kept_execHash h b _ h0
  | drbgRead h b => obtain ⟨_, _, _, _, _, _, _, _, _⟩ := allW hw; exact kept_execDrbgRead h b _ h0
  | vciPageAssign h b => obtain ⟨_, _, _, _, _, _, _⟩ := allW hw; exact kept_execVciPageAssign h b _ h0
  | domainEnrolChallenge h b ok serial idDig => obtain ⟨_, _, _, _, _, _, _, _, _⟩ := allW hw; exact kept_execDomainEnrolChallenge h b ok serial idDig _ h0
  | domainEnrolPrepare h b => obtain ⟨_, _, _, _, _, _, _, _, _, _⟩ := allW hw; exact kept_execDomainEnrolPrepare h b _ h0
  | domainEnrolAdmit h b sigOk => obtain ⟨_, _, _, _, _, _, _, _⟩ := allW hw; exact kept_execDomainEnrolAdmit h b sigOk _ h0
  | domainEnrolAccept h b sigOk => obtain ⟨_, _, _, _, _, _, _⟩ := allW hw; exact kept_execDomainEnrolAccept h b sigOk _ h0
  | domainEnrolRevoke h b => obtain ⟨_, _, _, _, _, _, _⟩ := allW hw; exact kept_execDomainEnrolRevoke h b _ h0
  | domainEnrolRosterDelta h b sigOk => obtain ⟨_, _, _, _, _, _, _⟩ := allW hw; exact kept_execDomainEnrolRosterDelta h b sigOk _ h0
  | domainKeyDistribute h b bundle => obtain ⟨_, _, _, _, _, _, _, _, _, _, _, _, _⟩ := allW hw; exact kept_execDomainKeyDistribute h b bundle _ h0
  | domainRollover h b => obtain ⟨_, _, _, _, _, _, _, _, _, _⟩ := allW hw; exact kept_execDomainRollover h b _ h0
  | rolloverDeadline t => obtain ⟨_, _, _, _, _, _, _, _⟩ := allW hw; exact kept_execRolloverDeadline t _ h0
  | groupPolicySet h b => obtain ⟨_, _, _, _, _, _, _, _, _, _⟩ := allW hw; exact kept_execGroupPolicySet h b _ h0
  | gdoiMemberAdd h b => obtain ⟨_, _, _, _, _, _, _⟩ := allW hw; exact kept_execGdoiMemberAdd h b _ h0
  | gdoiMemberRemove h b => obtain ⟨_, _, _, _, _, _, _⟩ := allW hw; exact kept_execGdoiMemberRemove h b _ h0
  | tenantCreate h b => obtain ⟨_, _, _, _, _, _, _, _, _⟩ := allW hw; exact kept_execTenantCreate h b _ h0
  | tenantRateSet h b => obtain ⟨_, _, _, _, _, _, _⟩ := allW hw; exact kept_execTenantRateSet h b _ h0
  | domainSnapshot h b => obtain ⟨_, _, _, _, _, _, _, _⟩ := allW hw; exact kept_execDomainSnapshot h b _ h0
  | memKeyRoll h b => obtain ⟨_, _, _, _, _, _, _, _, _⟩ := allW hw; exact kept_execMemKeyRoll h b _ h0
  | memStatus h b => obtain ⟨_, _, _, _, _, _⟩ := allW hw; exact kept_execMemStatus h b _ h0
  | tamperConfig h b => obtain ⟨_, _, _, _, _, _, _, _, _, _, _, _, _, _, _, _, _, _, _⟩ := allW hw; exact kept_execTamperConfig h b _ h0
  | tamperTest h b => obtain ⟨_, _, _, _, _, _, _⟩ := allW hw; exact kept_execTamperTest h b _ h0
  | tamperTestSourceDone t detected => obtain ⟨_, _, _, _, _, _, _, _, _, _, _, _, _, _, _, _, _, _, _⟩ := allW hw; exact kept_execTamperTestSourceDone t detected _ h0
  | tamperFuse h b blown => obtain ⟨_, _, _, _, _, _, _, _⟩ := allW hw; exact kept_execTamperFuse h b blown _ h0
  | tamperRearm h b => obtain ⟨_, _, _, _, _, _, _, _, _, _, _, _, _, _, _, _, _, _, _⟩ := allW hw; exact kept_execTamperRearm h b _ h0
  | powerStateSet h b => obtain ⟨_, _, _, _, _, _, _, _, _, _, _⟩ := allW hw; exact kept_execPowerStateSet h b _ h0
  | dvfsSet h b => obtain ⟨_, _, _, _, _, _, _⟩ := allW hw; exact kept_execDvfsSet h b _ h0
  | wakeConfig h b => obtain ⟨_, _, _, _, _, _⟩ := allW hw; exact kept_execWakeConfig h b _ h0
  | snapArm h b => obtain ⟨_, _, _, _, _, _, _, _⟩ := allW hw; exact kept_execSnapArm h b _ h0
  | snapRead h b => obtain ⟨_, _, _, _, _, _⟩ := allW hw; exact kept_execSnapRead h b _ h0
  | perfConfig h b => obtain ⟨_, _, _, _, _, _, _⟩ := allW hw; exact kept_execPerfConfig h b _ h0
  | perfRead h b => obtain ⟨_, _, _, _, _, _, _⟩ := allW hw; exact kept_execPerfRead h b _ h0
  | recorderRead h b => obtain ⟨_, _, _, _, _, _, _⟩ := allW hw; exact kept_execRecorderRead h b _ h0
  | recorderClear h b => obtain ⟨_, _, _, _, _, _, _⟩ := allW hw; exact kept_execRecorderClear h b _ h0
  | selftestRun h b => obtain ⟨_, _, _, _, _, _, _, _, _, _, _, _, _, _⟩ := allW hw; exact kept_execSelftestRun h b _ h0
  | dataflowApply h value => obtain ⟨_, _, _, _, _, _, _, _, _, _, _, _, _, _, _, _, _, _, _, _, _, _, _⟩ := allW hw; exact kept_execDataflowApply h value _ h0
  | dataflowRemap t => obtain ⟨_, _, _, _, _, _, _, _, _, _, _, _⟩ := allW hw; exact kept_execDataflowRemap t _ h0
  | recoveryClr h => obtain ⟨_, _, _, _, _, _, _, _, _, _, _, _, _, _, _, _, _, _, _, _, _, _, _⟩ := allW hw; exact kept_execRecoveryClr h _ h0
  | testReq h on => obtain ⟨_, _, _, _, _, _, _, _, _, _, _, _, _, _, _, _, _, _, _, _, _, _, _⟩ := allW hw; exact kept_execTestReq h on _ h0
  | tmuStepGo h => obtain ⟨_, _, _, _, _, _, _, _, _, _, _, _, _, _, _, _, _, _, _, _, _, _, _⟩ := allW hw; exact kept_execTmuStepGo h _ h0
  | matchArm h n hi => obtain ⟨_, _, _, _, _, _, _, _, _, _, _, _, _, _, _, _, _, _, _, _, _, _, _⟩ := allW hw; exact kept_execMatchArm h n hi _ h0
  | matchDisarm h n hi => obtain ⟨_, _, _, _, _, _, _, _, _, _, _, _, _, _, _, _, _, _, _, _, _, _, _⟩ := allW hw; exact kept_execMatchDisarm h n hi _ h0
  | expressEnSet h brick => obtain ⟨_, _, _, _, _, _, _, _, _, _, _, _, _, _, _, _, _, _, _, _, _, _, _⟩ := allW hw; exact kept_execExpressEnSet h brick _ h0
  | expressEnClear h brick => obtain ⟨_, _, _, _, _, _, _, _, _, _, _, _, _, _, _, _, _, _, _, _, _, _, _⟩ := allW hw; exact kept_execExpressEnClear h brick _ h0
  | expressRoleSwitch t brick => obtain ⟨_, _, _⟩ := allW hw; exact kept_execExpressRoleSwitch t brick _ h0
  | txFirWrite h lane value => obtain ⟨_, _, _, _, _, _, _, _, _, _, _, _, _, _, _, _, _, _, _, _, _, _, _⟩ := allW hw; exact kept_execTxFirWrite h lane value _ h0
  | rxEqWrite h lane value => obtain ⟨_, _, _, _, _, _, _, _, _, _, _, _, _, _, _, _, _, _, _, _, _, _, _⟩ := allW hw; exact kept_execRxEqWrite h lane value _ h0
  | laneMapWrite h quad value => obtain ⟨_, _, _, _, _, _, _, _, _, _, _, _, _, _, _, _, _, _, _, _, _, _, _⟩ := allW hw; exact kept_execLaneMapWrite h quad value _ h0
  | bondLaneEnable h value => obtain ⟨_, _, _, _, _, _, _, _, _, _, _, _, _, _, _, _, _, _, _, _, _, _, _⟩ := allW hw; exact kept_execBondLaneEnable h value _ h0
  | portEnable h port => obtain ⟨_, _, _, _, _, _, _, _, _, _, _, _, _, _, _, _, _, _, _, _, _, _, _⟩ := allW hw; exact kept_execPortEnable h port _ h0
  | portDisable h port => obtain ⟨_, _, _, _, _, _, _, _, _, _, _, _, _, _, _, _, _, _, _, _, _, _, _⟩ := allW hw; exact kept_execPortDisable h port _ h0
  | expressMaskWrite h port value => obtain ⟨_, _, _, _, _, _, _, _, _, _, _, _, _, _, _, _, _, _, _, _, _, _, _⟩ := allW hw; exact kept_execExpressMaskWrite h port value _ h0
  | maxResWrite h e value => obtain ⟨_, _, _, _, _, _, _, _, _, _, _, _, _, _, _, _, _, _, _, _, _, _, _⟩ := allW hw; exact kept_execMaxResWrite h e value _ h0
  | rollIntervalWrite h value => obtain ⟨_, _, _, _, _, _, _, _, _, _, _, _, _, _, _, _, _, _, _, _, _, _, _⟩ := allW hw; exact kept_execRollIntervalWrite h value _ h0
  | frozenClear h => obtain ⟨_, _, _, _, _, _, _, _, _, _, _, _, _, _, _, _, _, _, _, _, _, _, _⟩ := allW hw; exact kept_execFrozenClear h _ h0
  | snapTriggerWrite h => obtain ⟨_, _, _, _, _, _, _, _, _, _, _, _, _, _, _, _, _, _, _, _, _, _, _⟩ := allW hw; exact kept_execSnapTriggerWrite h _ h0
  | snapRelease h sel => obtain ⟨_, _, _, _, _, _, _, _, _, _, _, _, _, _, _, _, _, _, _, _, _, _, _⟩ := allW hw; exact kept_execSnapRelease h sel _ h0
  | perfClear h => obtain ⟨_, _, _, _, _, _, _, _, _, _, _, _, _, _, _, _, _, _, _, _, _, _, _⟩ := allW hw; exact kept_execPerfClear h _ h0
  | perfRun h run => obtain ⟨_, _, _, _, _, _, _, _, _, _, _, _, _, _, _, _, _, _, _, _, _, _, _⟩ := allW hw; exact kept_execPerfRun h run _ h0
  | pwrDvfsWrite h brick value => obtain ⟨_, _, _, _, _, _, _, _, _, _, _, _, _, _, _, _, _, _, _, _, _, _, _⟩ := allW hw; exact kept_execPwrDvfsWrite h brick value _ h0
  | winGoRead h win index tag => obtain ⟨_, _, _, _, _, _, _, _, _, _, _, _, _, _, _, _, _, _, _, _, _, _, _⟩ := allW hw; exact kept_execWinGoRead h win index tag _ h0
  | winGoWrite h win index tag data => obtain ⟨_, _, _, _, _, _, _, _, _, _, _, _, _, _, _, _, _, _, _, _, _, _, _⟩ := allW hw; exact kept_execWinGoWrite h win index tag data _ h0
  | slowBlockWrite t bytes pecOk => obtain ⟨_, _⟩ := allW hw; exact kept_execSlowBlockWrite t bytes pecOk _ h0
  | slowSubmit t pecOk => obtain ⟨_, _⟩ := allW hw; exact kept_execSlowSubmit t pecOk _ h0
  | slowBlockRead t => obtain ⟨_, _, _⟩ := allW hw; exact kept_execSlowBlockRead t _ h0
  | slowStatusRead t => obtain ⟨_, _⟩ := allW hw; exact kept_execSlowStatusRead t _ h0
  | slowPortTimeout t => obtain ⟨_, _⟩ := allW hw; exact kept_execSlowPortTimeout t _ h0
  | powerOnReset t => obtain ⟨_, _, _, _, _, _, _, _, _, _, _, _, _, _, _, _, _, _, _, _, _, _⟩ := allW hw; exact kept_execPowerOnReset t _ h0
  | brownOutReset t => obtain ⟨_, _, _, _, _, _, _, _, _, _, _, _, _, _, _, _, _, _, _, _, _, _⟩ := allW hw; exact kept_execBrownOutReset t _ h0
  | pinReset t => obtain ⟨_, _, _, _, _, _, _, _, _, _, _, _, _, _, _, _, _, _, _, _, _, _⟩ := allW hw; exact kept_execPinReset t _ h0
  | commandWarmReset t => obtain ⟨_, _, _, _, _, _, _, _, _, _, _, _, _, _, _, _, _, _, _, _, _, _⟩ := allW hw; exact kept_execCommandWarmReset t _ h0
  | watchdogReset t vault => obtain ⟨_, _, _, _, _, _, _, _, _, _, _, _, _, _, _, _, _, _, _, _, _, _⟩ := allW hw; exact kept_execWatchdogReset t vault _ h0
  | tamperReset t => obtain ⟨_, _, _, _, _, _, _, _, _, _, _, _, _, _, _, _, _, _, _, _, _, _⟩ := allW hw; exact kept_execTamperReset t _ h0
  | resetRelease t balls => obtain ⟨_, _, _, _, _, _, _, _, _, _, _, _, _, _, _, _, _, _, _, _, _⟩ := allW hw; exact kept_execResetRelease t balls _ h0
  | imageBoot t okA okB => obtain ⟨_, _, _, _, _, _, _, _, _, _, _⟩ := allW hw; exact kept_execImageBoot t okA okB _ h0
  | vaultKatPass t => obtain ⟨_, _, _⟩ := allW hw; exact kept_execVaultKatPass t _ h0
  | ddrTrainingDone t ch ok cap => obtain ⟨_, _, _, _, _⟩ := allW hw; exact kept_execDdrTrainingDone t ch ok cap _ h0
  | memInitDone t => obtain ⟨_, _⟩ := allW hw; exact kept_execMemInitDone t _ h0
  | expressReady t => obtain ⟨_, _, _, _, _⟩ := allW hw; exact kept_execExpressReady t _ h0
  | fullReady t => obtain ⟨_, _, _, _, _, _, _, _, _, _, _⟩ := allW hw; exact kept_execFullReady t _ h0
  | linkUp t sp => obtain ⟨_, _, _, _⟩ := allW hw; exact kept_execLinkUp t sp _ h0
  | linkDown t sp localFault => obtain ⟨_, _, _, _, _, _, _, _, _, _, _⟩ := allW hw; exact kept_execLinkDown t sp localFault _ h0
  | remoteFaultRx t sp => obtain ⟨_, _⟩ := allW hw; exact kept_execRemoteFaultRx t sp _ h0
  | refLoss t quad => obtain ⟨_, _, _, _, _, _, _, _, _, _, _, _, _, _⟩ := allW hw; exact kept_execRefLoss t quad _ h0
  | mmVerifyAttempt t sp answered => obtain ⟨_, _⟩ := allW hw; exact kept_execMmVerifyAttempt t sp answered _ h0
  | macControlRx t sp frame => obtain ⟨_, _, _, _, _, _⟩ := allW hw; exact kept_execMacControlRx t sp frame _ h0
  | pauseWatchdogTrip t sp cls => obtain ⟨_, _, _, _, _⟩ := allW hw; exact kept_execPauseWatchdogTrip t sp cls _ h0
  | pauseWatchdogEnd t sp cls => obtain ⟨_, _⟩ := allW hw; exact kept_execPauseWatchdogEnd t sp cls _ h0
  | counterPoll t => obtain ⟨_, _, _⟩ := allW hw; exact kept_execCounterPoll t _ h0
  | clearFrameRx t sp frame => obtain ⟨_, _, _, _, _, _, _, _, _, _, _, _, _, _, _, _, _⟩ := allW hw; exact kept_execClearFrameRx t sp frame _ h0
  | lineFrameRx t port frame => obtain ⟨_, _, _, _, _, _, _, _, _, _, _, _, _, _, _, _⟩ := allW hw; exact kept_execLineFrameRx t port frame _ h0
  | stagingRelease t id => obtain ⟨_, _, _, _, _, _, _, _, _, _, _, _, _, _, _⟩ := allW hw; exact kept_execStagingRelease t id _ h0
  | contextFetchDone t id => obtain ⟨_, _, _, _, _, _, _, _, _, _, _, _, _, _, _⟩ := allW hw; exact kept_execContextFetchDone t id _ h0
  | bulkDispatch t id => obtain ⟨_, _, _, _, _, _, _, _, _, _, _, _, _, _, _⟩ := allW hw; exact kept_execBulkDispatch t id _ h0
  | expressLaneStart t id => obtain ⟨_, _, _, _, _, _, _, _, _, _, _, _, _, _, _⟩ := allW hw; exact kept_execExpressLaneStart t id _ h0
  | primingDone t brick bank => obtain ⟨_, _⟩ := allW hw; exact kept_execPrimingDone t brick bank _ h0
  | tileFinish t id => obtain ⟨_, _, _⟩ := allW hw; exact kept_execTileFinish t id _ h0
  | tagResult t id ok => obtain ⟨_, _, _, _, _, _, _, _, _, _, _, _, _, _, _, _⟩ := allW hw; exact kept_execTagResult t id ok _ h0
  | reorderRelease t id => obtain ⟨_, _, _⟩ := allW hw; exact kept_execReorderRelease t id _ h0
  | duplicateDiscard t id => obtain ⟨_, _, _, _, _, _⟩ := allW hw; exact kept_execDuplicateDiscard t id _ h0
  | heldCopyRelease t stream => obtain ⟨_, _, _⟩ := allW hw; exact kept_execHeldCopyRelease t stream _ h0
  | learnApply t brick => obtain ⟨_, _, _, _, _, _, _, _⟩ := allW hw; exact kept_execLearnApply t brick _ h0
  | tombstoneFree t brick => obtain ⟨_, _, _, _, _, _, _, _⟩ := allW hw; exact kept_execTombstoneFree t brick _ h0
  | agerVisit t brick way => obtain ⟨_, _, _, _, _, _, _, _⟩ := allW hw; exact kept_execAgerVisit t brick way _ h0
  | expressHoldEnter t id => obtain ⟨_, _, _, _, _, _, _, _, _⟩ := allW hw; exact kept_execExpressHoldEnter t id _ h0
  | egressSelect t sp => obtain ⟨_, _, _, _, _, _, _, _, _, _, _⟩ := allW hw; exact kept_execEgressSelect t sp _ h0
  | frameTxDone t sp => obtain ⟨_, _, _, _, _, _, _⟩ := allW hw; exact kept_execFrameTxDone t sp _ h0
  | frameAged t id => obtain ⟨_, _, _, _, _, _, _, _, _⟩ := allW hw; exact kept_execFrameAged t id _ h0
  | shaperUpdate t => obtain ⟨_, _⟩ := allW hw; exact kept_execShaperUpdate t _ h0
  | gateEntryChange t e => obtain ⟨_, _, _, _, _, _, _⟩ := allW hw; exact kept_execGateEntryChange t e _ h0
  | gclChangeInstant t e => obtain ⟨_, _⟩ := allW hw; exact kept_execGclChangeInstant t e _ h0
  | onestepDispatch t n => obtain ⟨_, _, _, _, _, _, _, _, _, _, _, _, _, _, _⟩ := allW hw; exact kept_execOnestepDispatch t n _ h0
  | onestepRelease t n => obtain ⟨_, _, _, _, _, _, _, _⟩ := allW hw; exact kept_execOnestepRelease t n _ h0
  | retireTimerExpiry t entry => obtain ⟨_, _, _, _, _, _, _, _, _⟩ := allW hw; exact kept_execRetireTimerExpiry t entry _ h0
  | tileTestStart t brick tile => obtain ⟨_, _, _, _, _, _, _, _, _, _, _, _, _, _⟩ := allW hw; exact kept_execTileTestStart t brick tile _ h0
  | tileTestDone t brick tile ok => obtain ⟨_, _, _, _, _, _, _, _, _, _, _, _, _, _, _⟩ := allW hw; exact kept_execTileTestDone t brick tile ok _ h0
  | evIstOverdue t unit => obtain ⟨_, _, _, _, _, _, _, _, _, _, _, _, _, _⟩ := allW hw; exact kept_execEvIstOverdue t unit _ h0
  | mkpduRx t ca info => obtain ⟨_, _, _, _, _, _, _, _, _, _, _, _⟩ := allW hw; exact kept_execMkpduRx t ca info _ h0
  | mkaHello t ca => obtain ⟨_, _, _, _, _, _, _⟩ := allW hw; exact kept_execMkaHello t ca _ h0
  | mkaPeerLost t ca sci => obtain ⟨_, _, _, _, _, _, _, _, _, _, _, _, _, _⟩ := allW hw; exact kept_execMkaPeerLost t ca sci _ h0
  | mkaRekeyInterval t ca => obtain ⟨_, _, _, _, _, _, _, _, _, _⟩ := allW hw; exact kept_execMkaRekeyInterval t ca _ h0
  | courseHeaderTx t port => obtain ⟨_, _, _, _, _, _, _, _, _, _, _⟩ := allW hw; exact kept_execCourseHeaderTx t port _ h0
  | directorySlotBuild t port => obtain ⟨_, _, _, _, _, _⟩ := allW hw; exact kept_execDirectorySlotBuild t port _ h0
  | runStart t port path => obtain ⟨_, _, _, _, _, _⟩ := allW hw; exact kept_execRunStart t port path _ h0
  | courseHeaderRx t port hdr => obtain ⟨_, _, _, _, _, _, _, _, _, _, _, _, _⟩ := allW hw; exact kept_execCourseHeaderRx t port hdr _ h0
  | trunkKeyEngage t port => obtain ⟨_, _⟩ := allW hw; exact kept_execTrunkKeyEngage t port _ h0
  | phaseSwitch t port => obtain ⟨_, _, _, _, _, _⟩ := allW hw; exact kept_execPhaseSwitch t port _ h0
  | phaseOldKeyErase t port => obtain ⟨_, _, _, _, _, _⟩ := allW hw; exact kept_execPhaseOldKeyErase t port _ h0
  | trunkCountCeiling t port => obtain ⟨_, _, _, _, _, _, _, _, _, _⟩ := allW hw; exact kept_execTrunkCountCeiling t port _ h0
  | directorySlotRx t port group bytes => obtain ⟨_, _, _, _, _, _, _⟩ := allW hw; exact kept_execDirectorySlotRx t port group bytes _ h0
  | unitRx t port path unit => obtain ⟨_, _, _, _, _, _, _, _, _, _, _, _, _, _, _⟩ := allW hw; exact kept_execUnitRx t port path unit _ h0
  | passUnitRx t port path unit => obtain ⟨_, _, _, _, _, _, _, _, _, _⟩ := allW hw; exact kept_execPassUnitRx t port path unit _ h0
  | lofDeclare t port => obtain ⟨_, _, _, _, _, _⟩ := allW hw; exact kept_execLofDeclare t port _ h0
  | lofClear t port => obtain ⟨_, _, _⟩ := allW hw; exact kept_execLofClear t port _ h0
  | pathAisTimeout t port path => obtain ⟨_, _, _⟩ := allW hw; exact kept_execPathAisTimeout t port path _ h0
  | aisInsert t port path => obtain ⟨_, _⟩ := allW hw; exact kept_execAisInsert t port path _ h0
  | pmSecond t port => obtain ⟨_, _⟩ := allW hw; exact kept_execPmSecond t port _ h0
  | bondBlockRx t lane blk => obtain ⟨_, _, _, _, _, _⟩ := allW hw; exact kept_execBondBlockRx t lane blk _ h0
  | bondLaneInFrame t lane => obtain ⟨_, _, _⟩ := allW hw; exact kept_execBondLaneInFrame t lane _ h0
  | bondLaneOutOfFrame t lane => obtain ⟨_, _⟩ := allW hw; exact kept_execBondLaneOutOfFrame t lane _ h0
  | bondLinkStateChange t => obtain ⟨_, _, _, _, _, _, _⟩ := allW hw; exact kept_execBondLinkStateChange t _ h0
  | helloRx t m => obtain ⟨_, _, _, _, _, _, _, _, _, _, _, _, _, _, _, _, _, _, _⟩ := allW hw; exact kept_execHelloRx t m _ h0
  | leaseTx t => obtain ⟨_, _, _, _, _⟩ := allW hw; exact kept_execLeaseTx t _ h0
  | leaseRx t m => obtain ⟨_, _, _, _, _, _, _, _⟩ := allW hw; exact kept_execLeaseRx t m _ h0
  | leaseAckRx t m => obtain ⟨_, _, _, _, _, _, _, _, _, _, _⟩ := allW hw; exact kept_execLeaseAckRx t m _ h0
  | leaseFence t => obtain ⟨_, _, _, _, _, _, _, _, _, _, _, _, _, _⟩ := allW hw; exact kept_execLeaseFence t _ h0
  | leaseExpiry t => obtain ⟨_, _, _, _, _, _, _, _, _, _, _, _, _, _, _, _, _⟩ := allW hw; exact kept_execLeaseExpiry t _ h0
  | resignRx t m => obtain ⟨_, _, _, _, _, _, _, _, _, _, _, _, _, _, _, _, _⟩ := allW hw; exact kept_execResignRx t m _ h0
  | fencedRx t m => obtain ⟨_, _, _, _, _, _, _, _, _, _, _, _, _, _, _, _, _⟩ := allW hw; exact kept_execFencedRx t m _ h0
  | resignCondition t cause => obtain ⟨_, _, _, _, _, _, _, _, _, _, _, _, _, _⟩ := allW hw; exact kept_execResignCondition t cause _ h0
  | mirrorRx t m => obtain ⟨_, _, _, _, _, _, _, _, _, _, _, _, _, _, _⟩ := allW hw; exact kept_execMirrorRx t m _ h0
  | mirrorAckRx t m => obtain ⟨_, _, _, _, _, _, _, _, _, _, _⟩ := allW hw; exact kept_execMirrorAckRx t m _ h0
  | mirrorRetransmit t => obtain ⟨_, _, _, _, _⟩ := allW hw; exact kept_execMirrorRetransmit t _ h0
  | mirrorGapTimeout t => obtain ⟨_, _, _, _, _, _, _, _⟩ := allW hw; exact kept_execMirrorGapTimeout t _ h0
  | syncReqRx t m => obtain ⟨_, _, _, _, _, _, _, _, _, _, _⟩ := allW hw; exact kept_execSyncReqRx t m _ h0
  | snapshotEndRx t m => obtain ⟨_, _, _, _, _, _, _, _, _, _, _, _, _, _, _⟩ := allW hw; exact kept_execSnapshotEndRx t m _ h0
  | syncDoneRx t m => obtain ⟨_, _, _, _, _, _, _, _⟩ := allW hw; exact kept_execSyncDoneRx t m _ h0
  | syncAckRx t m => obtain ⟨_, _, _, _, _, _, _, _⟩ := allW hw; exact kept_execSyncAckRx t m _ h0
  | ptpMessageRx t port msg => obtain ⟨_, _, _, _, _, _, _, _, _, _, _⟩ := allW hw; exact kept_execPtpMessageRx t port msg _ h0
  | ptpMessageTx t port kind dep => obtain ⟨_, _, _, _, _, _, _, _, _, _, _, _, _, _, _⟩ := allW hw; exact kept_execPtpMessageTx t port kind dep _ h0
  | syncTimeout t => obtain ⟨_, _⟩ := allW hw; exact kept_execSyncTimeout t _ h0
  | ref10mFault t => obtain ⟨_, _, _, _, _⟩ := allW hw; exact kept_execRef10mFault t _ h0
  | ref10mRestore t => obtain ⟨_, _, _, _, _⟩ := allW hw; exact kept_execRef10mRestore t _ h0
  | ppsInEdge t => obtain ⟨_, _, _, _, _, _, _, _, _, _, _⟩ := allW hw; exact kept_execPpsInEdge t _ h0
  | ppsInMissing t => obtain ⟨_, _, _, _, _, _, _⟩ := allW hw; exact kept_execPpsInMissing t _ h0
  | ppsOutEdge t => obtain ⟨_, _, _⟩ := allW hw; exact kept_execPpsOutEdge t _ h0
  | ppsOutWidthEnd t => obtain ⟨_, _, _⟩ := allW hw; exact kept_execPpsOutWidthEnd t _ h0
  | timeSave t => obtain ⟨_, _⟩ := allW hw; exact kept_execTimeSave t _ h0
  | matchFire t n => obtain ⟨_, _, _, _, _, _⟩ := allW hw; exact kept_execMatchFire t n _ h0
  | kilnYieldPoint t lane => obtain ⟨_, _, _, _, _⟩ := allW hw; exact kept_execKilnYieldPoint t lane _ h0
  | kilnJobEnd t lane fault kat => obtain ⟨_, _, _, _, _, _, _, _, _, _, _⟩ := allW hw; exact kept_execKilnJobEnd t lane fault kat _ h0
  | latticeJobEnd t pipe fault kat => obtain ⟨_, _, _, _, _, _, _, _, _, _, _⟩ := allW hw; exact kept_execLatticeJobEnd t pipe fault kat _ h0
  | keyReload t handle ok => obtain ⟨_, _, _, _, _, _, _, _, _, _⟩ := allW hw; exact kept_execKeyReload t handle ok _ h0
  | drbgReseed t inst => obtain ⟨_, _⟩ := allW hw; exact kept_execDrbgReseed t inst _ h0
  | rngHealthFail t test => obtain ⟨_, _, _, _, _, _, _, _⟩ := allW hw; exact kept_execRngHealthFail t test _ h0
  | rngStartupDone t => obtain ⟨_, _⟩ := allW hw; exact kept_execRngStartupDone t _ h0
  | istInterval t unit ok => obtain ⟨_, _, _, _, _, _, _, _, _, _, _, _, _, _, _, _, _⟩ := allW hw; exact kept_execIstInterval t unit ok _ h0
  | ticketExpiry t ticket => obtain ⟨_, _⟩ := allW hw; exact kept_execTicketExpiry t ticket _ h0
  | sessionIdleTimeout t session => obtain ⟨_, _⟩ := allW hw; exact kept_execSessionIdleTimeout t session _ h0
  | challengeExpiry t => obtain ⟨_, _⟩ := allW hw; exact kept_execChallengeExpiry t _ h0
  | dksRetry t device => obtain ⟨_, _, _, _, _, _, _, _, _⟩ := allW hw; exact kept_execDksRetry t device _ h0
  | ephemeralKeyRotate t => obtain ⟨_, _, _⟩ := allW hw; exact kept_execEphemeralKeyRotate t _ h0
  | tekNextGenerate t group => obtain ⟨_, _, _, _, _, _⟩ := allW hw; exact kept_execTekNextGenerate t group _ h0
  | tekExpiry t group => obtain ⟨_, _, _⟩ := allW hw; exact kept_execTekExpiry t group _ h0
  | gdoiMessageRx t msg => obtain ⟨_, _, _, _⟩ := allW hw; exact kept_execGdoiMessageRx t msg _ h0
  | arpRequestRx t ip mac => obtain ⟨_, _⟩ := allW hw; exact kept_execArpRequestRx t ip mac _ h0
  | memRead t master ch addr fault => obtain ⟨_, _, _, _, _, _, _, _, _, _, _, _, _, _, _, _, _, _⟩ := allW hw; exact kept_execMemRead t master ch addr fault _ h0
  | memWrite t master ch addr words whole fault => obtain ⟨_, _, _, _, _, _, _, _, _, _, _, _, _, _, _, _, _, _, _⟩ := allW hw; exact kept_execMemWrite t master ch addr words whole fault _ h0
  | haltResetTimer t => obtain ⟨_, _, _, _, _, _, _, _, _, _, _, _, _, _, _, _, _, _, _, _, _, _⟩ := allW hw; exact kept_execHaltResetTimer t _ h0
  | keyRollDue t => obtain ⟨_, _, _, _, _⟩ := allW hw; exact kept_execKeyRollDue t _ h0
  | sweepEnd t => obtain ⟨_, _, _, _, _, _, _⟩ := allW hw; exact kept_execSweepEnd t _ h0
  | tamperAlarm t sources => obtain ⟨_, _, _, _, _, _, _, _, _, _, _, _, _, _, _, _, _, _, _⟩ := allW hw; exact kept_execTamperAlarm t sources _ h0
  | idleEntryDone t => obtain ⟨_, _, _, _, _, _, _, _, _, _, _⟩ := allW hw; exact kept_execIdleEntryDone t _ h0
  | idleReturnDone t => obtain ⟨_, _, _, _, _, _, _, _, _, _, _⟩ := allW hw; exact kept_execIdleReturnDone t _ h0
  | standbyEntryDone t => obtain ⟨_, _, _, _, _, _, _, _, _, _, _, _, _⟩ := allW hw; exact kept_execStandbyEntryDone t _ h0
  | standbyReturnDone t => obtain ⟨_, _, _, _, _, _, _, _, _, _, _, _, _⟩ := allW hw; exact kept_execStandbyReturnDone t _ h0
  | sleepCommitPoint t => obtain ⟨_, _, _, _, _, _, _, _, _, _, _, _, _, _, _, _, _⟩ := allW hw; exact kept_execSleepCommitPoint t _ h0
  | sleepReached t => obtain ⟨_, _, _, _, _, _, _, _, _, _, _, _, _, _, _, _, _, _, _, _, _, _⟩ := allW hw; exact kept_execSleepReached t _ h0
  | wakeNLow t => obtain ⟨_, _, _⟩ := allW hw; exact kept_execWakeNLow t _ h0
  | rtcAlarm t => obtain ⟨_, _, _⟩ := allW hw; exact kept_execRtcAlarm t _ h0
  | slowPortWake t addr => obtain ⟨_, _, _⟩ := allW hw; exact kept_execSlowPortWake t addr _ h0
  | wakeDone t => obtain ⟨_, _, _, _, _, _, _, _, _, _, _, _, _, _, _, _, _, _, _, _, _, _⟩ := allW hw; exact kept_execWakeDone t _ h0
  | dvfsVoutConfirm t brick mv => obtain ⟨_, _⟩ := allW hw; exact kept_execDvfsVoutConfirm t brick mv _ h0
  | dvfsFault t brick cause => obtain ⟨_, _, _, _, _, _, _, _⟩ := allW hw; exact kept_execDvfsFault t brick cause _ h0
  | aonBrownout t => obtain ⟨_, _, _, _, _, _, _, _, _, _, _, _, _, _, _, _, _, _, _, _, _, _⟩ := allW hw; exact kept_execAonBrownout t _ h0
  | snapInEdge t => obtain ⟨_, _, _, _⟩ := allW hw; exact kept_execSnapInEdge t _ h0
  | snapshotTrigger t source => obtain ⟨_, _, _, _⟩ := allW hw; exact kept_execSnapshotTrigger t source _ h0
  | perfSample t counter value => obtain ⟨_, _, _⟩ := allW hw; exact kept_execPerfSample t counter value _ h0
  | recorderCommit t => obtain ⟨_, _⟩ := allW hw; exact kept_execRecorderCommit t _ h0
  | tokenRefill t code => obtain ⟨_, _⟩ := allW hw; exact kept_execTokenRefill t code _ h0
  | suppressionWindowClose t code => obtain ⟨_, _, _, _⟩ := allW hw; exact kept_execSuppressionWindowClose t code _ h0
  | recoveryWindowExpiry t => obtain ⟨_, _⟩ := allW hw; exact kept_execRecoveryWindowExpiry t _ h0
  | slewEnd t => obtain ⟨_, _⟩ := allW hw; exact kept_execSlewEnd t _ h0
  | domainPeerCompletionRx t device status handle words => obtain ⟨_, _, _, _, _, _, _, _⟩ := allW hw; exact kept_execDomainPeerCompletionRx t device status handle words _ h0
  | tamperConditionClear t source => obtain ⟨_, _⟩ := allW hw; exact kept_execTamperConditionClear t source _ h0
  | pauseTimeExpiry t sp cls => obtain ⟨_, _⟩ := allW hw; exact kept_execPauseTimeExpiry t sp cls _ h0
  | remoteFaultClear t sp => obtain ⟨_, _⟩ := allW hw; exact kept_execRemoteFaultClear t sp _ h0
  | refRestore t quad => obtain ⟨_, _⟩ := allW hw; exact kept_execRefRestore t quad _ h0
  | pllRampDone t brick => obtain ⟨_, _, _, _, _, _, _⟩ := allW hw; exact kept_execPllRampDone t brick _ h0
  | vciJobEnd t page => obtain ⟨_, _, _, _, _, _, _, _, _, _⟩ := allW hw; exact kept_execVciJobEnd t page _ h0
  | mgmtPortFrameRx t mp frame => obtain ⟨_, _, _, _, _, _⟩ := allW hw; exact kept_execMgmtPortFrameRx t mp frame _ h0
  | unknownOpcodeFrame h b opcode => obtain ⟨_, _, _, _, _, _⟩ := allW hw; exact kept_execUnknownOpcodeFrame h b opcode _ h0

/-! ## Step -/

/-- Where every command keeps a state, so do the turns of the commands that wait. -/
theorem kept_takeTurns {go : Instr → State → Out} (l : List Flight) (s : State) (h0 : Kept q τ W r₀ s)
    (hgo : ∀ i s, Kept q τ W r₀ s → KeptOut q τ W r₀ (go i s)) [Can W .cmd] : KeptOut q τ W r₀ (takeTurns go l s) := by
  induction l generalizing s with
  | nil => exact .next h0
  | cons f r ih =>
    unfold takeTurns
    split
    · exact ih _ h0
    · rename_i i _
      have h1 := hgo i { s with cmd := { s.cmd with turn := some (f.mailbox, f.tag) } } (by simpa -zeta only [kept_mk, can, true_or, or_true])
      generalize go i _ = o at h1
      cases h1 with
      | next h =>
        dsimp only
        split
        · exact ih _ h
        · exact .next (by simpa -zeta only [kept_mk, can, true_or, or_true])
/-- Every step answers a next state that is kept, with the rest of the queue where a command was waiting; it changes no part but those
that the command at the front touches, or those that a waiting command may touch where the queue is empty. -/
theorem kept_step (s : State) (h0 : Kept s.pending τ W r₀ s) (hw : ∀ i ∈ s.pending.head?, ∀ p ∈ touches i, W p = true)
    (he : s.pending = [] → ∀ p, W p = true) : KeptOut s.pending.tail τ W r₀ (step s) := by
  unfold step
  split
  · rename_i h
    rw [h] at h0 ⊢
    have := Can.mk (he h .cmd)
    exact kept_takeTurns _ _ h0 fun i s hs => kept_exec i s hs fun p _ => he h p
  · rename_i i r h
    rw [h] at hw ⊢
    refine kept_exec i _ ⟨rfl, h0.time, h0.regs, h0.mem0, h0.mem1, fun p hp => Part.same_trans ?_ (h0.frame p hp)⟩ (hw i rfl)
    cases p <;> first | rfl | exact ⟨rfl, rfl⟩

end Sys2Proof.Machine
end

