-- ==== Sys2Proof/Laws/Memory.lean ====
section
/-! SUPPORT. Read after write: registers and bytes of external memory. -/
namespace Sys2Proof.Machine
open Sys2Proof

/-- A register written reads back. -/
theorem regWord_setReg_same {s : State} (h : Regs.wf s.regs = true) (a : Nat) (w : Word) : regWord (setReg a w s) a = w := by
  simp only [Regs.wf, Bool.and_eq_true, wfTable] at h
  unfold regWord setReg putReg
  dsimp only
  split
  · rename_i e
    rw [look_del_same h.1, e]
    rfl
  · rw [look_put_same]
    rfl

/-- Every other register stays as it is. -/
theorem regWord_setReg_other (s : State) {a c : Nat} (w : Word) (h : c ≠ a) : regWord (setReg a w s) c = regWord s c := by
  unfold regWord setReg putReg
  dsimp only
  split
  · rw [look_del_other _ h]
  · rw [look_put_other _ _ h]

/-- A field written leaves every other register as it is. -/
theorem regWord_setFld_other (s : State) {a c : Nat} (hi lo v : Nat) (h : c ≠ a) : regWord (setFld a hi lo v s) c = regWord s c :=
  regWord_setReg_other s _ h

/-- A register a field of which is written. -/
theorem regWord_setFld_same {s : State} (h : Regs.wf s.regs = true) (a hi lo v : Nat) :
    regWord (setFld a hi lo v s) a = (regWord s a).withBits hi lo v := regWord_setReg_same h a _

/-- A byte stored reads back. -/
theorem look_ddrPut_same {d : List Host.Cell} (h : Memory.wf d = true) (a : Nat) (v : BitVec 8) : (look (ddrPut d a v) a).getD 0 = v := by
  simp only [Memory.wf, Bool.and_eq_true, wfTable] at h
  unfold ddrPut
  split
  · rename_i e
    rw [look_del_same h.1, e]
    rfl
  · rw [look_put_same]
    rfl

/-- Every other byte stays as it is. -/
theorem look_ddrPut_other (d : List Host.Cell) {a c : Nat} (v : BitVec 8) (h : c ≠ a) : look (ddrPut d a v) c = look d c := by
  unfold ddrPut
  split
  · exact look_del_other _ h
  · exact look_put_other _ _ h

end Sys2Proof.Machine
end

