-- ==== Sys2Proof/Laws/State.lean ====
section
/-! SUPPORT. What each named update of the state leaves of every field: one lemma per field per update. -/
namespace Sys2Proof.Machine
open Sys2Proof

variable (s : State)

/-! ## setReg -/

@[simp] theorem setReg_now (a : Nat) (w : Word) : (setReg a w s).now = s.now := rfl
@[simp] theorem setReg_freeCount (a : Nat) (w : Word) : (setReg a w s).freeCount = s.freeCount := rfl
@[simp] theorem setReg_pending (a : Nat) (w : Word) : (setReg a w s).pending = s.pending := rfl
@[simp] theorem setReg_sent (a : Nat) (w : Word) : (setReg a w s).sent = s.sent := rfl
@[simp] theorem setReg_cmd (a : Nat) (w : Word) : (setReg a w s).cmd = s.cmd := rfl
@[simp] theorem setReg_boot (a : Nat) (w : Word) : (setReg a w s).boot = s.boot := rfl
@[simp] theorem setReg_lane (a : Nat) (w : Word) : (setReg a w s).lane = s.lane := rfl
@[simp] theorem setReg_port (a : Nat) (w : Word) : (setReg a w s).port = s.port := rfl
@[simp] theorem setReg_time (a : Nat) (w : Word) : (setReg a w s).time = s.time := rfl
@[simp] theorem setReg_cls (a : Nat) (w : Word) : (setReg a w s).cls = s.cls := rfl
@[simp] theorem setReg_sas (a : Nat) (w : Word) : (setReg a w s).sas = s.sas := rfl
@[simp] theorem setReg_brk (a : Nat) (w : Word) : (setReg a w s).brk = s.brk := rfl
@[simp] theorem setReg_trk (a : Nat) (w : Word) : (setReg a w s).trk = s.trk := rfl
@[simp] theorem setReg_que (a : Nat) (w : Word) : (setReg a w s).que = s.que := rfl
@[simp] theorem setReg_bnd (a : Nat) (w : Word) : (setReg a w s).bnd = s.bnd := rfl
@[simp] theorem setReg_keys (a : Nat) (w : Word) : (setReg a w s).keys = s.keys := rfl
@[simp] theorem setReg_eng (a : Nat) (w : Word) : (setReg a w s).eng = s.eng := rfl
@[simp] theorem setReg_dks (a : Nat) (w : Word) : (setReg a w s).dks = s.dks := rfl
@[simp] theorem setReg_mem (a : Nat) (w : Word) : (setReg a w s).mem = s.mem := rfl
@[simp] theorem setReg_tmp (a : Nat) (w : Word) : (setReg a w s).tmp = s.tmp := rfl
@[simp] theorem setReg_pwr (a : Nat) (w : Word) : (setReg a w s).pwr = s.pwr := rfl
@[simp] theorem setReg_obs (a : Nat) (w : Word) : (setReg a w s).obs = s.obs := rfl
@[simp] theorem setReg_evr (a : Nat) (w : Word) : (setReg a w s).evr = s.evr := rfl

/-! ## setFld -/

@[simp] theorem setFld_now (a hi lo v : Nat) : (setFld a hi lo v s).now = s.now := rfl
@[simp] theorem setFld_freeCount (a hi lo v : Nat) : (setFld a hi lo v s).freeCount = s.freeCount := rfl
@[simp] theorem setFld_pending (a hi lo v : Nat) : (setFld a hi lo v s).pending = s.pending := rfl
@[simp] theorem setFld_sent (a hi lo v : Nat) : (setFld a hi lo v s).sent = s.sent := rfl
@[simp] theorem setFld_cmd (a hi lo v : Nat) : (setFld a hi lo v s).cmd = s.cmd := rfl
@[simp] theorem setFld_boot (a hi lo v : Nat) : (setFld a hi lo v s).boot = s.boot := rfl
@[simp] theorem setFld_lane (a hi lo v : Nat) : (setFld a hi lo v s).lane = s.lane := rfl
@[simp] theorem setFld_port (a hi lo v : Nat) : (setFld a hi lo v s).port = s.port := rfl
@[simp] theorem setFld_time (a hi lo v : Nat) : (setFld a hi lo v s).time = s.time := rfl
@[simp] theorem setFld_cls (a hi lo v : Nat) : (setFld a hi lo v s).cls = s.cls := rfl
@[simp] theorem setFld_sas (a hi lo v : Nat) : (setFld a hi lo v s).sas = s.sas := rfl
@[simp] theorem setFld_brk (a hi lo v : Nat) : (setFld a hi lo v s).brk = s.brk := rfl
@[simp] theorem setFld_trk (a hi lo v : Nat) : (setFld a hi lo v s).trk = s.trk := rfl
@[simp] theorem setFld_que (a hi lo v : Nat) : (setFld a hi lo v s).que = s.que := rfl
@[simp] theorem setFld_bnd (a hi lo v : Nat) : (setFld a hi lo v s).bnd = s.bnd := rfl
@[simp] theorem setFld_keys (a hi lo v : Nat) : (setFld a hi lo v s).keys = s.keys := rfl
@[simp] theorem setFld_eng (a hi lo v : Nat) : (setFld a hi lo v s).eng = s.eng := rfl
@[simp] theorem setFld_dks (a hi lo v : Nat) : (setFld a hi lo v s).dks = s.dks := rfl
@[simp] theorem setFld_mem (a hi lo v : Nat) : (setFld a hi lo v s).mem = s.mem := rfl
@[simp] theorem setFld_tmp (a hi lo v : Nat) : (setFld a hi lo v s).tmp = s.tmp := rfl
@[simp] theorem setFld_pwr (a hi lo v : Nat) : (setFld a hi lo v s).pwr = s.pwr := rfl
@[simp] theorem setFld_obs (a hi lo v : Nat) : (setFld a hi lo v s).obs = s.obs := rfl
@[simp] theorem setFld_evr (a hi lo v : Nat) : (setFld a hi lo v s).evr = s.evr := rfl

/-! ## raise -/

@[simp] theorem raise_now (a i : Nat) : (raise a i s).now = s.now := rfl
@[simp] theorem raise_freeCount (a i : Nat) : (raise a i s).freeCount = s.freeCount := rfl
@[simp] theorem raise_pending (a i : Nat) : (raise a i s).pending = s.pending := rfl
@[simp] theorem raise_sent (a i : Nat) : (raise a i s).sent = s.sent := rfl
@[simp] theorem raise_cmd (a i : Nat) : (raise a i s).cmd = s.cmd := rfl
@[simp] theorem raise_boot (a i : Nat) : (raise a i s).boot = s.boot := rfl
@[simp] theorem raise_lane (a i : Nat) : (raise a i s).lane = s.lane := rfl
@[simp] theorem raise_port (a i : Nat) : (raise a i s).port = s.port := rfl
@[simp] theorem raise_time (a i : Nat) : (raise a i s).time = s.time := rfl
@[simp] theorem raise_cls (a i : Nat) : (raise a i s).cls = s.cls := rfl
@[simp] theorem raise_sas (a i : Nat) : (raise a i s).sas = s.sas := rfl
@[simp] theorem raise_brk (a i : Nat) : (raise a i s).brk = s.brk := rfl
@[simp] theorem raise_trk (a i : Nat) : (raise a i s).trk = s.trk := rfl
@[simp] theorem raise_que (a i : Nat) : (raise a i s).que = s.que := rfl
@[simp] theorem raise_bnd (a i : Nat) : (raise a i s).bnd = s.bnd := rfl
@[simp] theorem raise_keys (a i : Nat) : (raise a i s).keys = s.keys := rfl
@[simp] theorem raise_eng (a i : Nat) : (raise a i s).eng = s.eng := rfl
@[simp] theorem raise_dks (a i : Nat) : (raise a i s).dks = s.dks := rfl
@[simp] theorem raise_mem (a i : Nat) : (raise a i s).mem = s.mem := rfl
@[simp] theorem raise_tmp (a i : Nat) : (raise a i s).tmp = s.tmp := rfl
@[simp] theorem raise_pwr (a i : Nat) : (raise a i s).pwr = s.pwr := rfl
@[simp] theorem raise_obs (a i : Nat) : (raise a i s).obs = s.obs := rfl
@[simp] theorem raise_evr (a i : Nat) : (raise a i s).evr = s.evr := rfl

/-! ## bumpFld -/

@[simp] theorem bumpFld_now (a hi lo n : Nat) : (bumpFld a hi lo n s).now = s.now := by unfold bumpFld; split <;> rfl
@[simp] theorem bumpFld_freeCount (a hi lo n : Nat) : (bumpFld a hi lo n s).freeCount = s.freeCount := by unfold bumpFld; split <;> rfl
@[simp] theorem bumpFld_pending (a hi lo n : Nat) : (bumpFld a hi lo n s).pending = s.pending := by unfold bumpFld; split <;> rfl
@[simp] theorem bumpFld_sent (a hi lo n : Nat) : (bumpFld a hi lo n s).sent = s.sent := by unfold bumpFld; split <;> rfl
@[simp] theorem bumpFld_cmd (a hi lo n : Nat) : (bumpFld a hi lo n s).cmd = s.cmd := by unfold bumpFld; split <;> rfl
@[simp] theorem bumpFld_boot (a hi lo n : Nat) : (bumpFld a hi lo n s).boot = s.boot := by unfold bumpFld; split <;> rfl
@[simp] theorem bumpFld_lane (a hi lo n : Nat) : (bumpFld a hi lo n s).lane = s.lane := by unfold bumpFld; split <;> rfl
@[simp] theorem bumpFld_port (a hi lo n : Nat) : (bumpFld a hi lo n s).port = s.port := by unfold bumpFld; split <;> rfl
@[simp] theorem bumpFld_time (a hi lo n : Nat) : (bumpFld a hi lo n s).time = s.time := by unfold bumpFld; split <;> rfl
@[simp] theorem bumpFld_cls (a hi lo n : Nat) : (bumpFld a hi lo n s).cls = s.cls := by unfold bumpFld; split <;> rfl
@[simp] theorem bumpFld_sas (a hi lo n : Nat) : (bumpFld a hi lo n s).sas = s.sas := by unfold bumpFld; split <;> rfl
@[simp] theorem bumpFld_brk (a hi lo n : Nat) : (bumpFld a hi lo n s).brk = s.brk := by unfold bumpFld; split <;> rfl
@[simp] theorem bumpFld_trk (a hi lo n : Nat) : (bumpFld a hi lo n s).trk = s.trk := by unfold bumpFld; split <;> rfl
@[simp] theorem bumpFld_que (a hi lo n : Nat) : (bumpFld a hi lo n s).que = s.que := by unfold bumpFld; split <;> rfl
@[simp] theorem bumpFld_bnd (a hi lo n : Nat) : (bumpFld a hi lo n s).bnd = s.bnd := by unfold bumpFld; split <;> rfl
@[simp] theorem bumpFld_keys (a hi lo n : Nat) : (bumpFld a hi lo n s).keys = s.keys := by unfold bumpFld; split <;> rfl
@[simp] theorem bumpFld_eng (a hi lo n : Nat) : (bumpFld a hi lo n s).eng = s.eng := by unfold bumpFld; split <;> rfl
@[simp] theorem bumpFld_dks (a hi lo n : Nat) : (bumpFld a hi lo n s).dks = s.dks := by unfold bumpFld; split <;> rfl
@[simp] theorem bumpFld_mem (a hi lo n : Nat) : (bumpFld a hi lo n s).mem = s.mem := by unfold bumpFld; split <;> rfl
@[simp] theorem bumpFld_tmp (a hi lo n : Nat) : (bumpFld a hi lo n s).tmp = s.tmp := by unfold bumpFld; split <;> rfl
@[simp] theorem bumpFld_pwr (a hi lo n : Nat) : (bumpFld a hi lo n s).pwr = s.pwr := by unfold bumpFld; split <;> rfl
@[simp] theorem bumpFld_obs (a hi lo n : Nat) : (bumpFld a hi lo n s).obs = s.obs := by unfold bumpFld; split <;> rfl
@[simp] theorem bumpFld_evr (a hi lo n : Nat) : (bumpFld a hi lo n s).evr = s.evr := by unfold bumpFld; split <;> rfl

/-! ## bump -/

@[simp] theorem bump_now (a n : Nat) : (bump a n s).now = s.now := bumpFld_now ..
@[simp] theorem bump_freeCount (a n : Nat) : (bump a n s).freeCount = s.freeCount := bumpFld_freeCount ..
@[simp] theorem bump_pending (a n : Nat) : (bump a n s).pending = s.pending := bumpFld_pending ..
@[simp] theorem bump_sent (a n : Nat) : (bump a n s).sent = s.sent := bumpFld_sent ..
@[simp] theorem bump_cmd (a n : Nat) : (bump a n s).cmd = s.cmd := bumpFld_cmd ..
@[simp] theorem bump_boot (a n : Nat) : (bump a n s).boot = s.boot := bumpFld_boot ..
@[simp] theorem bump_lane (a n : Nat) : (bump a n s).lane = s.lane := bumpFld_lane ..
@[simp] theorem bump_port (a n : Nat) : (bump a n s).port = s.port := bumpFld_port ..
@[simp] theorem bump_time (a n : Nat) : (bump a n s).time = s.time := bumpFld_time ..
@[simp] theorem bump_cls (a n : Nat) : (bump a n s).cls = s.cls := bumpFld_cls ..
@[simp] theorem bump_sas (a n : Nat) : (bump a n s).sas = s.sas := bumpFld_sas ..
@[simp] theorem bump_brk (a n : Nat) : (bump a n s).brk = s.brk := bumpFld_brk ..
@[simp] theorem bump_trk (a n : Nat) : (bump a n s).trk = s.trk := bumpFld_trk ..
@[simp] theorem bump_que (a n : Nat) : (bump a n s).que = s.que := bumpFld_que ..
@[simp] theorem bump_bnd (a n : Nat) : (bump a n s).bnd = s.bnd := bumpFld_bnd ..
@[simp] theorem bump_keys (a n : Nat) : (bump a n s).keys = s.keys := bumpFld_keys ..
@[simp] theorem bump_eng (a n : Nat) : (bump a n s).eng = s.eng := bumpFld_eng ..
@[simp] theorem bump_dks (a n : Nat) : (bump a n s).dks = s.dks := bumpFld_dks ..
@[simp] theorem bump_mem (a n : Nat) : (bump a n s).mem = s.mem := bumpFld_mem ..
@[simp] theorem bump_tmp (a n : Nat) : (bump a n s).tmp = s.tmp := bumpFld_tmp ..
@[simp] theorem bump_pwr (a n : Nat) : (bump a n s).pwr = s.pwr := bumpFld_pwr ..
@[simp] theorem bump_obs (a n : Nat) : (bump a n s).obs = s.obs := bumpFld_obs ..
@[simp] theorem bump_evr (a n : Nat) : (bump a n s).evr = s.evr := bumpFld_evr ..

/-! ## tick -/

@[simp] theorem tick_freeCount (t : Nat) : (tick t s).freeCount = s.freeCount := by unfold tick; split <;> rfl
@[simp] theorem tick_pending (t : Nat) : (tick t s).pending = s.pending := by unfold tick; split <;> rfl
@[simp] theorem tick_sent (t : Nat) : (tick t s).sent = s.sent := by unfold tick; split <;> rfl
@[simp] theorem tick_regs (t : Nat) : (tick t s).regs = s.regs := by unfold tick; split <;> rfl
@[simp] theorem tick_cmd (t : Nat) : (tick t s).cmd = s.cmd := by unfold tick; split <;> rfl
@[simp] theorem tick_boot (t : Nat) : (tick t s).boot = s.boot := by unfold tick; split <;> rfl
@[simp] theorem tick_lane (t : Nat) : (tick t s).lane = s.lane := by unfold tick; split <;> rfl
@[simp] theorem tick_port (t : Nat) : (tick t s).port = s.port := by unfold tick; split <;> rfl
@[simp] theorem tick_time (t : Nat) : (tick t s).time = s.time := by unfold tick; split <;> rfl
@[simp] theorem tick_cls (t : Nat) : (tick t s).cls = s.cls := by unfold tick; split <;> rfl
@[simp] theorem tick_sas (t : Nat) : (tick t s).sas = s.sas := by unfold tick; split <;> rfl
@[simp] theorem tick_brk (t : Nat) : (tick t s).brk = s.brk := by unfold tick; split <;> rfl
@[simp] theorem tick_trk (t : Nat) : (tick t s).trk = s.trk := by unfold tick; split <;> rfl
@[simp] theorem tick_que (t : Nat) : (tick t s).que = s.que := by unfold tick; split <;> rfl
@[simp] theorem tick_bnd (t : Nat) : (tick t s).bnd = s.bnd := by unfold tick; split <;> rfl
@[simp] theorem tick_keys (t : Nat) : (tick t s).keys = s.keys := by unfold tick; split <;> rfl
@[simp] theorem tick_eng (t : Nat) : (tick t s).eng = s.eng := by unfold tick; split <;> rfl
@[simp] theorem tick_dks (t : Nat) : (tick t s).dks = s.dks := by unfold tick; split <;> rfl
@[simp] theorem tick_mem (t : Nat) : (tick t s).mem = s.mem := by unfold tick; split <;> rfl
@[simp] theorem tick_tmp (t : Nat) : (tick t s).tmp = s.tmp := by unfold tick; split <;> rfl
@[simp] theorem tick_pwr (t : Nat) : (tick t s).pwr = s.pwr := by unfold tick; split <;> rfl
@[simp] theorem tick_obs (t : Nat) : (tick t s).obs = s.obs := by unfold tick; split <;> rfl
@[simp] theorem tick_evr (t : Nat) : (tick t s).evr = s.evr := by unfold tick; split <;> rfl

/-! ## send -/

@[simp] theorem send_now (x : Sent) : (send x s).now = s.now := rfl
@[simp] theorem send_freeCount (x : Sent) : (send x s).freeCount = s.freeCount := rfl
@[simp] theorem send_pending (x : Sent) : (send x s).pending = s.pending := rfl
@[simp] theorem send_regs (x : Sent) : (send x s).regs = s.regs := rfl
@[simp] theorem send_cmd (x : Sent) : (send x s).cmd = s.cmd := rfl
@[simp] theorem send_boot (x : Sent) : (send x s).boot = s.boot := rfl
@[simp] theorem send_lane (x : Sent) : (send x s).lane = s.lane := rfl
@[simp] theorem send_port (x : Sent) : (send x s).port = s.port := rfl
@[simp] theorem send_time (x : Sent) : (send x s).time = s.time := rfl
@[simp] theorem send_cls (x : Sent) : (send x s).cls = s.cls := rfl
@[simp] theorem send_sas (x : Sent) : (send x s).sas = s.sas := rfl
@[simp] theorem send_brk (x : Sent) : (send x s).brk = s.brk := rfl
@[simp] theorem send_trk (x : Sent) : (send x s).trk = s.trk := rfl
@[simp] theorem send_que (x : Sent) : (send x s).que = s.que := rfl
@[simp] theorem send_bnd (x : Sent) : (send x s).bnd = s.bnd := rfl
@[simp] theorem send_keys (x : Sent) : (send x s).keys = s.keys := rfl
@[simp] theorem send_eng (x : Sent) : (send x s).eng = s.eng := rfl
@[simp] theorem send_dks (x : Sent) : (send x s).dks = s.dks := rfl
@[simp] theorem send_mem (x : Sent) : (send x s).mem = s.mem := rfl
@[simp] theorem send_tmp (x : Sent) : (send x s).tmp = s.tmp := rfl
@[simp] theorem send_pwr (x : Sent) : (send x s).pwr = s.pwr := rfl
@[simp] theorem send_obs (x : Sent) : (send x s).obs = s.obs := rfl
@[simp] theorem send_evr (x : Sent) : (send x s).evr = s.evr := rfl

/-! ## setSub -/

@[simp] theorem setSub_now (sp : Nat) (x : SubPort) : (setSub sp x s).now = s.now := rfl
@[simp] theorem setSub_freeCount (sp : Nat) (x : SubPort) : (setSub sp x s).freeCount = s.freeCount := rfl
@[simp] theorem setSub_pending (sp : Nat) (x : SubPort) : (setSub sp x s).pending = s.pending := rfl
@[simp] theorem setSub_sent (sp : Nat) (x : SubPort) : (setSub sp x s).sent = s.sent := rfl
@[simp] theorem setSub_regs (sp : Nat) (x : SubPort) : (setSub sp x s).regs = s.regs := rfl
@[simp] theorem setSub_cmd (sp : Nat) (x : SubPort) : (setSub sp x s).cmd = s.cmd := rfl
@[simp] theorem setSub_boot (sp : Nat) (x : SubPort) : (setSub sp x s).boot = s.boot := rfl
@[simp] theorem setSub_lane (sp : Nat) (x : SubPort) : (setSub sp x s).lane = s.lane := rfl
@[simp] theorem setSub_time (sp : Nat) (x : SubPort) : (setSub sp x s).time = s.time := rfl
@[simp] theorem setSub_cls (sp : Nat) (x : SubPort) : (setSub sp x s).cls = s.cls := rfl
@[simp] theorem setSub_sas (sp : Nat) (x : SubPort) : (setSub sp x s).sas = s.sas := rfl
@[simp] theorem setSub_brk (sp : Nat) (x : SubPort) : (setSub sp x s).brk = s.brk := rfl
@[simp] theorem setSub_trk (sp : Nat) (x : SubPort) : (setSub sp x s).trk = s.trk := rfl
@[simp] theorem setSub_que (sp : Nat) (x : SubPort) : (setSub sp x s).que = s.que := rfl
@[simp] theorem setSub_bnd (sp : Nat) (x : SubPort) : (setSub sp x s).bnd = s.bnd := rfl
@[simp] theorem setSub_keys (sp : Nat) (x : SubPort) : (setSub sp x s).keys = s.keys := rfl
@[simp] theorem setSub_eng (sp : Nat) (x : SubPort) : (setSub sp x s).eng = s.eng := rfl
@[simp] theorem setSub_dks (sp : Nat) (x : SubPort) : (setSub sp x s).dks = s.dks := rfl
@[simp] theorem setSub_mem (sp : Nat) (x : SubPort) : (setSub sp x s).mem = s.mem := rfl
@[simp] theorem setSub_tmp (sp : Nat) (x : SubPort) : (setSub sp x s).tmp = s.tmp := rfl
@[simp] theorem setSub_pwr (sp : Nat) (x : SubPort) : (setSub sp x s).pwr = s.pwr := rfl
@[simp] theorem setSub_obs (sp : Nat) (x : SubPort) : (setSub sp x s).obs = s.obs := rfl
@[simp] theorem setSub_evr (sp : Nat) (x : SubPort) : (setSub sp x s).evr = s.evr := rfl

/-! ## setBrick -/

@[simp] theorem setBrick_now (b : Nat) (x : Brick) : (setBrick b x s).now = s.now := rfl
@[simp] theorem setBrick_freeCount (b : Nat) (x : Brick) : (setBrick b x s).freeCount = s.freeCount := rfl
@[simp] theorem setBrick_pending (b : Nat) (x : Brick) : (setBrick b x s).pending = s.pending := rfl
@[simp] theorem setBrick_sent (b : Nat) (x : Brick) : (setBrick b x s).sent = s.sent := rfl
@[simp] theorem setBrick_regs (b : Nat) (x : Brick) : (setBrick b x s).regs = s.regs := rfl
@[simp] theorem setBrick_cmd (b : Nat) (x : Brick) : (setBrick b x s).cmd = s.cmd := rfl
@[simp] theorem setBrick_boot (b : Nat) (x : Brick) : (setBrick b x s).boot = s.boot := rfl
@[simp] theorem setBrick_lane (b : Nat) (x : Brick) : (setBrick b x s).lane = s.lane := rfl
@[simp] theorem setBrick_port (b : Nat) (x : Brick) : (setBrick b x s).port = s.port := rfl
@[simp] theorem setBrick_time (b : Nat) (x : Brick) : (setBrick b x s).time = s.time := rfl
@[simp] theorem setBrick_cls (b : Nat) (x : Brick) : (setBrick b x s).cls = s.cls := rfl
@[simp] theorem setBrick_sas (b : Nat) (x : Brick) : (setBrick b x s).sas = s.sas := rfl
@[simp] theorem setBrick_trk (b : Nat) (x : Brick) : (setBrick b x s).trk = s.trk := rfl
@[simp] theorem setBrick_que (b : Nat) (x : Brick) : (setBrick b x s).que = s.que := rfl
@[simp] theorem setBrick_bnd (b : Nat) (x : Brick) : (setBrick b x s).bnd = s.bnd := rfl
@[simp] theorem setBrick_keys (b : Nat) (x : Brick) : (setBrick b x s).keys = s.keys := rfl
@[simp] theorem setBrick_eng (b : Nat) (x : Brick) : (setBrick b x s).eng = s.eng := rfl
@[simp] theorem setBrick_dks (b : Nat) (x : Brick) : (setBrick b x s).dks = s.dks := rfl
@[simp] theorem setBrick_mem (b : Nat) (x : Brick) : (setBrick b x s).mem = s.mem := rfl
@[simp] theorem setBrick_tmp (b : Nat) (x : Brick) : (setBrick b x s).tmp = s.tmp := rfl
@[simp] theorem setBrick_pwr (b : Nat) (x : Brick) : (setBrick b x s).pwr = s.pwr := rfl
@[simp] theorem setBrick_obs (b : Nat) (x : Brick) : (setBrick b x s).obs = s.obs := rfl
@[simp] theorem setBrick_evr (b : Nat) (x : Brick) : (setBrick b x s).evr = s.evr := rfl

/-! ## setTile -/

@[simp] theorem setTile_now (b k : Nat) (x : Tile) : (setTile b k x s).now = s.now := rfl
@[simp] theorem setTile_freeCount (b k : Nat) (x : Tile) : (setTile b k x s).freeCount = s.freeCount := rfl
@[simp] theorem setTile_pending (b k : Nat) (x : Tile) : (setTile b k x s).pending = s.pending := rfl
@[simp] theorem setTile_sent (b k : Nat) (x : Tile) : (setTile b k x s).sent = s.sent := rfl
@[simp] theorem setTile_regs (b k : Nat) (x : Tile) : (setTile b k x s).regs = s.regs := rfl
@[simp] theorem setTile_cmd (b k : Nat) (x : Tile) : (setTile b k x s).cmd = s.cmd := rfl
@[simp] theorem setTile_boot (b k : Nat) (x : Tile) : (setTile b k x s).boot = s.boot := rfl
@[simp] theorem setTile_lane (b k : Nat) (x : Tile) : (setTile b k x s).lane = s.lane := rfl
@[simp] theorem setTile_port (b k : Nat) (x : Tile) : (setTile b k x s).port = s.port := rfl
@[simp] theorem setTile_time (b k : Nat) (x : Tile) : (setTile b k x s).time = s.time := rfl
@[simp] theorem setTile_cls (b k : Nat) (x : Tile) : (setTile b k x s).cls = s.cls := rfl
@[simp] theorem setTile_sas (b k : Nat) (x : Tile) : (setTile b k x s).sas = s.sas := rfl
@[simp] theorem setTile_trk (b k : Nat) (x : Tile) : (setTile b k x s).trk = s.trk := rfl
@[simp] theorem setTile_que (b k : Nat) (x : Tile) : (setTile b k x s).que = s.que := rfl
@[simp] theorem setTile_bnd (b k : Nat) (x : Tile) : (setTile b k x s).bnd = s.bnd := rfl
@[simp] theorem setTile_keys (b k : Nat) (x : Tile) : (setTile b k x s).keys = s.keys := rfl
@[simp] theorem setTile_eng (b k : Nat) (x : Tile) : (setTile b k x s).eng = s.eng := rfl
@[simp] theorem setTile_dks (b k : Nat) (x : Tile) : (setTile b k x s).dks = s.dks := rfl
@[simp] theorem setTile_mem (b k : Nat) (x : Tile) : (setTile b k x s).mem = s.mem := rfl
@[simp] theorem setTile_tmp (b k : Nat) (x : Tile) : (setTile b k x s).tmp = s.tmp := rfl
@[simp] theorem setTile_pwr (b k : Nat) (x : Tile) : (setTile b k x s).pwr = s.pwr := rfl
@[simp] theorem setTile_obs (b k : Nat) (x : Tile) : (setTile b k x s).obs = s.obs := rfl
@[simp] theorem setTile_evr (b k : Nat) (x : Tile) : (setTile b k x s).evr = s.evr := rfl

/-! ## setTables -/

@[simp] theorem setTables_now (b : Nat) (x : BrickTables) : (setTables b x s).now = s.now := rfl
@[simp] theorem setTables_freeCount (b : Nat) (x : BrickTables) : (setTables b x s).freeCount = s.freeCount := rfl
@[simp] theorem setTables_pending (b : Nat) (x : BrickTables) : (setTables b x s).pending = s.pending := rfl
@[simp] theorem setTables_sent (b : Nat) (x : BrickTables) : (setTables b x s).sent = s.sent := rfl
@[simp] theorem setTables_regs (b : Nat) (x : BrickTables) : (setTables b x s).regs = s.regs := rfl
@[simp] theorem setTables_cmd (b : Nat) (x : BrickTables) : (setTables b x s).cmd = s.cmd := rfl
@[simp] theorem setTables_boot (b : Nat) (x : BrickTables) : (setTables b x s).boot = s.boot := rfl
@[simp] theorem setTables_lane (b : Nat) (x : BrickTables) : (setTables b x s).lane = s.lane := rfl
@[simp] theorem setTables_port (b : Nat) (x : BrickTables) : (setTables b x s).port = s.port := rfl
@[simp] theorem setTables_time (b : Nat) (x : BrickTables) : (setTables b x s).time = s.time := rfl
@[simp] theorem setTables_sas (b : Nat) (x : BrickTables) : (setTables b x s).sas = s.sas := rfl
@[simp] theorem setTables_brk (b : Nat) (x : BrickTables) : (setTables b x s).brk = s.brk := rfl
@[simp] theorem setTables_trk (b : Nat) (x : BrickTables) : (setTables b x s).trk = s.trk := rfl
@[simp] theorem setTables_que (b : Nat) (x : BrickTables) : (setTables b x s).que = s.que := rfl
@[simp] theorem setTables_bnd (b : Nat) (x : BrickTables) : (setTables b x s).bnd = s.bnd := rfl
@[simp] theorem setTables_keys (b : Nat) (x : BrickTables) : (setTables b x s).keys = s.keys := rfl
@[simp] theorem setTables_eng (b : Nat) (x : BrickTables) : (setTables b x s).eng = s.eng := rfl
@[simp] theorem setTables_dks (b : Nat) (x : BrickTables) : (setTables b x s).dks = s.dks := rfl
@[simp] theorem setTables_mem (b : Nat) (x : BrickTables) : (setTables b x s).mem = s.mem := rfl
@[simp] theorem setTables_tmp (b : Nat) (x : BrickTables) : (setTables b x s).tmp = s.tmp := rfl
@[simp] theorem setTables_pwr (b : Nat) (x : BrickTables) : (setTables b x s).pwr = s.pwr := rfl
@[simp] theorem setTables_obs (b : Nat) (x : BrickTables) : (setTables b x s).obs = s.obs := rfl
@[simp] theorem setTables_evr (b : Nat) (x : BrickTables) : (setTables b x s).evr = s.evr := rfl

/-! ## setTrunk -/

@[simp] theorem setTrunk_now (p : Nat) (x : Trunk) : (setTrunk p x s).now = s.now := by unfold setTrunk; split <;> rfl
@[simp] theorem setTrunk_freeCount (p : Nat) (x : Trunk) : (setTrunk p x s).freeCount = s.freeCount := by unfold setTrunk; split <;> rfl
@[simp] theorem setTrunk_pending (p : Nat) (x : Trunk) : (setTrunk p x s).pending = s.pending := by unfold setTrunk; split <;> rfl
@[simp] theorem setTrunk_sent (p : Nat) (x : Trunk) : (setTrunk p x s).sent = s.sent := by unfold setTrunk; split <;> rfl
@[simp] theorem setTrunk_regs (p : Nat) (x : Trunk) : (setTrunk p x s).regs = s.regs := by unfold setTrunk; split <;> rfl
@[simp] theorem setTrunk_cmd (p : Nat) (x : Trunk) : (setTrunk p x s).cmd = s.cmd := by unfold setTrunk; split <;> rfl
@[simp] theorem setTrunk_boot (p : Nat) (x : Trunk) : (setTrunk p x s).boot = s.boot := by unfold setTrunk; split <;> rfl
@[simp] theorem setTrunk_lane (p : Nat) (x : Trunk) : (setTrunk p x s).lane = s.lane := by unfold setTrunk; split <;> rfl
@[simp] theorem setTrunk_port (p : Nat) (x : Trunk) : (setTrunk p x s).port = s.port := by unfold setTrunk; split <;> rfl
@[simp] theorem setTrunk_time (p : Nat) (x : Trunk) : (setTrunk p x s).time = s.time := by unfold setTrunk; split <;> rfl
@[simp] theorem setTrunk_cls (p : Nat) (x : Trunk) : (setTrunk p x s).cls = s.cls := by unfold setTrunk; split <;> rfl
@[simp] theorem setTrunk_sas (p : Nat) (x : Trunk) : (setTrunk p x s).sas = s.sas := by unfold setTrunk; split <;> rfl
@[simp] theorem setTrunk_brk (p : Nat) (x : Trunk) : (setTrunk p x s).brk = s.brk := by unfold setTrunk; split <;> rfl
@[simp] theorem setTrunk_que (p : Nat) (x : Trunk) : (setTrunk p x s).que = s.que := by unfold setTrunk; split <;> rfl
@[simp] theorem setTrunk_bnd (p : Nat) (x : Trunk) : (setTrunk p x s).bnd = s.bnd := by unfold setTrunk; split <;> rfl
@[simp] theorem setTrunk_keys (p : Nat) (x : Trunk) : (setTrunk p x s).keys = s.keys := by unfold setTrunk; split <;> rfl
@[simp] theorem setTrunk_eng (p : Nat) (x : Trunk) : (setTrunk p x s).eng = s.eng := by unfold setTrunk; split <;> rfl
@[simp] theorem setTrunk_dks (p : Nat) (x : Trunk) : (setTrunk p x s).dks = s.dks := by unfold setTrunk; split <;> rfl
@[simp] theorem setTrunk_mem (p : Nat) (x : Trunk) : (setTrunk p x s).mem = s.mem := by unfold setTrunk; split <;> rfl
@[simp] theorem setTrunk_tmp (p : Nat) (x : Trunk) : (setTrunk p x s).tmp = s.tmp := by unfold setTrunk; split <;> rfl
@[simp] theorem setTrunk_pwr (p : Nat) (x : Trunk) : (setTrunk p x s).pwr = s.pwr := by unfold setTrunk; split <;> rfl
@[simp] theorem setTrunk_obs (p : Nat) (x : Trunk) : (setTrunk p x s).obs = s.obs := by unfold setTrunk; split <;> rfl
@[simp] theorem setTrunk_evr (p : Nat) (x : Trunk) : (setTrunk p x s).evr = s.evr := by unfold setTrunk; split <;> rfl

/-! ## setAwait -/

@[simp] theorem setAwait_now (f : Flight) (a : Await) : (setAwait f a s).now = s.now := rfl
@[simp] theorem setAwait_freeCount (f : Flight) (a : Await) : (setAwait f a s).freeCount = s.freeCount := rfl
@[simp] theorem setAwait_pending (f : Flight) (a : Await) : (setAwait f a s).pending = s.pending := rfl
@[simp] theorem setAwait_sent (f : Flight) (a : Await) : (setAwait f a s).sent = s.sent := rfl
@[simp] theorem setAwait_regs (f : Flight) (a : Await) : (setAwait f a s).regs = s.regs := rfl
@[simp] theorem setAwait_boot (f : Flight) (a : Await) : (setAwait f a s).boot = s.boot := rfl
@[simp] theorem setAwait_lane (f : Flight) (a : Await) : (setAwait f a s).lane = s.lane := rfl
@[simp] theorem setAwait_port (f : Flight) (a : Await) : (setAwait f a s).port = s.port := rfl
@[simp] theorem setAwait_time (f : Flight) (a : Await) : (setAwait f a s).time = s.time := rfl
@[simp] theorem setAwait_cls (f : Flight) (a : Await) : (setAwait f a s).cls = s.cls := rfl
@[simp] theorem setAwait_sas (f : Flight) (a : Await) : (setAwait f a s).sas = s.sas := rfl
@[simp] theorem setAwait_brk (f : Flight) (a : Await) : (setAwait f a s).brk = s.brk := rfl
@[simp] theorem setAwait_trk (f : Flight) (a : Await) : (setAwait f a s).trk = s.trk := rfl
@[simp] theorem setAwait_que (f : Flight) (a : Await) : (setAwait f a s).que = s.que := rfl
@[simp] theorem setAwait_bnd (f : Flight) (a : Await) : (setAwait f a s).bnd = s.bnd := rfl
@[simp] theorem setAwait_keys (f : Flight) (a : Await) : (setAwait f a s).keys = s.keys := rfl
@[simp] theorem setAwait_eng (f : Flight) (a : Await) : (setAwait f a s).eng = s.eng := rfl
@[simp] theorem setAwait_dks (f : Flight) (a : Await) : (setAwait f a s).dks = s.dks := rfl
@[simp] theorem setAwait_mem (f : Flight) (a : Await) : (setAwait f a s).mem = s.mem := rfl
@[simp] theorem setAwait_tmp (f : Flight) (a : Await) : (setAwait f a s).tmp = s.tmp := rfl
@[simp] theorem setAwait_pwr (f : Flight) (a : Await) : (setAwait f a s).pwr = s.pwr := rfl
@[simp] theorem setAwait_obs (f : Flight) (a : Await) : (setAwait f a s).obs = s.obs := rfl
@[simp] theorem setAwait_evr (f : Flight) (a : Await) : (setAwait f a s).evr = s.evr := rfl

/-! ## endSession -/

@[simp] theorem endSession_now (n : Nat) : (endSession n s).now = s.now := rfl
@[simp] theorem endSession_freeCount (n : Nat) : (endSession n s).freeCount = s.freeCount := rfl
@[simp] theorem endSession_pending (n : Nat) : (endSession n s).pending = s.pending := rfl
@[simp] theorem endSession_sent (n : Nat) : (endSession n s).sent = s.sent := rfl
@[simp] theorem endSession_regs (n : Nat) : (endSession n s).regs = s.regs := rfl
@[simp] theorem endSession_boot (n : Nat) : (endSession n s).boot = s.boot := rfl
@[simp] theorem endSession_lane (n : Nat) : (endSession n s).lane = s.lane := rfl
@[simp] theorem endSession_port (n : Nat) : (endSession n s).port = s.port := rfl
@[simp] theorem endSession_time (n : Nat) : (endSession n s).time = s.time := rfl
@[simp] theorem endSession_cls (n : Nat) : (endSession n s).cls = s.cls := rfl
@[simp] theorem endSession_sas (n : Nat) : (endSession n s).sas = s.sas := rfl
@[simp] theorem endSession_brk (n : Nat) : (endSession n s).brk = s.brk := rfl
@[simp] theorem endSession_trk (n : Nat) : (endSession n s).trk = s.trk := rfl
@[simp] theorem endSession_que (n : Nat) : (endSession n s).que = s.que := rfl
@[simp] theorem endSession_bnd (n : Nat) : (endSession n s).bnd = s.bnd := rfl
@[simp] theorem endSession_keys (n : Nat) : (endSession n s).keys = s.keys := rfl
@[simp] theorem endSession_eng (n : Nat) : (endSession n s).eng = s.eng := rfl
@[simp] theorem endSession_dks (n : Nat) : (endSession n s).dks = s.dks := rfl
@[simp] theorem endSession_mem (n : Nat) : (endSession n s).mem = s.mem := rfl
@[simp] theorem endSession_tmp (n : Nat) : (endSession n s).tmp = s.tmp := rfl
@[simp] theorem endSession_pwr (n : Nat) : (endSession n s).pwr = s.pwr := rfl
@[simp] theorem endSession_obs (n : Nat) : (endSession n s).obs = s.obs := rfl
@[simp] theorem endSession_evr (n : Nat) : (endSession n s).evr = s.evr := rfl

/-! ## perf -/

@[simp] theorem perf_now (blk e n : Nat) : (perf blk e n s).now = s.now := by unfold perf; split <;> rfl
@[simp] theorem perf_freeCount (blk e n : Nat) : (perf blk e n s).freeCount = s.freeCount := by unfold perf; split <;> rfl
@[simp] theorem perf_pending (blk e n : Nat) : (perf blk e n s).pending = s.pending := by unfold perf; split <;> rfl
@[simp] theorem perf_sent (blk e n : Nat) : (perf blk e n s).sent = s.sent := by unfold perf; split <;> rfl
@[simp] theorem perf_regs (blk e n : Nat) : (perf blk e n s).regs = s.regs := by unfold perf; split <;> rfl
@[simp] theorem perf_cmd (blk e n : Nat) : (perf blk e n s).cmd = s.cmd := by unfold perf; split <;> rfl
@[simp] theorem perf_boot (blk e n : Nat) : (perf blk e n s).boot = s.boot := by unfold perf; split <;> rfl
@[simp] theorem perf_lane (blk e n : Nat) : (perf blk e n s).lane = s.lane := by unfold perf; split <;> rfl
@[simp] theorem perf_port (blk e n : Nat) : (perf blk e n s).port = s.port := by unfold perf; split <;> rfl
@[simp] theorem perf_time (blk e n : Nat) : (perf blk e n s).time = s.time := by unfold perf; split <;> rfl
@[simp] theorem perf_cls (blk e n : Nat) : (perf blk e n s).cls = s.cls := by unfold perf; split <;> rfl
@[simp] theorem perf_sas (blk e n : Nat) : (perf blk e n s).sas = s.sas := by unfold perf; split <;> rfl
@[simp] theorem perf_brk (blk e n : Nat) : (perf blk e n s).brk = s.brk := by unfold perf; split <;> rfl
@[simp] theorem perf_trk (blk e n : Nat) : (perf blk e n s).trk = s.trk := by unfold perf; split <;> rfl
@[simp] theorem perf_que (blk e n : Nat) : (perf blk e n s).que = s.que := by unfold perf; split <;> rfl
@[simp] theorem perf_bnd (blk e n : Nat) : (perf blk e n s).bnd = s.bnd := by unfold perf; split <;> rfl
@[simp] theorem perf_keys (blk e n : Nat) : (perf blk e n s).keys = s.keys := by unfold perf; split <;> rfl
@[simp] theorem perf_eng (blk e n : Nat) : (perf blk e n s).eng = s.eng := by unfold perf; split <;> rfl
@[simp] theorem perf_dks (blk e n : Nat) : (perf blk e n s).dks = s.dks := by unfold perf; split <;> rfl
@[simp] theorem perf_mem (blk e n : Nat) : (perf blk e n s).mem = s.mem := by unfold perf; split <;> rfl
@[simp] theorem perf_tmp (blk e n : Nat) : (perf blk e n s).tmp = s.tmp := by unfold perf; split <;> rfl
@[simp] theorem perf_pwr (blk e n : Nat) : (perf blk e n s).pwr = s.pwr := by unfold perf; split <;> rfl
@[simp] theorem perf_evr (blk e n : Nat) : (perf blk e n s).evr = s.evr := by unfold perf; split <;> rfl

/-! ## enlist -/

@[simp] theorem enlist_now (f : Flight) : (enlist f s).now = s.now := (perf_now ..)
@[simp] theorem enlist_freeCount (f : Flight) : (enlist f s).freeCount = s.freeCount := (perf_freeCount ..)
@[simp] theorem enlist_pending (f : Flight) : (enlist f s).pending = s.pending := (perf_pending ..)
@[simp] theorem enlist_sent (f : Flight) : (enlist f s).sent = s.sent := (perf_sent ..)
@[simp] theorem enlist_regs (f : Flight) : (enlist f s).regs = s.regs := (perf_regs ..)
@[simp] theorem enlist_boot (f : Flight) : (enlist f s).boot = s.boot := (perf_boot ..)
@[simp] theorem enlist_lane (f : Flight) : (enlist f s).lane = s.lane := (perf_lane ..)
@[simp] theorem enlist_port (f : Flight) : (enlist f s).port = s.port := (perf_port ..)
@[simp] theorem enlist_time (f : Flight) : (enlist f s).time = s.time := (perf_time ..)
@[simp] theorem enlist_cls (f : Flight) : (enlist f s).cls = s.cls := (perf_cls ..)
@[simp] theorem enlist_sas (f : Flight) : (enlist f s).sas = s.sas := (perf_sas ..)
@[simp] theorem enlist_brk (f : Flight) : (enlist f s).brk = s.brk := (perf_brk ..)
@[simp] theorem enlist_trk (f : Flight) : (enlist f s).trk = s.trk := (perf_trk ..)
@[simp] theorem enlist_que (f : Flight) : (enlist f s).que = s.que := (perf_que ..)
@[simp] theorem enlist_bnd (f : Flight) : (enlist f s).bnd = s.bnd := (perf_bnd ..)
@[simp] theorem enlist_keys (f : Flight) : (enlist f s).keys = s.keys := (perf_keys ..)
@[simp] theorem enlist_eng (f : Flight) : (enlist f s).eng = s.eng := (perf_eng ..)
@[simp] theorem enlist_dks (f : Flight) : (enlist f s).dks = s.dks := (perf_dks ..)
@[simp] theorem enlist_mem (f : Flight) : (enlist f s).mem = s.mem := (perf_mem ..)
@[simp] theorem enlist_tmp (f : Flight) : (enlist f s).tmp = s.tmp := (perf_tmp ..)
@[simp] theorem enlist_pwr (f : Flight) : (enlist f s).pwr = s.pwr := (perf_pwr ..)
@[simp] theorem enlist_evr (f : Flight) : (enlist f s).evr = s.evr := (perf_evr ..)

/-! ## drawWord -/

@[simp] theorem drawWord_now : ((drawWord s).2).now = s.now := rfl
@[simp] theorem drawWord_pending : ((drawWord s).2).pending = s.pending := rfl
@[simp] theorem drawWord_sent : ((drawWord s).2).sent = s.sent := rfl
@[simp] theorem drawWord_regs : ((drawWord s).2).regs = s.regs := rfl
@[simp] theorem drawWord_cmd : ((drawWord s).2).cmd = s.cmd := rfl
@[simp] theorem drawWord_boot : ((drawWord s).2).boot = s.boot := rfl
@[simp] theorem drawWord_lane : ((drawWord s).2).lane = s.lane := rfl
@[simp] theorem drawWord_port : ((drawWord s).2).port = s.port := rfl
@[simp] theorem drawWord_time : ((drawWord s).2).time = s.time := rfl
@[simp] theorem drawWord_cls : ((drawWord s).2).cls = s.cls := rfl
@[simp] theorem drawWord_sas : ((drawWord s).2).sas = s.sas := rfl
@[simp] theorem drawWord_brk : ((drawWord s).2).brk = s.brk := rfl
@[simp] theorem drawWord_trk : ((drawWord s).2).trk = s.trk := rfl
@[simp] theorem drawWord_que : ((drawWord s).2).que = s.que := rfl
@[simp] theorem drawWord_bnd : ((drawWord s).2).bnd = s.bnd := rfl
@[simp] theorem drawWord_keys : ((drawWord s).2).keys = s.keys := rfl
@[simp] theorem drawWord_eng : ((drawWord s).2).eng = s.eng := rfl
@[simp] theorem drawWord_dks : ((drawWord s).2).dks = s.dks := rfl
@[simp] theorem drawWord_mem : ((drawWord s).2).mem = s.mem := rfl
@[simp] theorem drawWord_tmp : ((drawWord s).2).tmp = s.tmp := rfl
@[simp] theorem drawWord_pwr : ((drawWord s).2).pwr = s.pwr := rfl
@[simp] theorem drawWord_obs : ((drawWord s).2).obs = s.obs := rfl
@[simp] theorem drawWord_evr : ((drawWord s).2).evr = s.evr := rfl

/-! ## drawBits -/

@[simp] theorem drawBits_now (n : Nat) : ((drawBits n s).2).now = s.now := rfl
@[simp] theorem drawBits_pending (n : Nat) : ((drawBits n s).2).pending = s.pending := rfl
@[simp] theorem drawBits_sent (n : Nat) : ((drawBits n s).2).sent = s.sent := rfl
@[simp] theorem drawBits_regs (n : Nat) : ((drawBits n s).2).regs = s.regs := rfl
@[simp] theorem drawBits_cmd (n : Nat) : ((drawBits n s).2).cmd = s.cmd := rfl
@[simp] theorem drawBits_boot (n : Nat) : ((drawBits n s).2).boot = s.boot := rfl
@[simp] theorem drawBits_lane (n : Nat) : ((drawBits n s).2).lane = s.lane := rfl
@[simp] theorem drawBits_port (n : Nat) : ((drawBits n s).2).port = s.port := rfl
@[simp] theorem drawBits_time (n : Nat) : ((drawBits n s).2).time = s.time := rfl
@[simp] theorem drawBits_cls (n : Nat) : ((drawBits n s).2).cls = s.cls := rfl
@[simp] theorem drawBits_sas (n : Nat) : ((drawBits n s).2).sas = s.sas := rfl
@[simp] theorem drawBits_brk (n : Nat) : ((drawBits n s).2).brk = s.brk := rfl
@[simp] theorem drawBits_trk (n : Nat) : ((drawBits n s).2).trk = s.trk := rfl
@[simp] theorem drawBits_que (n : Nat) : ((drawBits n s).2).que = s.que := rfl
@[simp] theorem drawBits_bnd (n : Nat) : ((drawBits n s).2).bnd = s.bnd := rfl
@[simp] theorem drawBits_keys (n : Nat) : ((drawBits n s).2).keys = s.keys := rfl
@[simp] theorem drawBits_eng (n : Nat) : ((drawBits n s).2).eng = s.eng := rfl
@[simp] theorem drawBits_dks (n : Nat) : ((drawBits n s).2).dks = s.dks := rfl
@[simp] theorem drawBits_mem (n : Nat) : ((drawBits n s).2).mem = s.mem := rfl
@[simp] theorem drawBits_tmp (n : Nat) : ((drawBits n s).2).tmp = s.tmp := rfl
@[simp] theorem drawBits_pwr (n : Nat) : ((drawBits n s).2).pwr = s.pwr := rfl
@[simp] theorem drawBits_obs (n : Nat) : ((drawBits n s).2).obs = s.obs := rfl
@[simp] theorem drawBits_evr (n : Nat) : ((drawBits n s).2).evr = s.evr := rfl

/-! ## drawWords -/

@[simp] theorem drawWords_now (n : Nat) : ((drawWords n s).2).now = s.now := rfl
@[simp] theorem drawWords_pending (n : Nat) : ((drawWords n s).2).pending = s.pending := rfl
@[simp] theorem drawWords_sent (n : Nat) : ((drawWords n s).2).sent = s.sent := rfl
@[simp] theorem drawWords_regs (n : Nat) : ((drawWords n s).2).regs = s.regs := rfl
@[simp] theorem drawWords_cmd (n : Nat) : ((drawWords n s).2).cmd = s.cmd := rfl
@[simp] theorem drawWords_boot (n : Nat) : ((drawWords n s).2).boot = s.boot := rfl
@[simp] theorem drawWords_lane (n : Nat) : ((drawWords n s).2).lane = s.lane := rfl
@[simp] theorem drawWords_port (n : Nat) : ((drawWords n s).2).port = s.port := rfl
@[simp] theorem drawWords_time (n : Nat) : ((drawWords n s).2).time = s.time := rfl
@[simp] theorem drawWords_cls (n : Nat) : ((drawWords n s).2).cls = s.cls := rfl
@[simp] theorem drawWords_sas (n : Nat) : ((drawWords n s).2).sas = s.sas := rfl
@[simp] theorem drawWords_brk (n : Nat) : ((drawWords n s).2).brk = s.brk := rfl
@[simp] theorem drawWords_trk (n : Nat) : ((drawWords n s).2).trk = s.trk := rfl
@[simp] theorem drawWords_que (n : Nat) : ((drawWords n s).2).que = s.que := rfl
@[simp] theorem drawWords_bnd (n : Nat) : ((drawWords n s).2).bnd = s.bnd := rfl
@[simp] theorem drawWords_keys (n : Nat) : ((drawWords n s).2).keys = s.keys := rfl
@[simp] theorem drawWords_eng (n : Nat) : ((drawWords n s).2).eng = s.eng := rfl
@[simp] theorem drawWords_dks (n : Nat) : ((drawWords n s).2).dks = s.dks := rfl
@[simp] theorem drawWords_mem (n : Nat) : ((drawWords n s).2).mem = s.mem := rfl
@[simp] theorem drawWords_tmp (n : Nat) : ((drawWords n s).2).tmp = s.tmp := rfl
@[simp] theorem drawWords_pwr (n : Nat) : ((drawWords n s).2).pwr = s.pwr := rfl
@[simp] theorem drawWords_obs (n : Nat) : ((drawWords n s).2).obs = s.obs := rfl
@[simp] theorem drawWords_evr (n : Nat) : ((drawWords n s).2).evr = s.evr := rfl

/-! ## Channels -/

@[simp] theorem setChannel_same (ch : Nat) (c : Channel) : channel (setChannel ch c s) ch = c := by
  unfold channel setChannel; split <;> simp_all

/-! ## setReport -/

@[simp] theorem setReport_now (f : Flight) (rep : Body) : (setReport f rep s).now = s.now := rfl
@[simp] theorem setReport_freeCount (f : Flight) (rep : Body) : (setReport f rep s).freeCount = s.freeCount := rfl
@[simp] theorem setReport_pending (f : Flight) (rep : Body) : (setReport f rep s).pending = s.pending := rfl
@[simp] theorem setReport_sent (f : Flight) (rep : Body) : (setReport f rep s).sent = s.sent := rfl
@[simp] theorem setReport_regs (f : Flight) (rep : Body) : (setReport f rep s).regs = s.regs := rfl
@[simp] theorem setReport_boot (f : Flight) (rep : Body) : (setReport f rep s).boot = s.boot := rfl
@[simp] theorem setReport_lane (f : Flight) (rep : Body) : (setReport f rep s).lane = s.lane := rfl
@[simp] theorem setReport_port (f : Flight) (rep : Body) : (setReport f rep s).port = s.port := rfl
@[simp] theorem setReport_time (f : Flight) (rep : Body) : (setReport f rep s).time = s.time := rfl
@[simp] theorem setReport_cls (f : Flight) (rep : Body) : (setReport f rep s).cls = s.cls := rfl
@[simp] theorem setReport_sas (f : Flight) (rep : Body) : (setReport f rep s).sas = s.sas := rfl
@[simp] theorem setReport_brk (f : Flight) (rep : Body) : (setReport f rep s).brk = s.brk := rfl
@[simp] theorem setReport_trk (f : Flight) (rep : Body) : (setReport f rep s).trk = s.trk := rfl
@[simp] theorem setReport_que (f : Flight) (rep : Body) : (setReport f rep s).que = s.que := rfl
@[simp] theorem setReport_bnd (f : Flight) (rep : Body) : (setReport f rep s).bnd = s.bnd := rfl
@[simp] theorem setReport_keys (f : Flight) (rep : Body) : (setReport f rep s).keys = s.keys := rfl
@[simp] theorem setReport_eng (f : Flight) (rep : Body) : (setReport f rep s).eng = s.eng := rfl
@[simp] theorem setReport_dks (f : Flight) (rep : Body) : (setReport f rep s).dks = s.dks := rfl
@[simp] theorem setReport_mem (f : Flight) (rep : Body) : (setReport f rep s).mem = s.mem := rfl
@[simp] theorem setReport_tmp (f : Flight) (rep : Body) : (setReport f rep s).tmp = s.tmp := rfl
@[simp] theorem setReport_pwr (f : Flight) (rep : Body) : (setReport f rep s).pwr = s.pwr := rfl
@[simp] theorem setReport_obs (f : Flight) (rep : Body) : (setReport f rep s).obs = s.obs := rfl
@[simp] theorem setReport_evr (f : Flight) (rep : Body) : (setReport f rep s).evr = s.evr := rfl

/-! ## dropFlight -/

@[simp] theorem dropFlight_now (f : Flight) : (dropFlight f s).now = s.now := rfl
@[simp] theorem dropFlight_freeCount (f : Flight) : (dropFlight f s).freeCount = s.freeCount := rfl
@[simp] theorem dropFlight_pending (f : Flight) : (dropFlight f s).pending = s.pending := rfl
@[simp] theorem dropFlight_sent (f : Flight) : (dropFlight f s).sent = s.sent := rfl
@[simp] theorem dropFlight_regs (f : Flight) : (dropFlight f s).regs = s.regs := rfl
@[simp] theorem dropFlight_boot (f : Flight) : (dropFlight f s).boot = s.boot := rfl
@[simp] theorem dropFlight_lane (f : Flight) : (dropFlight f s).lane = s.lane := rfl
@[simp] theorem dropFlight_port (f : Flight) : (dropFlight f s).port = s.port := rfl
@[simp] theorem dropFlight_time (f : Flight) : (dropFlight f s).time = s.time := rfl
@[simp] theorem dropFlight_cls (f : Flight) : (dropFlight f s).cls = s.cls := rfl
@[simp] theorem dropFlight_sas (f : Flight) : (dropFlight f s).sas = s.sas := rfl
@[simp] theorem dropFlight_brk (f : Flight) : (dropFlight f s).brk = s.brk := rfl
@[simp] theorem dropFlight_trk (f : Flight) : (dropFlight f s).trk = s.trk := rfl
@[simp] theorem dropFlight_que (f : Flight) : (dropFlight f s).que = s.que := rfl
@[simp] theorem dropFlight_bnd (f : Flight) : (dropFlight f s).bnd = s.bnd := rfl
@[simp] theorem dropFlight_keys (f : Flight) : (dropFlight f s).keys = s.keys := rfl
@[simp] theorem dropFlight_eng (f : Flight) : (dropFlight f s).eng = s.eng := rfl
@[simp] theorem dropFlight_dks (f : Flight) : (dropFlight f s).dks = s.dks := rfl
@[simp] theorem dropFlight_mem (f : Flight) : (dropFlight f s).mem = s.mem := rfl
@[simp] theorem dropFlight_tmp (f : Flight) : (dropFlight f s).tmp = s.tmp := rfl
@[simp] theorem dropFlight_pwr (f : Flight) : (dropFlight f s).pwr = s.pwr := rfl
@[simp] theorem dropFlight_obs (f : Flight) : (dropFlight f s).obs = s.obs := rfl
@[simp] theorem dropFlight_evr (f : Flight) : (dropFlight f s).evr = s.evr := rfl

/-! ## park -/

@[simp] theorem park_now (i : Instr) (f : Flight) : (park i f s).now = s.now := rfl
@[simp] theorem park_freeCount (i : Instr) (f : Flight) : (park i f s).freeCount = s.freeCount := rfl
@[simp] theorem park_pending (i : Instr) (f : Flight) : (park i f s).pending = s.pending := rfl
@[simp] theorem park_sent (i : Instr) (f : Flight) : (park i f s).sent = s.sent := rfl
@[simp] theorem park_regs (i : Instr) (f : Flight) : (park i f s).regs = s.regs := rfl
@[simp] theorem park_boot (i : Instr) (f : Flight) : (park i f s).boot = s.boot := rfl
@[simp] theorem park_lane (i : Instr) (f : Flight) : (park i f s).lane = s.lane := rfl
@[simp] theorem park_port (i : Instr) (f : Flight) : (park i f s).port = s.port := rfl
@[simp] theorem park_time (i : Instr) (f : Flight) : (park i f s).time = s.time := rfl
@[simp] theorem park_cls (i : Instr) (f : Flight) : (park i f s).cls = s.cls := rfl
@[simp] theorem park_sas (i : Instr) (f : Flight) : (park i f s).sas = s.sas := rfl
@[simp] theorem park_brk (i : Instr) (f : Flight) : (park i f s).brk = s.brk := rfl
@[simp] theorem park_trk (i : Instr) (f : Flight) : (park i f s).trk = s.trk := rfl
@[simp] theorem park_que (i : Instr) (f : Flight) : (park i f s).que = s.que := rfl
@[simp] theorem park_bnd (i : Instr) (f : Flight) : (park i f s).bnd = s.bnd := rfl
@[simp] theorem park_keys (i : Instr) (f : Flight) : (park i f s).keys = s.keys := rfl
@[simp] theorem park_eng (i : Instr) (f : Flight) : (park i f s).eng = s.eng := rfl
@[simp] theorem park_dks (i : Instr) (f : Flight) : (park i f s).dks = s.dks := rfl
@[simp] theorem park_mem (i : Instr) (f : Flight) : (park i f s).mem = s.mem := rfl
@[simp] theorem park_tmp (i : Instr) (f : Flight) : (park i f s).tmp = s.tmp := rfl
@[simp] theorem park_pwr (i : Instr) (f : Flight) : (park i f s).pwr = s.pwr := rfl
@[simp] theorem park_obs (i : Instr) (f : Flight) : (park i f s).obs = s.obs := rfl
@[simp] theorem park_evr (i : Instr) (f : Flight) : (park i f s).evr = s.evr := rfl

/-! ## takeTurn -/

@[simp] theorem takeTurn_now (f : Flight) : (takeTurn f s).now = s.now := rfl
@[simp] theorem takeTurn_freeCount (f : Flight) : (takeTurn f s).freeCount = s.freeCount := rfl
@[simp] theorem takeTurn_pending (f : Flight) : (takeTurn f s).pending = s.pending := rfl
@[simp] theorem takeTurn_sent (f : Flight) : (takeTurn f s).sent = s.sent := rfl
@[simp] theorem takeTurn_regs (f : Flight) : (takeTurn f s).regs = s.regs := rfl
@[simp] theorem takeTurn_boot (f : Flight) : (takeTurn f s).boot = s.boot := rfl
@[simp] theorem takeTurn_lane (f : Flight) : (takeTurn f s).lane = s.lane := rfl
@[simp] theorem takeTurn_port (f : Flight) : (takeTurn f s).port = s.port := rfl
@[simp] theorem takeTurn_time (f : Flight) : (takeTurn f s).time = s.time := rfl
@[simp] theorem takeTurn_cls (f : Flight) : (takeTurn f s).cls = s.cls := rfl
@[simp] theorem takeTurn_sas (f : Flight) : (takeTurn f s).sas = s.sas := rfl
@[simp] theorem takeTurn_brk (f : Flight) : (takeTurn f s).brk = s.brk := rfl
@[simp] theorem takeTurn_trk (f : Flight) : (takeTurn f s).trk = s.trk := rfl
@[simp] theorem takeTurn_que (f : Flight) : (takeTurn f s).que = s.que := rfl
@[simp] theorem takeTurn_bnd (f : Flight) : (takeTurn f s).bnd = s.bnd := rfl
@[simp] theorem takeTurn_keys (f : Flight) : (takeTurn f s).keys = s.keys := rfl
@[simp] theorem takeTurn_eng (f : Flight) : (takeTurn f s).eng = s.eng := rfl
@[simp] theorem takeTurn_dks (f : Flight) : (takeTurn f s).dks = s.dks := rfl
@[simp] theorem takeTurn_mem (f : Flight) : (takeTurn f s).mem = s.mem := rfl
@[simp] theorem takeTurn_tmp (f : Flight) : (takeTurn f s).tmp = s.tmp := rfl
@[simp] theorem takeTurn_pwr (f : Flight) : (takeTurn f s).pwr = s.pwr := rfl
@[simp] theorem takeTurn_obs (f : Flight) : (takeTurn f s).obs = s.obs := rfl
@[simp] theorem takeTurn_evr (f : Flight) : (takeTurn f s).evr = s.evr := rfl

end Sys2Proof.Machine
end

