-- ==== Sys2Proof/WellFormed.lean ====
section
/-! DEFINITION. When the operands of a command lie in the fields and index spaces the spec gives them. -/
namespace Sys2Proof

/-- A number below a bound. -/
def below (bound n : Nat) : Bool := decide (n < bound)

/-- Bytes: numbers below 256. -/
def bytesWf (l : List Nat) : Bool := l.all (below 256)

/-- A VLAN tag's fields fit their widths. -/
def VTag.wf (g : VTag) : Bool := below 65536 g.tpid && below 4096 g.vid && below 8 g.pcp

/-- MAC bytes are 16 bytes (R40). -/
def MacField.wf : MacField → Bool
  | .right => true
  | .bytes m => decide (m.length = 16) && bytesWf m

/-- A command frame's header fields fit their widths (Table 2.5). -/
def Hdr.wf (h : Hdr) : Bool :=
  below 65536 h.etype && h.tags.all VTag.wf && below (2 ^ 48) h.srcMac && below (2 ^ 32) h.magic && below 256 h.version &&
  below 256 h.world && below 256 h.mailbox && below 256 h.flags && below 65536 h.tag && below (2 ^ 32) h.sequence &&
  below 65536 h.session && below 65536 h.length && below (2 ^ 96) h.rest && h.mac.wf

/-- An element's type and length fit their fields, and its words are those of its length (R41). -/
def Elem.wf (e : Elem) : Bool := below 65536 e.typ && below 65536 e.len && decide (4 * e.val.length ≤ e.len + 3)

/-- The elements of a body are well formed. -/
def Body.wf (b : Body) : Bool := b.all Elem.wf

/-- A SecTAG's fields fit their widths (R202). -/
def SecTag.wf (g : SecTag) : Bool := below 4 g.an && below 64 g.sl && below (2 ^ 32) g.pn && below (2 ^ 64) g.sci

/-- A frame's tags, addresses, EtherType and SecTAG fit their fields, and its words are no longer than it. -/
def Frame.wf (f : Frame) : Bool :=
  below (2 ^ 48) f.dst && below (2 ^ 48) f.src && below 65536 f.etype && decide (f.raw.length ≤ f.len / 4 + 1) &&
    f.tags.all VTag.wf && f.inner.all VTag.wf && (match f.sec with | some g => g.wf | none => true)

/-- A bond message's fields fit their widths (Table 12.3). -/
def BondRx.wf (m : BondRx) : Bool :=
  below 2 m.lane && m.mac.wf && below 256 m.format && below 65536 m.bond && below 65536 m.sender && below (2 ^ 64) m.number && bytesWf m.body

/-- Two blocks of 32 bytes are at a course header's place (R274, R278). -/
def CourseRx.wf (r : CourseRx) : Bool :=
  decide (r.blocks.length = 2) && r.blocks.all fun k => decide (k.bytes.length = 32) && bytesWf k.bytes

/-- A trunk unit's slots carry 64 bytes each (R287). -/
def UnitInfo.wf (u : UnitInfo) : Bool := decide (u.bytes.length = 64 * u.at_.length) && bytesWf u.bytes && u.frame.wf

/-- The operands of a command lie in their fields and index spaces. -/
def Instr.wf : Instr → Bool
  | .sessionChallenge h b => h.wf && Body.wf b
  | .sessionOpen h b _ challenge pub _ _ => h.wf && Body.wf b && below (2 ^ 256) challenge && below (2 ^ 256) pub
  | .sessionClose h b => h.wf && Body.wf b
  | .nop h b => h.wf && Body.wf b
  | .opStatus h b op => h.wf && Body.wf b && below (2 ^ 32) op
  | .cmdAbort h b target => h.wf && Body.wf b && below (65536) target
  | .eventSubscribe h b mailbox _ => h.wf && Body.wf b && below (256) mailbox
  | .idRead h b => h.wf && Body.wf b
  | .deviceStatus h b => h.wf && Body.wf b
  | .regRead h b => h.wf && Body.wf b
  | .regWrite h b => h.wf && Body.wf b
  | .deviceReset h b => h.wf && Body.wf b
  | .imageWrite h b => h.wf && Body.wf b
  | .imageActivate h b _ => h.wf && Body.wf b
  | .imageResealDone _ => true
  | .imageStatus h b => h.wf && Body.wf b
  | .trialCommit _ => true
  | .lanePrbs h b => h.wf && Body.wf b
  | .laneMargin h b => h.wf && Body.wf b
  | .laneMarginGroupDone _ => true
  | .captureRead h b => h.wf && Body.wf b
  | .portStatsRead h b => h.wf && Body.wf b
  | .timeRead h b => h.wf && Body.wf b
  | .timeEpochNew h b => h.wf && Body.wf b
  | .ptpConfig h b => h.wf && Body.wf b
  | .tableInsert h b => h.wf && Body.wf b
  | .tableDelete h b => h.wf && Body.wf b
  | .tableRead h b => h.wf && Body.wf b
  | .tableRehash h b => h.wf && Body.wf b
  | .rehashSwap _ brick => below (4) brick
  | .lpmAdd h b => h.wf && Body.wf b
  | .lpmDelete h b => h.wf && Body.wf b
  | .scCreate h b => h.wf && Body.wf b
  | .scDelete h b => h.wf && Body.wf b
  | .saInstall h b => h.wf && Body.wf b
  | .keyBusTransferDone _ => true
  | .saSwitchTx h b => h.wf && Body.wf b
  | .switchCommit _ sc => below (131072) sc
  | .saErase h b => h.wf && Body.wf b
  | .saZeroise _ entry => below (262144) entry
  | .saRead h b => h.wf && Body.wf b
  | .mkaConfig h b => h.wf && Body.wf b
  | .pathConfig h b => h.wf && Body.wf b
  | .trunkPmRead h b => h.wf && Body.wf b
  | .queueConfig h b => h.wf && Body.wf b
  | .shaperSet h b => h.wf && Body.wf b
  | .gclWrite h b => h.wf && Body.wf b
  | .gclCommit h b => h.wf && Body.wf b
  | .bondConfigJoin h b => h.wf && Body.wf b
  | .bondConfigLeave h b => h.wf && Body.wf b
  | .bondForce h b => h.wf && Body.wf b
  | .bondResign h b => h.wf && Body.wf b
  | .bondStatus h b => h.wf && Body.wf b
  | .keyGenerate h b => h.wf && Body.wf b
  | .keyImportWrapped h b _ _ _ _ _ _ => h.wf && Body.wf b
  | .keyExportWrapped h b => h.wf && Body.wf b
  | .keyErase h b => h.wf && Body.wf b
  | .keyAttest h b => h.wf && Body.wf b
  | .lifecycleChange h b => h.wf && Body.wf b
  | .officerEnrol h b => h.wf && Body.wf b
  | .officerRevoke h b => h.wf && Body.wf b
  | .dualAuthorise h b => h.wf && Body.wf b
  | .debugEnable h b => h.wf && Body.wf b
  | .sign h b => h.wf && Body.wf b
  | .verify h b _ _ => h.wf && Body.wf b
  | .kemEncap h b _ => h.wf && Body.wf b
  | .kemDecap h b => h.wf && Body.wf b
  | .keyAgree h b _ => h.wf && Body.wf b
  | .hash h b => h.wf && Body.wf b
  | .drbgRead h b => h.wf && Body.wf b
  | .vciPageAssign h b => h.wf && Body.wf b
  | .domainEnrolChallenge h b _ serial _ => h.wf && Body.wf b && below (2 ^ 64) serial
  | .domainEnrolPrepare h b => h.wf && Body.wf b
  | .domainEnrolAdmit h b _ => h.wf && Body.wf b
  | .domainEnrolAccept h b _ => h.wf && Body.wf b
  | .domainEnrolRevoke h b => h.wf && Body.wf b
  | .domainEnrolRosterDelta h b _ => h.wf && Body.wf b
  | .domainKeyDistribute h b _ => h.wf && Body.wf b
  | .domainRollover h b => h.wf && Body.wf b
  | .rolloverDeadline _ => true
  | .groupPolicySet h b => h.wf && Body.wf b
  | .gdoiMemberAdd h b => h.wf && Body.wf b
  | .gdoiMemberRemove h b => h.wf && Body.wf b
  | .tenantCreate h b => h.wf && Body.wf b
  | .tenantRateSet h b => h.wf && Body.wf b
  | .domainSnapshot h b => h.wf && Body.wf b
  | .memKeyRoll h b => h.wf && Body.wf b
  | .memStatus h b => h.wf && Body.wf b
  | .tamperConfig h b => h.wf && Body.wf b
  | .tamperTest h b => h.wf && Body.wf b
  | .tamperTestSourceDone _ _ => true
  | .tamperFuse h b _ => h.wf && Body.wf b
  | .tamperRearm h b => h.wf && Body.wf b
  | .powerStateSet h b => h.wf && Body.wf b
  | .dvfsSet h b => h.wf && Body.wf b
  | .wakeConfig h b => h.wf && Body.wf b
  | .snapArm h b => h.wf && Body.wf b
  | .snapRead h b => h.wf && Body.wf b
  | .perfConfig h b => h.wf && Body.wf b
  | .perfRead h b => h.wf && Body.wf b
  | .recorderRead h b => h.wf && Body.wf b
  | .recorderClear h b => h.wf && Body.wf b
  | .selftestRun h b => h.wf && Body.wf b
  | .dataflowApply h _ => h.wf
  | .dataflowRemap _ => true
  | .recoveryClr h => h.wf
  | .testReq h _ => h.wf
  | .tmuStepGo h => h.wf
  | .matchArm h n hi => h.wf && below (8) n && below (256) hi
  | .matchDisarm h n hi => h.wf && below (8) n && below (256) hi
  | .expressEnSet h brick => h.wf && below (4) brick
  | .expressEnClear h brick => h.wf && below (4) brick
  | .expressRoleSwitch _ brick => below (4) brick
  | .txFirWrite h lane _ => h.wf && below (36) lane
  | .rxEqWrite h lane _ => h.wf && below (36) lane
  | .laneMapWrite h quad _ => h.wf && below (9) quad
  | .bondLaneEnable h _ => h.wf
  | .portEnable h port => h.wf && below (6) port
  | .portDisable h port => h.wf && below (6) port
  | .expressMaskWrite h port _ => h.wf && below (4) port
  | .maxResWrite h e _ => h.wf && below (4) e
  | .rollIntervalWrite h _ => h.wf
  | .frozenClear h => h.wf
  | .snapTriggerWrite h => h.wf
  | .snapRelease h sel => h.wf && below (2) sel
  | .perfClear h => h.wf
  | .perfRun h _ => h.wf
  | .pwrDvfsWrite h brick _ => h.wf && below (4) brick
  | .winGoRead h _ index tag => h.wf && below (2 ^ 24) index && below (16) tag
  | .winGoWrite h _ index tag _ => h.wf && below (2 ^ 24) index && below (16) tag
  | .slowBlockWrite _ bytes _ => bytesWf bytes && below (256) bytes.length
  | .slowSubmit _ _ => true
  | .slowBlockRead _ => true
  | .slowStatusRead _ => true
  | .slowPortTimeout _ => true
  | .powerOnReset _ => true
  | .brownOutReset _ => true
  | .pinReset _ => true
  | .commandWarmReset _ => true
  | .watchdogReset _ _ => true
  | .tamperReset _ => true
  | .resetRelease _ balls => below (8) balls
  | .imageBoot _ _ _ => true
  | .vaultKatPass _ => true
  | .ddrTrainingDone _ ch _ cap => below (2) ch && below (3) cap
  | .memInitDone _ => true
  | .expressReady _ => true
  | .fullReady _ => true
  | .linkUp _ sp => below (20) sp
  | .linkDown _ sp _ => below (20) sp
  | .remoteFaultRx _ sp => below (20) sp
  | .refLoss _ quad => below (9) quad
  | .mmVerifyAttempt _ sp _ => below (20) sp
  | .macControlRx _ sp frame => below (20) sp && frame.wf
  | .pauseWatchdogTrip _ sp cls => below (20) sp && below (8) cls
  | .pauseWatchdogEnd _ sp cls => below (20) sp && below (8) cls
  | .counterPoll _ => true
  | .clearFrameRx _ sp frame => below (20) sp && frame.wf
  | .lineFrameRx _ port frame => below (2) port && frame.wf
  | .stagingRelease _ id => below (2 ^ 64) id
  | .contextFetchDone _ id => below (2 ^ 64) id
  | .bulkDispatch _ id => below (2 ^ 64) id
  | .expressLaneStart _ id => below (2 ^ 64) id
  | .primingDone _ brick bank => below (4) brick && below (32) bank
  | .tileFinish _ id => below (2 ^ 64) id
  | .tagResult _ id _ => below (2 ^ 64) id
  | .reorderRelease _ id => below (2 ^ 64) id
  | .duplicateDiscard _ id => below (2 ^ 64) id
  | .heldCopyRelease _ stream => below (4096) stream
  | .learnApply _ brick => below (4) brick
  | .tombstoneFree _ brick => below (4) brick
  | .agerVisit _ brick way => below (4) brick && below (65536) way
  | .expressHoldEnter _ id => below (2 ^ 64) id
  | .egressSelect _ sp => below (20) sp
  | .frameTxDone _ sp => below (20) sp
  | .frameAged _ id => below (2 ^ 64) id
  | .shaperUpdate _ => true
  | .gateEntryChange _ e => below (4) e
  | .gclChangeInstant _ e => below (4) e
  | .onestepDispatch _ n => below (64) n
  | .onestepRelease _ n => below (64) n
  | .retireTimerExpiry _ entry => below (262144) entry
  | .tileTestStart _ brick tile => below (4) brick && below (6) tile
  | .tileTestDone _ brick tile _ => below (4) brick && below (6) tile
  | .evIstOverdue _ unit => below (64) unit
  | .mkpduRx _ ca _ => below (256) ca
  | .mkaHello _ ca => below (256) ca
  | .mkaPeerLost _ ca sci => below (256) ca && below (2 ^ 64) sci
  | .mkaRekeyInterval _ ca => below (256) ca
  | .courseHeaderTx _ port => below (2) port
  | .directorySlotBuild _ port => below (2) port
  | .runStart _ port path => below (2) port && below (256) path
  | .courseHeaderRx _ port hdr => below (2) port && hdr.wf
  | .trunkKeyEngage _ port => below (2) port
  | .phaseSwitch _ port => below (2) port
  | .phaseOldKeyErase _ port => below (2) port
  | .trunkCountCeiling _ port => below (2) port
  | .directorySlotRx _ port group bytes => below (2) port && below (8) group && bytesWf bytes
  | .unitRx _ port path unit => below (2) port && below (256) path && unit.wf
  | .passUnitRx _ port path unit => below (2) port && below (256) path && unit.wf
  | .lofDeclare _ port => below (2) port
  | .lofClear _ port => below (2) port
  | .pathAisTimeout _ port path => below (2) port && below (256) path
  | .aisInsert _ port path => below (2) port && below (256) path
  | .pmSecond _ port => below (2) port
  | .bondBlockRx _ lane _ => below (2) lane
  | .bondLaneInFrame _ lane => below (2) lane
  | .bondLaneOutOfFrame _ lane => below (2) lane
  | .bondLinkStateChange _ => true
  | .helloRx _ m => m.wf
  | .leaseTx _ => true
  | .leaseRx _ m => m.wf
  | .leaseAckRx _ m => m.wf
  | .leaseFence _ => true
  | .leaseExpiry _ => true
  | .resignRx _ m => m.wf
  | .fencedRx _ m => m.wf
  | .resignCondition _ cause => below (8) cause
  | .mirrorRx _ m => m.wf
  | .mirrorAckRx _ m => m.wf
  | .mirrorRetransmit _ => true
  | .mirrorGapTimeout _ => true
  | .syncReqRx _ m => m.wf
  | .snapshotEndRx _ m => m.wf
  | .syncDoneRx _ m => m.wf
  | .syncAckRx _ m => m.wf
  | .ptpMessageRx _ port _ => below (256) port
  | .ptpMessageTx _ port kind dep => below (256) port && below (16) kind && below (2 ^ 42) dep
  | .syncTimeout _ => true
  | .ref10mFault _ => true
  | .ref10mRestore _ => true
  | .ppsInEdge _ => true
  | .ppsInMissing _ => true
  | .ppsOutEdge _ => true
  | .ppsOutWidthEnd _ => true
  | .timeSave _ => true
  | .matchFire _ n => below (8) n
  | .kilnYieldPoint _ lane => below (8) lane
  | .kilnJobEnd _ lane _ _ => below (8) lane
  | .latticeJobEnd _ pipe _ _ => below (2) pipe
  | .keyReload _ handle _ => below (2 ^ 32) handle
  | .drbgReseed _ inst => below (2) inst
  | .rngHealthFail _ test => below (16) test
  | .rngStartupDone _ => true
  | .istInterval _ unit _ => below (64) unit
  | .ticketExpiry _ ticket => below (2 ^ 32) ticket
  | .sessionIdleTimeout _ session => below (65536) session
  | .challengeExpiry _ => true
  | .dksRetry _ device => below (1024) device
  | .ephemeralKeyRotate _ => true
  | .tekNextGenerate _ group => below (65536) group
  | .tekExpiry _ group => below (65536) group
  | .gdoiMessageRx _ _ => true
  | .arpRequestRx _ ip mac => below (2 ^ 32) ip && below (2 ^ 48) mac
  | .memRead _ master ch addr _ => below (16) master && below (2) ch && below (2 ^ 40) addr
  | .memWrite _ master ch addr _ _ _ => below (16) master && below (2) ch && below (2 ^ 40) addr
  | .haltResetTimer _ => true
  | .keyRollDue _ => true
  | .sweepEnd _ => true
  | .tamperAlarm _ sources => below (65536) sources
  | .idleEntryDone _ => true
  | .idleReturnDone _ => true
  | .standbyEntryDone _ => true
  | .standbyReturnDone _ => true
  | .sleepCommitPoint _ => true
  | .sleepReached _ => true
  | .wakeNLow _ => true
  | .rtcAlarm _ => true
  | .slowPortWake _ addr => below (128) addr
  | .wakeDone _ => true
  | .dvfsVoutConfirm _ brick mv => below (4) brick && below (1024) mv
  | .dvfsFault _ brick cause => below (4) brick && below (8) cause
  | .aonBrownout _ => true
  | .snapInEdge _ => true
  | .snapshotTrigger _ source => below (16) source
  | .perfSample _ counter value => below (48) counter && below (2 ^ 64) value
  | .recorderCommit _ => true
  | .tokenRefill _ code => below (65536) code
  | .suppressionWindowClose _ code => below (65536) code
  | .recoveryWindowExpiry _ => true
  | .slewEnd _ => true
  | .domainPeerCompletionRx _ device status handle _ => below (1024) device && below (65536) status && below (2 ^ 32) handle
  | .tamperConditionClear _ source => below (16) source
  | .pauseTimeExpiry _ sp cls => below (20) sp && below (8) cls
  | .remoteFaultClear _ sp => below (20) sp
  | .refRestore _ quad => below (9) quad
  | .pllRampDone _ brick => below (4) brick
  | .vciJobEnd _ page => below (64) page
  | .mgmtPortFrameRx _ mp frame => below (2) mp && frame.wf
  | .unknownOpcodeFrame h b opcode => h.wf && Body.wf b && below (65536) opcode

end Sys2Proof
end

