-- ==== Sys2Proof/Tests/Slice0.lean ====
section
/-! SUPPORT. Tests: terms that WellFormed refuses, single steps with results from the examples and tables of the spec, and for every
obligation with hypotheses a state and operands that meet them together (`witness_<name>`, one conjunct a clause). -/
set_option linter.style.longLine false
set_option Elab.async false
namespace Sys2Proof.Tests
open Sys2Proof Sys2Proof.Machine

/-! ## Devices and operands -/

/-- A device at FULL_READY, OPERATIONAL, with the link of MP0 up and a session open of each world. -/
def dev : State :=
  { now := 5 * sec
    boot := { supplyOk := true, resetN := true, held := false, kind := none, step := 10, fullAt := some 0 }
    keys := { life := 2 }
    time := { running := true }
    port := { subs := [(16, { link := true })] }
    cmd := { sessions :=
      [(1, { cred := .officer 1, world := 0, last := 0, via := .mp 0 }), (2, { cred := .officer 2, world := 1, last := 0, via := .mp 0 }),
       (3, { cred := .tenant 0, world := 0x40, last := 0, via := .mp 0 }), (4, { cred := .device 1, world := 3, last := 0, via := .mp 0 }),
       (5, { cred := .officer 3, world := 2, last := 0, via := .mp 0 })] } }

/-- A frame of the operator on MP0. -/
def hop : Hdr := { t := 5 * sec, via := .mp 0, world := 0, mailbox := 0, tag := 7, sequence := 1, session := 1 }
/-- Frames of the maintenance world, of tenant 0, of a domain peer and of the audit world. -/
def hmt : Hdr := { hop with world := 1, mailbox := 32, session := 2 }
def htn : Hdr := { hop with world := 0x40, mailbox := 48, session := 3 }
def hdp : Hdr := { hop with world := 3, mailbox := 240, session := 4 }
def hau : Hdr := { hop with world := 2, mailbox := 40, session := 5 }

/-- `dev` with every reference good and every link up. -/
def net : State :=
  { dev with lane.refOk := [0, 1, 2, 3, 4, 5, 6, 7, 8], port.subs := (List.range 20).map fun n => (n, { link := true }) }

/-- A MAC that is not the right one. -/
def wrongMac (l : List Nat) : List Nat := if l = List.replicate 16 0 then List.replicate 16 1 else List.replicate 16 0

theorem wrongMac_ne (l : List Nat) : wrongMac l ≠ l := by
  unfold wrongMac
  split
  · rename_i h; rw [h]; decide
  · rename_i h; exact fun e => h e.symm

/-- `dev` with both channels up and the memory key drawn. -/
def memDev : State := { dev with mem := { c0 := { up := true, cap := 1 }, c1 := { up := true, cap := 1 }, cap := 1, keyed := true, kid := 1 } }


/-- A marker block of a bond lane with a frame count. -/
def markerBlock (c : Nat) : List Bool := [true, false] ++ bitsLsb [0xB1, 0, c / 256 % 256, c % 256, 0x5A, 0x3C, 0xC3, 0xA5]



/-- `net` with a transmit SC and a receive SC of index 5 on LP0, each with an ACTIVE SA, in entries 1 and 2. -/
def sec2 : State :=
  { net with sas :=
    { scs := [(scKey 0 false 5, { sci := 1, cfg := 0x04000000, ans := [(0, 1)], enc := some 0 }),
        (scKey 0 true 5, { sci := 2, cfg := 0x04000000, ans := [(0, 2)] })],
      sas := [(1, { rx := false, an := 0, st := 1, port := 0, sc := 5, pn := 1, lim := 2 ^ 32, handle := 16384 }),
        (2, { rx := true, an := 0, st := 1, port := 0, sc := 5, pn := 0, lim := 1, handle := 16385 })] } }

/-- A PTP port of LP0, a master. -/
def ptp2 : PtpPort :=
  { port := 2, sub := 0, transport := 0, step := 0, txSc := 5, rxSc := 5, logSync := 0, logPdelay := 0, role := 0, state := 2 }

/-- `sec2` with a PTP port and a PTP frame consumed there. -/
def ptpDev (q : PtpPort) : State := { sec2 with time.ptpType := 2, time.ptpPorts := [q], time.ptpIn := [(q.port, 7)] }

/-- `dev` with one brick's tables, its SCs and keys. -/
def clsDev (k : Nat) (x : BrickTables) : State := { dev with cls.bricks := [(k, x)], sas.scs := [(5, { sci := 0, cfg := 0 }), (32773, { sci := 0, cfg := 0 })] }
/-- A learned flow entry of key 0. -/
def flow0 : FlowEntry := { key := 0, sc := 5, static := false }
/-- A relocation whose way 3 is held. -/
def chain0 : Chain := { moves := [], held := some (3, 4 * sec), entry := flow0, way := 9 }

/-- `dev` with SC 5 of LP0 in both directions, an SA of each, keys for the SA bus and for derivation. -/
def sa0 : Sa := { rx := false, an := 0, port := 0, sc := 5, pn := 1, lim := 100, handle := 0x10000 }
def sc0 : Sc := { sci := 0, cfg := 0, ans := [(0, 7)] }
def saDev (c : Sc) (a : Sa) : State :=
  { dev with
    sas.scs := [(5, c), (32773, c)], sas.sas := [(7, a)]
    keys.keys := [(0x10000, { typ := 0x01000000, use := 0x02202000, owner := 0 }), (0x10001, { typ := 0x01000000, use := 0x40402000, owner := 0 })] }
def scFree : Sc := { sci := 0, cfg := 0 }
def busKey : Key := { typ := 0x01000000, use := 0x02202000, owner := 0 }
def cak : Key := { typ := 0x01000000, use := 0x40402000, owner := 0 }
/-- A CA of LP0 over SCs 100 on. -/
def ca0 : MkaCa := { ckn := [], cak := 0x10001, txSc := 100, rxSc := 100 }
def caDev (x : MkaCa) : State := { saDev sc0 sa0 with sas.cas := [(3, x)] }

/-- A frame in a brick, and a network device whose brick holds frames. -/
def fr : Held := { id := 1, brick := 0, port := 0, sub := 0, frame := { len := 100 }, stamp := 0, express := false, stage := .staging, outLen := 100 }
def brk (k : Nat) (l : List Held) : State := { net with brk.bricks := [(k, { held := l })], sas.scs := [(65536, { sci := 0, cfg := 0 }), (32773, { sci := 0, cfg := 0 })] }
def okTile : Tile := { ok := true }

/-- Both line ports in trunk mode, add-drop on; one framer as given. -/
def trk (x : Trunk) : State :=
  { net with
    regs := [(0x000040, 0xB0)], trk.p1 := x
    keys.keys := [(0x10000, { typ := 0x02000000, use := 0x03202000, owner := 0 })] }
/-- Blocks that hold a course header. -/
def blocksOf (h : CourseHdr) : CourseRx := { blocks := trunkBlocks (h.wire false) }
def pathCfg (m : Nat) : PathCfg := { rxMode := m, cls := 0, sub := 0, lfEn := false, txPer := 1, txOfs := 0, rxPer := 0, rxOfs := 0 }
def tkey : TrunkKey := { entry := 9, handle := 0x10000 }
def kbus : KeyBus := { entry := 9, handle := 0x10000, sa := { rx := false, an := 0, port := 1, sc := 0, pn := 0, lim := 0, handle := 0x10000 }, scKey := 0, rewrite := false, trunk := some (1, 1) }

/-- A frame queued at CP1 and one in its express hold. -/
def qfr : Held := { id := 1, brick := 2, port := 2, sub := 0, frame := { len := 100 }, stamp := 0, express := false, stage := .queue, eport := 1, outLen := 100, gone := false }
def que (f e : List Held) : State := { net with que.frames := f, que.hold := e }

/-- Both bond lanes in frame, a bond joined with a session. -/
def bnd (b : BndSt) : State :=
  { net with
    regs := [(0x010200, 3)], lane.a0.inFrame := true, lane.a1.inFrame := true, bnd := b
    keys.keys := [(0x10001, { typ := 0x01000000, use := 0x40402000, owner := 0 })] }
def joined : BndSt := { joined := true, linkUp := true, bond := 1, peer := 2, shaken := true, nonce := some 7 }
def heard : BondRx := { bond := 1, sender := 2, number := 3 }
def mrec : MirrorRec := { seq := 1, code := 9, body := .learn false 0 5 0 }

/-- A device with keys of several algorithms, officers 1, 2 and 4 of crypto, and tenant 0 on page 0. -/
def vkeys : KMap Key :=
  [(0x10000, { typ := 0x02000100, use := 0x31302040, owner := 0 }), (0x10001, { typ := 0x120000FF, use := 0x0C102000, owner := 0 }),
   (0x10002, { typ := 0x10000100, use := 0x4C102000, owner := 0 }), (0x10003, { typ := 0x30000200, use := 0x03102000, owner := 0 }),
   (0x10004, { typ := 0x01000080, use := 0x02802000, owner := 0x40 })]
def vault (l : List Ticket) : State :=
  { dev with
    keys.keys := vkeys, keys.tickets := l
    keys.officers := [(1, { role := 0 }), (2, { role := 0 }), (3, { role := 1 }), (4, { role := 0 })]
    dks.tenants := [(0, {})], eng.pages := [(0, 0)] }
/-- Tickets 8 and 9, of officers 2 and 4, for a command. -/
def tkt (id who opc : Nat) (b : Body) : Ticket := { id := id, issuer := who, opcode := opc, digest := digestOf opc b, issued := 4 * sec }
theorem ticket_good {s : State} {opc n : Nat} {dig : List Word} {own : Option Nat} {t : Ticket} {o : Officer}
    (h1 : s.keys.tickets.find? (fun x => decide (x.id = n)) = some t) (h2 : s.now ≤ t.issued + 120 * sec) (h3 : t.opcode = opc)
    (h4 : t.digest = dig) (h5 : own ≠ some t.issuer) (h6 : look s.keys.officers t.issuer = some o) (h7 : o.role = 0) :
    ticketOk s opc dig own n = some t := by
  simp [ticketOk, h1, h2, h3, h4, h5, h6, h7]
theorem one_ticket {s : State} {h : Hdr} {b : Body} {opc n : Nat} {t : Ticket}
    (hi : ((elemsOf b 0x8A0A).map fun e => (wordAt e.val 0).toNat) = [n]) (ht : ticketOk s opc (digestOf opc b) (officerOf s h.session) n = some t) :
    ticketsFor opc 1 h b s = some [t.issuer] := by
  unfold ticketsFor
  simp only [hi]
  simp [ht, List.eraseDups_cons]
theorem two_tickets {s : State} {h : Hdr} {b : Body} {opc n m : Nat} {t u : Ticket}
    (hi : ((elemsOf b 0x8A0A).map fun e => (wordAt e.val 0).toNat) = [n, m]) (ht : ticketOk s opc (digestOf opc b) (officerOf s h.session) n = some t)
    (hu : ticketOk s opc (digestOf opc b) (officerOf s h.session) m = some u) (hd : t.issuer ≠ u.issuer) :
    ticketsFor opc 2 h b s = some [t.issuer, u.issuer] := by
  unfold ticketsFor
  simp only [hi]
  simp [ht, hu, List.eraseDups_cons, Ne.symm hd]
def lcBody : Body := [elemW 0x8A09 [3], elemW 0x8A0A [8]]
def enBody : Body := [elemW 0x8A0B (0x09000000 :: List.replicate 673 0), elemW 0x8A0A [8]]
def rvBody : Body := [elemW 0x8A0C [3], elemW 0x8A0A [8]]
def dbBody : Body := [elemW 0x8A0E [1], elemW 0x8A0A [8], elemW 0x8A0A [9]]
def kjob : Job := { engine := 0, lane := some 1, result := .reply [] }
def jobDev (j : Job) : State := { vault [] with eng.jobs := [(3, j)] }

/-- A device of a domain, its service, with a roster; an element of any length. -/
def dom (d : DksSt) : State := { dev with dks := { d with enrolled := true } }
def svc : DksSt := { replica := 1, device := 1, roster := [(1, { role := 1, serial := 77 }), (5, { serial := 78 })], distKeys := [1] }
def elemN (typ len : Nat) : Elem := { typ := typ, len := len, val := List.replicate ((len + 3) / 4) 0 }
/-- An ENROL_REQUEST whose attestation digest is that of its first part. -/
def reqHead : List Word := List.replicate 416 0
def reqDigest : List Word := (List.range 8).map (wordAt (packWords (Config.sha384 (unpack reqHead))))
def reqWords : List Word := reqHead ++ ([0, 0x100, 0, 0, 5] ++ List.replicate 16 0) ++ reqDigest ++ List.replicate 1198 0
def reqBody : Body := [elemW 0x8C01 [0x02000000], { typ := 0x8C06, len := 6571, val := reqWords }]
theorem reqHead_length : reqHead.length = 416 := List.length_replicate
theorem reqDigest_length : reqDigest.length = 8 := by simp only [reqDigest, List.length_map, List.length_range]
theorem reqDigest_at {i : Nat} (hi : i < 8) : wordAt reqDigest i = wordAt (packWords (Config.sha384 (unpack reqHead))) i := by
  unfold reqDigest
  generalize packWords (Config.sha384 (unpack reqHead)) = l
  simp [wordAt, List.getD_eq_getElem?_getD, hi]
theorem req_digest : digestWords (wordsOf reqBody 0x8C06) 1748 8 = digestWords (packWords (Config.sha384 (unpack ((wordsOf reqBody 0x8C06).take 416)))) 0 8 := by
  have h1 : wordsOf reqBody 0x8C06 = reqWords := rfl
  have h2 : reqWords.take 416 = reqHead := by
    unfold reqWords; rw [List.append_assoc, List.append_assoc]; exact List.take_left' reqHead_length
  have h3 : ∀ i < 8, wordAt reqWords (437 + i) = wordAt reqDigest i := by
    intro i hi
    have hp : (reqHead ++ ([0, 0x100, 0, 0, 5] ++ List.replicate 16 0)).length = 437 := by rw [List.length_append, reqHead_length]; rfl
    unfold reqWords wordAt
    rw [List.append_assoc, List.getD_append_right _ _ _ _ (by omega), List.getD_append _ _ _ _ (by rw [reqDigest_length]; omega), hp, Nat.add_sub_cancel_left]
  rw [h1, h2]
  unfold digestWords
  refine List.map_congr_left fun i hi => ?_
  have hi := List.mem_range.mp hi
  show wordAt reqWords (437 + i) = wordAt _ (0 + i)
  rw [h3 i hi, reqDigest_at hi, Nat.zero_add]
theorem got {α β : Type} {o : Option (α × β)} (h : o.isSome = true) : o = some ((o.get h).1, (o.get h).2) := by simp
def tekDev (l : List Tek) : State := dom { svc with groups := [(9, { typ := 0, alg := 0, lifetime := 300, teks := l })] }
def delivery : Delivery := { target := 2, kind := 4, group := 7, tries := 1 }
def roll (t d : Nat) (x : Delivery) : State :=
  dom { svc with
    deliveries := [x], rollover := some { op := 1, step := 6, deadline := d, promote := false, creation := false, group := t, oldGen := 0, cred := 1, issuer := 2 } }
def memb : Member := { digest := List.replicate 8 0, groups := [9], phase1 := some 0 }
def gdoi (l : KMap Tenant) : State :=
  { setFld 0x0C0100 29 29 1 (dom { svc with members := [memb], groups := [(9, { typ := 0, alg := 0, lifetime := 300 })], tenants := l }) with
    regs := [(0x0C0100, 0x20000000), (0x0C0108, 1)], port.subs := [(0, { link := true }), (16, { link := true })] }
def rollBody : Body := [elemW 0x8A0A [8]]
theorem slot_shared {s : State} (h : sharedSlot s = true) : takeSlot 3 s = some s := by
  simp [takeSlot, worldClass, h]
theorem work_ready {s : State} (h1 : latticeOut s = false) (h2 : engineOut s 0 = false) (h3 : sharedSlot s = true) (h4 : drbgOut s = false)
    (h5 : s.eng.startup = false) : domainWork s = some (reseed0 (drbgUse s)) := by
  simp [domainWork, h1, h2, slot_shared h3, h4, h5]

/-- A device whose memory has both channels up, or as given. -/
def ddr (m : MemSt) : State := { dev with mem := m }
def upCh : Channel := { up := true, cap := 1 }
def ready : MemSt := { c0 := upCh, c1 := upCh, cap := 1, keyed := true, initDone := true, kid := 1 }
def fuseBody : Body := [elemW 0x8E03 [1], elemW 0x8A0A [8]]
def rearmBody : Body := [elemW 0x8A0A [8]]
def officers (l : List Ticket) : State := { dev with keys.tickets := l, keys.officers := [(2, { role := 0 })] }

/-- A device in a power state, on the way to another. -/
def pwr (s : Nat) (g : Option Nat) : State := { dev with pwr.state := s, pwr.target := g }
def dvfs (d : Dvfs) : State := { dev with pwr.dvfs := [(3, d)] }
def rec0 : Rec := { seq := 0, code := 0x1201, flags := 0, epoch := 0, sec := 0, ns := 0, data := [], mac := 0, at_ := 0 }
def clearBody : Body := [elemW 0x8A0A [8]]


/-- A body of register writes that completes from a state: it starts, its registers can be reached, and no GO is refused. -/
def canWrite (b : Body) (s : State) : Bool :=
  let u := begun opRegWrite hop b s
  starts opRegWrite hop b s && !u.keys.inForce &&
    (writesOf b).all fun x => blockExists x.1 && !domainDown u x.1 && decide (goRefused u (writeMask b) x = none)

theorem witness_RegisterWritesComplete : ([bitsBody 0x000048 0x20000 0x20000, bitsBody 0x000048 0x10000 0x10000, bitsBody 0x000048 0 0x10000,
    writeBody 0x000040 0x200, writeBody 0x04003C 1, bitsBody (0x040204 + 8 * 7) (w32 (2 ^ 31 + 255)) 0x800000FF,
    bitsBody (0x040204 + 8 * 7) (w32 255) 0x800000FF, bitsBody (0x070000 + 0x100 * 3) 1 1, bitsBody (0x070000 + 0x100 * 3) 0 1,
    writeBody (0x011004 + 0x20 * 35) 0, writeBody (0x011008 + 0x20 * 35) 0, writeBody (0x010000 + 4 * 8) 0, writeBody 0x010200 0,
    bitsBody (0x020000 + 0x10 * 5) 1 1, bitsBody (0x020000 + 0x10 * 5) 0 1, bitsBody (0x020008 + 0x10 * 3) 0 0x00FF0000, writeBody 0x0A0000 0,
    bitsBody 0x100008 0 0x00FF0000, bitsBody 0x110044 1 1, bitsBody 0x130004 4 4, writeBody 0x130004 (w32 3), bitsBody 0x130050 2 2,
    bitsBody 0x130050 1 1, bitsBody 0x130050 0 1, writeBody (0x120020 + 4 * 3) 0,
    writeBody (winBase .que + 0x40) (w32 (2 ^ 31 + 15 * 2 ^ 24 + 16383)), writeBody (winBase .trk1 + 0x40) (w32 (2 ^ 31 + 256)),
    [elemW 0x8101 [w32 (winBase .que)], elemW 0x8102 (List.replicate 16 0 ++ [w32 (2 ^ 31 + 2 ^ 28 + 15 * 2 ^ 24 + 16383)])]].all
      (canWrite · dev)) = true := by decide +kernel


/-! ## WellFormed refuses an ill-formed term for each of its checks -/

def k32 : TrunkBlock := { bytes := List.replicate 32 0 }
def okFrame : Frame := { len := 64 }
def okUnit : UnitInfo := { at_ := [], bytes := [], frame := okFrame }

theorem test_illformed_vtag : [({ tpid := 65536, vid := 0, pcp := 0 } : VTag), { tpid := 0, vid := 4096, pcp := 0 },
    { tpid := 0, vid := 0, pcp := 8 }].all (!·.wf) = true := by decide

theorem test_illformed_mac : [MacField.bytes [], .bytes (256 :: List.replicate 15 0)].all (!·.wf) = true := by decide

theorem test_illformed_hdr : [{ hop with etype := 65536 }, { hop with tags := [{ tpid := 0, vid := 4096, pcp := 0 }] },
    { hop with srcMac := 2 ^ 48 }, { hop with magic := 2 ^ 32 }, { hop with version := 256 }, { hop with world := 256 },
    { hop with mailbox := 256 }, { hop with flags := 256 }, { hop with tag := 65536 }, { hop with sequence := 2 ^ 32 },
    { hop with session := 65536 }, { hop with length := 65536 }, { hop with rest := 2 ^ 96 }, { hop with mac := .bytes [] }].all
    (fun (h : Hdr) => !h.wf) = true := by decide

theorem test_illformed_elem : [({ typ := 65536, len := 0, val := [] } : Elem), { typ := 0, len := 65536, val := [] },
    { typ := 0, len := 0, val := [0] }].all (fun e => !e.wf && !Body.wf [e]) = true := by decide

theorem test_illformed_sectag : [({ an := 4, pn := 0 } : SecTag), { an := 0, pn := 0, sl := 64 }, { an := 0, pn := 2 ^ 32 },
    { an := 0, pn := 0, sci := 2 ^ 64 }].all (!·.wf) = true := by decide

theorem test_illformed_frame : [{ okFrame with dst := 2 ^ 48 }, { okFrame with src := 2 ^ 48 }, { okFrame with etype := 65536 },
    { okFrame with raw := List.replicate 18 0 }, { okFrame with tags := [{ tpid := 0, vid := 0, pcp := 8 }] },
    { okFrame with inner := [{ tpid := 0, vid := 0, pcp := 8 }] }, { okFrame with sec := some { an := 4, pn := 0 } }].all
    (fun (f : Frame) => !f.wf) = true := by decide

theorem test_illformed_bond : [{ heard with lane := 2 }, { heard with mac := .bytes [] }, { heard with format := 256 },
    { heard with bond := 65536 }, { heard with sender := 65536 }, { heard with number := 2 ^ 64 }, { heard with body := [256] }].all
    (fun (m : BondRx) => !m.wf) = true := by decide

theorem test_illformed_course : [({ blocks := [] } : CourseRx), { blocks := [k32, { bytes := [] }] },
    { blocks := [k32, { bytes := 256 :: List.replicate 31 0 }] }].all (!·.wf) = true := by decide

theorem test_illformed_unit : [{ okUnit with bytes := [0] }, { okUnit with at_ := [(0, 0)], bytes := 256 :: List.replicate 63 0 },
    { okUnit with frame := { okFrame with dst := 2 ^ 48 } }].all (fun (u : UnitInfo) => !u.wf) = true := by decide +kernel

theorem test_illformed_index_1 : ([
    .sessionOpen hop [] (.tenant 0) (2 ^ 256) 0 [] false, .sessionOpen hop [] (.tenant 0) 0 (2 ^ 256) [] false, .opStatus hop [] (2 ^ 32),
    .cmdAbort hop [] 65536, .eventSubscribe hop [] 256 [], .rehashSwap 0 4, .switchCommit 0 131072, .saZeroise 0 262144,
    .domainEnrolChallenge hop [] false (2 ^ 64) [], .matchArm hop 8 0, .matchArm hop 0 256, .matchDisarm hop 8 0, .matchDisarm hop 0 256,
    .expressEnSet hop 4, .expressEnClear hop 4, .expressRoleSwitch 0 4, .txFirWrite hop 36 0, .rxEqWrite hop 36 0, .laneMapWrite hop 9 0,
    .portEnable hop 6, .portDisable hop 6, .expressMaskWrite hop 4 0, .maxResWrite hop 4 0, .snapRelease hop 2, .pwrDvfsWrite hop 4 0,
    .winGoRead hop .que (2 ^ 24) 0, .winGoRead hop .que 0 16, .winGoWrite hop .que (2 ^ 24) 0 [], .winGoWrite hop .que 0 16 [],
    .slowBlockWrite 0 (List.replicate 256 0) false, .resetRelease 0 8, .ddrTrainingDone 0 2 false 0, .ddrTrainingDone 0 0 false 3, .linkUp 0 20,
    .linkDown 0 20 false, .remoteFaultRx 0 20, .refLoss 0 9, .mmVerifyAttempt 0 20 false, .macControlRx 0 20 { len := 64 }] : List Instr).all (!·.wf) = true := by decide +kernel

theorem test_illformed_index_2 : ([
    .pauseWatchdogTrip 0 20 0, .pauseWatchdogTrip 0 0 8, .pauseWatchdogEnd 0 20 0, .pauseWatchdogEnd 0 0 8, .clearFrameRx 0 20 { len := 64 },
    .lineFrameRx 0 2 { len := 64 }, .stagingRelease 0 (2 ^ 64), .contextFetchDone 0 (2 ^ 64), .bulkDispatch 0 (2 ^ 64),
    .expressLaneStart 0 (2 ^ 64), .primingDone 0 4 0, .primingDone 0 0 32, .tileFinish 0 (2 ^ 64), .tagResult 0 (2 ^ 64) false,
    .reorderRelease 0 (2 ^ 64), .duplicateDiscard 0 (2 ^ 64), .heldCopyRelease 0 4096, .learnApply 0 4, .tombstoneFree 0 4, .agerVisit 0 4 0,
    .agerVisit 0 0 65536, .expressHoldEnter 0 (2 ^ 64), .egressSelect 0 20, .frameTxDone 0 20, .frameAged 0 (2 ^ 64), .gateEntryChange 0 4,
    .gclChangeInstant 0 4, .onestepDispatch 0 64, .onestepRelease 0 64, .retireTimerExpiry 0 262144, .tileTestStart 0 4 0, .tileTestStart 0 0 6,
    .tileTestDone 0 4 0 false, .tileTestDone 0 0 6 false, .evIstOverdue 0 64, .mkpduRx 0 256 { sci := 0 }, .mkaHello 0 256, .mkaPeerLost 0 256 0,
    .mkaPeerLost 0 0 (2 ^ 64)] : List Instr).all (!·.wf) = true := by decide +kernel

theorem test_illformed_index_3 : ([
    .mkaRekeyInterval 0 256, .courseHeaderTx 0 2, .directorySlotBuild 0 2, .runStart 0 2 0, .runStart 0 0 256,
    .courseHeaderRx 0 2 { blocks := [k32, k32] }, .trunkKeyEngage 0 2, .phaseSwitch 0 2, .phaseOldKeyErase 0 2, .trunkCountCeiling 0 2,
    .directorySlotRx 0 2 0 [], .directorySlotRx 0 0 8 [], .unitRx 0 2 0 { at_ := [], bytes := [], frame := { len := 64 } },
    .unitRx 0 0 256 { at_ := [], bytes := [], frame := { len := 64 } }, .passUnitRx 0 2 0 { at_ := [], bytes := [], frame := { len := 64 } },
    .passUnitRx 0 0 256 { at_ := [], bytes := [], frame := { len := 64 } }, .lofDeclare 0 2, .lofClear 0 2, .pathAisTimeout 0 2 0,
    .pathAisTimeout 0 0 256, .aisInsert 0 2 0, .aisInsert 0 0 256, .pmSecond 0 2, .bondBlockRx 0 2 {}, .bondLaneInFrame 0 2,
    .bondLaneOutOfFrame 0 2, .resignCondition 0 8, .ptpMessageRx 0 256 { kind := 0 }, .ptpMessageTx 0 256 0 0, .ptpMessageTx 0 0 16 0,
    .ptpMessageTx 0 0 0 (2 ^ 42), .matchFire 0 8, .kilnYieldPoint 0 8, .kilnJobEnd 0 8 none false, .latticeJobEnd 0 2 none false,
    .keyReload 0 (2 ^ 32) false, .drbgReseed 0 2, .rngHealthFail 0 16, .istInterval 0 64 false] : List Instr).all (!·.wf) = true := by decide +kernel

theorem test_illformed_index_4 : ([
    .ticketExpiry 0 (2 ^ 32), .sessionIdleTimeout 0 65536, .dksRetry 0 1024, .tekNextGenerate 0 65536, .tekExpiry 0 65536,
    .arpRequestRx 0 (2 ^ 32) 0, .arpRequestRx 0 0 (2 ^ 48), .memRead 0 16 0 0 .none, .memRead 0 0 2 0 .none, .memRead 0 0 0 (2 ^ 40) .none,
    .memWrite 0 16 0 0 [] false .none, .memWrite 0 0 2 0 [] false .none, .memWrite 0 0 0 (2 ^ 40) [] false .none, .tamperAlarm 0 65536,
    .slowPortWake 0 128, .dvfsVoutConfirm 0 4 0, .dvfsVoutConfirm 0 0 1024, .dvfsFault 0 4 0, .dvfsFault 0 0 8, .snapshotTrigger 0 16,
    .perfSample 0 48 0, .perfSample 0 0 (2 ^ 64), .tokenRefill 0 65536, .suppressionWindowClose 0 65536, .domainPeerCompletionRx 0 1024 0 0 [],
    .domainPeerCompletionRx 0 0 65536 0 [], .domainPeerCompletionRx 0 0 0 (2 ^ 32) [], .tamperConditionClear 0 16, .pauseTimeExpiry 0 20 0,
    .pauseTimeExpiry 0 0 8, .remoteFaultClear 0 20, .refRestore 0 9, .pllRampDone 0 4, .vciJobEnd 0 64, .mgmtPortFrameRx 0 2 { len := 64 },
    .unknownOpcodeFrame hop [] 65536] : List Instr).all (!·.wf) = true := by decide +kernel

theorem test_wellformed : ([.nop hop [], .regWrite hop [elemW 0x8101 [0x1F0008]], .clearFrameRx 0 0 okFrame, .unitRx 0 1 255 okUnit] : List Instr).all
    (·.wf) = true := by decide

/-! ## One step on a small device, from the examples and tables of the spec -/

/-- The status, DETAIL and body of the last completion sent. -/
def reply : Out → Option (Nat × Nat × Body)
  | .next s => match s.sent with
    | .done c :: _ => some (c.status, c.detail, c.elems)
    | _ => none
  | _ => none

/-- A register's word after a step. -/
def regAfter (a : Nat) : Out → Option Word
  | .next s => some (liveWord s a)
  | _ => none

/-- The example of 2.8: the largest idle timeout is clamped to 3,599 and reported. -/
theorem test_idle_timeout : reply (exec (.regWrite hop [elemW 0x8101 [0x1F0008], elemW 0x8102 [0xFFF]]) dev) =
    some (0, 0, [elemW 0x7F01 [0xFF1F0008, 0xFFF, 0xE0F]]) := by decide +kernel
theorem test_idle_timeout_kept : regAfter 0x1F0008 (exec (.regWrite hop [elemW 0x8101 [0x1F0008], elemW 0x8102 [0xFFF]]) dev) = some 0xE0F := by
  decide +kernel

/-- The example of 20.4: LO of queue 11,781 is clamped to -256, reported under the window's locator. -/
def shaperWrite : Instr :=
  .regWrite hop [elemW 0x8101 [0x0A7000], elemW 0x8102 ([0x1000, 0x3E8, 0x0300FE80] ++ List.replicate 13 0 ++ [0x95002E05])]
theorem test_queue_window : reply (exec shaperWrite dev) = some (0, 0, [elemW 0x7F01 [0xFF0A7008, 0x0300FE80, 0x0300FF00]]) := by decide +kernel
theorem test_queue_window_stat : regAfter 0x0A7044 (exec shaperWrite dev) = some 0x55002E05 := by decide +kernel

/-- A REG_READ reads the reset word of a register. -/
theorem test_reg_read : (reply (exec (.regRead hop [elemW 0x8101 [0x1F0008], elemW 0x0104 [1]]) dev)).map (·.1) = some 0 := by decide +kernel

/-- A command of another world's session, a SEQUENCE used twice, an unknown session (R45, R49). -/
theorem test_wrong_world : reply (exec (.regWrite { hop with session := 2 } []) dev) = some (0x0105, 0, []) := by decide +kernel
theorem test_replay : (identify opNop { hop with sequence := 0 } [] dev).getRight? = some 0x0104 := by decide +kernel
theorem test_no_session : (identify opNop { hop with session := 9 } [] dev).getRight? = some 0x0102 := by decide +kernel
theorem test_nop : reply (exec (.nop hop []) dev) = some (0, 0, []) := by decide +kernel

/-- The example of 6.2: an instant 30 s ahead across the wrap of fast time. -/
theorem test_fast_wrap : fastDiff 29988372224 1099500000000 = 30000000000 := by decide +kernel

/-- The check value of CRC-32C, which the flow hash uses (R181): over the digits 1 to 9. -/
theorem test_crc32c : crc32c [49, 50, 51, 52, 53, 54, 55, 56, 57] = 0xE3069283 := by decide +kernel

/-- The example of 11.4: at 4,000 pps an update adds 0.1024 units, and the credit stays within HI. -/
theorem test_shaper : (shape true { rate := 4000, hi := 768, credit := -256 * 65536 }).credit = -256 * 65536 + 6710 := by decide +kernel

/-- A course header scrambled and stuffed reads back with a good check (R278 to R280). -/
theorem test_course_header : (readHeader false (({ course := 63, count := 5, just := 1 } : CourseHdr).wire false)).2.1 = true := by decide +kernel

/-- A queue without a command idles; a command in front runs with the rest of the queue. -/
theorem test_idle : (step State.reset matches .next _) = true := by decide +kernel
theorem test_front : step { dev with pending := [.nop hop [], .nop hop []] } = exec (.nop hop []) { dev with pending := [.nop hop []] } := rfl

/-! ## Every obligation with hypotheses has a case that meets them -/

theorem witness_StepRunsFrontCommand : (∃ (c : _) (r : _) (s : State), s.pending = c :: r) ∧
    (∃ (s : State), s.pending = []) ∧
    (∃ (s : State), s.pending = [] ∧ s.cmd.parked = []) := by
  refine ⟨?_, ?_, ?_⟩
  · exact ⟨Instr.pinReset 0, [], { dev with pending := [.pinReset 0] }, by decide +kernel⟩
  · exact ⟨dev, by decide +kernel⟩
  · exact ⟨dev, by decide +kernel, by decide +kernel⟩

theorem witness_StepsKeepCanonicalForm : ∃ (s : State), Canon s :=
  ⟨dev, ⟨by decide +kernel, by decide +kernel, by decide +kernel⟩⟩

theorem witness_CommandsTouchOnlyTheirParts : ∃ (s : State), Canon s :=
  ⟨dev, ⟨by decide +kernel, by decide +kernel, by decide +kernel⟩⟩

theorem witness_AnswersLeaveRegisters : ∃ (i : _), touches i = answering ∧ (∀ h b, i ≠ .perfConfig h b) ∧ (∀ h b, i ≠ .wakeConfig h b) :=
  ⟨Instr.nop hop [], by decide +kernel, (by intro _ _ h; cases h), (by intro _ _ h; cases h)⟩

theorem witness_SequenceAcceptance : (∃ (x0 : Session) (l : List Nat) (t : Nat), x0.high = 0 ∧ x0.seen = [] ∧ (∀ v ∈ l, v ≤ 0xFFFFFFFF) ∧ ((∀ k v,
    l[k]? = some v → seqOk ((l.take k).foldl (fun y v => seqTake y v t) x0) v = true))) ∧
    (∃ (op : _) (h : Hdr) (b : Body) (s : State) (x : _), taken op h b (tick h.t s) = true ∧ wellFramed h = true ∧ h.session ≠ 0 ∧ look (arrived h
        s).cmd.sessions h.session = some x ∧ x.closing = false ∧ macGood x.key op h b = true ∧ seqOk x h.sequence = false) ∧
    (∃ (op : _) (h : Hdr) (b : Body) (s : State) (x : _), h.session ≠ 0 ∧ look (arrived h s).cmd.sessions h.session = some x ∧ x.closing = false ∧
        macGood x.key op h b = true ∧ seqOk x h.sequence = true) := by
  refine ⟨?_, ?_, ?_⟩
  · exact ⟨{ cred := .officer 1, world := 0, last := 0, via := .mp 0 }, [70, 6, 0xFFFFFFFE], 0, by decide +kernel, by decide +kernel, by
      decide +kernel, (by rintro (_ | _ | _ | k) v hk <;> simp at hk <;> subst hk <;> decide +kernel)⟩
  · exact ⟨opNop, { hop with sequence := 0 }, [], dev, { cred := .officer 1, world := 0, last := 0, via := .mp 0 }, by decide +kernel, by
      decide +kernel, by decide +kernel, by decide +kernel, by decide +kernel, by decide +kernel, by decide +kernel⟩
  · exact ⟨opNop, hop, [], dev, { cred := .officer 1, world := 0, last := 0, via := .mp 0 }, by decide +kernel, by decide +kernel, by decide +kernel,
      by decide +kernel, by decide +kernel⟩

theorem witness_FramesRejected : (∃ (h : Hdr) (s : State), (tick h.t s).cmd.turn = none ∧ (takesCommands (tick h.t s) = false ∨ viaLive (tick h.t s)
    h.via = false)) ∧
    (∃ (h : Hdr) (s : State), (tick h.t s).cmd.turn = none ∧ takesCommands (tick h.t s) = true ∧ viaLive (tick h.t s) h.via = true ∧ viaOversize (tick
        h.t s) h = true) ∧
    (∃ (op : _) (h : Hdr) (b : Body) (s : State), taken op h b (tick h.t s) = true ∧ (h.magic ≠ 0x41504653 ∨ h.flags.testBit 7 = true)) ∧
    (∃ (op : _) (h : Hdr) (b : Body) (s : State), taken op h b (tick h.t s) = true ∧ h.magic = 0x41504653 ∧ h.flags.testBit 7 = false ∧ h.version ≠ 1)
        ∧
    (∃ (op : _) (h : Hdr) (b : Body) (s : State), taken op h b (tick h.t s) = true ∧ h.magic = 0x41504653 ∧ h.flags.testBit 7 = false ∧ h.version = 1
        ∧ (h.length % 4 ≠ 0 ∨ 8192 < h.length ∨ h.length ≠ h.bodyBytes)) ∧
    (∃ (op : _) (h : Hdr) (b : Body) (s : State), taken op h b (tick h.t s) = true ∧ wellFramed h = true ∧ (h.session = 0 ∧ op.sess0 = false ∨
        h.session ≠ 0 ∧ look (arrived h s).cmd.sessions h.session = none)) ∧
    (∃ (op : _) (h : Hdr) (b : Body) (s : State) (x : _), taken op h b (tick h.t s) = true ∧ wellFramed h = true ∧ h.session ≠ 0 ∧ look (arrived h
        s).cmd.sessions h.session = some x ∧ x.closing = false ∧ macGood x.key op h b = false) := by
  refine ⟨?_, ?_, ?_, ?_, ?_, ?_, ?_⟩
  · exact ⟨hop, State.reset, by decide +kernel, by decide +kernel⟩
  · exact ⟨{ hop with length := 20000, bodyBytes := 20000 }, dev, by decide +kernel, by decide +kernel, by decide +kernel, by decide +kernel⟩
  · exact ⟨opNop, { hop with magic := 0 }, [], dev, by decide +kernel, by decide +kernel⟩
  · exact ⟨opNop, { hop with version := 2 }, [], dev, by decide +kernel, by decide +kernel, by decide +kernel, by decide +kernel⟩
  · exact ⟨opNop, { hop with length := 8196, bodyBytes := 8196 }, [], setReg 0x020044 8500 dev, by decide +kernel, by decide +kernel, by
      decide +kernel, by decide +kernel, by decide +kernel⟩
  · exact ⟨opNop, { hop with session := 0 }, [], dev, by decide +kernel, by decide +kernel, by decide +kernel⟩
  · exact ⟨opNop, { hop with mac := .bytes (wrongMac (frameMac 0 (headBytes hop opNop.code ++ []))) }, [],
      dev, { cred := .officer 1, world := 0, last := 0, via := .mp 0 }, by decide +kernel, by decide +kernel, by decide +kernel, by decide +kernel, by
      decide +kernel, (decide_eq_false (wrongMac_ne _))⟩

theorem witness_DeviceResetWarms : (∃ (h : Hdr) (b : Body) (s : State), starts opDeviceReset h b s = true) ∧
    (∃ (t : _) (s : State) (u : State) (w : _), u = tick t s ∧ u.boot.warmAt = some w ∧ u.now < w) ∧
    (∃ (t : _) (s : State) (u : State) (w : _), u = tick t s ∧ u.boot.warmAt = some w ∧ w ≤ u.now) := by
  refine ⟨?_, ?_, ?_⟩
  · exact ⟨hop, [], dev, by decide +kernel⟩
  · exact ⟨5 * sec, { dev with boot.warmAt := some (5 * sec + 1) }, _, 5 * sec + 1, rfl, by decide +kernel, by decide +kernel⟩
  · exact ⟨5 * sec, { dev with boot.warmAt := some (5 * sec) }, _, 5 * sec, rfl, by decide +kernel, by decide +kernel⟩

theorem witness_OverloadInLowPower : (∃ (t : _) (s : State) (u : State), u = tick t s ∧ u.pwr.regLp = true) ∧
    (∃ (t : _) (s : State) (u : State), u = tick t s ∧ u.pwr.regLp = false) := by
  refine ⟨?_, ?_⟩
  · exact ⟨5 * sec, { dev with pwr := { state := 3, regLp := true } }, _, rfl, by decide +kernel⟩
  · exact ⟨5 * sec, dev, _, rfl, by decide +kernel⟩

theorem witness_ResetsKeepTheirClasses : ∃ (k : _) (s : State) (a : _) (f : _), Canon s ∧ f ∈ fieldsAt a ∧ a ≠ 0x000050 ∧ k ≤ 6 :=
  ⟨6, dev, 0x100008, fS 23 16 24 (.range 1 168), ⟨by decide +kernel, by decide +kernel, by decide +kernel⟩, by decide +kernel, by decide +kernel, by
      decide +kernel⟩

theorem witness_MemoryWritesAndFrame : (∃ (f : MemFault), (∀ y r, f ≠ .line y r)) ∧
    (∃ (t : _) (m : _) (ch : _) (a : _) (ws : List Word) (s : State) (u : State), Canon s ∧ u = tick t s ∧ ch < 2 ∧ gateOf u m ch a true = .open_ ∧ a
        % 64 / 4 + ws.length ≤ 16) ∧
    (∃ (t : _) (m : _) (ch : _) (a : _) (ws : List Word) (s : State) (u : State), Canon s ∧ u = tick t s ∧ ch < 2 ∧ gateOf u m ch a true = .open_ ∧
        ws.length = 16) := by
  refine ⟨?_, ?_, ?_⟩
  · exact ⟨.none, (by intro _ _ h; cases h)⟩
  · exact ⟨5 * sec, 6, 1, 0, [1], memDev, _, ⟨by decide +kernel, by decide +kernel, by decide +kernel⟩, rfl, by decide +kernel, by decide +kernel, by
      decide +kernel⟩
  · exact ⟨5 * sec, 6, 1, 0, List.replicate 16 1, memDev, _, ⟨by decide +kernel, by decide +kernel, by decide +kernel⟩, rfl, by decide +kernel, by
      decide +kernel, by decide +kernel⟩

theorem witness_DisabledSourcesRaiseNothing : (∃ (t : _) (n : _) (s : State) (u : State), u = tick t s ∧ n < 16 ∧ sourceOn u n = false ∧ ((∀ k, k < 16
    → raises u k = false))) ∧
    (∃ (h : Hdr) (b : Body) (s : State) (u : State) (n : _), starts opTamperTest h b s = true ∧ u = begun opTamperTest h b s ∧ n < 16 ∧ maskOf b = 2 ^
        n ∧ sourceOn u n = false ∧ u.tmp.test = none) ∧
    (∃ (s : State) (n : _), n < 16 ∧ regWord s 0x110048 = 0 ∧ s.tmp.fused.testBit n = false) ∧
    (∃ (s : State) (n : _), n < 16 ∧ regWord s 0x110048 = 0 ∧ s.tmp.fused.testBit n = true) := by
  refine ⟨?_, ?_, ?_, ?_⟩
  · exact ⟨5 * sec, 15, { dev with tmp.fused := 2 ^ 15 }, _, rfl, by decide +kernel, by decide +kernel, by decide +kernel⟩
  · exact ⟨hop, [elemW 0x8E03 [0x8000]], { dev with tmp.fused := 2 ^ 15 }, _, 15, by decide +kernel, rfl, by decide +kernel, by decide +kernel, by
      decide +kernel, by decide +kernel⟩
  · exact ⟨dev, 15, by decide +kernel, by decide +kernel, by decide +kernel⟩
  · exact ⟨{ dev with tmp.fused := 1 }, 0, by decide +kernel, by decide +kernel, by decide +kernel⟩

theorem witness_SessionCommandsComplete : (∃ (h : Hdr) (b : Body) (s : State) (u : State), starts opSessionChallenge h b s = true ∧ u = begun
    opSessionChallenge h b s ∧ drbgOut u = false) ∧
    (∃ (h : Hdr) (b : Body) (cred : _) (challenge : _) (s : State) (u : State), starts opSessionOpen h b s = true ∧ u = begun opSessionOpen h b s ∧
        kilnOut u = false ∧ latticeOut u = false ∧ drbgOut u = false ∧ ((∃ c ∈ u.cmd.challenges, c.1 = challenge ∧ u.now ≤ c.2 + 30 * sec)) ∧ cred ≠
        .bootstrap ∧ credWorld u h.via cred = some h.world ∧ u.cmd.sessions.length < 256) ∧
    (∃ (h : Hdr) (b : Body) (s : State) (u : State), starts opSessionClose h b s = true ∧ u = begun opSessionClose h b s ∧ (look u.cmd.sessions
        h.session).isSome = true) ∧
    (∃ (t : _) (n : _) (s : State) (x : _), look (tick t s).cmd.sessions n = some x ∧ x.last + (fld (tick t s) 0x1F0008 11 0 + 1) * sec ≤ (tick t
        s).now ∧ flightsOf (tick t s) n = []) := by
  refine ⟨?_, ?_, ?_, ?_⟩
  · exact ⟨{ hop with session := 0 }, [], dev, _, by decide +kernel, rfl, by decide +kernel⟩
  · exact ⟨{ hop with session := 0 }, [], .officer 1, 9, { dev with cmd.challenges := [(9, 5 * sec)], keys.officers := [(1, { role := 0 })] }, _, by
      decide +kernel, rfl, by decide +kernel, by decide +kernel, by decide +kernel, by decide +kernel, by decide +kernel, by decide +kernel, by
      decide +kernel⟩
  · exact ⟨hop, [], dev, _, by decide +kernel, rfl, by decide +kernel⟩
  · exact ⟨905 * sec, 1, dev, { cred := .officer 1, world := 0, last := 0, via := .mp 0 }, by decide +kernel, by decide +kernel, by decide +kernel⟩

theorem witness_CommonCommandsComplete : (∃ (h : Hdr) (b : Body) (s : State), starts opNop h b s = true) ∧
    (∃ (h : Hdr) (b : Body) (n : _) (s : State) (u : State) (o : _) (k : _), k = { opOpStatus with also := [operandElem 1 [w32 n]] } ∧ starts k h b s
        = true ∧ u = begun k h b s ∧ look u.cmd.ops n = some o ∧ ((worldClass h.world < 3 ∨ o.world = h.world))) ∧
    (∃ (h : Hdr) (b : Body) (target : _) (s : State) (u : State) (f : _) (k : _), k = { opCmdAbort with also := [operandElem 1 [w32 target]] } ∧
        starts k h b s = true ∧ u = begun k h b s ∧ u.cmd.flights.find? (fun f => decide (f.mailbox = h.mailbox) && decide (f.tag = target) && decide
        (f.tag ≠ h.tag)) = some f ∧ f.await = .start) ∧
    (∃ (h : Hdr) (b : Body) (mailbox : _) (classes : _) (s : State) (k : _), k = { opEventSubscribe with also := subscribeElems mailbox classes } ∧
        starts k h b s = true ∧ mailboxWorld mailbox = h.world) ∧
    (∃ (h : Hdr) (b : Body) (s : State), starts opDeviceReset h b s = true) ∧
    (∃ (h : Hdr) (b : Body) (opcode : _) (s : State) (u : State) (w : _), takesCommands (tick h.t s) = true ∧ viaLive (tick h.t s) h.via = true ∧
        viaOversize (tick h.t s) h = false ∧ viaTakes (tick h.t s) h opcode b = true ∧ wellFramed h = true ∧ identify (opUnknown opcode) h b (arrived
        h s) = .inl (u, w) ∧ worldClass h.world ≠ 5 ∧ mailboxWorld h.mailbox = h.world ∧ w.getD h.world = h.world ∧ h.tag ≠ 0xFFFF ∧ ((∀ g ∈
        u.cmd.flights, g.mailbox ≠ h.mailbox ∨ g.tag ≠ h.tag)) ∧ opcode ∉ opcodes) := by
  refine ⟨?_, ?_, ?_, ?_, ?_, ?_⟩
  · exact ⟨hop, [], dev, by decide +kernel⟩
  · exact ⟨hop, [], 1, { dev with cmd.ops := [(1, { opcode := 0x0201, world := 0 })] }, _, { opcode := 0x0201, world := 0 }, _, rfl, by
      decide +kernel, rfl, by decide +kernel, by decide +kernel⟩
  · exact ⟨hop, [], 6, { dev with cmd.flights := [flightOf { hop with tag := 6, flags := 0x40 } 4 .start] }, _,
      flightOf { hop with tag := 6, flags := 0x40 } 4 .start, _, rfl, by decide +kernel, rfl, by decide +kernel, by decide +kernel⟩
  · exact ⟨hop, [], 0, [.rehash], dev, _, rfl, by decide +kernel, by decide +kernel⟩
  · exact ⟨hop, [], dev, by decide +kernel⟩
  · exact ⟨hop, [], 0x06FF, dev, _, some 0, by decide +kernel, by decide +kernel, by decide +kernel, by decide +kernel, by decide +kernel, (rfl), by
      decide +kernel, by decide +kernel, by decide +kernel, by decide +kernel, by decide +kernel, by decide +kernel⟩

theorem witness_SlowPortTransfers : (∃ (t : _) (l : List Nat) (s : State) (u : State), u = tick t s ∧ slowRuns u = true ∧ 0 < l.length ∧ l.length ≤
    255 ∧ u.cmd.slowIn.length + l.length ≤ 8240) ∧
    (∃ (t : _) (l : List Nat) (s : State) (u : State), u = tick t s ∧ slowRuns u = true ∧ 0 < l.length ∧ l.length ≤ 255) ∧
    (∃ (t : _) (s : State) (u : State), u = tick t s ∧ slowRuns u = true ∧ u.cmd.slowPos = 0) ∧
    (∃ (t : _) (s : State) (u : State), u = tick t s ∧ slowRuns u = true ∧ u.cmd.slowPos ≠ 0) ∧
    (∃ (h : Hdr) (s : State), h.via = .slow ∧ takesCommands s = true ∧ (s.cmd.slowFrame).isSome = true) ∧
    (∃ (t : _) (s : State) (u : State) (c : List Nat) (r : List (List Nat)), u = tick t s ∧ slowRuns u = true ∧ u.cmd.slowOut = c :: r ∧ u.cmd.slowPos
        + 255 < c.length) ∧
    (∃ (t : _) (s : State) (u : State) (c : List Nat) (r : List (List Nat)), u = tick t s ∧ slowRuns u = true ∧ u.cmd.slowOut = c :: r ∧ u.cmd.slowPos
        ≤ c.length ∧ c.length ≤ u.cmd.slowPos + 255) ∧
    (∃ (t : _) (s : State) (u : State), u = tick t s ∧ slowRuns u = true) := by
  refine ⟨?_, ?_, ?_, ?_, ?_, ?_, ?_, ?_⟩
  · exact ⟨5 * sec, [1], dev, _, rfl, by decide +kernel, by decide +kernel, by decide +kernel, by decide +kernel⟩
  · exact ⟨5 * sec, [1], dev, _, rfl, by decide +kernel, by decide +kernel, by decide +kernel⟩
  · exact ⟨5 * sec, dev, _, rfl, by decide +kernel, by decide +kernel⟩
  · exact ⟨5 * sec, { dev with cmd.slowPos := 255 }, _, rfl, by decide +kernel, by decide +kernel⟩
  · exact ⟨{ hop with via := .slow }, { dev with cmd.slowFrame := some [0] }, by decide +kernel, by decide +kernel, by decide +kernel⟩
  · exact ⟨5 * sec, { dev with cmd.slowOut := [List.replicate 256 0] }, _, List.replicate 256 0, [], rfl, by decide +kernel, by decide +kernel, by
      decide +kernel⟩
  · exact ⟨5 * sec, { dev with cmd.slowOut := [List.replicate 255 0] }, _, List.replicate 255 0, [], rfl, by decide +kernel, by decide +kernel, by
      decide +kernel, by decide +kernel⟩
  · exact ⟨5 * sec, dev, _, rfl, by decide +kernel⟩

theorem witness_RegisterReadsComplete : (∃ (h : Hdr) (b : Body) (s : State), starts opIdRead h b s = true ∧ wordAt (wordsOf b 0x0110) 0 = 1) ∧
    (∃ (h : Hdr) (b : Body) (s : State), starts opIdRead h b s = true ∧ wordAt (wordsOf b 0x0110) 0 ≠ 1) ∧
    (∃ (h : Hdr) (b : Body) (s : State), starts opDeviceStatus h b s = true) ∧
    (∃ (h : Hdr) (b : Body) (s : State) (u : State) (n : _) (l : _), starts opRegRead h b s = true ∧ u = begun opRegRead h b s ∧ 1 ≤ n ∧ n ≤ 64 ∧
        elemOf b 0x0104 = some (elemW 0x0104 [w32 n]) ∧ l = addrRange (addrOf b) n ∧ (∀ a ∈ l, blockExists a = true) ∧ (∀ a ∈ l, domainDown u a =
        false) ∧ ((h.world = 2 → ∀ a ∈ l, auditBarred a = false))) ∧
    (∃ (h : Hdr) (b : Body) (s : State), starts opRegRead h b s = true ∧ h.world ≠ 2 ∧ blockExists (addrOf b) = false) ∧
    (∃ (s : State) (a : _), fieldsAt a = [] ∧ roWord s a = 0 ∧ a % 0x10000 < 0x8000 ∧ look s.regs a = none) := by
  refine ⟨?_, ?_, ?_, ?_, ?_, ?_⟩
  · exact ⟨hop, [elemW 0x0110 [1]], dev, by decide +kernel, by decide +kernel⟩
  · exact ⟨hop, [], dev, by decide +kernel, by decide +kernel⟩
  · exact ⟨hop, [], dev, by decide +kernel⟩
  · exact ⟨hau, [elemW 0x8101 [0x1F0000], elemW 0x0104 [64]], dev, _, 64, _, by decide +kernel, rfl, by decide +kernel, by decide +kernel, by
      decide +kernel, rfl, by decide +kernel, by decide +kernel, by decide +kernel⟩
  · exact ⟨hop, [elemW 0x8101 [0x150000]], dev, by decide +kernel, by decide +kernel, by decide +kernel⟩
  · exact ⟨dev, 0x030000, by decide +kernel, by decide +kernel, by decide +kernel, by decide +kernel⟩

theorem witness_RegisterRowsTakeEffect : (∃ (s : State), Canon s ∧ s.keys.life = 3) ∧
    (∃ (s : State), Canon s ∧ s.keys.life ≠ 3) ∧
    (∃ (s : State), Canon s) ∧
    (∃ (s : State), Canon s) ∧
    (∃ (s : State) (k : _), Canon s ∧ k < 2) ∧
    (∃ (s : State), s.tmp.frozen = true ∧ freezeHolds s = false) ∧
    (∃ (s : State), s.tmp.frozen = true ∧ freezeHolds s = true) ∧
    (∃ (s : State), servoSrc s = 0 ∧ s.time.stepAvail = true) ∧
    (∃ (s : State), servoSrc s ≠ 0) ∧
    (∃ (s : State) (n : _) (hi : _) (i : _), Canon s ∧ n < 8 ∧ hi < 256 ∧ s.dks.snapArmed = false ∧ i = hi * 2 ^ 32 + (regWord s (matchHi n -
        4)).toNat ∧ 0 < fastDiff i (fast s) ∧ flag s (matchHi n) 31 = false ∧ (matchOf s n).armed = false) ∧
    (∃ (s : State) (n : _) (hi : _), Canon s ∧ n < 8 ∧ hi < 256 ∧ s.dks.snapArmed = false ∧ flag s (matchHi n) 31 = true ∧ matchLead n < fastDiff
        (matchOf s n).instant (fast s) ∧ (matchOf s n).instant = hi * 2 ^ 32 + (regWord s (matchHi n - 4)).toNat) ∧
    (∃ (s : State) (n : _) (hi : _), Canon s ∧ n < 8 ∧ hi < 256 ∧ s.dks.snapArmed = false) ∧
    (∃ (s : State) (b : Nat), Canon s ∧ b < 4 ∧ flag s (0x070000 + 0x100 * b) 0 = false) ∧
    (∃ (s : State) (w : _) (i : _) (tag : _), Canon s ∧ i < winCount w ∧ tag < 16) ∧
    (∃ (h : Hdr) (w : _) (i : _) (tag : _) (s : State) (u : State) (b : Body), i < 2 ^ 24 ∧ tag < 16 ∧ b = writeBody (winBase w + 0x40) (w32 (2 ^ 31 +
        tag * 2 ^ 24 + i)) ∧ starts opRegWrite h b s = true ∧ u = begun opRegWrite h b s ∧ domainDown u (winBase w + 0x40) = false ∧ winCount w ≤ i) ∧
    (∃ (h : Hdr) (w : _) (i : _) (tag : _) (d : _) (s : State) (u : State) (b : Body), i < winCount w ∧ tag < 16 ∧ d.length = 16 ∧ w ≠ .que ∧ b =
        [elemW 0x8101 [w32 (winBase w)], elemW 0x8102 (d ++ [w32 (2 ^ 31 + 2 ^ 28 + tag * 2 ^ 24 + i)])] ∧ starts opRegWrite h b s = true ∧ u = begun
        opRegWrite h b s ∧ (∀ x ∈ writesOf b, domainDown u x.1 = false)) := by
  refine ⟨?_, ?_, ?_, ?_, ?_, ?_, ?_, ?_, ?_, ?_, ?_, ?_, ?_, ?_, ?_, ?_⟩
  · exact ⟨{ dev with keys.life := 3 }, ⟨by decide +kernel, by decide +kernel, by decide +kernel⟩, by decide +kernel⟩
  · exact ⟨dev, ⟨by decide +kernel, by decide +kernel, by decide +kernel⟩, by decide +kernel⟩
  · exact ⟨dev, ⟨by decide +kernel, by decide +kernel, by decide +kernel⟩⟩
  · exact ⟨dev, ⟨by decide +kernel, by decide +kernel, by decide +kernel⟩⟩
  · exact ⟨dev, 1, ⟨by decide +kernel, by decide +kernel, by decide +kernel⟩, by decide +kernel⟩
  · exact ⟨{ dev with tmp.frozen := true }, by decide +kernel, by decide +kernel⟩
  · exact ⟨{ dev with tmp := { frozen := true, cond := 1 }, regs := [(0x110000, 0x14)] }, by decide +kernel, by decide +kernel⟩
  · exact ⟨setFld 0x040040 1 0 0 { dev with time.stepAvail := true }, by decide +kernel, by decide +kernel⟩
  · exact ⟨dev, by decide +kernel⟩
  · exact ⟨dev, 7, 3, _, ⟨by decide +kernel, by decide +kernel, by decide +kernel⟩, by decide +kernel, by decide +kernel, by decide +kernel, rfl, by
      decide +kernel, by decide +kernel, by decide +kernel⟩
  · exact ⟨{ dev with regs := [(matchHi 7, 0x80000003)], time.matchs := [(7, { armed := true, instant := 3 * 2 ^ 32 })] }, 7, 3, ⟨by decide +kernel,
      by decide +kernel, by decide +kernel⟩, by decide +kernel, by decide +kernel, by decide +kernel, by decide +kernel, by decide +kernel, by
      decide +kernel⟩
  · exact ⟨dev, 7, 255, ⟨by decide +kernel, by decide +kernel, by decide +kernel⟩, by decide +kernel, by decide +kernel, by decide +kernel⟩
  · exact ⟨{ dev with regs := [(0x070300, 0x00C00000)] }, 3, ⟨by decide +kernel, by decide +kernel, by decide +kernel⟩, by decide +kernel, by
      decide +kernel⟩
  · exact ⟨dev, .trk1, 256, 15, ⟨by decide +kernel, by decide +kernel, by decide +kernel⟩, by decide +kernel, by decide +kernel⟩
  · exact ⟨hop, .que, 16384, 15, dev, _, _, by decide +kernel, by decide +kernel, rfl, by decide +kernel, rfl, by decide +kernel, by decide +kernel⟩
  · exact ⟨hop, .trk0, 256, 15, List.replicate 16 0, dev, _, _, by decide +kernel, by decide +kernel, by decide +kernel, by decide +kernel, rfl, by
      decide +kernel, rfl, by decide +kernel⟩

theorem witness_TransmitFirYields : ∃ (s : State) (n : _), Canon s ∧ n < 36 :=
  ⟨dev, 35, ⟨by decide +kernel, by decide +kernel, by decide +kernel⟩, by decide +kernel⟩

theorem witness_DataflowChanges : (∃ (s : State), Canon s ∧ flag s 0x000040 8 = false) ∧
    (∃ (t : _) (s : State) (u : State), u = tick t s ∧ ((flag u 0x000040 8 = false ∨ flowDrained u = false))) ∧
    (∃ (t : _) (s : State) (u : State), Canon s ∧ u = tick t s ∧ flag u 0x000040 8 = true ∧ flowDrained u = true) := by
  refine ⟨?_, ?_, ?_⟩
  · exact ⟨dev, ⟨by decide +kernel, by decide +kernel, by decide +kernel⟩, by decide +kernel⟩
  · exact ⟨5 * sec, dev, _, rfl, by decide +kernel⟩
  · exact ⟨5 * sec, { dev with regs := [(0x000040, 0x100)] }, _, ⟨by decide +kernel, by decide +kernel, by decide +kernel⟩, rfl, by decide +kernel, by
      decide +kernel⟩

theorem witness_ImagesRun : (∃ (h : Hdr) (b : Body) (s : State) (u : State), starts opImageWrite h b s = true ∧ u = begun opImageWrite h b s ∧
    u.boot.trialBoot = false ∧ (elemOf b 0x8203).isSome = true) ∧
    (∃ (h : Hdr) (b : Body) (s : State) (u : State) (x : _), starts opImageActivate h b s = true ∧ u = begun opImageActivate h b s ∧ u.boot.resealing
        = none ∧ x = flashBank u (spare u) ∧ bankOk true x u.boot.minSvn = true) ∧
    (∃ (h : Hdr) (b : Body) (s : State) (u : State), starts opImageActivate h b s = true ∧ u = begun opImageActivate h b s ∧ u.boot.resealing = none)
        ∧
    (∃ (t : _) (s : State) (u : State), u = tick t s ∧ (u.boot.resealing).isSome = true) ∧
    (∃ (h : Hdr) (b : Body) (s : State), starts opImageStatus h b s = true) ∧
    (∃ (t : _) (s : State) (u : State) (f : _), u = tick t s ∧ u.boot.fullAt = some f ∧ u.boot.trialBoot = true ∧ f + 60 * sec ≤ u.now) := by
  refine ⟨?_, ?_, ?_, ?_, ?_, ?_⟩
  · exact ⟨hop, [elemW 0x8201 [1], elemW 0x8202 [0], elemW 0x8203 [0x54494D47]], dev, _, by decide +kernel, rfl, by decide +kernel, by decide +kernel⟩
  · exact ⟨hop, [], dev, _, _, by decide +kernel, rfl, by decide +kernel, rfl, by decide +kernel⟩
  · exact ⟨hop, [], dev, _, by decide +kernel, rfl, by decide +kernel⟩
  · exact ⟨5 * sec, { dev with boot.resealing := some 1 }, _, rfl, by decide +kernel⟩
  · exact ⟨hop, [], dev, by decide +kernel⟩
  · exact ⟨60 * sec, { dev with boot.trialBoot := true }, _, 0, rfl, by decide +kernel, by decide +kernel, by decide +kernel⟩

theorem witness_ResetKindsAct : (∃ (t : _) (s : State) (u : State) (w : _), u = tick t s ∧ u.boot.warmAt = some w ∧ w ≤ u.now) ∧
    (∃ (t : _) (s : State) (u : State) (w : _), u = tick t s ∧ u.tmp.resetAt = some w ∧ w ≤ u.now) ∧
    (∃ (t : _) (s : State) (u : State) (n : _), u = tick t s ∧ n = fld u 0x100000 13 8 ∧ 1 ≤ n ∧ halted u = true ∧ u.mem.haltAt + n * sec ≤ u.now) ∧
    (∃ (t : _) (s : State) (u : State), u = tick t s ∧ u.pwr.regLp = true) ∧
    (∃ (s : State), (kindInProgress s).isSome = true) ∧
    (∃ (s : State), kindInProgress s = none) := by
  refine ⟨?_, ?_, ?_, ?_, ?_, ?_⟩
  · exact ⟨5 * sec, { dev with boot.warmAt := some (5 * sec) }, _, 5 * sec, rfl, by decide +kernel, by decide +kernel⟩
  · exact ⟨5 * sec, { dev with tmp.resetAt := some (5 * sec) }, _, 5 * sec, rfl, by decide +kernel, by decide +kernel⟩
  · exact ⟨6 * sec, setFld 0x100000 13 8 1 { dev with mem := { halt := true, haltAt := 5 * sec } }, _, _, rfl, rfl, by decide +kernel, by
      decide +kernel, by decide +kernel⟩
  · exact ⟨5 * sec, { dev with pwr := { state := 3, regLp := true } }, _, rfl, by decide +kernel⟩
  · exact ⟨State.reset, by decide +kernel⟩
  · exact ⟨dev, by decide +kernel⟩

theorem witness_BootRuns : (∃ (t : _) (s : State) (u : State), u = tick t s ∧ u.boot.held = true ∧ ((u.boot.supplyOk = true ∨ u.boot.supplyLost + 10 *
    ms ≤ u.now))) ∧
    (∃ (t : _) (s : State) (u : State), u = tick t s ∧ u.boot.supplyOk = false ∧ u.now < u.boot.supplyLost + 10 * ms) ∧
    (∃ (t : _) (okA : _) (s : State) (u : State), u = tick t s ∧ u.boot.held = false ∧ u.boot.romRecovery = false ∧ 1 ≤ u.boot.step ∧ u.boot.step < 4
        ∧ u.boot.trialBoot = false ∧ u.boot.committedB = false ∧ bootable u false okA = true) ∧
    (∃ (t : _) (okB : _) (s : State) (u : State), u = tick t s ∧ u.boot.held = false ∧ u.boot.romRecovery = false ∧ 1 ≤ u.boot.step ∧ u.boot.step < 4
        ∧ u.boot.trialBoot = true ∧ u.boot.committedB = false ∧ bootable u true okB = true) ∧
    (∃ (t : _) (okA : _) (okB : _) (s : State) (u : State), Canon s ∧ u = tick t s ∧ u.boot.held = false ∧ u.boot.romRecovery = false ∧ 1 ≤
        u.boot.step ∧ u.boot.step < 4 ∧ u.boot.trialBoot = true ∧ u.boot.committedB = false ∧ bootable u true okB = false ∧ bootable u false okA =
        true) ∧
    (∃ (t : _) (okA : _) (okB : _) (s : State) (u : State), u = tick t s ∧ u.boot.held = false ∧ u.boot.romRecovery = false ∧ 1 ≤ u.boot.step ∧
        u.boot.step < 4 ∧ bootable u false okA = false ∧ bootable u true okB = false) ∧
    (∃ (t : _) (s : State) (u : State), u = tick t s ∧ u.boot.step = 5) ∧
    (∃ (t : _) (s : State) (u : State), u = tick t s ∧ u.boot.step = 6) ∧
    (∃ (t : _) (s : State) (u : State), u = tick t s ∧ u.boot.step = 8 ∧ u.mem.memOff = false) ∧
    (∃ (t : _) (s : State) (u : State) (w : _), u = tick t s ∧ u.boot.recoveryUntil = some w ∧ w ≤ u.now) ∧
    (∃ (t : _) (s : State) (u : State), u = tick t s ∧ u.pwr.pastCommit = true ∧ u.pwr.state ≠ 3 ∧ halted u = false ∧ u.pwr.wakeNext = true) ∧
    (∃ (t : _) (s : State) (u : State), u = tick t s ∧ u.pwr.pastCommit = true ∧ u.pwr.state ≠ 3 ∧ halted u = false ∧ u.pwr.wakeNext = false) ∧
    (∃ (t : _) (s : State) (u : State), u = tick t s ∧ u.pwr.waking = true) := by
  refine ⟨?_, ?_, ?_, ?_, ?_, ?_, ?_, ?_, ?_, ?_, ?_, ?_, ?_⟩
  · exact ⟨5 * sec, State.reset, _, rfl, by decide +kernel, by decide +kernel⟩
  · exact ⟨5 * sec, { State.reset with boot.supplyLost := 5 * sec }, _, rfl, by decide +kernel, by decide +kernel⟩
  · exact ⟨5 * sec, true, { dev with boot.step := 3 }, _, rfl, by decide +kernel, by decide +kernel, by decide +kernel, by decide +kernel, by
      decide +kernel, by decide +kernel, by decide +kernel⟩
  · exact ⟨5 * sec, true, { dev with boot := { dev.boot with step := 1, trialBoot := true } }, _, rfl, by decide +kernel, by decide +kernel, by
      decide +kernel, by decide +kernel, by decide +kernel, by decide +kernel, by decide +kernel⟩
  · exact ⟨5 * sec, true, false, { dev with boot := { dev.boot with step := 1, trialBoot := true } }, _, ⟨by decide +kernel, by decide +kernel, by
      decide +kernel⟩, rfl, by decide +kernel, by decide +kernel, by decide +kernel, by decide +kernel, by decide +kernel, by decide +kernel, by
      decide +kernel, by decide +kernel⟩
  · exact ⟨5 * sec, false, false, { dev with boot.step := 1 }, _, rfl, by decide +kernel, by decide +kernel, by decide +kernel, by decide +kernel, by
      decide +kernel, by decide +kernel⟩
  · exact ⟨5 * sec, { dev with boot.step := 5 }, _, rfl, by decide +kernel⟩
  · exact ⟨5 * sec, { dev with boot.step := 6 }, _, rfl, by decide +kernel⟩
  · exact ⟨5 * sec, { dev with boot.step := 8 }, _, rfl, by decide +kernel, by decide +kernel⟩
  · exact ⟨5 * sec, { dev with boot.recoveryUntil := some (5 * sec) }, _, 5 * sec, rfl, by decide +kernel, by decide +kernel⟩
  · exact ⟨5 * sec, { dev with pwr := { pastCommit := true, wakeNext := true } }, _, rfl, by decide +kernel, by decide +kernel, by decide +kernel, by
      decide +kernel⟩
  · exact ⟨5 * sec, { dev with pwr.pastCommit := true }, _, rfl, by decide +kernel, by decide +kernel, by decide +kernel, by decide +kernel⟩
  · exact ⟨5 * sec, { dev with pwr := { state := 3, waking := true } }, _, rfl, by decide +kernel⟩

theorem witness_LanesRun : (∃ (h : Hdr) (b : Body) (s : State) (u : State) (act : _) (pat : _), starts opLanePrbs h b s = true ∧ u = begun opLanePrbs
    h b s ∧ ((∀ n ∈ maskLanes (wordsOf b 0x8304), laneFree u n = true ∧ patternFor n pat.toNat = pat.toNat)) ∧ act = wordAt (wordsOf b 0x0303) 0 ∧ pat
        = wordAt (wordsOf b 0x0302) 0 ∧ act.toNat ≤ 3) ∧
    (∃ (action : _), action ≠ 0) ∧
    (∃ (h : Hdr) (b : Body) (s : State) (u : State), starts opLaneMargin h b s = true ∧ u = begun opLaneMargin h b s ∧ elemOf b 0x0306 = none ∧ (∀ m ∈
        u.lane.margins, ∀ l ∈ maskLanes (wordsOf b 0x8304), l ∉ m.lanes)) ∧
    (∃ (t : _) (s : State) (u : State) (m : _) (r : _), u = tick t s ∧ u.lane.margins = m :: r ∧ m.lanes.length ≤ 4) ∧
    (∃ (t : _) (l : _) (s : State) (u : State), u = tick t s ∧ l < 2 ∧ bondLaneMay u l = true) ∧
    (∃ (l : _), l < 2) ∧
    (∃ (t : _) (l : _) (b : BondBlock) (s : State) (u : State) (v : _) (x : _), u = tick t s ∧ l < 2 ∧ bondLaneMay u l = true ∧ v = (List.range
        b.reads).foldl (fun s _ => sendBlock l s) u ∧ x = bondLane v l ∧ x.inFrame = false) ∧
    (∃ (l : _) (blk : List Bool) (s : State) (m : Bool × Nat), l < 2 ∧ bondLaneMay s l = true ∧ markerOf blk = some m ∧ m.2 = ((bondLane s l).count +
        1) % 65536 ∧ (bondLane s l).inFrame = false ∧ (bondLane s l).good = 2) ∧
    (∃ (l : _) (blk : List Bool) (s : State), l < 2 ∧ ((∀ m, markerOf blk = some m → m.2 ≠ ((bondLane s l).count + 1) % 65536)) ∧ (bondLane s
        l).inFrame = true) ∧
    (∃ (l : _) (blk : List Bool) (s : State) (h : Bool), l < 2 ∧ (bondLane s l).inFrame = true ∧ blk.take 2 = [h, h]) ∧
    (∃ (l : _) (s : State) (x : _), l < 2 ∧ x = bondLane s l ∧ x.txPos = 0) ∧
    (∃ (t : _) (q : _) (s : State) (u : State), u = tick t s ∧ q < 9 ∧ q ∉ u.lane.refOk) := by
  refine ⟨?_, ?_, ?_, ?_, ?_, ?_, ?_, ?_, ?_, ?_, ?_, ?_⟩
  · exact ⟨hmt, [elemW 0x8304 [1, 0], elemW 0x0302 [3], elemW 0x0303 [3]], net, _, _, _, by decide +kernel, rfl, by decide +kernel, rfl, rfl, by
      decide +kernel⟩
  · exact ⟨3, by decide +kernel⟩
  · exact ⟨hmt, [elemW 0x8304 [1, 0]], net, _, by decide +kernel, rfl, by decide +kernel, by decide +kernel⟩
  · exact ⟨5 * sec, { net with lane.margins := [{ op := 1, lanes := [32, 33, 34, 35], target := 6 }] },
      _, { op := 1, lanes := [32, 33, 34, 35], target := 6 }, [], rfl, by decide +kernel, by decide +kernel⟩
  · exact ⟨5 * sec, 1, net, _, rfl, by decide +kernel, by decide +kernel⟩
  · exact ⟨1, by decide +kernel⟩
  · exact ⟨5 * sec, 1, { reads := 0 }, net, _, _, _, rfl, by decide +kernel, by decide +kernel, rfl, rfl, by decide +kernel⟩
  · exact ⟨1, markerBlock 1, { net with lane.a1.good := 2 }, (false, 1), by decide +kernel, by decide +kernel, by decide +kernel, by decide +kernel,
      by decide +kernel, by decide +kernel⟩
  · exact ⟨1, [], { net with lane.a1.inFrame := true }, by decide +kernel, (by intro m h; rw [show markerOf [] = none by decide +kernel] at h; cases
      h), by decide +kernel⟩
  · exact ⟨1, [true, true], { net with lane.a1.inFrame := true }, true, by decide +kernel, by decide +kernel, by decide +kernel⟩
  · exact ⟨1, net, _, by decide +kernel, rfl, by decide +kernel⟩
  · exact ⟨5 * sec, 8, dev, _, rfl, by decide +kernel, by decide +kernel⟩

theorem witness_LineCodesInvert : (∃ (run : _), run < 31) ∧
    (∃ (l : _) (c : _), l < 2 ∧ c < 65536) ∧
    (∃ (bs : List Nat), (∀ b ∈ bs, b < 256)) := by
  refine ⟨?_, ?_, ?_⟩
  · exact ⟨30, by decide +kernel⟩
  · exact ⟨1, 65535, by decide +kernel, by decide +kernel⟩
  · exact ⟨[255, 0], by decide +kernel⟩

theorem witness_LinksComeUp : (∃ (t : _) (sp : _) (s : State) (u : State), u = tick t s ∧ linkMay u sp = true ∧ (subPort u sp).link = false) ∧
    (∃ (t : _) (sp : _) (s : State) (u : State), u = tick t s ∧ sp < 20 ∧ (subPort u sp).link = true) ∧
    (∃ (sp : _), sp < 20) ∧
    (∃ (t : _) (sp : _) (s : State) (u : State) (x : _), u = tick t s ∧ x = subPort u sp ∧ sp < 20 ∧ spPort sp < 4 ∧ x.link = true ∧ x.verify = 1 ∧
        flag u (0x020008 + 0x10 * spPort sp) 0 = true ∧ flag u (0x020008 + 0x10 * spPort sp) 2 = false) := by
  refine ⟨?_, ?_, ?_, ?_⟩
  · exact ⟨5 * sec, 18, { net with port.subs := [(16, { link := true })] }, _, rfl, by decide +kernel, by decide +kernel⟩
  · exact ⟨5 * sec, 19, net, _, rfl, by decide +kernel, by decide +kernel⟩
  · exact ⟨19, by decide +kernel⟩
  · exact ⟨5 * sec, 19, { net with regs := [(0x020038, 0x00C00A01)], port.subs := [(19, { link := true, verify := 1 })] }, _, _, rfl, rfl, by
      decide +kernel, by decide +kernel, by decide +kernel, by decide +kernel, by decide +kernel, by decide +kernel⟩

theorem witness_PauseIsHonoured : (∃ (t : _) (sp : _) (f : Frame) (i : PauseInfo) (s : State) (u : State), u = tick t s ∧ sp < 16 ∧ (subPort u
    sp).link = true ∧ failedRx sp f (rxStamp (countRx sp f u) sp) (countRx sp f u) = none ∧ f.pause = some i ∧ i.pfc = true) ∧
    (∃ (t : _) (sp : _) (f : Frame) (i : PauseInfo) (c : _) (d : _) (r : _) (s : State) (u : State) (v : _), u = tick t s ∧ sp < 16 ∧ (subPort u
        sp).link = true ∧ v = subCount sp 7 1 (countRx sp f u) ∧ failedRx sp f (rxStamp (countRx sp f u) sp) (countRx sp f u) = none ∧ f.pause = some
        i ∧ i.pfc = false ∧ i.times = (c, d) :: r ∧ flag v (0x020080 + 4 * spPort sp) 8 = true) ∧
    (∃ (t : _) (sp : _) (f : Frame) (s : State) (u : State) (v : _), u = tick t s ∧ 16 ≤ sp ∧ sp < 18 ∧ (subPort u sp).link = true ∧ v = rxDrop sp
        (countRx sp f u) ∧ failedRx sp f (rxStamp v sp) v = none ∧ f.pause = none) ∧
    (∃ (sp : _) (c : _) (s : State) (p : _), p = get (subPort s sp).pause c {} ∧ s.now < p.ignore) ∧
    (∃ (sp : _) (c : _) (d : _) (s : State), (get (subPort s sp).pause c {}).ignore ≤ s.now ∧ 0 < d) ∧
    (∃ (sp : _) (c : _) (d : _) (s : State), (get (subPort s sp).pause c {}).ignore ≤ s.now ∧ 0 < d) ∧
    (∃ (t : _) (sp : _) (c : _) (s : State) (u : State) (p : _), u = tick t s ∧ p = get (subPort u sp).pause c {} ∧ paused u sp c = false ∧
        p.since.isSome = true) ∧
    (∃ (t : _) (sp : _) (c : _) (s : State) (u : State) (p : _) (t0 : _), u = tick t s ∧ p = get (subPort u sp).pause c {} ∧ p.since = some t0 ∧ sp <
        16 ∧ paused u sp c = true ∧ t0 + wdTime u sp ≤ u.now) ∧
    (∃ (t : _) (sp : _) (c : _) (s : State) (u : State) (p : _), u = tick t s ∧ p = get (subPort u sp).pause c {} ∧ p.ignore ≠ 0 ∧ p.ignore ≤ u.now)
        := by
  refine ⟨?_, ?_, ?_, ?_, ?_, ?_, ?_, ?_, ?_⟩
  · exact ⟨5 * sec, 15, { len := 64, pause := some { pfc := true, times := [(7, 10)] } }, { pfc := true, times := [(7, 10)] }, net, _, rfl, by
      decide +kernel, by decide +kernel, by decide +kernel, by decide +kernel, by decide +kernel⟩
  · exact ⟨5 * sec, 15, { len := 64, pause := some { pfc := false, times := [(0, 10)] } }, { pfc := false, times := [(0, 10)] }, 0, 10, [], setFld
      0x020084 8 8 1 net, _, _, rfl, by decide +kernel, by decide +kernel, rfl, by decide +kernel, by decide +kernel, by decide +kernel, by
      decide +kernel, by decide +kernel⟩
  · exact ⟨5 * sec, 17, { len := 64 }, net, _, _, rfl, by decide +kernel, by decide +kernel, by decide +kernel, rfl, by decide +kernel, by
      decide +kernel⟩
  · exact ⟨15, 7, { net with port.subs := [(15, { pause := [(7, { ignore := 6 * sec })] })] }, _, rfl, by decide +kernel⟩
  · exact ⟨15, 7, 10, net, by decide +kernel, by decide +kernel⟩
  · exact ⟨15, 7, 10, net, by decide +kernel, by decide +kernel⟩
  · exact ⟨5 * sec, 15, 7, { net with port.subs := [(15, { pause := [(7, { until_ := 5 * sec, since := some 0 })] })] }, _, _, rfl, rfl, by
      decide +kernel, by decide +kernel⟩
  · exact ⟨5 * sec, 15, 7, { net with port.subs := [(15, { pause := [(7, { until_ := 6 * sec, since := some 0 })] })] }, _, _, 0, rfl, rfl, by
      decide +kernel, by decide +kernel, by decide +kernel, by decide +kernel⟩
  · exact ⟨5 * sec, 15, 7, { net with port.subs := [(15, { pause := [(7, { ignore := 5 * sec })] })] }, _, _, rfl, rfl, by decide +kernel, by
      decide +kernel⟩

theorem witness_PortCountersAndCapture : (∃ (h : Hdr) (b : Body) (s : State) (n : _), starts opCaptureRead h b s = true ∧ elemOf b 0x0312 = some n ∧ 1
    ≤ (wordAt n.val 0).toNat ∧ (wordAt n.val 0).toNat ≤ 3) ∧
    (∃ (h : Hdr) (b : Body) (s : State) (u : State) (sp : _), starts (opPortStatsRead s) h b s = true ∧ u = begun (opPortStatsRead s) h b s ∧ portElem
        u (wordsOf b 0x8311) = some sp ∧ sp < 18) ∧
    (∃ (h : Hdr) (b : Body) (s : State) (u : State) (sp : _), starts (opPortStatsRead s) h b s = true ∧ u = begun (opPortStatsRead s) h b s ∧ portElem
        u (wordsOf b 0x8311) = some sp ∧ 18 ≤ sp) ∧
    (∃ (t : _) (s : State) (u : State), u = tick t s ∧ 5 ≤ u.boot.step ∧ u.pwr.state < 3) ∧
    (∃ (t : _) (k : _) (f : Frame) (s : State) (u : State), u = tick t s ∧ (subPort u (16 + k % 2)).link = true ∧ portEnabled u (spPort (16 + k % 2))
        = true ∧ f.etype ≠ 0x8808 ∧ ((f.etype ≠ fld u 0x1F0000 15 0 ∨ 1 < f.tags.length ∨ f.fcsOk = false))) := by
  refine ⟨?_, ?_, ?_, ?_, ?_⟩
  · exact ⟨hop, [elemW 0x0312 [3]], net, elemW 0x0312 [3], by decide +kernel, by decide +kernel, by decide +kernel, by decide +kernel⟩
  · exact ⟨hop, [elemW 0x8311 [0x01000000]], net, _, 8, by decide +kernel, rfl, by decide +kernel, by decide +kernel⟩
  · exact ⟨hop, [elemW 0x8311 [0x03000000]], net, _, 19, by decide +kernel, rfl, by decide +kernel, by decide +kernel⟩
  · exact ⟨5 * sec, net, _, rfl, by decide +kernel, by decide +kernel⟩
  · exact ⟨5 * sec, 1, { len := 64 }, net, _, rfl, by decide +kernel, by decide +kernel, by decide +kernel, by decide +kernel⟩

theorem witness_TimeRuns : (∃ (h : Hdr) (b : Body) (s : State), starts opTimeRead h b s = true) ∧
    (∃ (h : Hdr) (b : Body) (s : State), starts opTimeEpochNew h b s = true) ∧
    (∃ (t : _) (n : _) (s : State) (u : State), u = tick t s ∧ n < 6 ∧ (matchOf u n).armed = true ∧ fastDiff (matchOf u n).instant (fast u) ≤ 0) ∧
    (∃ (t : _) (n : _) (s : State) (u : State), u = tick t s ∧ n < 8 ∧ (matchOf u n).armed = true ∧ fastDiff (matchOf u n).instant (fast u) ≤
        matchLead n) ∧
    (∃ (t : _) (s : State) (u : State), u = tick t s ∧ u.time.sync = true ∧ ((∀ l, u.time.lastMeas = some l → l + 10 * sec ≤ u.now))) ∧
    (∃ (t : _) (s : State) (u : State), u = tick t s ∧ u.time.slewing = true ∧ u.time.slewGoal * 10000000 ≤ (u.now - u.time.slewAt) * 65536) ∧
    (∃ (t : _) (s : State) (u : State), u = tick t s ∧ u.time.running = true ∧ rtcNow u % 32768 = 0) := by
  refine ⟨?_, ?_, ?_, ?_, ?_, ?_, ?_⟩
  · exact ⟨hop, [], dev, by decide +kernel⟩
  · exact ⟨hop, [elemW 0x8406 [0]], dev, by decide +kernel⟩
  · exact ⟨5 * sec, 5, { dev with time.matchs := [(5, { armed := true, instant := 0 })] }, _, rfl, by decide +kernel, by decide +kernel, by
      decide +kernel⟩
  · exact ⟨5 * sec, 7, { dev with time.matchs := [(7, { armed := true, instant := 0 })] }, _, rfl, by decide +kernel, by decide +kernel, by
      decide +kernel⟩
  · exact ⟨5 * sec, { dev with time.sync := true }, _, rfl, by decide +kernel, (by intro l h; cases h)⟩
  · exact ⟨5 * sec, { dev with time.slewing := true }, _, rfl, by decide +kernel, by decide +kernel⟩
  · exact ⟨5 * sec, dev, _, rfl, by decide +kernel, by decide +kernel⟩

theorem witness_TimePinsAct : (∃ (t : _) (s : State) (u : State), u = tick t s ∧ u.time.refSel = 1) ∧
    (∃ (t : _) (s : State) (u : State), u = tick t s ∧ u.time.refSel = 0 ∧ fld u 0x040040 5 4 = 1) ∧
    (∃ (t : _) (s : State) (u : State), u = tick t s ∧ u.time.refSel = 0 ∧ fld u 0x040040 5 4 ≠ 1) ∧
    (∃ (t : _) (s : State) (u : State), u = tick t s ∧ flag u 0x040050 7 = false ∧ u.time.stepAvail = true ∧ servoSrc u ≠ 2) ∧
    (∃ (t : _) (s : State) (u : State), u = tick t s ∧ flag u 0x040050 7 = true ∧ u.time.stepAvail = true ∧ servoSrc u ≠ 2) ∧
    (∃ (t : _) (s : State) (u : State) (e : _), u = tick t s ∧ u.time.running = true ∧ u.time.ppsLost = false ∧ e = u.time.ppsInEdge.getD
        u.time.ppsFrom ∧ e + 1500 * ms ≤ u.now ∧ servoSrc u ≠ 2) ∧
    (∃ (t : _) (s : State) (u : State) (e : _), u = tick t s ∧ u.time.running = true ∧ u.time.ppsLost = false ∧ e = u.time.ppsInEdge.getD
        u.time.ppsFrom ∧ e + 1500 * ms ≤ u.now ∧ servoSrc u = 2) ∧
    (∃ (t : _) (s : State) (u : State), u = tick t s ∧ wholeSecond u = true ∧ (fld u 0x040050 9 8 = 1 ∨ (fld u 0x040050 9 8 = 2 ∧ u.time.sync = true))
        ∧ ((∀ e, u.time.ppsLast = some e → e + 500 * ms ≤ u.now))) ∧
    (∃ (t : _) (s : State) (u : State) (f : _), u = tick t s ∧ u.time.ppsFall = some f ∧ f ≤ u.now ∧ u.time.ppsOut = true) := by
  refine ⟨?_, ?_, ?_, ?_, ?_, ?_, ?_, ?_, ?_⟩
  · exact ⟨5 * sec, { dev with time.refSel := 1 }, _, rfl, by decide +kernel⟩
  · exact ⟨5 * sec, setFld 0x040040 5 4 1 dev, _, rfl, by decide +kernel, by decide +kernel⟩
  · exact ⟨5 * sec, setFld 0x040040 5 4 0 dev, _, rfl, by decide +kernel, by decide +kernel⟩
  · exact ⟨5 * sec, { dev with time.stepAvail := true }, _, rfl, by decide +kernel, by decide +kernel, by decide +kernel⟩
  · exact ⟨5 * sec, setFld 0x040050 7 7 1 { dev with time.stepAvail := true }, _, rfl, by decide +kernel, by decide +kernel, by decide +kernel⟩
  · exact ⟨5 * sec, { dev with time.ppsInEdge := some (3500 * ms) }, _, _, rfl, by decide +kernel, by decide +kernel, rfl, by decide +kernel, by
      decide +kernel⟩
  · exact ⟨5 * sec, setFld 0x040040 1 0 2 { dev with time.ppsInEdge := some (3500 * ms) }, _, _, rfl, by decide +kernel, by decide +kernel, rfl, by
      decide +kernel, by decide +kernel⟩
  · exact ⟨5 * sec, { dev with time.sync := true }, _, rfl, by decide +kernel, by decide +kernel, (by intro l h; cases h)⟩
  · exact ⟨5 * sec, { dev with time.ppsFall := some (5 * sec), time.ppsOut := true }, _, 5 * sec, rfl, by decide +kernel, by decide +kernel, by
      decide +kernel⟩

theorem witness_PtpRuns : (∃ (h : Hdr) (b : Body) (s : State) (u : State) (c : _) (kept : _) (ports : _), starts (opPtpConfig s) h b s = true ∧ u =
    begun (opPtpConfig s) h b s ∧ c = clockApplied (if hasElem b 0x0410 then wordAt (wordsOf b 0x0410) 0 else word4 0 2 0 0) ∧ kept = (if c.bits 31 24
        = 1 then (elemsOf b 0x8411).take 1 else elemsOf b 0x8411) ∧ ports = kept.map (fun e
        => { ptpPortOf (ptpPortApplied u (c.bits 23 16) e.val) with since := u.now }) ∧ (∀ k ∈ ptpScs u ports, scHeld u k = false) ∧ (∀ q ∈ ports,
        ptpPortOk u q = true) ∧ hasElem b 0x0412 = false) ∧
    (∃ (t : _) (p : _) (m : PtpMsg) (s : State) (u : State) (v : State) (a : _), u = tick t s ∧ (ptpPort u p).isSome = true ∧ takeArrival p u = some
        (a, v) ∧ (p < 2 ∨ lpTrunk v (p - 2) = false) ∧ m.domain ≠ v.time.ptpDomain) ∧
    (∃ (t : _) (p : _) (m : PtpMsg) (s : State) (u : State) (v : State) (q : PtpPort) (a : _), u = tick t s ∧ ptpPort u p = some q ∧ takeArrival p u =
        some (a, v) ∧ (p < 2 ∨ lpTrunk v (p - 2) = false) ∧ m.domain = v.time.ptpDomain ∧ m.kind = 1 ∧ m.clock.id ≠ clockId v ∧ m.clock.steps < 255 ∧
        bestOf v q = none) ∧
    (∃ (t : _) (p : _) (m : PtpMsg) (s : State) (u : State) (v : State) (q : PtpPort) (a : _) (c : _), u = tick t s ∧ ptpPort u p = some q ∧
        takeArrival p u = some (a, v) ∧ (p < 2 ∨ lpTrunk v (p - 2) = false) ∧ m.domain = v.time.ptpDomain ∧ m.kind = 0 ∧ q.state = 1 ∧ q.best = some
        (c, m.source) ∧ m.twoStep = false) ∧
    (∃ (t : _) (p : _) (m : PtpMsg) (s : State) (u : State) (v : State) (q : PtpPort) (a : _) (c : _) (x : _) (y : _), u = tick t s ∧ ptpPort u p =
        some q ∧ takeArrival p u = some (a, v) ∧ (p < 2 ∨ lpTrunk v (p - 2) = false) ∧ m.domain = v.time.ptpDomain ∧ m.kind = 2 ∧ q.state = 1 ∧ q.best
        = some (c, m.source) ∧ q.rxSync = some (m.seq, x, y)) ∧
    (∃ (q : PtpPort) (s : State), q.state = 1 ∧ servoSrc s = 1 ∧ 1 ≤ s.time.ptpProfile) ∧
    (∃ (t : _) (p : _) (k : _) (s : State) (u : State) (q : PtpPort), u = runBmca (tick t s) ∧ ptpPort u p = some q ∧ p < 2 ∧ q.port = p ∧ dataHeld u
        = false ∧ ptpSends u q k = true ∧ (ptpMsgOf u q k).isSome = true ∧ (stepOf u q ≠ 1 ∨ (k ≠ 0 ∧ k ≠ 6)) ∧ canSend u (spKey p q.sub) = true) ∧
    (∃ (t : _) (p : _) (k : _) (s : State) (u : State) (v : State) (q : PtpPort) (e : _) (n : _), u = runBmca (tick t s) ∧ ptpPort u p = some q ∧ 2 ≤
        p ∧ lpTrunk u (p - 2) = false ∧ dataHeld u = false ∧ ptpSends u q k = true ∧ (ptpMsgOf u q k).isSome = true ∧ (stepOf u q ≠ 1 ∨ (k ≠ 0 ∧ k ≠
        6)) ∧ canSend u (spKey p q.sub) = true ∧ ptpProtect q u = (v, some (some (e, n)))) ∧
    (∃ (t : _) (p : _) (k : _) (s : State) (u : State) (q : PtpPort), u = runBmca (tick t s) ∧ ptpPort u p = some q ∧ (p < 2 ∨ lpTrunk u (p - 2) =
        false) ∧ dataHeld u = false ∧ ptpSends u q k = true ∧ (ptpMsgOf u q k).isSome = true ∧ stepOf u q = 1 ∧ (k = 0 ∨ k = 6)) ∧
    (∃ (q : PtpPort) (d : _) (s : State), 4000 ≤ stampDiff s d ∧ has s.time.oneSteps q.port = false) ∧
    (∃ (t : _) (p : _) (s : State) (u : State) (x : _) (q : PtpPort) (v : State) (sa : _), u = tick t s ∧ look u.time.oneSteps p = some x ∧
        x.dispatched = false ∧ ptpPort u p = some q ∧ stampDiff u x.tRel * 250 ≤ (fld u 0x040060 9 0 * bc u (feeder p) : Nat) ∧ stepOf u q ≠ 0 ∧
        ptpProtect q u = (v, some sa)) ∧
    (∃ (t : _) (p : _) (s : State) (u : State) (x : _), u = tick t s ∧ look u.time.oneSteps p = some x ∧ stampDiff u x.tRel ≤ 0 ∧ -2 ≤ stampDiff u
        x.tRel ∧ x.disturbed = false ∧ x.dispatched = true ∧ x.atRelease = true ∧ macBusy u x.port = false ∧ canSend u x.port = true) := by
  refine ⟨?_, ?_, ?_, ?_, ?_, ?_, ?_, ?_, ?_, ?_, ?_, ?_⟩
  · exact ⟨hop, [elemW 0x0410 [0x01020000]], dev, _, _, _, _, by decide +kernel, rfl, rfl, rfl, rfl, by decide +kernel, by decide +kernel, by
      decide +kernel⟩
  · exact ⟨5 * sec, 2, { kind := 1, domain := 7 }, ptpDev ptp2, _, _, _, rfl, by decide +kernel, rfl, by decide +kernel, by decide +kernel⟩
  · exact ⟨5 * sec, 2, { kind := 1, clock := { id := 1 } }, ptpDev ptp2, _, _, ptp2, _, rfl, by decide +kernel, rfl, by decide +kernel, rfl, by
      decide +kernel, by decide +kernel, by decide +kernel, by decide +kernel⟩
  · exact ⟨5 * sec, 2, { kind := 0, twoStep := false }, ptpDev { ptp2 with state := 1, best := some ({}, 0) }, _,
      _, { ptp2 with state := 1, best := some ({}, 0) }, _, {}, rfl, by decide +kernel, rfl, by decide +kernel, rfl, by decide +kernel, by
      decide +kernel, by decide +kernel, by decide +kernel⟩
  · exact ⟨5 * sec, 2, { kind := 2 }, ptpDev { ptp2 with state := 1, best := some ({}, 0), rxSync := some (0, 1, 2) }, _,
      _, { ptp2 with state := 1, best := some ({}, 0), rxSync := some (0, 1, 2) }, _, {}, 1, 2, rfl, by decide +kernel, rfl, by decide +kernel, rfl,
      by decide +kernel, by decide +kernel, by decide +kernel, by decide +kernel⟩
  · exact ⟨{ ptp2 with state := 1 }, setFld 0x040040 1 0 1 dev, by decide +kernel, by decide +kernel, by decide +kernel⟩
  · exact ⟨5 * sec, 0, 5, ptpDev { ptp2 with port := 0 }, _, { ptp2 with port := 0 }, rfl, by decide +kernel, by decide +kernel, by decide +kernel, by
      decide +kernel, by decide +kernel, by decide +kernel, by decide +kernel, by decide +kernel⟩
  · exact ⟨5 * sec, 2, 5, ptpDev ptp2, _, _, ptp2, _, _, rfl, by decide +kernel, by decide +kernel, by decide +kernel, by decide +kernel, by
      decide +kernel, by decide +kernel, by decide +kernel, by decide +kernel, rfl⟩
  · exact ⟨5 * sec, 2, 0, ptpDev { ptp2 with step := 1 }, _, { ptp2 with step := 1 }, rfl, by decide +kernel, by decide +kernel, by decide +kernel, by
      decide +kernel, by decide +kernel, by decide +kernel, by decide +kernel⟩
  · exact ⟨{ ptp2 with step := 1 }, 20000010000, ptpDev { ptp2 with step := 1 }, by decide +kernel, by decide +kernel⟩
  · exact ⟨5 * sec, 2, { ptpDev { ptp2 with step := 1 } with time.oneSteps := [(2, { port := 18, msg := { kind := 0 }, tDep := 100, tRel := 0 })] },
      _, { port := 18, msg := { kind := 0 }, tDep := 100, tRel := 0 }, { ptp2 with step := 1 }, _, _, rfl, by decide +kernel, by decide +kernel, by
      decide +kernel, by decide +kernel, by decide +kernel, rfl⟩
  · exact ⟨5 * sec,
      2, { ptpDev ptp2 with time.oneSteps := [(2, { port := 18, msg := { kind := 0 }, tDep := 100, tRel := 20000000000, dispatched := true, atRelease := true })] },
      _, { port := 18, msg := { kind := 0 }, tDep := 100, tRel := 20000000000, dispatched := true, atRelease := true }, rfl, by decide +kernel, by
      decide +kernel, by decide +kernel, by decide +kernel, by decide +kernel, by decide +kernel, by decide +kernel, by decide +kernel⟩

theorem witness_TableCommandsComplete : (∃ (h : Hdr) (b : Body) (s : State) (u : State) (k : _) (w : _), starts opTableInsert h b s = true ∧ u = begun
    opTableInsert h b s ∧ k = tabBrick b ∧ engineIdle u k = true ∧ tabTable b = 0 ∧ w = vlanApplied (wordAt (wordsOf b 0x8504) 0) ∧ vlanStanding u k w
        = some false) ∧
    (∃ (h : Hdr) (b : Body) (s : State) (u : State) (k : _) (x : _) (e : _), starts opTableInsert h b s = true ∧ u = begun opTableInsert h b s ∧ k =
        tabBrick b ∧ engineIdle u k = true ∧ tabTable b ≠ 0 ∧ e = staticEntry b ∧ scStanding u (brickSc k e.sc) = some false ∧ x = tabs u k ∧ findFlow
        x e.key = none ∧ (freeWay x (keyWays x e.key)).isSome = true) ∧
    (∃ (h : Hdr) (b : Body) (s : State) (u : State) (k : _) (x : _) (e : _) (w : _) (o : _), starts opTableInsert h b s = true ∧ u = begun
        opTableInsert h b s ∧ k = tabBrick b ∧ engineIdle u k = true ∧ tabTable b ≠ 0 ∧ e = staticEntry b ∧ scStanding u (brickSc k e.sc) = some false
        ∧ x = tabs u k ∧ findFlow x e.key = some (w, o)) ∧
    (∃ (h : Hdr) (b : Body) (s : State) (u : State) (k : _) (e : _), starts opTableInsert h b s = true ∧ u = begun opTableInsert h b s ∧ k = tabBrick
        b ∧ engineIdle u k = false ∧ tabTable b ≠ 0 ∧ e = staticEntry b ∧ scStanding u (brickSc k e.sc) = some false) ∧
    (∃ (h : Hdr) (b : Body) (s : State) (u : State) (k : _), starts opTableDelete h b s = true ∧ u = begun opTableDelete h b s ∧ k = tabBrick b ∧
        engineIdle u k = true ∧ tabTable b = 0) ∧
    (∃ (h : Hdr) (b : Body) (s : State) (u : State) (k : _) (x : _) (w : _) (e : _), starts opTableDelete h b s = true ∧ u = begun opTableDelete h b s
        ∧ k = tabBrick b ∧ engineIdle u k = true ∧ tabTable b ≠ 0 ∧ x = tabs u k ∧ findFlow x (tabKey b) = some (w, e)) ∧
    (∃ (h : Hdr) (b : Body) (s : State) (u : State) (x : _), starts opTableRead h b s = true ∧ u = begun opTableRead h b s ∧ tabTable b = 0 ∧ x = tabs
        u (tabBrick b) ∧ entryHeld x true (tabIndex b) = false) ∧
    (∃ (h : Hdr) (b : Body) (s : State) (u : State) (x : _) (w : _) (e : _), starts opTableRead h b s = true ∧ u = begun opTableRead h b s ∧ tabTable
        b ≠ 0 ∧ x = tabs u (tabBrick b) ∧ entryHeld x false (tabKey b) = false ∧ findFlow x (tabKey b) = some (w, e)) ∧
    (∃ (h : Hdr) (b : Body) (s : State) (u : State) (k : _) (x : _), starts opTableRehash h b s = true ∧ u = begun opTableRehash h b s ∧ k = tabBrick
        b ∧ x = tables u k ∧ x.rehash = none) ∧
    (∃ (t : _) (k : _) (s : State) (u : State) (x : _) (r : Rehash) (y : _), u = tick t s ∧ k < 4 ∧ x = tabs u k ∧ x.rehash = some r ∧ x.chain = none
        ∧ y = copyTo (cuckooDepth u k) 65536 x r ∧ y.bad = false) ∧
    (∃ (t : _) (k : _) (s : State) (u : State) (x : _) (r : Rehash) (y : _), u = tick t s ∧ k < 4 ∧ x = tabs u k ∧ x.rehash = some r ∧ x.chain = none
        ∧ y = copyTo (cuckooDepth u k) 65536 x r ∧ y.bad = true) := by
  refine ⟨?_, ?_, ?_, ?_, ?_, ?_, ?_, ?_, ?_, ?_, ?_⟩
  · exact ⟨hop, [elemW 0x8501 [0], elemW 0x8502 [9], elemW 0x8504 [0x7FFF]], dev, _, _, _, by decide +kernel, rfl, rfl, by decide +kernel, by
      decide +kernel, rfl, by decide +kernel⟩
  · exact ⟨hop, [elemW 0x8501 [0x00010000], elemW 0x8503 [0, 0], elemW 0x8505 [5]], clsDev 0 {}, _, _, _, _, by decide +kernel, rfl, rfl, by
      decide +kernel, by decide +kernel, rfl, by decide +kernel, rfl, by decide +kernel, by decide +kernel⟩
  · exact ⟨hop, [elemW 0x8501 [0x00010000], elemW 0x8503 [0, 0], elemW 0x8505 [5]], clsDev 0 { flow := [(21876, flow0)] }, _, _, _, _, 21876, flow0,
      by decide +kernel, rfl, rfl, by decide +kernel, by decide +kernel, rfl, by decide +kernel, rfl, by decide +kernel⟩
  · exact ⟨hop, [elemW 0x8501 [0x00010000], elemW 0x8503 [0, 0], elemW 0x8505 [5]], clsDev 0 { chain := some chain0 }, _, _, _, by decide +kernel,
      rfl, rfl, by decide +kernel, by decide +kernel, rfl, by decide +kernel⟩
  · exact ⟨hop, [elemW 0x8501 [0], elemW 0x8502 [9]], dev, _, _, by decide +kernel, rfl, rfl, by decide +kernel, by decide +kernel⟩
  · exact ⟨hop, [elemW 0x8501 [0x00010000], elemW 0x8503 [0, 0]], clsDev 0 { flow := [(21876, flow0)] }, _, _, _, 21876, flow0, by decide +kernel,
      rfl, rfl, by decide +kernel, by decide +kernel, rfl, by decide +kernel⟩
  · exact ⟨hop, [elemW 0x8501 [0], elemW 0x8502 [9]], dev, _, _, by decide +kernel, rfl, by decide +kernel, rfl, by decide +kernel⟩
  · exact ⟨hop, [elemW 0x8501 [0x00010000], elemW 0x8503 [0, 0]], clsDev 0 { flow := [(21876, flow0)] }, _, _, 21876, flow0, by decide +kernel, rfl,
      by decide +kernel, rfl, by decide +kernel, by decide +kernel⟩
  · exact ⟨hop, [elemW 0x8501 [0x00010000], elemW 0x8507 [1, 2]], dev, _, _, _, by decide +kernel, rfl, rfl, rfl, by decide +kernel⟩
  · exact ⟨5 * sec, 3, clsDev 3 { flow := [(21876, flow0)], rehash := some { op := 1, seed0 := 1, seed1 := 2, start := 5 * sec } }, _,
      _, { op := 1, seed0 := 1, seed1 := 2, start := 5 * sec }, _, rfl, by decide +kernel, rfl, by decide +kernel, by decide +kernel, rfl, by
      decide +kernel⟩
  · exact ⟨5 * sec, 3, clsDev 3 { rehash := some { op := 1, seed0 := 1, seed1 := 2, start := 5 * sec, bad := true } }, _,
      _, { op := 1, seed0 := 1, seed1 := 2, start := 5 * sec, bad := true }, _, rfl, by decide +kernel, rfl, by decide +kernel, by decide +kernel,
      rfl, by decide +kernel⟩

theorem witness_PrefixesLearningAgeing : (∃ (h : Hdr) (b : Body) (s : State) (u : State) (x : _) (f : _) (n : _) (a : _), starts opLpmAdd h b s = true
    ∧ u = begun opLpmAdd h b s ∧ x = tables u (tabBrick b) ∧ prefixOf b = (f, n, a) ∧ ((∀ o ∈ x.lpm, ¬ (o.family = f ∧ o.len = n ∧ o.addr = a)))) ∧
    (∃ (h : Hdr) (b : Body) (s : State) (u : State) (x : _) (f : _) (n : _) (a : _), starts opLpmAdd h b s = true ∧ u = begun opLpmAdd h b s ∧ x =
        tables u (tabBrick b) ∧ prefixOf b = (f, n, a) ∧ ((∃ o ∈ x.lpm, o.family = f ∧ o.len = n ∧ o.addr = a))) ∧
    (∃ (h : Hdr) (b : Body) (s : State) (u : State) (x : _) (f : _) (n : _) (a : _), starts opLpmDelete h b s = true ∧ u = begun opLpmDelete h b s ∧ x
        = tables u (tabBrick b) ∧ prefixOf b = (f, n, a) ∧ ((∃ o ∈ x.lpm, o.family = f ∧ o.len = n ∧ o.addr = a))) ∧
    (∃ (t : _) (k : _) (s : State) (u : State) (m : LearnMsg) (r : List TabWork), u = tick t s ∧ k < 2 ∧ u.pwr.state < 2 ∧ (tables u k).work = .learn
        m :: r ∧ engineFree u k = true) ∧
    (∃ (m : LearnMsg) (s : State) (x : _) (w : _) (e : _), x = tabs s m.brick ∧ m.remove = true ∧ m.mirrored = true ∧ findFlow x m.key = some (w, e) ∧
        e.static = false) ∧
    (∃ (m : LearnMsg) (s : State) (x : _) (c : Sc), x = tabs s m.brick ∧ m.remove = false ∧ m.mirrored = true ∧ scOf s (scKey m.brick false m.sc) =
        some c ∧ c.deleting = false ∧ findFlow x m.key = none ∧ (freeWay x (keyWays x m.key)).isSome = true) ∧
    (∃ (t : _) (k : _) (s : State) (u : State) (x : _) (c : _) (w : _) (a : _), u = tick t s ∧ x = tabs u k ∧ x.chain = some c ∧ c.held = some (w, a)
        ∧ a + 8 * bc u k ≤ u.now ∧ c.moves = [] ∧ c.void = false ∧ c.origin = none) ∧
    (∃ (t : _) (k : _) (s : State) (u : State) (x : _) (c : _) (w : _) (a : _), u = tick t s ∧ x = tabs u k ∧ x.chain = some c ∧ c.held = some (w, a)
        ∧ u.now < a + 8 * bc u k) ∧
    (∃ (k : _), k < 4) ∧
    (∃ (b : Nat) (w : _) (s : State) (x : _) (e : _), x = tabs s b ∧ look x.flow w = some e ∧ e.static = false ∧ e.tomb = false ∧ flag s (0x050000 +
        0x100 * b) 16 = true ∧ standby s = false ∧ s.pwr.state < 2) ∧
    (∃ (b : Nat) (key : _) (s : State) (x : _) (w : _) (e : _), 2 ≤ b ∧ x = tabs s b ∧ findFlow x key = some (w, e) ∧ e.static = false ∧ e.hit = false
        ∧ 15 ≤ e.age) ∧
    (∃ (b : Nat) (key : _) (s : State) (x : _) (w : _) (e : _), x = tabs s b ∧ findFlow x key = some (w, e) ∧ e.hit = true) := by
  refine ⟨?_, ?_, ?_, ?_, ?_, ?_, ?_, ?_, ?_, ?_, ?_, ?_⟩
  · exact ⟨hop, [elemW 0x8501 [0x00020000], elemW 0x8508 [0x04200000, 0x0A000001, 0, 0, 0], elemW 0x8509 [0]], dev, _, _, 4, 32, 0x0A000001, by
      decide +kernel, rfl, rfl, by decide +kernel, by decide +kernel⟩
  · exact ⟨hop, [elemW 0x8501 [0x00020000], elemW 0x8508 [0x04200000, 0x0A000001, 0, 0, 0], elemW 0x8509 [0]], clsDev
      0 { lpm := [{ family := 4, len := 32, addr := 0x0A000001, action := 0, cls := 0 }] }, _, _, 4, 32, 0x0A000001, by decide +kernel, rfl, rfl, by
      decide +kernel, by decide +kernel⟩
  · exact ⟨hop, [elemW 0x8501 [0x00020000], elemW 0x8508 [0x04200000, 0x0A000001, 0, 0, 0]], clsDev
      0 { lpm := [{ family := 4, len := 32, addr := 0x0A000001, action := 0, cls := 0 }] }, _, _, 4, 32, 0x0A000001, by decide +kernel, rfl, rfl, by
      decide +kernel, by decide +kernel⟩
  · exact ⟨5 * sec, 1, clsDev 1 { work := [.learn { remove := false, brick := 1, sc := 5, key := 0 }] },
      _, { remove := false, brick := 1, sc := 5, key := 0 }, [], rfl, by decide +kernel, by decide +kernel, by decide +kernel, by decide +kernel⟩
  · exact ⟨{ remove := true, brick := 1, sc := 5, key := 0, mirrored := true }, clsDev 1 { flow := [(21876, flow0)] }, _, 21876, flow0, rfl, by
      decide +kernel, by decide +kernel, by decide +kernel, by decide +kernel⟩
  · exact ⟨{ remove := false, brick := 0, sc := 5, key := 0, mirrored := true }, clsDev 0 {}, _, { sci := 0, cfg := 0 }, rfl, by decide +kernel, by
      decide +kernel, by decide +kernel, by decide +kernel, by decide +kernel, by decide +kernel⟩
  · exact ⟨5 * sec, 1, clsDev 1 { chain := some chain0 }, _, _, chain0, 3, 4 * sec, rfl, rfl, by decide +kernel, by decide +kernel, by decide +kernel,
      by decide +kernel, by decide +kernel, by decide +kernel⟩
  · exact ⟨5 * sec, 1, clsDev 1 { chain := some { chain0 with held := some (3, 5 * sec) } }, _, _, { chain0 with held := some (3, 5 * sec) }, 3, 5 *
      sec, rfl, rfl, by decide +kernel, by decide +kernel, by decide +kernel⟩
  · exact ⟨3, by decide +kernel⟩
  · exact ⟨1, 21876, setFld 0x050100 16 16 1 (clsDev 1 { flow := [(21876, flow0)] }), _, flow0, rfl, by decide +kernel, by decide +kernel, by
      decide +kernel, by decide +kernel, by decide +kernel, by decide +kernel⟩
  · exact ⟨2, 0, clsDev 2 { flow := [(21876, { flow0 with age := 15 })] }, _, 21876, { flow0 with age := 15 }, by decide +kernel, rfl, by
      decide +kernel, by decide +kernel, by decide +kernel, by decide +kernel⟩
  · exact ⟨2, 0, clsDev 2 { flow := [(21876, { flow0 with hit := true })] }, _, 21876, { flow0 with hit := true }, rfl, by decide +kernel, by
      decide +kernel⟩

theorem witness_ChannelCommandsComplete : (∃ (h : Hdr) (b : Body) (s : State) (u : State) (key : _), starts opScCreate h b s = true ∧ u = begun
    opScCreate h b s ∧ key = refKey b ∧ standby u = false ∧ scBusy u key = false ∧ inCa u key = false ∧ scOf u key = none) ∧
    (∃ (h : Hdr) (b : Body) (s : State) (u : State) (key : _) (c : Sc), starts opScDelete h b s = true ∧ u = begun opScDelete h b s ∧ key = refKey b ∧
        standby u = false ∧ scBusy u key = false ∧ scOf u key = some c ∧ c.deleting = false ∧ ptpTxSc u key = false ∧ ptpRxSc u key = false ∧ inCa u
        key = false ∧ c.ans = []) ∧
    (∃ (h : Hdr) (b : Body) (s : State) (u : State) (key : _) (c : Sc), starts opScDelete h b s = true ∧ u = begun opScDelete h b s ∧ key = refKey b ∧
        standby u = false ∧ scBusy u key = false ∧ scOf u key = some c ∧ c.deleting = false ∧ ptpTxSc u key = false ∧ ptpRxSc u key = false ∧ inCa u
        key = false ∧ c.ans ≠ []) ∧
    (∃ (h : Hdr) (b : Body) (s : State) (u : State) (key : _) (c : Sc) (k : Key) (init : _) (handle : _), starts opSaInstall h b s = true ∧ u = begun
        opSaInstall h b s ∧ key = refKey b ∧ standby u = false ∧ scBusy u key = false ∧ scOf u key = some c ∧ c.deleting = false ∧ c.xpn = false ∧
        init = (if hasElem b 0x8609 then bytesNat (wordsOf b 0x8609) 0 8 else 1) ∧ init ≤ c.pnEnd ∧ inCa u key = false ∧ entryOn c (anOf b) = none ∧
        handle = (wordAt (wordsOf b 0x8608) 0).toNat ∧ scRx key = true ∧ keyFor u h.world handle [uDecrypt] mBus = .ok k ∧ k.alg = c.suite % 2 + 1 ∧
        (freeEntry u).isSome = true ∧ (takeSlot 0 u).isSome = true) ∧
    (∃ (h : Hdr) (b : Body) (s : State) (u : State) (key : _) (c : Sc) (e : _) (a : Sa) (t : _) (x : Sa), starts opSaSwitchTx h b s = true ∧ u = begun
        opSaSwitchTx h b s ∧ key = refKey b ∧ standby u = false ∧ scBusy u key = false ∧ scOf u key = some c ∧ c.deleting = false ∧ inCa u key = false
        ∧ scRx key = false ∧ entryOn c (anOf b) = some e ∧ saOf u e = some a ∧ a.st = 0 ∧ t = beginSwitch key (anOf b) u ∧ saOf t e = some x ∧ x.st =
        1) ∧
    (∃ (h : Hdr) (b : Body) (s : State) (u : State) (key : _) (c : Sc) (e : _) (a : Sa) (t : _) (x : Sa), starts opSaSwitchTx h b s = true ∧ u = begun
        opSaSwitchTx h b s ∧ key = refKey b ∧ standby u = false ∧ scBusy u key = false ∧ scOf u key = some c ∧ c.deleting = false ∧ inCa u key = false
        ∧ scRx key = false ∧ entryOn c (anOf b) = some e ∧ saOf u e = some a ∧ a.st = 0 ∧ t = beginSwitch key (anOf b) u ∧ saOf t e = some x ∧ x.st ≠
        1) ∧
    (∃ (h : Hdr) (b : Body) (s : State) (u : State) (key : _) (c : Sc) (e : _) (a : Sa), starts opSaErase h b s = true ∧ u = begun opSaErase h b s ∧
        key = refKey b ∧ standby u = false ∧ scBusy u key = false ∧ scOf u key = some c ∧ c.deleting = false ∧ entryOn c (anOf b) = some e ∧ saOf u e
        = some a ∧ inCa u key = false ∧ (a.rx = true ∨ a.st ≠ 1) ∧ a.st ≠ 3) ∧
    (∃ (h : Hdr) (b : Body) (s : State) (u : State) (key : _) (c : Sc) (e : _), starts opSaRead h b s = true ∧ u = begun opSaRead h b s ∧ key = refKey
        b ∧ scBusy u key = false ∧ scOf u key = some c ∧ hasElem b 0x8607 = true ∧ entryOn c (anOf b) = some e ∧ (saOf u e).isSome = true) ∧
    (∃ (h : Hdr) (b : Body) (s : State) (u : State) (ca : _) (x : _) (k : _), starts opMkaConfig h b s = true ∧ u = begun opMkaConfig h b s ∧ ca =
        caRef b ∧ standby u = false ∧ (∀ f ∈ u.cmd.flights, f.await ≠ .caDeleted ca) ∧ mkaAction b = 1 ∧ look u.sas.cas ca = none ∧ hasElem b 0x0623 =
        false ∧ x
        = { ckn := (elemOf b 0x8621).toList, cak := (wordAt (wordsOf b 0x8622) 0).toNat, txSc := bytesNat (wordsOf b 0x8624) 0 2, rxSc := bytesNat (wordsOf b 0x8624) 2 2, lastHello := u.now, lastSak := u.now }
        ∧ ((∀ n ∈ caScs ca x, has u.sas.scs n = false ∧ ∀ e ∈ u.sas.cas, e.1 ≠ ca → n ∉ caScs e.1 e.2)) ∧ keyFor u h.world x.cak [uDerive] mCore = .ok
        k ∧ (k.alg = 1 ∨ k.alg = 2)) := by
  refine ⟨?_, ?_, ?_, ?_, ?_, ?_, ?_, ?_, ?_⟩
  · exact ⟨hop, [elemW 0x8601 [0x02000005], elemW 0x8602 [0], elemW 0x8603 [0, 1]], dev, _, _, by decide +kernel, rfl, rfl, by decide +kernel, by
      decide +kernel, by decide +kernel, by decide +kernel⟩
  · exact ⟨hop, [elemW 0x8601 [0x02000005]], saDev scFree sa0, _, _, scFree, by decide +kernel, rfl, rfl, by decide +kernel, by decide +kernel, by
      decide +kernel, by decide +kernel, by decide +kernel, by decide +kernel, by decide +kernel, by decide +kernel⟩
  · exact ⟨hop, [elemW 0x8601 [0x02000005]], saDev sc0 sa0, _, _, sc0, by decide +kernel, rfl, rfl, by decide +kernel, by decide +kernel, by
      decide +kernel, by decide +kernel, by decide +kernel, by decide +kernel, by decide +kernel, by decide +kernel⟩
  · exact ⟨hop, [elemW 0x8601 [0x02010005], elemW 0x8607 [0], elemW 0x8608 [0x10000]], saDev scFree sa0, _, _, scFree, busKey, _, _, by
      decide +kernel, rfl, rfl, by decide +kernel, by decide +kernel, by decide +kernel, by decide +kernel, by decide +kernel, rfl, by decide +kernel,
      by decide +kernel, by decide +kernel, rfl, by decide +kernel, by decide +kernel, by decide +kernel, by decide +kernel, by decide +kernel⟩
  · exact ⟨hop, [elemW 0x8601 [0x02000005], elemW 0x8607 [0]], saDev sc0 sa0, _, _, sc0, 7, sa0, _, _, by decide +kernel, rfl, rfl, by decide +kernel,
      by decide +kernel, by decide +kernel, by decide +kernel, by decide +kernel, by decide +kernel, by decide +kernel, by decide +kernel, by
      decide +kernel, rfl, rfl, by decide +kernel⟩
  · exact ⟨hop, [elemW 0x8601 [0x02000005], elemW 0x8607
      [0]], { saDev sc0 sa0 with brk.bricks := [(0, { banks := [(0, { sa := 7, primed := 0 })] })] }, _, _, sc0, 7, sa0, _, _, by decide +kernel, rfl,
      rfl, by decide +kernel, by decide +kernel, by decide +kernel, by decide +kernel, by decide +kernel, by decide +kernel, by decide +kernel, by
      decide +kernel, by decide +kernel, rfl, rfl, by decide +kernel⟩
  · exact ⟨hop, [elemW 0x8601 [0x02000005], elemW 0x8607 [0]], saDev sc0 sa0, _, _, sc0, 7, sa0, by decide +kernel, rfl, rfl, by decide +kernel, by
      decide +kernel, by decide +kernel, by decide +kernel, by decide +kernel, by decide +kernel, by decide +kernel, by decide +kernel, by
      decide +kernel⟩
  · exact ⟨hop, [elemW 0x8601 [0x02000005], elemW 0x8607 [0]], saDev sc0 sa0, _, _, sc0, 7, by decide +kernel, rfl, rfl, by decide +kernel, by
      decide +kernel, by decide +kernel, by decide +kernel, by decide +kernel⟩
  · exact ⟨hop, [elemW 0x8620 [0x02030100], elemW 0x8621 [0], elemW 0x8622 [0x10001], elemW 0x8624 [0x00640064]], saDev sc0 sa0, _, _, _, cak, by
      decide +kernel, rfl, rfl, by decide +kernel, by decide +kernel, by decide +kernel, by decide +kernel, by decide +kernel, rfl, by decide +kernel,
      by decide +kernel, by decide +kernel⟩

theorem witness_ChannelTimersRun : (∃ (t : _) (key : _) (s : State) (u : State) (c : Sc), u = tick t s ∧ scOf u key = some c ∧ (c.pending).isSome =
    true) ∧
    (∃ (key : _) (n : _) (s : State) (c : Sc) (e : _) (k : _), scOf s key = some c ∧ entryOn c n = some e ∧ bankOf s e = some k ∧ (get (brick s
        k.1).banks k.2 { sa := e, primed := 0 }).ready = true) ∧
    (∃ (t : _) (e : _) (s : State) (u : State) (a : Sa) (d : _), u = tick t s ∧ saOf u e = some a ∧ a.retireAt = some d ∧ a.st = 2 ∧ d ≤ u.now) ∧
    (∃ (t : _) (e : _) (s : State) (u : State) (a : Sa), u = tick t s ∧ saOf u e = some a ∧ a.st = 3 ∧ refCount u e = 0 ∧ ((∀ c, scOf u a.scKey = some
        c → c.deleting = false))) ∧
    (∃ (t : _) (ca : _) (m : Mkpdu) (s : State) (u : State) (x : MkaCa), u = tick t s ∧ look u.sas.cas ca = some x ∧ x.deleting = false ∧ mkaRuns u
        (ca / 128) = true ∧ m.icvOk = true ∧ (∀ p ∈ x.peers, p.sci ≠ m.sci) ∧ m.live = true ∧ x.peers.length < 16) ∧
    (∃ (t : _) (ca : _) (s : State) (u : State) (x : MkaCa), u = tick t s ∧ look u.sas.cas ca = some x ∧ x.deleting = false ∧ mkaRuns u (ca / 128) =
        true ∧ x.lastHello + x.hello * ms ≤ u.now) ∧
    (∃ (t : _) (ca : _) (n : _) (s : State) (u : State) (x : MkaCa) (p : MkaPeer), u = tick t s ∧ look u.sas.cas ca = some x ∧ x.deleting = false ∧
        mkaRuns u (ca / 128) = true ∧ x.peers.find? (fun q => decide (q.sci = n)) = some p ∧ p.last + 3 * x.hello * ms ≤ u.now) ∧
    (∃ (t : _) (ca : _) (s : State) (u : State) (x : MkaCa) (y : _) (v : _) (w : _), u = tick t s ∧ look u.sas.cas ca = some x ∧ x.rekey ≠ 0 ∧
        x.lastSak + x.rekey * sec ≤ u.now ∧ x.deleting = false ∧ x.peers ≠ [] ∧ isServer u ca x = true ∧ mkaRuns u (ca / 128) = true ∧ u.eng.failed =
        false ∧ y = nextSak u x ∧ (v, w) = drawBits (sakBits y) u) := by
  refine ⟨?_, ?_, ?_, ?_, ?_, ?_, ?_, ?_⟩
  · exact ⟨5 * sec, 5, saDev { sc0 with pending := some 0 } sa0, _, { sc0 with pending := some 0 }, rfl, by decide +kernel, by decide +kernel⟩
  · exact ⟨5, 0, { saDev sc0 sa0 with brk.bricks := [(0, { banks := [(0, { sa := 7, primed := 0, ready := true })] })] }, sc0, 7, (0, 0), by
      decide +kernel, by decide +kernel, by decide +kernel, by decide +kernel⟩
  · exact ⟨5 * sec, 7, saDev sc0 { sa0 with st := 2, retireAt := some (5 * sec) }, _, { sa0 with st := 2, retireAt := some (5 * sec) }, 5 * sec, rfl,
      by decide +kernel, by decide +kernel, by decide +kernel, by decide +kernel⟩
  · exact ⟨5 * sec, 7, saDev sc0 { sa0 with st := 3 }, _, { sa0 with st := 3 }, rfl, by decide +kernel, by decide +kernel, by decide +kernel, (by
      intro c h; obtain rfl : c = sc0 := Option.some.inj (h.symm.trans (by decide +kernel)); rfl)⟩
  · exact ⟨5 * sec, 3, { sci := 9 }, caDev ca0, _, ca0, rfl, by decide +kernel, by decide +kernel, by decide +kernel, by decide +kernel, by
      decide +kernel, by decide +kernel, by decide +kernel⟩
  · exact ⟨5 * sec, 3, caDev ca0, _, ca0, rfl, by decide +kernel, by decide +kernel, by decide +kernel, by decide +kernel⟩
  · exact ⟨7 * sec, 3, 9, caDev { ca0 with peers := [{ sci := 9, sc := 100, last := sec }] },
      _, { ca0 with peers := [{ sci := 9, sc := 100, last := sec }] }, { sci := 9, sc := 100, last := sec }, rfl, by decide +kernel, by
      decide +kernel, by decide +kernel, by decide +kernel, by decide +kernel⟩
  · exact ⟨5 * sec, 3, caDev { ca0 with rekey := 1, peers := [{ sci := 9, sc := 100, last := sec }] },
      _, { ca0 with rekey := 1, peers := [{ sci := 9, sc := 100, last := sec }] }, _, (drawBits 128 (tick (5 * sec)
      (caDev { ca0 with rekey := 1, peers := [{ sci := 9, sc := 100, last := sec }] }))).1, (drawBits 128 (tick (5 * sec)
      (caDev { ca0 with rekey := 1, peers := [{ sci := 9, sc := 100, last := sec }] }))).2, rfl, by decide +kernel, by decide +kernel, by
      decide +kernel, by decide +kernel, by decide +kernel, by decide +kernel, by decide +kernel, by decide +kernel, rfl, (rfl)⟩

theorem witness_FramesArrive : (∃ (t : _) (sp : _) (f : Frame) (s : State) (u : State) (v : _) (r : Resolved) (w : State), u = tick t s ∧ sp < 16 ∧
    subExists u sp = true ∧ (subPort u sp).link = true ∧ f.etype ≠ 0x8808 ∧ isCommand u (spPort sp) (spIdx sp) f = false ∧ v = countRx sp f u ∧ 64 ≤
        f.len ∧ f.len ≤ frameMax v (spPort sp) ∧ takesNone v (spPort sp) = false ∧ isPtp f = false ∧ isGdoi v sp f = false ∧ resolveTx (spPort sp)
        (spIdx sp) f (perf (spPort sp) 1 1 v) = (r, w) ∧ r.sc = none) ∧
    (∃ (t : _) (sp : _) (f : Frame) (s : State) (u : State) (v : _), u = tick t s ∧ sp < 16 ∧ subExists u sp = true ∧ (subPort u sp).link = true ∧
        f.etype ≠ 0x8808 ∧ isCommand u (spPort sp) (spIdx sp) f = false ∧ v = countRx sp f u ∧ (f.len < 64 ∨ frameMax v (spPort sp) < f.len)) ∧
    (∃ (h : Held) (r : Resolved) (s : State), r.drop = none ∧ r.sc = none ∧ expressFit s h.brick r.cls h.frame.len none 0 = false) ∧
    (∃ (h : Held) (s : State), stagedBytes s h.brick + h.frame.len ≤ 98304) ∧
    (∃ (h : Held) (s : State), 98304 < stagedBytes s h.brick + h.frame.len) ∧
    (∃ (t : _) (p : _) (f : Frame) (s : State) (u : State) (v : _) (r : Resolved) (w : State), u = tick t s ∧ p < 2 ∧ lpTrunk u p = false ∧ (subPort u
        (18 + p)).link = true ∧ f.etype ≠ 0x8808 ∧ f.etype ≠ 0x888E ∧ v = countRx (18 + p) f u ∧ 64 ≤ f.len ∧ f.len ≤ frameMax v (2 + p) ∧ takesNone v
        (2 + p) = false ∧ hasSecTag v p f = false ∧ isPtp f = false ∧ resolveRx (2 + p) f (perf (2 + p) 1 1 v) = (r, w) ∧ r.sc = none) ∧
    (∃ (t : _) (p : _) (f : Frame) (s : State) (u : State) (v : _) (g : SecTag), u = tick t s ∧ p < 2 ∧ lpTrunk u p = false ∧ (subPort u (18 +
        p)).link = true ∧ f.etype ≠ 0x8808 ∧ f.etype ≠ 0x888E ∧ v = countRx (18 + p) f u ∧ 64 ≤ f.len ∧ f.len ≤ frameMax v (2 + p) ∧ takesNone v (2 +
        p) = false ∧ hasSecTag v p f = true ∧ f.sec = some g ∧ badTag f g = true ∧ f.fcsOk = true) := by
  refine ⟨?_, ?_, ?_, ?_, ?_, ?_, ?_⟩
  · exact ⟨5 * sec, 8, { len := 64 }, net, _, _, _, _, rfl, by decide +kernel, by decide +kernel, by decide +kernel, by decide +kernel, by
      decide +kernel, rfl, by decide +kernel, by decide +kernel, by decide +kernel, by decide +kernel, by decide +kernel, rfl, by decide +kernel⟩
  · exact ⟨5 * sec, 8, { len := 63 }, net, _, _, rfl, by decide +kernel, by decide +kernel, by decide +kernel, by decide +kernel, by decide +kernel,
      rfl, by decide +kernel⟩
  · exact ⟨{ fr with stage := .staging }, {}, { net with regs := [(0x070000, 0x00C00000)] }, by decide +kernel, by decide +kernel, by decide +kernel⟩
  · exact ⟨fr, net, by decide +kernel⟩
  · exact ⟨{ fr with frame := { len := 98305 } }, net, by decide +kernel⟩
  · exact ⟨5 * sec, 1, { len := 64 }, net, _, _, _, _, rfl, by decide +kernel, by decide +kernel, by decide +kernel, by decide +kernel, by
      decide +kernel, rfl, by decide +kernel, by decide +kernel, by decide +kernel, by decide +kernel, by decide +kernel, rfl, by decide +kernel⟩
  · exact ⟨5 * sec, 1, { len := 64, sec := some { an := 0, pn := 1, v := true } }, net, _, _, { an := 0, pn := 1, v := true }, rfl, by decide +kernel,
      by decide +kernel, by decide +kernel, by decide +kernel, by decide +kernel, rfl, by decide +kernel, by decide +kernel, by decide +kernel, by
      decide +kernel, by decide +kernel, by decide +kernel, by decide +kernel⟩

theorem witness_BrickFramesAdvance : (∃ (t : _) (id : _) (s : State) (u : State) (h : Held), u = tick t s ∧ frameOf u id = some h ∧ h.stage = .staging
    ∧ h.frame.fcsOk = true ∧ h.drop = none ∧ parserFull u h.brick h.sc = false ∧ bulkInUse u h.brick < 1472 ∧ h.missed = false) ∧
    (∃ (t : _) (id : _) (s : State) (u : State) (h : Held) (key : _) (x : _), u = tick t s ∧ frameOf u id = some h ∧ h.sc = some key ∧ h.stage = .miss
        ∧ x = brick u h.brick ∧ (x.misses.take 8).contains key = true) ∧
    (∃ (t : _) (id : _) (s : State) (u : State) (h : Held), u = tick t s ∧ frameOf u id = some h ∧ h.stage = .dispatch ∧ ((∀ y ∈ (brick u
        h.brick).held, y.stage = .dispatch → h.disp ≤ y.disp)) ∧ bulkEntries u h.brick < 1472 ∧ dataHeld u = false ∧ (nextTile u h.brick).isSome =
        true) ∧
    (∃ (h : Held) (s : State) (c : Cells), h.sc = none ∧ h.sa = none ∧ admitCells { h with tagRes := some true } h.frame.len s = .inl c) ∧
    (∃ (t : _) (id : _) (s : State) (u : State) (h : Held), u = tick t s ∧ frameOf u id = some h ∧ h.stage = .laneWait ∧ behind u h = false ∧ h.brick
        < 2 ∧ h.sc = none) ∧
    (∃ (t : _) (id : _) (s : State) (u : State) (h : Held), u = tick t s ∧ [0, 1, 2, 3].findSome? (heldBy u · id) = some h ∧ mayRelease u h = true ∧
        h.express = false ∧ h.gone = false) ∧
    (∃ (t : _) (k : _) (s : State) (u : State), u = tick t s ∧ k < 4 ∧ (brick u k).change = some true ∧ tileFree u k 0 = true ∧ ((k = 0 → protLine u =
        false))) ∧
    (∃ (t : _) (k : _) (s : State) (u : State), u = tick t s ∧ 0 < k ∧ k < 4 ∧ (brick u k).change = some false ∧ ((∀ h ∈ (brick u k).held, h.express =
        true → h.gone = true))) := by
  refine ⟨?_, ?_, ?_, ?_, ?_, ?_, ?_, ?_⟩
  · exact ⟨5 * sec, 1, brk 0 [fr], _, fr, rfl, by decide +kernel, by decide +kernel, by decide +kernel, by decide +kernel, by decide +kernel, by
      decide +kernel, by decide +kernel⟩
  · exact ⟨5 * sec, 1, { net with brk.bricks := [(0, { held := [{ fr with stage := .miss, sc := some 5 }], misses := [5] })] },
      _, { fr with stage := .miss, sc := some 5 }, 5, _, rfl, by decide +kernel, by decide +kernel, by decide +kernel, rfl, by decide +kernel⟩
  · exact ⟨5 * sec, 1, { net with brk.bricks := [(3, { held := [{ fr with brick := 3, stage := .dispatch }], tiles := [(4, okTile)] })] },
      _, { fr with brick := 3, stage := .dispatch }, rfl, by decide +kernel, by decide +kernel, by decide +kernel, by decide +kernel, by
      decide +kernel, by decide +kernel⟩
  · exact ⟨fr, net, { frame := 1, queue := 0, cls := 1, port := 0, shared := 0 }, by decide +kernel, by decide +kernel, by decide +kernel⟩
  · exact ⟨5 * sec, 1, brk 1 [{ fr with brick := 1, stage := .laneWait }], _, { fr with brick := 1, stage := .laneWait }, rfl, by decide +kernel, by
      decide +kernel, by decide +kernel, by decide +kernel, by decide +kernel⟩
  · exact ⟨5 * sec, 1, brk 1 [{ fr with brick := 1, stage := .done }], _, { fr with brick := 1, stage := .done }, rfl, by decide +kernel, by
      decide +kernel, by decide +kernel, by decide +kernel⟩
  · exact ⟨5 * sec, 3, { net with brk.bricks := [(3, { change := some true })] }, _, rfl, by decide +kernel, by decide +kernel, by decide +kernel, by
      decide +kernel⟩
  · exact ⟨5 * sec, 3, { net with brk.bricks := [(3, { change := some false })] }, _, rfl, by decide +kernel, by decide +kernel, by decide +kernel, by
      decide +kernel⟩

theorem witness_TagsAndCopiesAct : (∃ (t : _) (id : _) (s : State) (u : State) (h : Held) (key : _), u = tick t s ∧ frameOf u id = some h ∧
    (h.sa).isSome = true ∧ h.sc = some key ∧ 2 ≤ h.brick ∧ h.tagRes = none ∧ h.stage = .tile ∧ (scOf u key).isSome = true) ∧
    (∃ (t : _) (id : _) (s : State) (u : State) (h : Held) (key : _), u = tick t s ∧ frameOf u id = some h ∧ (h.sa).isSome = true ∧ h.sc = some key ∧
        2 ≤ h.brick ∧ h.tagRes = none ∧ h.stage = .tile ∧ (scOf u key).isSome = true) ∧
    (∃ (n : _) (q : _) (s : State) (x : _), x = stream s n ∧ x.pending = none ∧ 0 < seqDiff q x.high ∧ seqDiff q x.high < 1024) ∧
    (∃ (t : _) (id : _) (s : State) (u : State) (h : Held) (n : _) (q : _), u = tick t s ∧ frameOf u id = some h ∧ h.seq = some (n, q) ∧ 2 ≤ h.brick ∧
        h.eligible = false ∧ h.gone = false ∧ seqMarked (stream u n) q = true) ∧
    (∃ (t : _) (id : _) (s : State) (u : State) (h : Held) (n : _) (q : _), u = tick t s ∧ frameOf u id = some h ∧ h.seq = some (n, q) ∧ 2 ≤ h.brick ∧
        h.eligible = false ∧ h.gone = false ∧ seqMarked (stream u n) q = false ∧ (stream u n).pending = none ∧ -1024 < seqDiff q (stream u n).high) ∧
    (∃ (t : _) (n : _) (s : State) (u : State) (x : _) (id : _) (h : Held) (q : _), u = tick t s ∧ x = stream u n ∧ x.heldSeq = some id ∧ x.pending =
        none ∧ frameOf u id = some h ∧ h.seq = some (n, q) ∧ seqMarked x q = true) ∧
    (∃ (t : _) (n : _) (s : State) (u : State) (x : _) (id : _) (h : Held) (q : _), u = tick t s ∧ x = stream u n ∧ x.heldSeq = some id ∧ x.pending =
        none ∧ frameOf u id = some h ∧ h.seq = some (n, q) ∧ seqMarked x q = false ∧ h.tagRes.isSome = true) ∧
    (∃ (t : _) (id : _) (s : State) (u : State) (h : Held) (y : _), u = tick t s ∧ frameOf u id = some h ∧ h.express = true ∧ h.eligible = true ∧
        h.gone = false ∧ h.stage = .tile ∧ (∀ x ∈ u.que.hold, x.id ≠ id) ∧ h.brick < 2 ∧ h.eport < 2 ∧ sinks u h.egress = false ∧ (holdOf u
        h.eport).length < 64 ∧ total (holdOf u h.eport) (·.outLen) + h.outLen ≤ 32768 ∧ y
        = { h with stage := .queue, queuedAt := u.now, wholeAt := u.now + h.frame.len * ingressByte u h } ∧ canSend (intoHold y u) h.egress = false)
        := by
  refine ⟨?_, ?_, ?_, ?_, ?_, ?_, ?_, ?_⟩
  · exact ⟨5 * sec, 1, brk 2 [{ fr with brick := 2, stage := .tile, sa := some 7, sc := some 32773 }],
      _, { fr with brick := 2, stage := .tile, sa := some 7, sc := some 32773 }, 32773, rfl, by decide +kernel, by decide +kernel, by decide +kernel,
      by decide +kernel, by decide +kernel, by decide +kernel, by decide +kernel⟩
  · exact ⟨5 * sec, 1, brk 2 [{ fr with brick := 2, stage := .tile, sa := some 7, sc := some 32773 }],
      _, { fr with brick := 2, stage := .tile, sa := some 7, sc := some 32773 }, 32773, rfl, by decide +kernel, by decide +kernel, by decide +kernel,
      by decide +kernel, by decide +kernel, by decide +kernel, by decide +kernel⟩
  · exact ⟨7, 1023, net, _, rfl, by decide +kernel, by decide +kernel, by decide +kernel⟩
  · exact ⟨5 * sec,
      1, { brk 2 [{ fr with brick := 2, seq := some (7, 1), eligible := false }] with brk.streams := [(7, { high := 1, bitmap := 1 })] },
      _, { fr with brick := 2, seq := some (7, 1), eligible := false }, 7, 1, rfl, by decide +kernel, by decide +kernel, by decide +kernel, by
      decide +kernel, by decide +kernel, by decide +kernel⟩
  · exact ⟨5 * sec, 1, brk 2 [{ fr with brick := 2, seq := some (7, 1), eligible := false }],
      _, { fr with brick := 2, seq := some (7, 1), eligible := false }, 7, 1, rfl, by decide +kernel, by decide +kernel, by decide +kernel, by
      decide +kernel, by decide +kernel, by decide +kernel, by decide +kernel, by decide +kernel⟩
  · exact ⟨5 * sec,
      7, { brk 2 [{ fr with brick := 2, seq := some (7, 1) }] with brk.streams := [(7, { high := 1, bitmap := 1, heldSeq := some 1 })] }, _, _,
      1, { fr with brick := 2, seq := some (7, 1) }, 1, rfl, rfl, by decide +kernel, by decide +kernel, by decide +kernel, by decide +kernel, by
      decide +kernel⟩
  · exact ⟨5 * sec,
      7, { brk 2 [{ fr with brick := 2, seq := some (7, 2), tagRes := some true }] with brk.streams := [(7, { high := 1, bitmap := 1, heldSeq := some 1 })] },
      _, _, 1, { fr with brick := 2, seq := some (7, 2), tagRes := some true }, 2, rfl, rfl, by decide +kernel, by decide +kernel, by decide +kernel,
      by decide +kernel, by decide +kernel, by decide +kernel⟩
  · exact ⟨5 * sec,
      1, { brk 1 [{ fr with brick := 1, express := true, stage := .tile, eport := 1 }] with port.subs := [(8, { link := true, remoteFault := true })] },
      _, { fr with brick := 1, express := true, stage := .tile, eport := 1 }, _, rfl, by decide +kernel, by decide +kernel, by decide +kernel, by
      decide +kernel, by decide +kernel, by decide +kernel, by decide +kernel, by decide +kernel, by decide +kernel, by decide +kernel, by
      decide +kernel, rfl, by decide +kernel⟩

theorem witness_TrunkHeadersRun : (∃ (t : _) (p : _) (s : State) (u : State) (v : _) (x : _), u = tick t s ∧ framerRuns u p = true ∧ v = sendGroup p u
    ∧ x = trunk v p ∧ x.started = true ∧ flag v (trkCfg p) 2 = false) ∧
    (∃ (t : _) (p : _) (r : CourseRx) (s : State) (u : State) (x : _) (ok : _) (h : CourseHdr), u = tick t s ∧ p < 2 ∧ lpTrunk u p = true ∧ (subPort u
        (18 + p)).link = true ∧ 8 ≤ u.boot.step ∧ x = trunk u p ∧ x.inFrame = false ∧ soughtHeader (blockBytes r.blocks) = (true, ok, h) ∧ (ok ||
        trkCompat u p) = true ∧ legalJust h.just = true ∧ x.good = 0) ∧
    (∃ (t : _) (p : _) (r : CourseRx) (s : State) (u : State) (x : _) (ok : _) (h : CourseHdr), u = tick t s ∧ p < 2 ∧ lpTrunk u p = true ∧ (subPort u
        (18 + p)).link = true ∧ 8 ≤ u.boot.step ∧ x = trunk u p ∧ x.inFrame = false ∧ soughtHeader (blockBytes r.blocks) = (true, ok, h) ∧ (ok ||
        trkCompat u p) = true ∧ legalJust h.just = true ∧ x.good = 2 ∧ h.course = x.next) ∧
    (∃ (t : _) (p : _) (r : CourseRx) (s : State) (u : State) (x : _) (ok : _) (h : CourseHdr), u = tick t s ∧ p < 2 ∧ lpTrunk u p = true ∧ (subPort u
        (18 + p)).link = true ∧ 8 ≤ u.boot.step ∧ x = trunk u p ∧ x.inFrame = false ∧ soughtHeader (blockBytes r.blocks) = (false, ok, h)) ∧
    (∃ (t : _) (p : _) (s : State) (u : State) (x : _), u = tick t s ∧ p < 2 ∧ x = trunk u p ∧ 3 ≤ x.dirRun ∧ has x.keys x.phase = true ∧
        x.dirConflict = false) ∧
    (∃ (t : _) (p : _) (s : State) (u : State) (x : _) (ph : _), u = tick t s ∧ p < 2 ∧ x = trunk u p ∧ x.wantPhase = some ph ∧ has x.keys ph = true)
        ∧
    (∃ (t : _) (p : _) (s : State) (u : State) (x : _), u = tick t s ∧ p < 2 ∧ x = trunk u p ∧ (x.oldPhase).isSome = true ∧ 64 ≤ x.newRun) ∧
    (∃ (t : _) (p : _) (s : State) (u : State) (x : _) (k : _), u = tick t s ∧ p < 2 ∧ x = trunk u p ∧ look x.keys x.phase = some k ∧ k.ceiling ≤
        k.count ∧ k.asked = none) ∧
    (∃ (t : _) (p : _) (s : State) (u : State) (x : _) (t0 : _), u = tick t s ∧ p < 2 ∧ lpTrunk u p = true ∧ x = trunk u p ∧ x.outSince = some t0 ∧
        x.lof = false ∧ t0 + fld u (trkCfg p) 15 8 * us ≤ u.now) ∧
    (∃ (t : _) (p : _) (s : State) (u : State) (x : _), u = tick t s ∧ p < 2 ∧ x = trunk u p ∧ x.lof = true ∧ x.inFrame = true ∧ x.inSince + 100 * us
        ≤ u.now) ∧
    (∃ (t : _) (b : KeyBus) (r : List KeyBus) (s : State) (u : State) (p : _) (ph : _), u = tick t s ∧ u.sas.bus = b :: r ∧ b.trunk = some (p, ph)) :=
        by
  refine ⟨?_, ?_, ?_, ?_, ?_, ?_, ?_, ?_, ?_, ?_, ?_⟩
  · exact ⟨5 * sec, 1, setFld (trkCfg 1) 2 2 0 (trk { started := true }), _, _, _, rfl, by decide +kernel, rfl, rfl, by decide +kernel, by
      decide +kernel⟩
  · exact ⟨5 * sec, 1, blocksOf { course := 0 }, trk {}, _, _, true, (soughtHeader (blockBytes (blocksOf { course := 0 }).blocks)).2.2, rfl, by
      decide +kernel, by decide +kernel, by decide +kernel, by decide +kernel, rfl, by decide +kernel, by decide +kernel, by decide +kernel, by
      decide +kernel, by decide +kernel⟩
  · exact ⟨5 * sec, 1, blocksOf { course := 9 }, trk { good := 2, next := 9 }, _, _, true, (soughtHeader (blockBytes
      (blocksOf { course := 9 }).blocks)).2.2, rfl, by decide +kernel, by decide +kernel, by decide +kernel, by decide +kernel, rfl, by
      decide +kernel, by decide +kernel, by decide +kernel, by decide +kernel, by decide +kernel, by decide +kernel⟩
  · exact ⟨5 * sec, 1, { blocks := [] }, trk {}, _, _, (soughtHeader []).2.1, (soughtHeader []).2.2, rfl, by decide +kernel, by decide +kernel, by
      decide +kernel, by decide +kernel, rfl, by decide +kernel, by decide +kernel⟩
  · exact ⟨5 * sec, 1, trk { dirRun := 3, keys := [(0, tkey)] }, _, _, rfl, by decide +kernel, rfl, by decide +kernel, by decide +kernel, by
      decide +kernel⟩
  · exact ⟨5 * sec, 1, trk { wantPhase := some 1, keys := [(1, tkey)] }, _, _, 1, rfl, by decide +kernel, rfl, by decide +kernel, by decide +kernel⟩
  · exact ⟨5 * sec, 1, trk { oldPhase := some 0, newRun := 64 }, _, _, rfl, by decide +kernel, rfl, by decide +kernel, by decide +kernel⟩
  · exact ⟨5 * sec, 1, trk { keys := [(0, tkey)] }, _, _, tkey, rfl, by decide +kernel, rfl, by decide +kernel, by decide +kernel, by decide +kernel⟩
  · exact ⟨5 * sec, 1, trk { outSince := some 0 }, _, _, 0, rfl, by decide +kernel, by decide +kernel, rfl, by decide +kernel, by decide +kernel, by
      decide +kernel⟩
  · exact ⟨5 * sec, 1, trk { lof := true, inFrame := true }, _, _, rfl, by decide +kernel, rfl, by decide +kernel, by decide +kernel, by
      decide +kernel⟩
  · exact ⟨5 * sec, kbus, [], { trk {} with sas.bus := [kbus] }, _, 1, 1, rfl, by decide +kernel, by decide +kernel⟩

theorem witness_TrunkUnitsRun : (∃ (t : _) (p : _) (s : State) (u : State) (v : _) (x : _), u = tick t s ∧ framerRuns u p = true ∧ x = trunk u p ∧
    x.started = true ∧ x.dirGroup < 8 ∧ x.maskKeyed = true ∧ u.pwr.state = 0 ∧ v = setTrunk
        p { trunk (sendGroup p u) p with dirGroup := x.dirGroup + 1 } (sendGroup p u) ∧ v.pwr.state = 0) ∧
    (∃ (p : _) (pos : _) (s : State) (x : _), x = trunk s p ∧ fixedAt x pos = none ∧ (¬ (pos = 16 ∧ x.just = 0xFF)) ∧ x.spill = [] ∧ x.partial_ = none
        ∧ nextUnit p s = none) ∧
    (∃ (t : _) (p : _) (n : _) (s : State) (u : State) (v : State) (y : TxUnit), u = tick t s ∧ framerRuns u p = true ∧ (trunk u p).maskKeyed = true ∧
        (trunk u p).runTx = none ∧ hasFixed (trunk u p) n = true ∧ u.pwr.state = 0 ∧ pathUnit p n u = some (y, v) ∧ y.len ≤ 2068) ∧
    (∃ (t : _) (p : _) (s : State) (u : State), u = tick t s ∧ receives u p = true) ∧
    (∃ (t : _) (p : _) (n : _) (s : State) (u : State) (c : PathCfg), u = tick t s ∧ receives u p = true ∧ look (trunk u p).paths n = some c ∧
        c.rxMode = 1) ∧
    (∃ (y : UnitInfo), y.at_ = []) ∧
    (∃ (s : State) (p : _), rxKey s p = none) ∧
    (∃ (t : _) (p : _) (n : _) (s : State) (u : State) (c : PathCfg), u = tick t s ∧ receives u p = true ∧ addDrop u = true ∧ look (trunk u p).paths n
        = some c ∧ c.rxMode = 2 ∧ takesNone u (2 + p) = false) ∧
    (∃ (q : _) (y : TxUnit) (s : State) (x : _), sinks s (18 + q) = false ∧ x = trunk s q ∧ x.passBytes + 64 * y.whole ≤ 262144) ∧
    (∃ (q : _) (y : TxUnit) (s : State), sinks s (18 + q) = false ∧ 262144 < (trunk s q).passBytes + 64 * y.whole) ∧
    (∃ (t : _) (p : _) (n : _) (s : State) (u : State), u = tick t s ∧ p < 2 ∧ get (trunk u p).aisLast n 0 + 350 * us ≤ u.now ∧ (trunk u
        p).ais.contains n = true) ∧
    (∃ (t : _) (p : _) (n : _) (s : State) (u : State) (c : PathCfg), u = tick t s ∧ p < 2 ∧ flag u (trkCfg p) 3 = true ∧ ((trunk u p).lof = true ∨
        (trunk u p).labelFault = true) ∧ addDrop u = true ∧ framerRuns u (1 - p) = true ∧ look (trunk u p).paths n = some c ∧ c.rxMode = 2) ∧
    (∃ (sp : _), sp < 18) := by
  refine ⟨?_, ?_, ?_, ?_, ?_, ?_, ?_, ?_, ?_, ?_, ?_, ?_, ?_⟩
  · exact ⟨5 * sec, 1, trk { started := true, maskKeyed := true }, _, _, _, rfl, by decide +kernel, rfl, by decide +kernel, by decide +kernel, by
      decide +kernel, by decide +kernel, rfl, by decide +kernel⟩
  · exact ⟨1, 5, trk {}, _, rfl, by decide +kernel, by decide +kernel, by decide +kernel, by decide +kernel, by decide +kernel⟩
  · exact ⟨5 * sec, 1, 3, trk { maskKeyed := true, paths := [(3, pathCfg 1)], units := [{ path := 3, slots := 1 }] }, _, _, _, rfl, by decide +kernel,
      by decide +kernel, by decide +kernel, by decide +kernel, by decide +kernel, rfl, by decide +kernel⟩
  · exact ⟨5 * sec, 1, trk { inFrame := true }, _, rfl, by decide +kernel⟩
  · exact ⟨5 * sec, 1, 3, trk { inFrame := true, paths := [(3, pathCfg 1)] }, _, pathCfg 1, rfl, by decide +kernel, by decide +kernel, by
      decide +kernel⟩
  · exact ⟨{ at_ := [], bytes := [], frame := { len := 0 } }, by decide +kernel⟩
  · exact ⟨trk {}, 1, by decide +kernel⟩
  · exact ⟨5 * sec, 1, 3, trk { inFrame := true, paths := [(3, pathCfg 2)] }, _, pathCfg 2, rfl, by decide +kernel, by decide +kernel, by
      decide +kernel, by decide +kernel, by decide +kernel⟩
  · exact ⟨1, { path := 3, slots := 1 }, trk {}, _, by decide +kernel, rfl, by decide +kernel⟩
  · exact ⟨1, { path := 3, slots := 1 }, trk { passBytes := 262144 }, by decide +kernel, by decide +kernel⟩
  · exact ⟨5 * sec, 1, 3, trk { ais := [3] }, _, rfl, by decide +kernel, by decide +kernel, by decide +kernel⟩
  · exact ⟨5 * sec, 1, 3, setFld (trkCfg 1) 3 3 1 (trk { lof := true, paths := [(3, pathCfg 2)] }), _, pathCfg 2, rfl, by decide +kernel, by
      decide +kernel, by decide +kernel, by decide +kernel, by decide +kernel, by decide +kernel, by decide +kernel⟩
  · exact ⟨15, by decide +kernel⟩

theorem witness_TrunkCommandsComplete : (∃ (h : Hdr) (b : Body) (s : State) (u : State) (v : State) (w : State) (r : Body) (r' : Body), starts
    opPathConfig h b s = true ∧ u = begun opPathConfig h b s ∧ standby u = false ∧ elemsOf b 0x8703 = [] ∧ elemOf b 0x8704 = none ∧ applyElems
        applyTrunkElem (elemsOf b 0x8701) u = some (v, r) ∧ applyElems applyPathElem (elemsOf b 0x8702) v = some (w, r')) ∧
    (∃ (ws : List Word) (s : State) (p : _), p = byteAt ws 0 - 2 ∧ byteAt ws 1 % 2 ≠ trkDir s p ∧ (trunk s p).keys ≠ []) ∧
    (∃ (h : Hdr) (b : Body) (s : State) (u : State) (v : State) (e : Elem) (p : _), starts opPathConfig h b s = true ∧ u = begun opPathConfig h b s ∧
        standby u = false ∧ elemsOf b 0x8701 = [] ∧ elemsOf b 0x8702 = [] ∧ elemOf b 0x8704 = none ∧ elemsOf b 0x8703 = [e] ∧ p = byteAt e.val 0 - 2 ∧
        p < 2 ∧ applyKeyElem h.world e.val u = .inl v) ∧
    (∃ (h : Hdr) (b : Body) (s : State) (ws : _), starts opTrunkPmRead h b s = true ∧ ws = wordsOf b 0x8705 ∧ byteAt ws 3 = 2) ∧
    (∃ (h : Hdr) (b : Body) (s : State) (u : State) (ws : _) (x : _), starts opTrunkPmRead h b s = true ∧ u = begun opTrunkPmRead h b s ∧ ws = wordsOf
        b 0x8705 ∧ byteAt ws 3 = 0 ∧ x = trunk u (byteAt ws 0 - 2) ∧ rawMode u (byteAt ws 0 - 2) = false ∧ byteAt ws 1 = 0 ∧ (look x.pm 0).isSome =
        true) ∧
    (∃ (t : _) (p : _) (s : State) (u : State), u = tick t s ∧ p < 2 ∧ lpTrunk u p = true ∧ u.time.running = true ∧ rawMode u p = true ∧ (trunk u
        p).inFrame = true ∧ (trunk u p).lof = false ∧ (trunk u p).secCnt = []) := by
  refine ⟨?_, ?_, ?_, ?_, ?_, ?_⟩
  · exact ⟨hop, [elemW 0x8701 [0x03080000], elemW 0x8702 [0x03070100, 0, 0]], trk {}, _, _, _, _, _, by decide +kernel, rfl, by decide +kernel, by
      decide +kernel, by decide +kernel, rfl, (rfl)⟩
  · exact ⟨[0x03010000], trk { keys := [(0, tkey)] }, _, rfl, by decide +kernel, by decide +kernel⟩
  · exact ⟨hop, [elemW 0x8703 [0x03010000, 0x10000]], trk {}, _, _, elemW 0x8703 [0x03010000, 0x10000], _, by decide +kernel, rfl, by decide +kernel,
      by decide +kernel, by decide +kernel, by decide +kernel, by decide +kernel, rfl, by decide +kernel, rfl⟩
  · exact ⟨hop, [elemW 0x8705 [0x03000002, 0]], trk {}, _, by decide +kernel, rfl, by decide +kernel⟩
  · exact ⟨hop, [elemW 0x8705 [0x03000000, 0]], trk { pm := [(0, {})] }, _, _, _, by decide +kernel, rfl, rfl, by decide +kernel, rfl, by
      decide +kernel, by decide +kernel, by decide +kernel⟩
  · exact ⟨5 * sec, 1, trk { inFrame := true, paths := (List.range 17).map fun n => (n, pathCfg 1) }, _, rfl, by decide +kernel, by decide +kernel, by
      decide +kernel, by decide +kernel, by decide +kernel, by decide +kernel, by decide +kernel⟩

theorem witness_QueueCommandsComplete : (∃ (h : Hdr) (b : Body) (s : State), starts opQueueConfig h b s = true ∧ (elemOf b 0x0803).isSome = true) ∧
    (∃ (h : Hdr) (b : Body) (s : State), starts opQueueConfig h b s = true ∧ elemOf b 0x0803 = none) ∧
    (∃ (h : Hdr) (b : Body) (s : State), starts opShaperSet h b s = true) ∧
    (∃ (q : _) (rate : _) (v : Word) (s : State) (x : _), x = queueEntry s q ∧ (¬ (x.rate = rate ∧ x.hi = v.bits 31 16 ∧ x.lo = signedOf 16 (v.bits 15
        0)))) ∧
    (∃ (h : Hdr) (b : Body) (s : State), starts opGclWrite h b s = true) ∧
    (∃ (h : Hdr) (b : Body) (s : State) (u : State) (base : _), starts opGclCommit h b s = true ∧ u = begun opGclCommit h b s ∧ base = bytesNat
        (wordsOf b 0x880A) 0 8 % 2 ^ 40 ∧ 0 < fastDiff base (fast u)) := by
  refine ⟨?_, ?_, ?_, ?_, ?_, ?_⟩
  · exact ⟨hop, [elemW 0x8801 [0x03000000], elemW 0x0803 [0x80000000]], net, by decide +kernel, by decide +kernel⟩
  · exact ⟨hop, [elemW 0x8801 [0x03000000]], net, by decide +kernel, by decide +kernel⟩
  · exact ⟨hop, [elemW 0x8801 [0x03000000], elemW 0x8804 [0, 0]], net, by decide +kernel⟩
  · exact ⟨0x3000, 5, 0, net, _, rfl, by decide +kernel⟩
  · exact ⟨hop, [elemW 0x8806 [0x03000000], elemW 0x8807 [0], elemW 0x8808 [0, 0]], net, by decide +kernel⟩
  · exact ⟨hop, [elemW 0x8806 [0x03000000], elemW 0x8809 [0, 0], elemW 0x880A [0x7F, 0]], net, _, _, by decide +kernel, rfl, rfl, by decide +kernel⟩

theorem witness_EgressRuns : (∃ (t : _) (sp : _) (s : State) (u : State), u = tick t s ∧ sp < 16 ∧ sinks u sp = false ∧ canSend u sp = true ∧ (∀ h ∈
    waitingAt u sp, tooLong u h = false) ∧ (subPort u sp).tx = none ∧ (∀ o ∈ oneStepsOf u sp, 0 < stampDiff u o.2.tRel) ∧ (subPort u sp).suspended =
        none ∧ (pick u sp 0 (fun _ => true)).isSome = true) ∧
    (∃ (t : _) (sp : _) (s : State) (u : State), u = tick t s ∧ sp < 16 ∧ sinks u sp = true) ∧
    (∃ (s : State) (sp : _) (d : _) (c : _), holdHead s sp c = none ∧ ((queueHeads s sp c).find? (mayStart s sp d)).isSome = true) ∧
    (∃ (s : State) (sp : _) (d : _) (c : _) (h : Held), holdHead s sp c = some h ∧ mayStart s sp d h = true) ∧
    (∃ (t : _) (sp : _) (s : State) (u : State) (x : TxFrame), u = tick t s ∧ sp < 20 ∧ (subPort u sp).tx = some x ∧ x.started + x.remain * byteTime u
        sp ≤ u.now ∧ x.parts = 0 ∧ (frameOf u x.id).isSome = true) ∧
    (∃ (t : _) (id : _) (s : State) (u : State) (h : Held), u = tick t s ∧ (u.que.frames ++ u.que.hold).find? (fun h => decide (h.id = id)) = some h ∧
        h.gone = false ∧ h.queuedAt + fld u 0x0A0000 25 16 * ms ≤ u.now) ∧
    (∃ (x : Queue), x.rate ≠ 0 ∧ x.clampNext = false ∧ x.credit < (x.hi : Int) * 65536) ∧
    (∃ (t : _) (e : _) (s : State) (u : State), u = tick t s ∧ e < 4 ∧ (∀ sp ∈ spsOf e, (subPort u sp).tx = none)) ∧
    (∃ (t : _) (e : _) (s : State) (u : State), u = tick t s ∧ e < 4 ∧ fastDiff (egress u e).changeT (fast u) ≤ 0) := by
  refine ⟨?_, ?_, ?_, ?_, ?_, ?_, ?_, ?_, ?_⟩
  · exact ⟨5 * sec, 8, que [qfr] [], _, rfl, by decide +kernel, by decide +kernel, by decide +kernel, by decide +kernel, by decide +kernel, by
      decide +kernel, by decide +kernel, by decide +kernel⟩
  · exact ⟨5 * sec, 8, { net with port.subs := [] }, _, rfl, by decide +kernel, by decide +kernel⟩
  · exact ⟨que [qfr] [], 8, 0, 0, by decide +kernel, by decide +kernel⟩
  · exact ⟨que [] [qfr], 8, 0, 0, qfr, by decide +kernel, by decide +kernel⟩
  · exact ⟨5 * sec,
      19, { que [qfr] [] with port.subs := [(19, { link := true, tx := some { id := 1, len := 100, remain := 0, preempt := false } })] },
      _, { id := 1, len := 100, remain := 0, preempt := false }, rfl, by decide +kernel, by decide +kernel, by decide +kernel, by decide +kernel, by
      decide +kernel⟩
  · exact ⟨5 * sec, 1, que [qfr] [], _, qfr, rfl, by decide +kernel, by decide +kernel, by decide +kernel⟩
  · exact ⟨{ rate := 5 }, by decide +kernel, by decide +kernel, by decide +kernel⟩
  · exact ⟨5 * sec, 3, net, _, rfl, by decide +kernel, by decide +kernel⟩
  · exact ⟨5 * sec, 3, { net with que.egress := [(3, { changeT := fast (tick (5 * sec) net) })] }, _, rfl, by decide +kernel, by decide +kernel⟩

theorem witness_BondSessions : (∃ (h : Hdr) (b : Body) (s : State) (u : State) (ws : _) (k : Key), starts opBondConfig h b s = true ∧ u = begun
    opBondConfig h b s ∧ ws = wordsOf b 0x8901 ∧ byteAt ws 0 = 1 ∧ keyFor u h.world (wordAt ws 2).toNat [uDerive] mCore = .ok k ∧ u.bnd.role = 0) ∧
    (∃ (h : Hdr) (b : Body) (s : State) (u : State), starts opBondConfig h b s = true ∧ u = begun opBondConfig h b s ∧ byteAt (wordsOf b 0x8901) 0 = 0
        ∧ (¬ (u.bnd.role = 1 ∧ u.bnd.inSync = true))) ∧
    (∃ (h : Hdr) (b : Body) (s : State) (u : State), starts opBondConfig h b s = true ∧ u = begun opBondConfig h b s ∧ byteAt (wordsOf b 0x8901) 0 = 2
        ∧ 2 ≤ u.bnd.role) ∧
    (∃ (h : Hdr) (b : Body) (s : State) (u : State), starts opBondResign h b s = true ∧ u = begun opBondResign h b s ∧ u.bnd.role = 1 ∧ u.bnd.inSync =
        true) ∧
    (∃ (h : Hdr) (b : Body) (s : State) (u : State), starts opBondStatus h b s = true ∧ u = begun opBondStatus h b s ∧ u.bnd.role = 0 ∧ u.bnd.inSync =
        false ∧ u.bnd.resync = false) ∧
    (∃ (t : _) (s : State) (u : State), u = tick t s ∧ bondMode u ≠ 0 ∧ u.bnd.linkUp = false ∧ u.bnd.joined = true) ∧
    (∃ (t : _) (s : State) (u : State), u = tick t s ∧ bondMode u = 0 ∧ u.bnd.linkUp = true) ∧
    (∃ (t : _) (m : BondRx) (s : State) (u : State), u = tick t s ∧ hears u m = true ∧ u.bnd.joined = true ∧ helloFits u m = true ∧ strangeType m =
        false ∧ bondMacOk u 1 m = true ∧ m.format = 1 ∧ u.bnd.shaken = false ∧ u.bnd.nonce ≠ none ∧ u.bnd.peerNonce = none) ∧
    (∃ (t : _) (m : BondRx) (s : State) (u : State), u = tick t s ∧ hears u m = true ∧ u.bnd.joined = true ∧ helloFits u m = true ∧ (strangeType m =
        true ∨ bondMacOk u 1 m = false)) := by
  refine ⟨?_, ?_, ?_, ?_, ?_, ?_, ?_, ?_, ?_⟩
  · exact ⟨hop, [elemW 0x8901 [0x01000001, 0x00020000, 0x10001]], bnd {}, _, _, cak, by decide +kernel, rfl, rfl, by decide +kernel, by
      decide +kernel, by decide +kernel⟩
  · exact ⟨hop, [elemW 0x8901 [0, 0, 0]], bnd joined, _, by decide +kernel, rfl, by decide +kernel, by decide +kernel⟩
  · exact ⟨hop, [elemW 0x8901 [0x02000000, 0, 0]], bnd { joined with role := 5 }, _, by decide +kernel, rfl, by decide +kernel, by decide +kernel⟩
  · exact ⟨hop, [], bnd { joined with role := 1, inSync := true }, _, by decide +kernel, rfl, by decide +kernel, by decide +kernel⟩
  · exact ⟨hop, [], bnd {}, _, by decide +kernel, rfl, by decide +kernel, by decide +kernel, by decide +kernel⟩
  · exact ⟨5 * sec, bnd { joined with linkUp := false }, _, rfl, by decide +kernel, by decide +kernel, by decide +kernel⟩
  · exact ⟨5 * sec, { net with bnd := joined }, _, rfl, by decide +kernel, by decide +kernel⟩
  · exact ⟨5 * sec, heard, bnd { joined with shaken := false }, _, rfl, by decide +kernel, by decide +kernel, by decide +kernel, by decide +kernel, by
      decide +kernel, by decide +kernel, by decide +kernel, by decide +kernel, by decide +kernel⟩
  · exact ⟨5 * sec, { heard with typ := some 12 }, bnd joined, _, rfl, by decide +kernel, by decide +kernel, by decide +kernel, by decide +kernel⟩

theorem witness_LeaseAndMirrorRun : (∃ (t : _) (s : State) (u : State), u = tick t s ∧ u.bnd.role = 1 ∧ u.bnd.shaken = true ∧ bondMode u ≠ 0 ∧
    u.bnd.leaseAt = none ∧ u.bnd.leaseNo ≤ u.bnd.ackNo) ∧
    (∃ (t : _) (m : BondRx) (s : State) (u : State), u = tick t s ∧ trusted 2 u m = true ∧ 3 ≤ u.bnd.role ∧ u.bnd.lastLease < m.number) ∧
    (∃ (t : _) (m : BondRx) (s : State) (u : State) (a : _), u = tick t s ∧ trusted 3 u m = true ∧ u.bnd.role = 1 ∧ u.bnd.ackNo < m.number ∧ m.number
        = u.bnd.leaseNo ∧ u.bnd.leases.find? (fun e => decide (e.1 = m.number)) = some (m.number, a) ∧ m.body.getD 0 0 = 5 ∧ u.now ≤ a + 250 * us) ∧
    (∃ (t : _) (s : State) (u : State), u = tick t s ∧ leaseBinding u = true ∧ u.bnd.role = 1 ∧ u.bnd.tAck + 3 * leaseD u / 4 ≤ u.now) ∧
    (∃ (t : _) (s : State) (u : State), u = tick t s ∧ u.bnd.role = 5 ∧ u.bnd.tRx + leaseD u + leaseD u / 8 ≤ u.now) ∧
    (∃ (t : _) (s : State) (u : State), u = tick t s ∧ (refLoss 8 u).bnd.role = 1) ∧
    (∃ (q : _), q ≠ 8) ∧
    (∃ (t : _) (m : BondRx) (s : State) (u : State), u = tick t s ∧ trusted 10 u m = true ∧ u.bnd.acted.contains 10 = false ∧ u.bnd.role = 5) ∧
    (∃ (t : _) (m : BondRx) (s : State) (u : State), u = tick t s ∧ trusted 11 u m = true ∧ u.bnd.acted.contains 11 = false ∧ u.bnd.role = 5) ∧
    (∃ (t : _) (s : State) (u : State), u = tick t s ∧ u.mem.halt = true ∧ u.bnd.role = 1) ∧
    (∃ (t : _) (m : BondRx) (s : State) (u : State) (r : MirrorRec), u = tick t s ∧ trusted 4 u m = true ∧ u.bnd.role = 5 ∧ u.bnd.based = true ∧
        u.bnd.early = [] ∧ m.recs = [r] ∧ u.bnd.applied < r.seq) ∧
    (∃ (r : MirrorRec) (s : State), s.bnd.early = [r] ∧ r.seq = s.bnd.applied + 1) ∧
    (∃ (t : _) (m : BondRx) (s : State) (u : State), u = tick t s ∧ trusted 5 u m = true ∧ u.bnd.role = 1 ∧ u.bnd.acked < m.number) ∧
    (∃ (t : _) (s : State) (u : State) (x : MirrorMsg), u = tick t s ∧ mirrorOn u = true ∧ bondMode u ≠ 0 ∧ u.bnd.unacked = [x] ∧ x.sent + 50 * us ≤
        u.now) ∧
    (∃ (t : _) (s : State) (u : State) (g : _), u = tick t s ∧ u.bnd.gapSince = some g ∧ g + ms ≤ u.now ∧ u.bnd.role = 5) ∧
    (∃ (t : _) (m : BondRx) (s : State) (u : State), u = tick t s ∧ trusted 6 u m = true ∧ u.bnd.role = 1) ∧
    (∃ (t : _) (m : BondRx) (s : State) (u : State), u = tick t s ∧ trusted 7 u m = true ∧ u.bnd.role = 4) ∧
    (∃ (t : _) (m : BondRx) (s : State) (u : State), u = tick t s ∧ trusted 8 u m = true ∧ u.bnd.role = 1 ∧ u.bnd.resync = true) ∧
    (∃ (t : _) (m : BondRx) (s : State) (u : State), u = tick t s ∧ trusted 9 u m = true ∧ u.bnd.role = 4) := by
  refine ⟨?_, ?_, ?_, ?_, ?_, ?_, ?_, ?_, ?_, ?_, ?_, ?_, ?_, ?_, ?_, ?_, ?_, ?_, ?_⟩
  · exact ⟨5 * sec, bnd { joined with role := 1 }, _, rfl, by decide +kernel, by decide +kernel, by decide +kernel, by decide +kernel, by
      decide +kernel⟩
  · exact ⟨5 * sec, heard, bnd { joined with role := 5 }, _, rfl, by decide +kernel, by decide +kernel, by decide +kernel⟩
  · exact ⟨5 * sec, { heard with body := [5] }, bnd { joined with role := 1, leaseNo := 3, leases := [(3, 5 * sec)] }, _, 5 * sec, rfl, by
      decide +kernel, by decide +kernel, by decide +kernel, by decide +kernel, by decide +kernel, by decide +kernel, by decide +kernel⟩
  · exact ⟨5 * sec, bnd { joined with role := 1, inSync := true }, _, rfl, by decide +kernel, by decide +kernel, by decide +kernel⟩
  · exact ⟨5 * sec, bnd { joined with role := 5 }, _, rfl, by decide +kernel, by decide +kernel⟩
  · exact ⟨5 * sec, bnd { joined with role := 1 }, _, rfl, by decide +kernel⟩
  · exact ⟨7, by decide +kernel⟩
  · exact ⟨5 * sec, heard, bnd { joined with role := 5 }, _, rfl, by decide +kernel, by decide +kernel, by decide +kernel⟩
  · exact ⟨5 * sec, heard, bnd { joined with role := 5 }, _, rfl, by decide +kernel, by decide +kernel, by decide +kernel⟩
  · exact ⟨5 * sec, { bnd { joined with role := 1 } with mem.halt := true }, _, rfl, by decide +kernel, by decide +kernel⟩
  · exact ⟨5 * sec, { heard with recs := [mrec] }, bnd { joined with role := 5, based := true }, _, mrec, rfl, by decide +kernel, by decide +kernel,
      by decide +kernel, by decide +kernel, by decide +kernel, by decide +kernel⟩
  · exact ⟨mrec, bnd { joined with early := [mrec] }, by decide +kernel, by decide +kernel⟩
  · exact ⟨5 * sec, heard, bnd { joined with role := 1 }, _, rfl, by decide +kernel, by decide +kernel, by decide +kernel⟩
  · exact ⟨5 * sec, bnd { joined with role := 1, inSync := true, unacked := [{ last := 1, recs := [mrec], sent := 0 }] },
      _, { last := 1, recs := [mrec], sent := 0 }, rfl, by decide +kernel, by decide +kernel, by decide +kernel, by decide +kernel⟩
  · exact ⟨5 * sec, bnd { joined with role := 5, gapSince := some sec }, _, sec, rfl, by decide +kernel, by decide +kernel, by decide +kernel⟩
  · exact ⟨5 * sec, heard, bnd { joined with role := 1 }, _, rfl, by decide +kernel, by decide +kernel⟩
  · exact ⟨5 * sec, heard, bnd { joined with role := 4 }, _, rfl, by decide +kernel, by decide +kernel⟩
  · exact ⟨5 * sec, heard, bnd { joined with role := 1, resync := true }, _, rfl, by decide +kernel, by decide +kernel, by decide +kernel⟩
  · exact ⟨5 * sec, heard, bnd { joined with role := 4 }, _, rfl, by decide +kernel, by decide +kernel⟩

theorem witness_KeyCommandsComplete : (∃ (h : Hdr) (b : Body) (s : State) (u : State) (ty : _) (us : _) (rep : _) (x : _) (y : _) (v : _) (w : _) (n :
    _), starts opKeyGenerate h b s = true ∧ u = begun opKeyGenerate h b s ∧ attrsFor u h.world true (wordAt (wordsOf b 0x8A01) 0) (wordAt (wordsOf b
        0x8A01) 1) = some (ty, us, rep) ∧ notApproved u ty us = false ∧ drbgOut u = false ∧ u.eng.startup = false ∧ generateCycles (ty.bits 31 24) =
        none ∧ drawBits (ty.bits 15 0) (reseed0 (drbgUse u)) = (x, y) ∧ engineOut y 3 = false ∧ takeSlot h.world y = some v ∧ storeValue ty us h.world
        x v = some (w, n)) ∧
    (∃ (h : Hdr) (b : Body) (s : State) (u : State) (ty : _) (us : _) (rep : _) (a : _) (c : _) (e : _) (x : _) (y : _) (v : _) (p : _) (r : _),
        starts opKeyGenerate h b s = true ∧ u = begun opKeyGenerate h b s ∧ attrsFor u h.world true (wordAt (wordsOf b 0x8A01) 0) (wordAt (wordsOf b
        0x8A01) 1) = some (ty, us, rep) ∧ notApproved u ty us = false ∧ drbgOut u = false ∧ u.eng.startup = false ∧ generateCycles (ty.bits 31 24) =
        some (e, c) ∧ drawBits (ty.bits 15 0) (reseed0 (drbgUse u)) = (x, y) ∧ prioOf y h.world b = (p, r) ∧
        submit { engine := e, work := if isRsa (ty.bits 31 24) then 1 else 0, prio := p, world := h.world, cycles := c, result := .key ty us h.world x (publicElem (ty.bits 31 24) x :: rep ++ r) }
        y = .wait a v) ∧
    (∃ (j : Job) (s : State), engineOut s j.engine = false ∧ (takeSlot j.world s).isSome = true ∧ j.key = none ∧ j.key2 = none ∧ j.engine = 0) ∧
    (∃ (h : Hdr) (b : Body) (ty : Word) (us : Word) (x : _) (s : State) (u : State) (k : _) (ty' : _) (us' : _) (rep : _) (v : _) (w : _) (n : _),
        starts opKeyImport h b s = true ∧ u = begun opKeyImport h b s ∧ keyFor u h.world (wordAt (wordsOf b 0x8A04) 0).toNat [uUnwrap] mCmd = .ok k ∧
        k.alg = 2 ∧ algCodes.contains (ty.bits 31 24) = true ∧ hasElem b 0x8A01 = false ∧ attrsFor u h.world false ty us = some (ty', us', rep) ∧
        notApproved u ty' us' = false ∧ engineOut (touchKey (wordAt (wordsOf b 0x8A04) 0).toNat u) 2 = false ∧ takeSlot h.world (touchKey (wordAt
        (wordsOf b 0x8A04) 0).toNat u) = some v ∧ storeValue ty' us' h.world x v = some (w, n)) ∧
    (∃ (h : Hdr) (b : Body) (s : State) (u : State) (key : _) (wrap : _) (k : _) (x : _), starts opKeyExport h b s = true ∧ u = begun opKeyExport h b
        s ∧ key = (wordAt (wordsOf b 0x8A02) 0).toNat ∧ wrap = (wordAt (wordsOf b 0x8A04) 0).toNat ∧ keyFor u h.world key [] mCmd = .ok k ∧ keyFor u
        h.world wrap [uWrap] mCmd = .ok x ∧ k.use.bit 6 = true ∧ x.alg = 2 ∧ engineOut u 2 = false ∧ (takeSlot h.world u).isSome = true) ∧
    (∃ (h : Hdr) (b : Body) (s : State) (u : State) (key : _) (k : Key), starts opKeyErase h b s = true ∧ u = begun opKeyErase h b s ∧ key = (wordAt
        (wordsOf b 0x8A02) 0).toNat ∧ keyNamed u h.world key = .ok k ∧ keyIdle u key = true) ∧
    (∃ (h : Hdr) (b : Body) (s : State) (u : State) (key : _) (k : Key), starts opKeyErase h b s = true ∧ u = begun opKeyErase h b s ∧ key = (wordAt
        (wordsOf b 0x8A02) 0).toNat ∧ keyNamed u h.world key = .ok k ∧ keyIdle u key = false) ∧
    (∃ (h : Hdr) (b : Body) (s : State) (u : State), starts (opKeyAttest b) h b s = true ∧ u = begun (opKeyAttest b) h b s ∧ attestKind b = 1 ∧
        drbgOut u = false ∧ u.eng.startup = false) ∧
    (∃ (k : Key), isSymmetric k.alg = true) ∧
    (∃ (k : Key), isSymmetric k.alg = false) := by
  refine ⟨?_, ?_, ?_, ?_, ?_, ?_, ?_, ?_, ?_, ?_⟩
  · exact ⟨hop, [elemW 0x8A01 [0x01000080, 0x01302000, 0]], vault [], _, _, _, _, _, _, _, _, _, by decide +kernel, rfl, rfl, by decide +kernel, by
      decide +kernel, by decide +kernel, by decide +kernel, (rfl), by decide +kernel, (rfl), (rfl)⟩
  · exact ⟨hop, [elemW 0x8A01 [0x10000100, 0x0C102000, 0]], vault [], _, _, _, _, _, _, _, _, _, _, _, _, by decide +kernel, rfl, rfl, by
      decide +kernel, by decide +kernel, by decide +kernel, (rfl), (rfl), (rfl), (rfl)⟩
  · exact ⟨{ engine := 0, result := .reply [] }, vault [], by decide +kernel, by decide +kernel, by decide +kernel, by decide +kernel, by
      decide +kernel⟩
  · exact ⟨hop, [elemW 0x8A04 [0x10000], elemW 0x8A05 [0, 0, 0, 0, 0, 0]], 0x01000080, 0x01302000,
      5, { vault [] with keys.keys := [(0x10000, { typ := 0x02000100, use := 0x31302040 ||| 0x20000000, owner := 0 })] }, _, _, _, _, _, _, _, _, by
      decide +kernel, rfl, rfl, by decide +kernel, by decide +kernel, by decide +kernel, rfl, by decide +kernel, by decide +kernel, (rfl), (rfl)⟩
  · exact ⟨hop, [elemW 0x8A02 [0x10000], elemW 0x8A04 [0x10000]], vault [], _, _, _, _, _, by decide +kernel, rfl, rfl, rfl, rfl, rfl, by
      decide +kernel, by decide +kernel, by decide +kernel, by decide +kernel⟩
  · exact ⟨hop, [elemW 0x8A02 [0x10000]], vault [], _, _, { typ := 0x02000100, use := 0x31302040, owner := 0 }, by decide +kernel, rfl, rfl, by
      decide +kernel, by decide +kernel⟩
  · exact ⟨hop, [elemW 0x8A02 [0x10000]], { vault [] with eng.jobs := [(1, { engine := 2, key := some 0x10000, result := .reply [] })] }, _,
      _, { typ := 0x02000100, use := 0x31302040, owner := 0 }, by decide +kernel, rfl, rfl, by decide +kernel, by decide +kernel⟩
  · exact ⟨hop, [elemW 0x8A07 [1], elemW 0x8A06 (List.replicate 8 0)], vault [], _, by decide +kernel, rfl, by decide +kernel, by decide +kernel, by
      decide +kernel⟩
  · exact ⟨{ typ := 0x02000100, use := 0, owner := 0 }, by decide +kernel⟩
  · exact ⟨{ typ := 0x10000100, use := 0, owner := 0 }, by decide +kernel⟩

theorem witness_DualControlCompletes : (∃ (h : Hdr) (b : Body) (s : State) (u : State), starts opDualAuthorise h b s = true ∧ u = begun
    opDualAuthorise h b s ∧ (officerOf u h.session).isSome = true ∧ u.keys.tickets.length < 16) ∧
    (∃ (h : Hdr) (b : Body) (s : State) (u : State) (g : _) (l : _) (i : _) (v : _), starts opLifecycleChange h b s = true ∧ u = begun
        opLifecycleChange h b s ∧ g = (wordAt (wordsOf b 0x8A09) 0).toNat ∧ ticketsFor 0x0A05 1 h b u = some (i :: l) ∧ v = useTickets b u ∧
        transition v.keys.life g = true ∧ (¬ (g = 1 ∧ v.keys.life = 0 ∧ cryptoOfficers v < 2)) ∧ v.keys.inForce = false) ∧
    (∃ (h : Hdr) (b : Body) (s : State) (u : State) (l : _) (i : _) (ws : _) (v : _), starts opOfficerEnrol h b s = true ∧ u = begun opOfficerEnrol h
        b s ∧ isBootstrap u h.session = false ∧ ticketsFor 0x0A06 1 h b u = some (i :: l) ∧ ws = wordsOf b 0x8A0B ∧ v = useTickets b u ∧ has
        v.keys.officers (byteAt ws 0) = false) ∧
    (∃ (h : Hdr) (b : Body) (s : State) (u : State) (l : _) (i : _) (id : _) (v : _) (w : _), starts opOfficerRevoke h b s = true ∧ u = begun
        opOfficerRevoke h b s ∧ ticketsFor 0x0A07 1 h b u = some (i :: l) ∧ id = (wordAt (wordsOf b 0x8A0C) 0).toNat ∧ v = useTickets b u ∧ (look
        v.keys.officers id).isSome = true ∧ w
        = { v with keys := { v.keys with officers := del v.keys.officers id, tickets := v.keys.tickets.filter fun t => decide (t.issuer ≠ id) } } ∧
        (v.keys.life = 0 ∨ 2 ≤ cryptoOfficers w)) ∧
    (∃ (h : Hdr) (b : Body) (s : State) (u : State) (i : _) (j : _), starts opDebugEnable h b s = true ∧ u = begun opDebugEnable h b s ∧ ticketsFor
        0x0A09 2 h b u = some [i, j] ∧ u.boot.debugFused = false ∧ u.keys.life = 3) ∧
    (∃ (opc : _) (dig : _) (own : _) (id : _) (s : State), (ticketOk s opc dig own id).isSome = true) := by
  refine ⟨?_, ?_, ?_, ?_, ?_, ?_⟩
  · exact ⟨hop, [elemW 0x8A0D (List.replicate 13 0)], vault [], _, by decide +kernel, rfl, by decide +kernel, by decide +kernel⟩
  · exact ⟨hop, lcBody, vault [tkt 8 2 0x0A05 lcBody], _, _, [], 2, _, by decide +kernel, rfl, rfl, (one_ticket (t := tkt 8 2 0x0A05 lcBody) rfl
      (ticket_good (o := { role := 0 }) rfl (by decide +kernel) rfl rfl (by decide +kernel) (by decide +kernel) rfl)), rfl, by decide +kernel, by
      decide +kernel, by decide +kernel⟩
  · exact ⟨hop, enBody, vault [tkt 8 2 0x0A06 enBody], _, [], 2, _, _, by decide +kernel, rfl, by decide +kernel, (one_ticket (t := tkt 8 2 0x0A06
      enBody) rfl (ticket_good (o := { role := 0 }) rfl (by decide +kernel) rfl rfl (by decide +kernel) (by decide +kernel) rfl)), rfl, rfl, by
      decide +kernel⟩
  · exact ⟨hop, rvBody, vault [tkt 8 2 0x0A07 rvBody], _, [], 2, _, _, _, by decide +kernel, rfl, (one_ticket (t := tkt 8 2 0x0A07 rvBody) rfl
      (ticket_good (o := { role := 0 }) rfl (by decide +kernel) rfl rfl (by decide +kernel) (by decide +kernel) rfl)), rfl, rfl, by decide +kernel,
      rfl, by decide +kernel⟩
  · exact ⟨{ hmt with session := 2 }, dbBody, { vault [tkt 8 1 0x0A09 dbBody, tkt 9 4 0x0A09 dbBody] with keys.life := 3 }, _, 1, 4, by
      decide +kernel, rfl, (two_tickets (t := tkt 8 1 0x0A09 dbBody) (u := tkt 9 4 0x0A09 dbBody) rfl (ticket_good (o := { role := 0 }) rfl (by
      decide +kernel) rfl rfl (by decide +kernel) (by decide +kernel) rfl) (ticket_good (o := { role := 0 }) rfl (by decide +kernel) rfl rfl (by
      decide +kernel) (by decide +kernel) rfl) (by decide +kernel)), by decide +kernel, by decide +kernel⟩
  · exact ⟨5, [], none, 8, vault [{ id := 8, issuer := 2, opcode := 5, digest := [], issued := 0 }], by decide +kernel⟩

theorem witness_EngineCommandsComplete : (∃ (h : Hdr) (b : Body) (s : State) (u : State) (hd : _) (k : _) (a : Await) (v : State) (sc : _), starts
    opSign h b s = true ∧ u = begun opSign h b s ∧ hd = (wordAt (wordsOf b 0x8A02) 0).toNat ∧ sc = schemeOf b ∧ sc < 8 ∧ keyFor u h.world hd [uSign]
        mCmd = .ok k ∧ schemeFits sc k.alg = true ∧ signDraws sc = false ∧ signJob h b k.alg hd u = .wait a v) ∧
    (∃ (h : Hdr) (b : Body) (s : State) (u : State) (hd : _) (k : _) (a : Await) (v : State) (sc : _), starts opSign h b s = true ∧ u = begun opSign h
        b s ∧ hd = (wordAt (wordsOf b 0x8A02) 0).toNat ∧ sc = schemeOf b ∧ sc < 8 ∧ keyFor u h.world hd [uSign] mCmd = .ok k ∧ schemeFits sc k.alg =
        true ∧ signDraws sc = true ∧ drbgOut u = false ∧ u.eng.startup = false ∧ signJob h b k.alg hd (drbgUse u) = .wait a v) ∧
    (∃ (h : Hdr) (b : Body) (vd : Bool) (bad : InputCheck) (s : State) (u : State) (hd : _) (k : _) (a : Await) (v : State) (p : _) (r : _), starts
        opVerify h b s = true ∧ u = begun opVerify h b s ∧ hd = (wordAt (wordsOf b 0x8A02) 0).toNat ∧ elemOf b 0x8B06 = none ∧ schemeOf b < 8 ∧ keyFor
        u h.world hd [uVerify] mCmd = .ok k ∧ schemeFits (schemeOf b) k.alg = true ∧ isCurve k.alg = false ∧ (elemOf b 0x8B04).map (·.len) = some
        (signatureLen k.alg (algBits k.alg / 8)) ∧ prioOf u h.world b = (p, r) ∧
        submit { engine := (verifyCycles k.alg (algBits k.alg / 8 / 8)).1, key := some hd, prio := p, world := h.world, cycles := (verifyCycles k.alg (algBits k.alg / 8 / 8)).2, bad := if (verifyCycles k.alg (algBits k.alg / 8 / 8)).1 = 0 then checkStatus k.alg bad else 0, result := .reply (elemW 0x0B07 [w32 (bit vd)] :: r) }
        u = .wait a v) ∧
    (∃ (h : Hdr) (b : Body) (s : State) (u : State) (hd : _) (k : _) (a : Await) (v : State) (ty : _) (us : _) (rep : _) (w : _) (p : _) (r : _) (x :
        _) (c : _) (z : _), starts opKemEncap h b s = true ∧ u = begun opKemEncap h b s ∧ hd = (wordAt (wordsOf b 0x8A02) 0).toNat ∧ hasElem b 0x8B0C
        = false ∧ elemOf b 0x8B06 = none ∧ keyFor u h.world hd [uEncrypt] mCmd = .ok k ∧ isMlKem k.alg = true ∧ secretAttrs u h.world b = some (ty,
        us, rep) ∧ drbgOut u = false ∧ u.eng.startup = false ∧ prioOf (drbgUse u) h.world b = (p, r) ∧ drawBits 256 (drbgUse u) = (x, w) ∧
        Config.kemEncap (Config.publicKey k.alg k.value) x = (c, z) ∧
        submit { engine := 1, key := some hd, prio := p, world := h.world, cycles := encapCycles k.alg, bad := 0, result := .key ty us h.world z ({ typ := 0x0B09, len := ciphertextLen k.alg, val := c } :: rep ++ r) }
        w = .wait a v) ∧
    (∃ (h : Hdr) (b : Body) (s : State) (u : State) (hd : _) (k : _) (a : Await) (v : State) (ty : _) (us : _) (rep : _) (p : _) (r : _), starts
        opKemDecap h b s = true ∧ u = begun opKemDecap h b s ∧ hd = (wordAt (wordsOf b 0x8A02) 0).toNat ∧ hasElem b 0x8B0C = false ∧ keyFor u h.world
        hd [uDecrypt] mCmd = .ok k ∧ isMlKem k.alg = true ∧ (elemOf b 0x8B08).map (·.len) = some (ciphertextLen k.alg) ∧ secretAttrs u h.world b =
        some (ty, us, rep) ∧ prioOf u h.world b = (p, r) ∧
        submit { engine := 1, key := some hd, prio := p, world := h.world, cycles := decapCycles k.alg, result := .key ty us h.world (Config.kemDecap k.alg k.value (wordsOf b 0x8B08)) (rep ++ r) }
        u = .wait a v) ∧
    (∃ (h : Hdr) (b : Body) (s : State) (u : State) (a : Await) (v : State), starts opKemDecap h b s = true ∧ u = begun opKemDecap h b s ∧ hasElem b
        0x8B0C = true ∧ ansBlocks h b uDecrypt u = .wait a v) ∧
    (∃ (h : Hdr) (b : Body) (bad : InputCheck) (s : State) (u : State) (hd : _) (k : _) (a : Await) (v : State) (ty : _) (us : _) (rep : _) (p : _) (r
        : _), starts opKeyAgree h b s = true ∧ u = begun opKeyAgree h b s ∧ hd = (wordAt (wordsOf b 0x8A02) 0).toNat ∧ elemOf b 0x8B0A = none ∧ keyFor
        u h.world hd [uDerive] mCmd = .ok k ∧ isCurve k.alg = true ∧ (peerOf b).map (·.1) = some k.alg ∧ isSymmetric (byteAt (wordsOf b 0x8A01) 0) =
        true ∧ attrsFor u h.world false (wordAt (wordsOf b 0x8A01) 0) (wordAt (wordsOf b 0x8A01) 1) = some (ty, us, rep) ∧ prioOf u h.world b = (p, r)
        ∧ submit { engine := 0, key := some hd, key2 := none, prio := p, world := h.world, cycles := agreeCycles k.alg, bad := if bad = .point then stPoint else 0, result := .key ty us h.world (agreedValue k none ty b) (rep ++ r) }
        u = .wait a v) ∧
    (∃ (h : Hdr) (b : Body) (s : State) (u : State) (f : _), starts opHash h b s = true ∧ u = begun opHash h b s ∧ engineOut u 3 = false ∧ (takeSlot
        h.world u).isSome = true ∧ (elemOf b 0x8B02).isSome = true ∧ hashFinal b = f ∧ (¬ (hashAlg b = 1 ∧ f = true ∧ hasElem b 0x8B0F = false))) ∧
    (∃ (h : Hdr) (b : Body) (s : State) (u : State), starts opDrbgRead h b s = true ∧ u = begun opDrbgRead h b s ∧ elemOf b 0x0B12 = none ∧ drbgOut u
        = false ∧ u.eng.startup = false ∧ (takeSlot h.world (drbgUse u)).isSome = true) ∧
    (∃ (h : Hdr) (b : Body) (s : State) (u : State) (p : _) (t : _), starts opVciPageAssign h b s = true ∧ u = begun opVciPageAssign h b s ∧ p =
        byteAt (wordsOf b 0x8B14) 0 ∧ t = byteAt (wordsOf b 0x8B14) 1 ∧ t ≠ 0xFF ∧ has u.dks.tenants t = true ∧ has u.eng.pages p = false ∧ (∀ e ∈
        u.eng.pages, e.2 ≠ t)) := by
  refine ⟨?_, ?_, ?_, ?_, ?_, ?_, ?_, ?_, ?_, ?_⟩
  · exact ⟨hop, [elemW 0x8A02 [0x10001], elemW 0x8B01 [0x02000000], elemW 0x8B02 [0]], vault [], _, _, _, _, _, _, by decide +kernel, rfl, rfl, rfl,
      by decide +kernel, rfl, by decide +kernel, by decide +kernel, (rfl)⟩
  · exact ⟨hop, [elemW 0x8A02 [0x10002], elemW 0x8B01 [0x00000000], elemW 0x8B02 [0]], vault [], _, _, _, _, _, _, by decide +kernel, rfl, rfl, rfl,
      by decide +kernel, rfl, by decide +kernel, by decide +kernel, by decide +kernel, by decide +kernel, (rfl)⟩
  · exact ⟨hop, [elemW 0x8A02 [0x10001], elemW 0x8B01 [0x02000000], elemW 0x8B02 [0], elemW 0x8B04 (List.replicate 16 0)], true, .ok, vault [], _, _,
      _, _, _, _, _, by decide +kernel, rfl, rfl, by decide +kernel, by decide +kernel, rfl, by decide +kernel, by decide +kernel, rfl, rfl, (rfl)⟩
  · exact ⟨hop, [elemW 0x8A02 [0x10003], elemW 0x8A01 [0x02000100, 0x01302000, 0]], vault [], _, _, _, _, _, _, _, _, _, _, _, _, _, _, by
      decide +kernel, rfl, rfl, by decide +kernel, by decide +kernel, rfl, by decide +kernel, rfl, by decide +kernel, by decide +kernel, rfl, (rfl),
      (rfl), (rfl)⟩
  · exact ⟨hop, [elemW 0x8A02 [0x10003], elemW 0x8A01 [0x02000100, 0x01302000, 0], elemW 0x8B08 (List.replicate 272 0)], vault [], _, _, _, _, _, _,
      _, _, _, _, by decide +kernel, rfl, rfl, by decide +kernel, rfl, by decide +kernel, (by decide +kernel), rfl, rfl, (rfl)⟩
  · exact ⟨htn, [elemW 0x8A02 [0x10004], elemW 0x8B0C [0, 0, 0, 0]], vault [], _, _, _, by decide +kernel, rfl, by decide +kernel, rfl⟩
  · exact ⟨hop, [elemW 0x8A02 [0x10002], elemW 0x8A01 [0x02000100, 0x01302000, 0], elemB 0x8B06 (0x10 :: List.replicate 68 0)], .ok, vault [], _, _,
      _, _, _, _, _, _, _, _, by decide +kernel, rfl, rfl, by decide +kernel, rfl, by decide +kernel, rfl, by decide +kernel, rfl, rfl, (rfl)⟩
  · exact ⟨hop, [elemW 0x8B0E [0x00010000], elemW 0x8B02 [0]], vault [], _, true, by decide +kernel, rfl, by decide +kernel, by decide +kernel, by
      decide +kernel, by decide +kernel, by decide +kernel⟩
  · exact ⟨hop, [], vault [], _, by decide +kernel, rfl, by decide +kernel, by decide +kernel, by decide +kernel, by decide +kernel⟩
  · exact ⟨hop, [elemW 0x8B14 [0x01000000]], { vault [] with eng.pages := [] }, _, _, _, by decide +kernel, rfl, rfl, rfl, by decide +kernel, by
      decide +kernel, by decide +kernel, by decide +kernel⟩

theorem witness_VaultJobsRun : (∃ (t : _) (k : _) (s : State) (u : State) (id : _) (j : Job), u = tick t s ∧ k < 8 ∧ (laneJobs u 0 k).find? (fun e =>
    !e.2.suspended) = some (id, j) ∧ j.cycles + 256 ≤ cyclesRun u j ∧ j.work = 0) ∧
    (∃ (t : _) (k : _) (s : State) (u : State) (id : _) (j : Job), u = tick t s ∧ k < 2 ∧ (laneJobs u 1 k).find? (fun e => !e.2.suspended) = some (id,
        j) ∧ j.cycles + 256 ≤ cyclesRun u j ∧ j.work = 0) ∧
    (∃ (t : _) (k : _) (s : State) (u : State) (id : _) (j : Job), u = tick t s ∧ k < 2 ∧ (laneJobs u 1 k).find? (fun e => !e.2.suspended) = some (id,
        j) ∧ j.cycles + 256 ≤ cyclesRun u j ∧ j.work = 2) ∧
    (∃ (t : _) (k : _) (s : State) (u : State) (id : _) (j : Job), u = tick t s ∧ k < 2 ∧ (laneJobs u 1 k).find? (fun e => !e.2.suspended) = some (id,
        j) ∧ j.cycles + 256 ≤ cyclesRun u j ∧ j.work = 0) ∧
    (∃ (t : _) (k : _) (s : State) (u : State) (id : _) (j : Job), u = tick t s ∧ k < 2 ∧ (laneJobs u 1 k).find? (fun e => !e.2.suspended) = some (id,
        j) ∧ cyclesRun u j < j.cycles + 256) ∧
    (∃ (j : Job) (es : _), j.bad = 0 ∧ j.result = .reply es) ∧
    (∃ (j : Job) (ty : Word) (us : Word) (ow : _) (x : _) (es : _) (s : State) (v : State) (n : _), j.bad = 0 ∧ j.result = .key ty us ow x es ∧
        storeValue ty us ow x s = some (v, n)) ∧
    (∃ (t : _) (k : _) (s : State) (u : State) (x : Nat × Nat × Job) (qid : _) (q : Job), u = tick t s ∧ (yielding u).find? (fun y => decide (y.1 =
        k)) = some x ∧ nextQueued u 0 = some (qid, q) ∧ ((∀ e ∈ u.eng.jobs, e.2.engine = 0 → e.2.lane.isSome = true → e.2.suspended = false → e.2.prio
        < q.prio)) ∧ (∀ y ∈ yielding u, yieldsBefore x y = true)) ∧
    (∃ (t : _) (p : _) (s : State) (u : State) (id : _) (j : Job), u = tick t s ∧ (pageJobs u p).find? (fun e => e.2.lane.isSome) = some (id, j) ∧
        u.eng.cores = [] ∧ (j.cycles + 3) / 4 ≤ (u.now - j.start) / vc ∧ pageLeaving (fillPage p (deliver id j u)) p = false) ∧
    (∃ (t : _) (n : _) (s : State) (u : State) (k : Key), u = tick t s ∧ look u.keys.keys n = some k ∧ k.place = 0) ∧
    (∃ (t : _) (n : _) (s : State) (u : State), u = tick t s ∧ (look u.keys.keys n).isSome = true) ∧
    (∃ (t : _) (s : State) (u : State), u = tick t s ∧ u.eng.srcOk = true) ∧
    (∃ (t : _) (s : State) (u : State), u = tick t s ∧ u.eng.lastFail = none) ∧
    (∃ (t : _) (s : State) (u : State), u = tick t s ∧ u.eng.failed = false) := by
  refine ⟨?_, ?_, ?_, ?_, ?_, ?_, ?_, ?_, ?_, ?_, ?_, ?_, ?_, ?_⟩
  · exact ⟨5 * sec, 1, jobDev kjob, _, 3, kjob, rfl, by decide +kernel, by decide +kernel, by decide +kernel, by decide +kernel⟩
  · exact ⟨5 * sec, 1, jobDev { kjob with engine := 1 }, _, 3, { kjob with engine := 1 }, rfl, by decide +kernel, by decide +kernel, by
      decide +kernel, by decide +kernel⟩
  · exact ⟨5 * sec, 1, jobDev { kjob with engine := 1, work := 2 }, _, 3, { kjob with engine := 1, work := 2 }, rfl, by decide +kernel, by
      decide +kernel, by decide +kernel, by decide +kernel⟩
  · exact ⟨5 * sec, 1, jobDev { kjob with engine := 1 }, _, 3, { kjob with engine := 1 }, rfl, by decide +kernel, by decide +kernel, by
      decide +kernel, by decide +kernel⟩
  · exact ⟨5 * sec, 1, jobDev { kjob with engine := 1, start := 5 * sec }, _, 3, { kjob with engine := 1, start := 5 * sec }, rfl, by decide +kernel,
      by decide +kernel, by decide +kernel⟩
  · exact ⟨kjob, [], by decide +kernel, by decide +kernel⟩
  · exact ⟨{ kjob with result := .key 0x02000100 0x01302000 0 5 [] }, 0x02000100, 0x01302000, 0, 5, [], vault [], _, _, by decide +kernel, by
      decide +kernel, rfl⟩
  · exact ⟨5 * sec, 1, { vault [] with eng.jobs := [(3, { kjob with work := 1 }), (4, { kjob with lane := none, prio := 2 })] }, _, (1,
      3, { kjob with work := 1 }), 4, { kjob with lane := none, prio := 2 }, rfl, by decide +kernel, by decide +kernel, by decide +kernel, by
      decide +kernel⟩
  · exact ⟨5 * sec, 0, jobDev { kjob with engine := 2 }, _, 3, { kjob with engine := 2 }, rfl, by decide +kernel, by decide +kernel, by
      decide +kernel, by decide +kernel⟩
  · exact ⟨5 * sec, 0x10000, vault [], _, { typ := 0x02000100, use := 0x31302040, owner := 0 }, rfl, by decide +kernel, by decide +kernel⟩
  · exact ⟨5 * sec, 0x10000, vault [], _, rfl, by decide +kernel⟩
  · exact ⟨5 * sec, { vault [] with eng.srcOk := true }, _, rfl, by decide +kernel⟩
  · exact ⟨5 * sec, vault [], _, rfl, by decide +kernel⟩
  · exact ⟨5 * sec, vault [], _, rfl, by decide +kernel⟩

theorem witness_EnrolmentCompletes : (∃ (h : Hdr) (b : Body) (s : State) (u : State), starts opEnrolChallenge h b s = true ∧ u = begun
    opEnrolChallenge h b s ∧ domainTakes h u = true ∧ isService u = true ∧ (domainWork u).isSome = true) ∧
    (∃ (h : Hdr) (b : Body) (s : State) (u : State) (v : State) (w : State) (hs : _), starts opEnrolPrepare h b s = true ∧ u = begun opEnrolPrepare h
        b s ∧ domainTakes h u = true ∧ domainWork u = some v ∧ storeAll [(0x13, uDerive), (0x31, uDecrypt)] (eraseAll v.dks.distKeys v) = some (w,
        hs)) ∧
    (∃ (h : Hdr) (b : Body) (s : State) (u : State) (v : State) (d : _), starts opEnrolAdmit h b s = true ∧ u = begun opEnrolAdmit h b s ∧ domainTakes
        h u = true ∧ isService u = true ∧ domainWork u = some v ∧ (v.dks.nonces.find? (fun x => decide (x.nonce = digestWords (wordsOf b 0x8C06) 32 8)
        && !x.used && decide (v.now ≤ x.at_ + 300 * sec))).isSome = true ∧ digestWords (wordsOf b 0x8C06) 1748 8 = digestWords (packWords
        (Config.sha384 (unpack ((wordsOf b 0x8C06).take 416)))) 0 8 ∧ (byteAt (wordsOf b 0x8C06) 1670 = 1 ∨ byteAt (wordsOf b 0x8C06) 1670 = 2) ∧ fld
        v 0x0C0100 23 16 ≤ bytesNat (wordsOf b 0x8C06) 1682 2 ∧ bytesNat (wordsOf b 0x8C06) 24 4 = v.dks.domain ∧ admitId v b (bytesNat (wordsOf b
        0x8C06) 8 8) = .inl d ∧ ((∀ e ∈ v.dks.roster, e.2.role = 0 ∨ e.2.revoked = true ∨ e.1 = v.dks.device ∨ e.1 = d))) ∧
    (∃ (h : Hdr) (b : Body) (s : State) (u : State) (m : _), starts opEnrolAccept h b s = true ∧ u = begun opEnrolAccept h b s ∧ domainTakes h u =
        true ∧ m = membershipOf (wordsOf b 0x8C07) ∧ bytesNat (wordsOf b 0x8C07) 72 8 = u.boot.serial ∧ digestWords (wordsOf b 0x8C07) 24 12 =
        u.dks.distDig ∧ u.dks.distKeys ≠ [] ∧ (u.dks.enrolled = false ∨ u.dks.domain ≠ m.domain ∨ u.dks.device = m.device) ∧ engineOut u 0 = false ∧
        (takeSlot 3 u).isSome = true) ∧
    (∃ (h : Hdr) (b : Body) (s : State) (u : State) (d : _), starts opEnrolRevoke h b s = true ∧ u = begun opEnrolRevoke h b s ∧ domainTakes h u =
        true ∧ isService u = true ∧ d = deviceWord b ∧ (look u.dks.roster d).isSome = true) ∧
    (∃ (h : Hdr) (b : Body) (s : State) (u : State) (ws : _), starts opEnrolDelta h b s = true ∧ u = begun opEnrolDelta h b s ∧ domainTakes h u = true
        ∧ ws = wordsOf b 0x8C09 ∧ isReplica u = true ∧ (u.dks.gen < bytesNat ws 12 4 ∨ u.dks.gen = bytesNat ws 12 4 ∧ u.dks.version < bytesNat ws 16
        8) ∧ engineOut u 0 = false ∧ (takeSlot 3 u).isSome = true) := by
  refine ⟨?_, ?_, ?_, ?_, ?_, ?_⟩
  · exact ⟨hop, [elemW 0x8C01 [0], elemW 0x8C03 [0]], dom svc, _, by decide +kernel, rfl, by decide +kernel, by decide +kernel, by decide +kernel⟩
  · exact ⟨hop, [elemW 0x8C01 [0x01000000], elemW 0x8C04 (List.replicate 8 0), elemW 0x8C05 [0]], dom svc, _, _, _, _, by decide +kernel, rfl, by
      decide +kernel, (work_ready (by decide +kernel) (by decide +kernel) (by decide +kernel) (by decide +kernel) (by decide +kernel)), (got (by
      decide +kernel))⟩
  · exact ⟨hop, reqBody, dom { svc with nonces := [{ nonce := List.replicate 8 0, serial := 0, idDig := [], at_ := 5 * sec }] }, _, _, _, by
      decide +kernel, rfl, by decide +kernel, by decide +kernel, (work_ready (by decide +kernel) (by decide +kernel) (by decide +kernel) (by
      decide +kernel) (by decide +kernel)), by decide +kernel, (req_digest), by decide +kernel, by decide +kernel, rfl, (rfl), by decide +kernel⟩
  · exact ⟨hop, [elemW 0x8C01 [0x03000000], elemN 0x8C07 8007], { dev with dks.distDig := List.replicate 12 0, dks.distKeys := [1] }, _, _, by
      decide +kernel, rfl, by decide +kernel, rfl, by decide +kernel, by decide +kernel, by decide +kernel, by decide +kernel, by decide +kernel, by
      decide +kernel⟩
  · exact ⟨hop, [elemW 0x8C01 [0x04000000], elemW 0x8C02 [5]], dom svc, _, _, by decide +kernel, rfl, by decide +kernel, by decide +kernel, rfl, by
      decide +kernel⟩
  · exact ⟨hdp, [elemW 0x8C01 [0x05000000], { typ := 0x8C09, len := 5043, val := [0, 0, 0, 1] ++ List.replicate 1257 0 }], dom svc, _, _, by
      decide +kernel, rfl, by decide +kernel, rfl, by decide +kernel, by decide +kernel, by decide +kernel, by decide +kernel⟩

theorem witness_DistributionRuns : (∃ (h : Hdr) (b : Body) (s : State) (u : State) (v : State) (w : State) (k : _), starts opDomainKeyDistribute h b s
    = true ∧ u = begun opDomainKeyDistribute h b s ∧ domainTakes h u = true ∧ h.world = 0 ∧ isService u = true ∧ (distKind b = 2 ∨ distKind b = 0) ∧
        distB b = 0xFFFF ∧ isTarget u (distA b) = true ∧ domainWork u = some v ∧ storeKey (typeApplied 2) ((distUse v (distKind b) true).withBits 5 5
        1) 0 v = some (w, k)) ∧
    (∃ (h : Hdr) (b : Body) (x : Bundle) (s : State) (u : State) (v : State) (w : State) (k : _), starts opDomainKeyDistribute h b s = true ∧ u =
        begun opDomainKeyDistribute h b s ∧ domainTakes h u = true ∧ h.world = 3 ∧ u.dks.enrolled = true ∧ fromReplica u h.session = true ∧ engineOut
        u 0 = false ∧ takeSlot 3 u = some v ∧ (distKind b = 2 ∨ distKind b = 0) ∧ bundleOk v x = true ∧ x.policy = none ∧ storeValue (typeApplied 2)
        (distUse v (distKind b) (decide (distA b = v.dks.device))) 0
        x.value { v with dks := { v.dks with txnSeen := put v.dks.txnSeen x.sender x.txn } } = some (w, k)) ∧
    (∃ (h : Hdr) (b : Body) (s : State) (u : State) (i : _) (l : _) (v : State) (w : State) (hs : _) (d : _) (rep : _) (x : _), starts
        opDomainRollover h b s = true ∧ u = begun opDomainRollover h b s ∧ domainTakes h u = true ∧ ticketsFor 0x0C02 1 h b u = some (i :: l) ∧
        rollParams b = (d, false, rep) ∧ isService (useTickets b u) = true ∧ (useTickets b u).dks.rollover = none ∧ domainWork (useTickets b u) = some
        v ∧ storeAll [(0x11, uSign), (0x39, uSign)] v = some (w, hs) ∧ x = startOp 0x0C02 h.world h.mailbox h.tag w ∧ otherReplicas x = []) ∧
    (∃ (t : _) (s : State) (u : State) (r : Rollover), u = tick t s ∧ u.dks.rollover = some r ∧ r.step = 6 ∧ (∀ d ∈ groupOf u r.group, d.status = some
        0)) ∧
    (∃ (t : _) (s : State) (u : State) (r : Rollover) (d : Delivery), u = tick t s ∧ u.dks.rollover = some r ∧ r.step = 6 ∧ r.promote = false ∧
        r.deadline ≤ u.now ∧ d ∈ groupOf u r.group ∧ d.kind = 4 ∧ d.status ≠ some 0) ∧
    (∃ (t : _) (d : _) (s : State) (u : State) (i : _) (x : Delivery), u = tick t s ∧ openTo u d = some i ∧ u.dks.deliveries[i]? = some x ∧ x.group ≠
        0) ∧
    (∃ (t : _) (d : _) (s : State) (u : State) (i : _) (x : Delivery), u = tick t s ∧ openTo u d = some i ∧ u.dks.deliveries[i]? = some x ∧ x.last + 5
        * sec ≤ u.now ∧ (x.kind ≠ 8 ∨ x.group = 0)) ∧
    (∃ (t : _) (s : State) (u : State), u = tick t s ∧ (4096 ≤ u.dks.ephServed ∨ u.dks.ephSince + sec ≤ u.now)) := by
  refine ⟨?_, ?_, ?_, ?_, ?_, ?_, ?_, ?_⟩
  · exact ⟨hop, [elemW 0x8C0A [0x00000005, 0xFFFFFFFF, 0xFFFF0000]], dom svc, _, _, _, _, by decide +kernel, rfl, by decide +kernel, by
      decide +kernel, by decide +kernel, by decide +kernel, by decide +kernel, by decide +kernel, (work_ready (by decide +kernel) (by decide +kernel)
      (by decide +kernel) (by decide +kernel) (by decide +kernel)), (got (by decide +kernel))⟩
  · exact ⟨hdp, [elemW 0x8C0A [0x00000001, 0xFFFFFFFF, 0xFFFF0000]], { sender := 1, txn := 1, value := 9 }, dom svc, _, _, _, _, by decide +kernel,
      rfl, by decide +kernel, by decide +kernel, by decide +kernel, by decide +kernel, by decide +kernel, (slot_shared (by decide +kernel)), by
      decide +kernel, by decide +kernel, by decide +kernel, (got (by decide +kernel))⟩
  · exact ⟨hop,
      rollBody, { dom { svc with roster := [(1, { role := 1 })] } with keys.tickets := [tkt 8 2 0x0C02 rollBody], keys.officers := [(2, { role := 0 })] },
      _, 2, [], _, _, _, _, _, _, by decide +kernel, rfl, by decide +kernel, (one_ticket (t := tkt 8 2 0x0C02 rollBody) rfl (ticket_good (o
      := { role := 0 }) rfl (by decide +kernel) rfl rfl (by decide +kernel) (by decide +kernel) rfl)), rfl, by decide +kernel, by decide +kernel,
      (work_ready (by decide +kernel) (by decide +kernel) (by decide +kernel) (by decide +kernel) (by decide +kernel)), (got (by decide +kernel)),
      rfl, by decide +kernel⟩
  · exact ⟨5 * sec, roll 7 0 { delivery with status := some 0 },
      _, { op := 1, step := 6, deadline := 0, promote := false, creation := false, group := 7, oldGen := 0, cred := 1, issuer := 2 }, rfl, by
      decide +kernel, by decide +kernel, by decide +kernel⟩
  · exact ⟨5 * sec, roll 7 0 delivery,
      _, { op := 1, step := 6, deadline := 0, promote := false, creation := false, group := 7, oldGen := 0, cred := 1, issuer := 2 }, delivery, rfl,
      by decide +kernel, by decide +kernel, by decide +kernel, by decide +kernel, by decide +kernel, by decide +kernel, by decide +kernel⟩
  · exact ⟨5 * sec, 2, roll 7 0 delivery, _, 0, delivery, rfl, by decide +kernel, by decide +kernel, by decide +kernel⟩
  · exact ⟨5 * sec, 2, roll 7 0 delivery, _, 0, delivery, rfl, by decide +kernel, by decide +kernel, by decide +kernel, by decide +kernel⟩
  · exact ⟨5 * sec, dev, _, rfl, by decide +kernel⟩

theorem witness_GroupKeysRun : (∃ (h : Hdr) (b : Body) (s : State) (u : State) (ws : _), starts opGroupPolicySet h b s = true ∧ u = begun
    opGroupPolicySet h b s ∧ domainTakes h u = true ∧ isService u = true ∧ ws = wordsOf b 0x8C0E ∧ byteAt ws 4 = 0 ∧ elemOf b 0x8C10 = none ∧ hasElem
        b 0x8C0F = false ∧ (look u.dks.groups (wordAt ws 0).toNat).isSome = true) ∧
    (∃ (h : Hdr) (b : Body) (s : State) (u : State) (ws : _) (v : State) (w : State) (g : Group) (l : _), starts opGroupPolicySet h b s = true ∧ u =
        begun opGroupPolicySet h b s ∧ domainTakes h u = true ∧ isService u = true ∧ ws = wordsOf b 0x8C0E ∧ byteAt ws 4 = 1 ∧ elemOf b 0x8C10 = none
        ∧ hasElem b 0x8C0F = false ∧ look u.dks.groups (wordAt ws 0).toNat = none ∧ u.dks.groups.length < 1024 ∧ domainWork u = some v ∧ look
        v.dks.groups (wordAt ws 0).toNat = none ∧ l = Legal.apply (.range 300 86400) 32 (wordAt ws 2).toNat ∧
        newTek { typ := byteAt ws 5, alg := byteAt ws 6, lifetime := l } v.now v = some (w, g)) ∧
    (∃ (h : Hdr) (b : Body) (s : State) (u : State) (e : Elem), starts opGdoiMemberAdd h b s = true ∧ u = begun opGdoiMemberAdd h b s ∧ domainTakes h
        u = true ∧ isReplica u = true ∧ elemsOf b 0x8C11 = [e] ∧ u.dks.members.length < 65536) ∧
    (∃ (h : Hdr) (b : Body) (s : State) (u : State) (e : Elem), starts opGdoiMemberRemove h b s = true ∧ u = begun opGdoiMemberRemove h b s ∧
        domainTakes h u = true ∧ isReplica u = true ∧ elemsOf b 0x8C11 = [e] ∧ (∃ y ∈ u.dks.members, y.digest = (memberOf e).digest)) ∧
    (∃ (t : _) (n : _) (s : State) (u : State) (g : Group) (k : Tek) (v : State) (g' : Group), u = tick t s ∧ look u.dks.groups n = some g ∧ g.teks =
        [k] ∧ isService u = true ∧ k.expiry ≤ u.now + g.lifetime * sec / 4 ∧ newTek g k.expiry (reseed0 u) = some (v, g')) ∧
    (∃ (t : _) (n : _) (s : State) (u : State), u = tick t s ∧ (look u.dks.groups n).isSome = true) ∧
    (∃ (t : _) (m : GdoiMsg) (s : State) (u : State), u = tick t s ∧ gdoiOn u = true ∧ kilnOut u = false ∧ sharedSlot u = true ∧ m.phase1 = true ∧
        m.ok = true ∧ (∃ x ∈ u.dks.members, x.digest = m.digest)) ∧
    (∃ (t : _) (m : GdoiMsg) (s : State) (u : State) (x : Member), u = tick t s ∧ gdoiOn u = true ∧ sharedSlot u = true ∧ m.phase1 = false ∧ m.ok =
        true ∧ u.dks.members.find? (fun y => decide (y.digest = m.digest)) = some x ∧ (x.phase1).isSome = true ∧ x.groups.contains m.group = true ∧
        (look u.dks.groups m.group).isSome = true) ∧
    (∃ (t : _) (s : State) (u : State), u = tick t s ∧ gdoiOn u = true ∧ sharedSlot u = false) ∧
    (∃ (t : _) (s : State) (u : State), u = tick t s ∧ gdoiOn u = true) := by
  refine ⟨?_, ?_, ?_, ?_, ?_, ?_, ?_, ?_, ?_, ?_⟩
  · exact ⟨hop, [elemW 0x8C0E [9, 0, 0]], tekDev [], _, _, by decide +kernel, rfl, by decide +kernel, by decide +kernel, rfl, by decide +kernel, by
      decide +kernel, by decide +kernel, by decide +kernel⟩
  · exact ⟨hop, [elemW 0x8C0E [8, 0x01000000, 300]], tekDev [], _, _, _, _, _, _, by decide +kernel, rfl, by decide +kernel, by decide +kernel, rfl,
      by decide +kernel, by decide +kernel, by decide +kernel, by decide +kernel, by decide +kernel, (work_ready (by decide +kernel) (by
      decide +kernel) (by decide +kernel) (by decide +kernel) (by decide +kernel)), by decide +kernel, rfl, (got (by decide +kernel))⟩
  · exact ⟨hop, [elemW 0x8C11 (List.replicate 8 0 ++ [0x01000000, 9])], dom svc, _, elemW 0x8C11 (List.replicate 8 0 ++ [0x01000000, 9]), by
      decide +kernel, rfl, by decide +kernel, by decide +kernel, by decide +kernel, by decide +kernel⟩
  · exact ⟨hop, [elemW 0x8C11 (List.replicate 8 0 ++ [0x01000000, 9])], gdoi [], _, elemW 0x8C11 (List.replicate 8 0 ++ [0x01000000, 9]), by
      decide +kernel, rfl, by decide +kernel, by decide +kernel, by decide +kernel, by decide +kernel⟩
  · exact ⟨5 * sec, 9, tekDev [{ handle := 1, active := 0, expiry := 5 * sec }], _, _, _, _, _, rfl, rfl, (rfl), by decide +kernel, by decide +kernel,
      (got (by decide +kernel))⟩
  · exact ⟨5 * sec, 9, tekDev [], _, rfl, by decide +kernel⟩
  · exact ⟨5 * sec, { phase1 := true, digest := List.replicate 8 0 }, gdoi [], _, rfl, by decide +kernel, by decide +kernel, by decide +kernel, by
      decide +kernel, by decide +kernel, by decide +kernel⟩
  · exact ⟨5 * sec, { phase1 := false, digest := List.replicate 8 0, group := 9 }, gdoi [], _, memb, rfl, by decide +kernel, by decide +kernel, by
      decide +kernel, by decide +kernel, by decide +kernel, by decide +kernel, by decide +kernel, by decide +kernel⟩
  · exact ⟨5 * sec, gdoi [(0, { reserved := 888 })], _, rfl, by decide +kernel, by decide +kernel⟩
  · exact ⟨5 * sec, gdoi [], _, rfl, by decide +kernel⟩

theorem witness_TenantsAndSnapshots : (∃ (h : Hdr) (b : Body) (s : State) (u : State) (ws : _) (n : _), starts opTenantCreate h b s = true ∧ u = begun
    opTenantCreate h b s ∧ domainStandby u h = false ∧ ws = wordsOf b 0x8C12 ∧ n = byteAt ws 0 ∧ (∀ f ∈ u.cmd.flights, f.await ≠ .tenant n) ∧ byteAt
        ws 1 = 1) ∧
    (∃ (h : Hdr) (b : Body) (s : State) (u : State) (ws : _) (n : _), starts opTenantRateSet h b s = true ∧ u = begun opTenantRateSet h b s ∧
        domainStandby u h = false ∧ ws = wordsOf b 0x8C13 ∧ n = byteAt ws 0 ∧ (∀ f ∈ u.cmd.flights, f.await ≠ .tenant n) ∧ (look u.dks.tenants
        n).isSome = true) ∧
    (∃ (h : Hdr) (b : Body) (s : State) (u : State) (a : _), starts opDomainSnapshot h b s = true ∧ u = begun opDomainSnapshot h b s ∧ u.mem.memOff =
        false ∧ a = (bytesNat (wordsOf b 0x8C14) 0 6 * 1000000000 + bytesNat (wordsOf b 0x8C14) 6 4) * 65536 ∧ tod u + 65536 * 1000000 ≤ a ∧ a ≤ tod u
        + 549000 * (65536 * 1000000) ∧ h.world = 3 ∧ u.dks.enrolled = true ∧ fromReplica u h.session = true) := by
  refine ⟨?_, ?_, ?_⟩
  · exact ⟨hop, [elemW 0x8C12 (0x09010000 :: List.replicate 673 0)], dev, _, _, _, by decide +kernel, rfl, by decide +kernel, rfl, rfl, by
      decide +kernel, by decide +kernel⟩
  · exact ⟨hop, [elemW 0x8C13 [0, 0, 0]], dom { svc with tenants := [(0, {})] }, _, _, _, by decide +kernel, rfl, by decide +kernel, rfl, rfl, by
      decide +kernel, by decide +kernel⟩
  · exact ⟨hdp, [elemW 0x8C14 [0, 0x0005001E, 0x84800000], elemN 0x8C15 128], dom svc, _, _, by decide +kernel, rfl, by decide +kernel, rfl, by
      decide +kernel, by decide +kernel, by decide +kernel, by decide +kernel, by decide +kernel⟩

theorem witness_MemoryRuns : (∃ (h : Hdr) (b : Body) (s : State) (u : State), starts opMemKeyRoll h b s = true ∧ u = begun opMemKeyRoll h b s ∧
    u.mem.halt = false ∧ u.mem.memOff = false ∧ u.mem.cap ≠ 0 ∧ u.mem.rolling = false ∧ drbgOut u = false ∧ u.eng.startup = false) ∧
    (∃ (h : Hdr) (b : Body) (s : State), starts opMemStatus h b s = true) ∧
    (∃ (t : _) (ch : _) (s : State) (u : State) (c : _), u = tick t s ∧ ch < 2 ∧ 5 ≤ u.boot.step ∧ u.mem.memOff = false ∧ c = channel u ch ∧ c.up =
        false ∧ c.tries < 3) ∧
    (∃ (t : _) (ch : _) (s : State) (u : State) (c : _), u = tick t s ∧ ch < 2 ∧ 5 ≤ u.boot.step ∧ u.mem.memOff = false ∧ c = channel u ch ∧ c.up =
        false ∧ c.tries = 2) ∧
    (∃ (t : _) (s : State) (u : State), u = tick t s ∧ u.mem.cap ≠ 0) ∧
    (∃ (t : _) (m : _) (ch : _) (a : _) (s : State) (u : State), u = tick t s ∧ ch < 2 ∧ gateOf u m ch a false = .open_ ∧ initialised u a = true ∧
        0x4A000000 ≤ a) ∧
    (∃ (t : _) (m : _) (ch : _) (a : _) (s : State) (u : State), u = tick t s ∧ ch < 2 ∧ gateOf u m ch a false = .open_ ∧ initialised u a = true ∧ a <
        0x40000000) ∧
    (∃ (t : _) (m : _) (ch : _) (a : _) (s : State) (u : State), u = tick t s ∧ ch < 2 ∧ gateOf u m ch a false = .open_ ∧ initialised u a = true ∧
        0x40000000 ≤ a) ∧
    (∃ (t : _) (m : _) (ch : _) (a : _) (s : State) (u : State), u = tick t s ∧ ch < 2 ∧ gateOf u m ch a false = .open_ ∧ initialised u a = false) ∧
    (∃ (t : _) (m : _) (ch : _) (a : _) (f : MemFault) (s : State) (u : State), u = tick t s ∧ ch < 2 ∧ gateOf u m ch a false = .open_ ∧ initialised u
        a = true ∧ (faultKind u ch a f).isSome = true) ∧
    (∃ (t : _) (m : _) (ch : _) (a : _) (s : State) (u : State), u = tick t s ∧ ch < 2 ∧ gateOf u m ch a false = .wall) ∧
    (∃ (t : _) (m : _) (ch : _) (a : _) (ws : List Word) (s : State) (u : State), u = tick t s ∧ ch < 2 ∧ gateOf u m ch a true = .open_ ∧ ws.length =
        16) ∧
    (∃ (t : _) (s : State) (u : State) (d : _), u = tick t s ∧ u.mem.due = some d ∧ d ≤ u.now ∧ rollable u = true ∧ u.mem.rolling = false) ∧
    (∃ (t : _) (s : State) (u : State) (v : _), u = tick t s ∧ u.mem.rolling = true ∧ rollable u = true ∧ chanBytes u ≤ sweptBytes u ∧ v = flushNodes
        u ∧ v.mem.rollOp = none) := by
  refine ⟨?_, ?_, ?_, ?_, ?_, ?_, ?_, ?_, ?_, ?_, ?_, ?_, ?_, ?_⟩
  · exact ⟨hop, [], ddr ready, _, by decide +kernel, rfl, by decide +kernel, by decide +kernel, by decide +kernel, by decide +kernel, by
      decide +kernel, by decide +kernel⟩
  · exact ⟨hop, [], ddr {}, by decide +kernel⟩
  · exact ⟨5 * sec, 1, ddr {}, _, _, rfl, by decide +kernel, by decide +kernel, by decide +kernel, rfl, by decide +kernel, by decide +kernel⟩
  · exact ⟨5 * sec, 1, ddr { c1.tries := 2 }, _, _, rfl, by decide +kernel, by decide +kernel, by decide +kernel, rfl, by decide +kernel, by
      decide +kernel⟩
  · exact ⟨5 * sec, ddr ready, _, rfl, by decide +kernel⟩
  · exact ⟨5 * sec, 4, 1, 0x4A000000, ddr ready, _, rfl, by decide +kernel, by decide +kernel, by decide +kernel, by decide +kernel⟩
  · exact ⟨5 * sec, 1, 1, 0, ddr ready, _, rfl, by decide +kernel, by decide +kernel, by decide +kernel, by decide +kernel⟩
  · exact ⟨5 * sec, 4, 1, 0x4A000000, ddr ready, _, rfl, by decide +kernel, by decide +kernel, by decide +kernel, by decide +kernel⟩
  · exact ⟨5 * sec, 1, 1, 0, ddr { ready with initDone := false, trainedAt := 5 * sec }, _, rfl, by decide +kernel, by decide +kernel, by
      decide +kernel⟩
  · exact ⟨5 * sec, 1, 1, 0, .tag, ddr ready, _, rfl, by decide +kernel, by decide +kernel, by decide +kernel, by decide +kernel⟩
  · exact ⟨5 * sec, 2, 1, 0, ddr ready, _, rfl, by decide +kernel, by decide +kernel⟩
  · exact ⟨5 * sec, 1, 1, 0, List.replicate 16 0, ddr ready, _, rfl, by decide +kernel, by decide +kernel, by decide +kernel⟩
  · exact ⟨5 * sec, ddr { ready with due := some (5 * sec) }, _, 5 * sec, rfl, by decide +kernel, by decide +kernel, by decide +kernel, by
      decide +kernel⟩
  · exact ⟨5 * sec, ddr { ready with rolling := true, swept := 17179869184 }, _, _, rfl, by decide +kernel, by decide +kernel, by decide +kernel, rfl,
      by decide +kernel⟩

theorem witness_TamperRuns : (∃ (n : _) (s : State) (v : _) (w : _), vaultOff s = false ∧ v = snapTrigger 3 (tod (joinGroup [n] (countAlarm n s)))
    (joinGroup [n] (countAlarm n s)) ∧ responseOf (joinGroup [n] (countAlarm n s)) n = 5 ∧ responseOf v n = 5 ∧ w = noteTamper (resign 3 false v) ∧
        responseOf w n = 5 ∧ w.tmp.resetAt = none) ∧
    (∃ (h : Hdr) (b : Body) (s : State) (u : State), starts opTamperConfig h b s = true ∧ u = begun opTamperConfig h b s ∧ u.keys.inForce = false) ∧
    (∃ (h : Hdr) (b : Body) (s : State) (u : State), starts opTamperTest h b s = true ∧ u = begun opTamperTest h b s ∧ u.tmp.test = none) ∧
    (∃ (t : _) (d : _) (s : State) (u : State) (x : TmpTest) (n : _) (r : _), u = tick t s ∧ u.tmp.test = some x ∧ x.left = n :: r ∧ d ≤ detectLimit
        n) ∧
    (∃ (h : Hdr) (b : Body) (s : State) (u : State) (n : _) (i : _) (l : _) (v : _), starts opTamperFuse h b s = true ∧ u = begun opTamperFuse h b s ∧
        n = maskSource (maskOf b) ∧ ticketsFor 0x0E02 1 h b u = some (i :: l) ∧ v = useTickets b u ∧ n ≠ 15 ∧ v.tmp.fused.testBit n = false ∧
        v.keys.inForce = false) ∧
    (∃ (h : Hdr) (b : Body) (s : State) (u : State) (i : _) (l : _) (v : _), starts opTamperRearm h b s = true ∧ u = begun opTamperRearm h b s ∧
        ticketsFor 0x0E03 1 h b u = some (i :: l) ∧ v = useTickets b u ∧ v.tmp.cond = 0) := by
  refine ⟨?_, ?_, ?_, ?_, ?_, ?_⟩
  · exact ⟨0, setFld 0x110000 2 0 5 dev, _, _, by decide +kernel, rfl, by decide +kernel, by decide +kernel, rfl, by decide +kernel, by
      decide +kernel⟩
  · exact ⟨hop, [], dev, _, by decide +kernel, rfl, by decide +kernel⟩
  · exact ⟨hop, [elemW 0x8E03 [1]], dev, _, by decide +kernel, rfl, by decide +kernel⟩
  · exact ⟨5 * sec, 34, { dev with tmp.test := some { op := 1, left := [0], named := 1, at_ := 0 } },
      _, { op := 1, left := [0], named := 1, at_ := 0 }, 0, [], rfl, by decide +kernel, by decide +kernel, by decide +kernel⟩
  · exact ⟨hop, fuseBody, officers [tkt 8 2 0x0E02 fuseBody], _, _, 2, [], _, by decide +kernel, rfl, rfl, (one_ticket (t := tkt 8 2 0x0E02 fuseBody)
      rfl (ticket_good (o := { role := 0 }) rfl (by decide +kernel) rfl rfl (by decide +kernel) (by decide +kernel) rfl)), rfl, by decide +kernel, by
      decide +kernel, by decide +kernel⟩
  · exact ⟨hop, rearmBody, { officers [tkt 8 2 0x0E03 rearmBody] with keys.life := 5 }, _, 2, [], _, by decide +kernel, rfl, (one_ticket (t := tkt 8 2
      0x0E03 rearmBody) rfl (ticket_good (o := { role := 0 }) rfl (by decide +kernel) rfl rfl (by decide +kernel) (by decide +kernel) rfl)), rfl, by
      decide +kernel⟩

theorem witness_PowerStatesAndDvfsRun : (∃ (h : Hdr) (b : Body) (s : State) (u : State) (g : _), starts opPowerStateSet h b s = true ∧ u = begun
    opPowerStateSet h b s ∧ g = (wordAt (wordsOf b 0x8F03) 0).toNat ∧ powerRefused u g = false ∧ u.pwr.target = none ∧ g ≠ u.pwr.state) ∧
    (∃ (h : Hdr) (b : Body) (s : State) (u : State) (g : _), starts opPowerStateSet h b s = true ∧ u = begun opPowerStateSet h b s ∧ g = (wordAt
        (wordsOf b 0x8F03) 0).toNat ∧ powerRefused u g = false ∧ u.pwr.target = none ∧ g = u.pwr.state) ∧
    (∃ (h : Hdr) (b : Body) (s : State), starts opWakeConfig h b s = true ∧ hasElem b 0x0F06 = true) ∧
    (∃ (t : _) (s : State) (u : State), u = tick t s ∧ u.pwr.state = 0 ∧ u.pwr.target = some 1 ∧ bricksEmpty u = true) ∧
    (∃ (t : _) (s : State) (u : State), u = tick t s ∧ u.pwr.state = 1 ∧ u.pwr.target = some 0) ∧
    (∃ (n : _) (s : State) (v : _) (w : _), v = perfSettle s ∧ w = record 0x1201 [v.pwr.state,
        n] { v with pwr := { v.pwr with state := n, target := none } } ∧ w.pwr.queued = none) ∧
    (∃ (t : _) (s : State) (u : State), u = tick t s ∧ u.pwr.state < 2 ∧ u.pwr.target = some 2 ∧ (∀ b ∈ [0, 1, 2, 3], engineIdle u b = true)) ∧
    (∃ (t : _) (s : State) (u : State), u = tick t s ∧ u.pwr.state = 2 ∧ (u.pwr.target = some 0 ∨ u.pwr.target = some 1)) ∧
    (∃ (t : _) (s : State) (u : State), u = tick t s ∧ u.pwr.state < 3 ∧ u.pwr.target = some 3 ∧ u.pwr.pastCommit = false ∧ halted u = false ∧
        u.pwr.queued = none) ∧
    (∃ (t : _) (s : State) (u : State), u = tick t s ∧ flag u 0x120008 1 = true ∧ u.pwr.state = 3 ∧ u.pwr.waking = false) ∧
    (∃ (t : _) (s : State) (u : State), u = tick t s ∧ rtcAlarmAt u ≤ rtcNow u ∧ flag u 0x120008 2 = true ∧ u.pwr.state = 3 ∧ u.pwr.waking = false) ∧
    (∃ (t : _) (s : State) (u : State), u = tick t s ∧ flag u 0x120008 0 = true ∧ u.pwr.state = 3 ∧ u.pwr.waking = false) ∧
    (∃ (h : Hdr) (b : Body) (s : State) (u : State) (w : _) (k : _), starts opDvfsSet h b s = true ∧ u = begun opDvfsSet h b s ∧ w = wordAt (wordsOf b
        0x8F01) 0 ∧ k = byteAt [w] 0 ∧ (∀ x ∈ u.cmd.flights, x.await ≠ .dvfs k) ∧ ((bricksOn u = true → (dvfsOf u k).phase = 0))) ∧
    (∃ (t : _) (k : _) (mv : _) (s : State) (u : State) (d : _), u = tick t s ∧ k < 4 ∧ d = dvfsOf u k ∧ d.phase = 1 ∧ u.now ≤ d.since + 2 * ms ∧ mv ≤
        voltsOf d.goal + 10 ∧ voltsOf d.goal ≤ mv + 10) ∧
    (∃ (t : _) (k : _) (s : State) (u : State) (d : _), u = tick t s ∧ k < 4 ∧ d = dvfsOf u k ∧ d.phase = 2 ∧ d.live < d.goal ∧ d.since + (d.goal -
        d.live) * 10 * ns ≤ u.now) ∧
    (∃ (t : _) (k : _) (s : State) (u : State) (d : _), u = tick t s ∧ k < 4 ∧ d = dvfsOf u k ∧ d.phase = 2 ∧ d.goal < d.live ∧ d.since + (d.live -
        d.goal) * 10 * ns ≤ u.now) ∧
    (∃ (t : _) (k : _) (s : State) (u : State) (d : _), u = tick t s ∧ k < 4 ∧ d = dvfsOf u k ∧ d.phase = 1 ∧ d.since + 2 * ms ≤ u.now) := by
  refine ⟨?_, ?_, ?_, ?_, ?_, ?_, ?_, ?_, ?_, ?_, ?_, ?_, ?_, ?_, ?_, ?_, ?_⟩
  · exact ⟨hop, [elemW 0x8F03 [1]], dev, _, _, by decide +kernel, rfl, rfl, by decide +kernel, by decide +kernel, by decide +kernel⟩
  · exact ⟨hop, [elemW 0x8F03 [0]], dev, _, _, by decide +kernel, rfl, rfl, by decide +kernel, by decide +kernel, rfl⟩
  · exact ⟨hop, [elemW 0x8F05 [7], elemW 0x0F06 [0, 9]], dev, by decide +kernel, by decide +kernel⟩
  · exact ⟨5 * sec, pwr 0 (some 1), _, rfl, by decide +kernel, by decide +kernel, by decide +kernel⟩
  · exact ⟨5 * sec, pwr 1 (some 0), _, rfl, by decide +kernel, by decide +kernel⟩
  · exact ⟨1, dev, _, _, rfl, rfl, by decide +kernel⟩
  · exact ⟨5 * sec, pwr 1 (some 2), _, rfl, by decide +kernel, by decide +kernel, by decide +kernel⟩
  · exact ⟨5 * sec, pwr 2 (some 1), _, rfl, by decide +kernel, by decide +kernel⟩
  · exact ⟨5 * sec, pwr 2 (some 3), _, rfl, by decide +kernel, by decide +kernel, by decide +kernel, by decide +kernel, by decide +kernel⟩
  · exact ⟨5 * sec, setFld 0x120008 1 1 1 (pwr 3 none), _, rfl, by decide +kernel, by decide +kernel, by decide +kernel⟩
  · exact ⟨5 * sec, setFld 0x120008 2 2 1 (pwr 3 none), _, rfl, by decide +kernel, by decide +kernel, by decide +kernel, by decide +kernel⟩
  · exact ⟨5 * sec, setFld 0x120008 0 0 1 (pwr 3 none), _, rfl, by decide +kernel, by decide +kernel, by decide +kernel⟩
  · exact ⟨hop, [elemW 0x8F01 [0x03000320]], dev, _, _, _, by decide +kernel, rfl, rfl, rfl, by decide +kernel, by decide +kernel⟩
  · exact ⟨5 * sec, 3, 860, dvfs { phase := 1, goal := 1700, since := 5 * sec }, _, _, rfl, by decide +kernel, rfl, by decide +kernel, by
      decide +kernel, by decide +kernel, by decide +kernel⟩
  · exact ⟨5 * sec, 3, dvfs { phase := 2, goal := 1700 }, _, _, rfl, by decide +kernel, rfl, by decide +kernel, by decide +kernel, by decide +kernel⟩
  · exact ⟨5 * sec, 3, dvfs { phase := 2, goal := 800 }, _, _, rfl, by decide +kernel, rfl, by decide +kernel, by decide +kernel, by decide +kernel⟩
  · exact ⟨5 * sec, 3, dvfs { phase := 1, goal := 1700 }, _, _, rfl, by decide +kernel, rfl, by decide +kernel, by decide +kernel⟩

theorem witness_SnapshotsAndCounters : (∃ (h : Hdr) (b : Body) (s : State), starts opSnapArm h b s = true ∧ hasElem b 0x9001 = true ∧ hasElem b 0x9002
    = false ∧ hasElem b 0x9003 = false ∧ hasElem b 0x9004 = false) ∧
    (∃ (h : Hdr) (b : Body) (s : State), starts opSnapArm h b s = true ∧ hasElem b 0x9001 = false ∧ hasElem b 0x9002 = true ∧ hasElem b 0x9003 = false
        ∧ hasElem b 0x9004 = false) ∧
    (∃ (t : _) (s : State) (u : State), u = tick t s ∧ flag u 0x130000 0 = true ∧ u.pwr.state ≠ 3 ∧ 4 ≤ u.boot.step) ∧
    (∃ (t : _) (n : _) (s : State) (u : State), u = tick t s ∧ n ≤ 6 ∧ (n = 4 ∨ flag u 0x130000 n = true) ∧ u.pwr.state ≠ 3 ∧ 4 ≤ u.boot.step) ∧
    (∃ (h : Hdr) (b : Body) (s : State) (u : State) (ws : _), starts opSnapRead h b s = true ∧ u = begun opSnapRead h b s ∧ ws = wordsOf b 0x9005 ∧
        (namedBank u (byteAt ws 0)).isSome = true) ∧
    (∃ (h : Hdr) (b : Body) (s : State) (e : Elem), starts opPerfConfig h b s = true ∧ elemsOf b 0x9008 = [e] ∧ hasElem b 0x1009 = false) ∧
    (∃ (h : Hdr) (b : Body) (s : State), starts opPerfRead h b s = true) ∧
    (∃ (t : _) (n : _) (s : State) (u : State), u = tick t s ∧ n < 48 ∧ flag u 0x130050 0 = true ∧ flag u (0x130100 + 4 * n) 31 = true ∧ fld u
        (0x130100 + 4 * n) 4 0 ≠ 0 ∧ (u.obs.samples.filter fun y => decide (perfGroup y.counter = perfGroup n)).length < 16) ∧
    (∃ (t : _) (n : _) (s : State) (u : State), u = tick t s ∧ n < 48 ∧ flag u 0x130050 0 = true ∧ flag u (0x130100 + 4 * n) 31 = true ∧ fld u
        (0x130100 + 4 * n) 4 0 ≠ 0 ∧ 16 ≤ (u.obs.samples.filter fun y => decide (perfGroup y.counter = perfGroup n)).length) := by
  refine ⟨?_, ?_, ?_, ?_, ?_, ?_, ?_, ?_, ?_⟩
  · exact ⟨hop, [elemW 0x9001 [0]], dev, by decide +kernel, by decide +kernel, by decide +kernel, by decide +kernel, by decide +kernel⟩
  · exact ⟨hop, [elemW 0x9002 [0, 0]], dev, by decide +kernel, by decide +kernel, by decide +kernel, by decide +kernel, by decide +kernel⟩
  · exact ⟨5 * sec, setFld 0x130000 0 0 1 dev, _, rfl, by decide +kernel, by decide +kernel, by decide +kernel⟩
  · exact ⟨5 * sec, 4, dev, _, rfl, by decide +kernel, by decide +kernel, by decide +kernel, by decide +kernel⟩
  · exact ⟨hop, [elemW 0x9005 [0x01000000]], { dev with obs.bank1.state := 2 }, _, _, by decide +kernel, rfl, rfl, by decide +kernel⟩
  · exact ⟨hop, [elemW 0x9008 [0x2F000000, 0]], dev, elemW 0x9008 [0x2F000000, 0], by decide +kernel, by decide +kernel, by decide +kernel⟩
  · exact ⟨hop, [], dev, by decide +kernel⟩
  · exact ⟨5 * sec, 47, { dev with regs := [(0x130050, 1), (0x1301BC, 0x80000001)] }, _, rfl, by decide +kernel, by decide +kernel, by decide +kernel,
      by decide +kernel, by decide +kernel⟩
  · exact ⟨5 * sec,
      47, { dev with regs := [(0x130050, 1), (0x1301BC, 0x80000001)], obs.samples := List.replicate 16 { counter := 47, proc := false, stamp := 0, value := 0 } },
      _, rfl, by decide +kernel, by decide +kernel, by decide +kernel, by decide +kernel, by decide +kernel⟩

theorem witness_RecorderRuns : (∃ (t : _) (s : State) (u : State) (r : Rec) (l : List Rec), u = tick t s ∧ u.evr.staged ++ u.evr.ddr = r :: l ∧ 4 ≤
    u.boot.step ∧ u.pwr.state < 3 ∧ (128 ≤ u.evr.staged.length ∨ r.at_ + sec ≤ u.now)) ∧
    (∃ (t : _) (c : _) (s : State) (u : State) (x : Bucket) (n : _), u = tick t s ∧ look u.evr.buckets c = some x ∧ x.due ≤ u.now ∧ n = min x.tokens
        (fld u 0x140000 23 16) + 1 ∧ n < fld u 0x140000 23 16) ∧
    (∃ (t : _) (c : _) (s : State) (u : State) (w : SupWindow), u = tick t s ∧ look u.evr.windows c = some w ∧ w.opened + 60 * sec ≤ u.now) ∧
    (∃ (h : Hdr) (b : Body) (s : State) (u : State) (ws : _), starts opRecorderRead h b s = true ∧ u = begun opRecorderRead h b s ∧ ws = wordsOf b
        0x900C ∧ hasElem b 0x900E = false ∧ elemOf b 0x100D = none ∧ (recordsFrom (if byteAt ws 0 = 0 then u.evr.keep else u.evr.circ) (wordAt ws
        1).toNat).isSome = true) ∧
    (∃ (h : Hdr) (b : Body) (s : State) (u : State) (i : _) (l : _), starts opRecorderClear h b s = true ∧ u = begun opRecorderClear h b s ∧
        ticketsFor 0x1005 1 h b u = some (i :: l)) := by
  refine ⟨?_, ?_, ?_, ?_, ?_⟩
  · exact ⟨5 * sec, { dev with evr.staged := [rec0] }, _, rec0, [], rfl, by decide +kernel, by decide +kernel, by decide +kernel, by decide +kernel⟩
  · exact ⟨5 * sec, 0x1201, { dev with evr.buckets := [(0x1201, { tokens := 0, due := 0 })] }, _, { tokens := 0, due := 0 }, _, rfl, by
      decide +kernel, by decide +kernel, rfl, by decide +kernel⟩
  · exact ⟨60 * sec, 0x1201, { dev with evr.windows := [(0x1201, { opened := 0, count := 5 })] }, _, { opened := 0, count := 5 }, rfl, by
      decide +kernel, by decide +kernel⟩
  · exact ⟨hop, [elemW 0x900C [0, 0xFFFFFFFF]], dev, _, _, by decide +kernel, rfl, rfl, by decide +kernel, by decide +kernel, by decide +kernel⟩
  · exact ⟨hop, clearBody, { dev with keys.tickets := [tkt 8 2 0x1005 clearBody], keys.officers := [(2, { role := 0 })] }, _, 2, [], by
      decide +kernel, rfl, (one_ticket (t := tkt 8 2 0x1005 clearBody) rfl (ticket_good (o := { role := 0 }) rfl (by decide +kernel) rfl rfl (by
      decide +kernel) (by decide +kernel) rfl))⟩

theorem witness_InServiceTestsRun : (∃ (h : Hdr) (b : Body) (s : State) (u : State) (m : _) (v : _), starts opSelftestRun h b s = true ∧ u = begun
    opSelftestRun h b s ∧ scopeFull (wordsOf b 0x9012) = false ∧ u.obs.selftest = none ∧ m = scopeUnits (wordsOf b 0x9012) ∧ v = startOp 0x1006
        h.world h.mailbox h.tag u ∧ (∀ n ∈ unitsOf m, unitOut v n = false)) ∧
    (∃ (t : _) (b : Nat) (k : _) (s : State) (u : State) (x : _), u = tick t s ∧ b < 4 ∧ k < 6 ∧ u.obs.selftest = none ∧ 8 ≤ u.boot.step ∧ u.pwr.state
        = 0 ∧ testOn u (6 * b + k) = true ∧ x = tile u b k ∧ x.failed = false ∧ x.testing = false ∧ x.role = 0 ∧ tileFree u b k = true ∧ wholeTest u b
        k = true) ∧
    (∃ (t : _) (b : Nat) (k : _) (s : State) (u : State) (x : _), u = tick t s ∧ b < 4 ∧ k < 6 ∧ x = tile u b k ∧ x.testing = true ∧ x.testAt + 2048 *
        bc u b ≤ u.now) ∧
    (∃ (t : _) (b : Nat) (k : _) (s : State) (u : State) (x : _), u = tick t s ∧ b < 4 ∧ k < 6 ∧ x = tile u b k ∧ x.testing = true ∧ x.testAt + 2048 *
        bc u b ≤ u.now) ∧
    (∃ (t : _) (n : _) (s : State) (u : State), u = tick t s ∧ u.obs.selftest = none ∧ 24 ≤ n ∧ n < 41 ∧ 6 ≤ u.boot.step ∧ u.pwr.state ≠ 3 ∧ testOn u
        n = true ∧ unitOut u n = false ∧ unitIdle u n = true) ∧
    (∃ (t : _) (n : _) (s : State) (u : State), u = tick t s ∧ u.obs.selftest = none ∧ 24 ≤ n ∧ n < 41 ∧ 6 ≤ u.boot.step ∧ u.pwr.state ≠ 3 ∧ testOn u
        n = true ∧ unitOut u n = false ∧ unitIdle u n = true) ∧
    (∃ (t : _) (n : _) (s : State) (u : State), u = tick t s ∧ u.obs.selftest = none ∧ 24 ≤ n ∧ n < 41 ∧ 8 ≤ u.boot.step ∧ u.pwr.state ≠ 3 ∧ flag u
        0x130400 0 = true ∧ unitOut u n = false ∧ n ∉ u.obs.overdue ∧ testedAt u n + Machine.unitInterval n ≤ u.now) := by
  refine ⟨?_, ?_, ?_, ?_, ?_, ?_, ?_⟩
  · exact ⟨hop, [elemW 0x9012 [0x00000100, 0]], dev, _, _, _, by decide +kernel, rfl, by decide +kernel, by decide +kernel, rfl, rfl, by
      decide +kernel⟩
  · exact ⟨5 * sec, 3, 5, { dev with regs := [(0x130400, 1), (0x070308, 0)] }, _, _, rfl, by decide +kernel, by decide +kernel, by decide +kernel, by
      decide +kernel, by decide +kernel, by decide +kernel, rfl, by decide +kernel, by decide +kernel, by decide +kernel, by decide +kernel, by
      decide +kernel⟩
  · exact ⟨5 * sec, 3, 5, { dev with brk.bricks := [(3, { tiles := [(5, { testing := true })] })] }, _, _, rfl, by decide +kernel, by decide +kernel,
      rfl, by decide +kernel, by decide +kernel⟩
  · exact ⟨5 * sec, 3, 5, { dev with brk.bricks := [(3, { tiles := [(5, { testing := true })] })] }, _, _, rfl, by decide +kernel, by decide +kernel,
      rfl, by decide +kernel, by decide +kernel⟩
  · exact ⟨5 * sec, 40, { dev with regs := [(0x130400, 1)] }, _, rfl, by decide +kernel, by decide +kernel, by decide +kernel, by decide +kernel, by
      decide +kernel, by decide +kernel, by decide +kernel, by decide +kernel⟩
  · exact ⟨5 * sec, 40, { dev with regs := [(0x130400, 1)] }, _, rfl, by decide +kernel, by decide +kernel, by decide +kernel, by decide +kernel, by
      decide +kernel, by decide +kernel, by decide +kernel, by decide +kernel⟩
  · exact ⟨5 * sec, 40, { dev with regs := [(0x130400, 1)] }, _, rfl, by decide +kernel, by decide +kernel, by decide +kernel, by decide +kernel, by
      decide +kernel, by decide +kernel, by decide +kernel, by decide +kernel, by decide +kernel⟩

end Sys2Proof.Tests
end

/-! SUPPORT. The command interface (02): the SEQUENCE window of a session (R45) and the reset that DEVICE_RESET brings (R57). -/
namespace Sys2Proof.Machine
open Sys2Proof

/-! ## The SEQUENCE window of a session (R45) -/

theorem seqOk_iff {x : Session} {n : Nat} :
    seqOk x n = true ↔ n ≠ 0 ∧ x.high ≠ 0xFFFFFFFF ∧ (x.high < n ∨ (n < x.high ∧ x.high ≤ n + 64 ∧ n ∉ x.seen)) := by
  simp [seqOk, and_assoc]

theorem mem_seen_seqTake_of_gt {x : Session} {n : Nat} (t : Nat) (hn : x.high < n) (v : Nat) :
    v ∈ (seqTake x n t).seen ↔ ((x.high ≠ 0 ∧ v = x.high) ∨ v ∈ x.seen) ∧ n ≤ v + 64 := by
  rw [seqTake, if_pos hn]
  by_cases h0 : x.high = 0 <;> simp [h0]

theorem mem_seen_seqTake_of_le {x : Session} {n : Nat} (t : Nat) (hn : n ≤ x.high) (v : Nat) :
    v ∈ (seqTake x n t).seen ↔ v = n ∨ v ∈ x.seen := by
  simp [seqTake, Nat.not_lt.mpr hn]

theorem seqTake_high (x : Session) (n t : Nat) : (seqTake x n t).high = max x.high n := by
  unfold seqTake
  split
  · next h => exact (Nat.max_eq_right h.le).symm
  · next h => exact (Nat.max_eq_left (Nat.not_lt.mp h)).symm

/-- What a session that has accepted the SEQUENCEs `l` holds of them: the highest, and those below it that its window still
reaches. -/
structure Remembers (x : Session) (l : List Nat) : Prop where
  zero     : 0 ∉ l
  high_eq  : x.high = l.foldl max 0
  high_mem : x.high ≠ 0 → x.high ∈ l
  le_high  : ∀ v ∈ l, v ≤ x.high
  seen_iff : ∀ v, v ∈ x.seen ↔ v ∈ l ∧ v < x.high ∧ x.high ≤ v + 64

theorem remembers_nil {x : Session} (hh : x.high = 0) (hs : x.seen = []) : Remembers x [] := by
  constructor <;> simp [hh, hs]

/-- A SEQUENCE above the highest becomes the highest; what the window has moved past is forgotten. -/
theorem Remembers.seen_take_of_gt {x : Session} {l : List Nat} {n : Nat} (t : Nat) (h : Remembers x l) (hn : x.high < n) (v : Nat) :
    v ∈ (seqTake x n t).seen ↔ v ∈ l ++ [n] ∧ v < n ∧ n ≤ v + 64 := by
  rw [mem_seen_seqTake_of_gt t hn, h.seen_iff, List.mem_append, List.mem_singleton]
  constructor
  · rintro ⟨⟨h0, rfl⟩ | ⟨hv, hlt, -⟩, hw⟩
    · exact ⟨.inl (h.high_mem h0), hn, hw⟩
    · exact ⟨.inl hv, by omega, hw⟩
  · rintro ⟨hv | rfl, hlt, hw⟩
    · refine ⟨?_, hw⟩
      rcases (h.le_high v hv).lt_or_eq with hlt | rfl
      · exact .inr ⟨hv, hlt, by omega⟩
      · exact .inl ⟨fun h0 => h.zero (h0 ▸ hv), rfl⟩
    · omega

/-- A SEQUENCE inside the window is noted beside the others. -/
theorem Remembers.seen_take_of_lt {x : Session} {l : List Nat} {n : Nat} (t : Nat) (h : Remembers x l) (hn : n < x.high)
    (hw : x.high ≤ n + 64) (v : Nat) : v ∈ (seqTake x n t).seen ↔ v ∈ l ++ [n] ∧ v < x.high ∧ x.high ≤ v + 64 := by
  rw [mem_seen_seqTake_of_le t hn.le, h.seen_iff, List.mem_append, List.mem_singleton]
  constructor
  · rintro (rfl | ⟨hv, hlt, hw'⟩)
    · exact ⟨.inr rfl, hn, hw⟩
    · exact ⟨.inl hv, hlt, hw'⟩
  · rintro ⟨hv | rfl, hlt, hw'⟩
    · exact .inr ⟨hv, hlt, hw'⟩
    · exact .inl rfl

theorem Remembers.take {x : Session} {l : List Nat} {n : Nat} (t : Nat) (h : Remembers x l) (ok : seqOk x n = true) :
    Remembers (seqTake x n t) (l ++ [n]) := by
  obtain ⟨hn0, -, hwin⟩ := seqOk_iff.mp ok
  have hmax : ∀ v ∈ l ++ [n], v ≤ max x.high n := by
    intro v hv
    rcases List.mem_append.mp hv with hv | hv
    · exact le_max_of_le_left (h.le_high v hv)
    · exact le_max_of_le_right (List.mem_singleton.mp hv).le
  refine ⟨?_, ?_, ?_, ?_, fun v => ?_⟩
  · simpa [h.zero] using hn0.symm
  · rw [seqTake_high, List.foldl_append, h.high_eq]; rfl
  · rw [seqTake_high]
    rcases hwin with hgt | ⟨hlt, -, -⟩
    · simp [max_eq_right hgt.le]
    · rw [max_eq_left hlt.le]
      exact fun h0 => List.mem_append_left _ (h.high_mem h0)
  · rwa [seqTake_high]
  · rw [seqTake_high]
    rcases hwin with hgt | ⟨hlt, hw, -⟩
    · rw [max_eq_right hgt.le]
      exact h.seen_take_of_gt t hgt v
    · rw [max_eq_left hlt.le]
      exact h.seen_take_of_lt t hlt hw v

/-- A session that has accepted a list of SEQUENCEs, each as R45 allows in its turn, remembers them. -/
theorem remembers_foldl {x0 : Session} (hh : x0.high = 0) (hs : x0.seen = []) (t : Nat) (l : List Nat)
    (hok : ∀ k v, l[k]? = some v → seqOk ((l.take k).foldl (fun y v => seqTake y v t) x0) v = true) :
    Remembers (l.foldl (fun y v => seqTake y v t) x0) l := by
  induction l using List.reverseRecOn with
  | nil => exact remembers_nil hh hs
  | append_singleton l n ih =>
    have hearlier : ∀ k v, l[k]? = some v → seqOk ((l.take k).foldl (fun y v => seqTake y v t) x0) v = true := by
      intro k v hk
      have hlt : k < l.length := (List.getElem?_eq_some_iff.mp hk).1
      have := hok k v (by rw [List.getElem?_append_left hlt, hk])
      rwa [List.take_append_of_le_length hlt.le] at this
    have hlast : seqOk (l.foldl (fun y v => seqTake y v t) x0) n = true := by
      simpa using hok l.length n (by simp)
    rw [List.foldl_append]
    exact (ih hearlier).take t hlast

/-- What a session remembers decides the next SEQUENCE as R45 says. -/
theorem Remembers.seqOk_iff {x : Session} {l : List Nat} (h : Remembers x l) (n : Nat) :
    seqOk x n = true ↔ n ≠ 0 ∧ l.foldl max 0 ≠ 0xFFFFFFFF ∧
      (l.foldl max 0 < n ∨ (n < l.foldl max 0 ∧ l.foldl max 0 ≤ n + 64 ∧ n ∉ l)) := by
  rw [Machine.seqOk_iff, ← h.high_eq, h.seen_iff]
  constructor
  · rintro ⟨h0, hf, hgt | ⟨hlt, hw, hs⟩⟩
    · exact ⟨h0, hf, .inl hgt⟩
    · exact ⟨h0, hf, .inr ⟨hlt, hw, fun hl => hs ⟨hl, hlt, hw⟩⟩⟩
  · rintro ⟨h0, hf, hgt | ⟨hlt, hw, hl⟩⟩
    · exact ⟨h0, hf, .inl hgt⟩
    · exact ⟨h0, hf, .inr ⟨hlt, hw, fun hs => hl hs.1⟩⟩

/-! ## Steps 4 to 6 of R49 -/

theorem identify_replay {op : Op} {h : Hdr} {b : Body} {s : State} {x : Session} (h0 : h.session ≠ 0)
    (hx : look s.cmd.sessions h.session = some x) (hc : x.closing = false) (hm : macGood x.key op h b = true)
    (hq : seqOk x h.sequence = false) : identify op h b s = .inr stReplay := by
  simp [identify, h0, hx, hc, hm, hq]

theorem identify_accept {op : Op} {h : Hdr} {b : Body} {s : State} {x : Session} (h0 : h.session ≠ 0)
    (hx : look s.cmd.sessions h.session = some x) (hc : x.closing = false) (hm : macGood x.key op h b = true)
    (hq : seqOk x h.sequence = true) : identify op h b s =
      .inl ({ s with cmd := { s.cmd with sessions := put s.cmd.sessions h.session (seqTake x h.sequence s.now) } }, some x.world) := by
  simp [identify, h0, hx, hc, hm, hq]

/-- The names a flight carries do not show in a plain rejection. -/
theorem rejectPlain_flightFor (op : Op) (h : Hdr) (b : Body) (st d : Nat) (s : State) :
    rejectPlain (flightFor op h b) st d s = rejectPlain (flightOf h op.code .start) st d s := rfl

/-- A frame that its transport takes comes to the checks of R49. -/
theorem runCommand_taken {i : Instr} {op : Op} {h : Hdr} {b : Body} {m : State → Ans} {s : State} (ht : taken op h b (tick h.t s) = true) :
    runCommand i op h b m s = admitFrame i op h b (flightFor op h b) m (arrived h s) := by
  simp only [taken, Bool.and_eq_true, Bool.not_eq_true', decide_eq_true_eq] at ht
  obtain ⟨⟨⟨⟨hcmd, hlive⟩, hsize⟩, htakes⟩, hturn⟩ := ht
  simp only [runCommand, hcmd, hlive, hsize, htakes, hturn, Bool.true_eq_false, Bool.false_eq_true, or_self, reduceCtorEq, if_false]
  rfl

/-- A frame that fails at steps 4 to 6 of R49 is answered with a plain rejection. -/
theorem admitFrame_unidentified {i : Instr} {op : Op} {h : Hdr} {b : Body} {f : Flight} {m : State → Ans} {s : State} {st : Nat}
    (hw : wellFramed h = true) (hid : identify op h b s = .inr st) : admitFrame i op h b f m s = rejectPlain f st 0 s := by
  simp only [wellFramed, Bool.and_eq_true, Bool.not_eq_true', decide_eq_true_eq] at hw
  obtain ⟨⟨⟨⟨⟨hmagic, hdone⟩, hver⟩, h4⟩, hmax⟩, hlen⟩ := hw
  unfold admitFrame
  rw [if_neg (by simp [hmagic, hdone]), if_neg (by simp [hver]), if_neg (by omega), hid]

theorem run_unidentified {i : Instr} {op : Op} {h : Hdr} {b : Body} {m : State → Ans} {s : State} {st : Nat}
    (ht : taken op h b (tick h.t s) = true) (hw : wellFramed h = true) (hid : identify op h b (arrived h s) = .inr st) :
    run i op h b m s = .next (rejectPlain (flightOf h op.code .start) st 0 (arrived h s)) := by
  rw [run, runCommand_taken ht, admitFrame_unidentified hw hid, rejectPlain_flightFor]

/-- Settles O6: a session remembers its highest SEQUENCE and those the window reaches, by induction on the list it has accepted. -/
theorem sequenceAcceptance : Obligations.SequenceAcceptance := by
  unfold Obligations.SequenceAcceptance
  refine ⟨?_, ?_, ?_⟩
  · rintro x0 _ l n t _ hh hs - hok rfl rfl
    exact (remembers_foldl hh hs t l hok).seqOk_iff n
  · intro i op h b m s x ht hw h0 hx hc hm hq
    exact run_unidentified ht hw (identify_replay h0 hx hc hm hq)
  · intro op h b s x h0 hx hc hm hq
    rw [accepted, identify_accept h0 hx hc hm hq]
    exact look_put_same _ _ _

/-! ## Cause bits -/

/-- Setting a bit of a word sets it and leaves every other bit. -/
theorem bit_withBits_one (w : Word) {i j : Nat} (hj : j < 32) : (w.withBits i i 1).bit j = (decide (j = i) || w.bit j) := by
  have hsplit : w.toNat % 2 ^ i + 1 % 2 ^ (i + 1 - i) * 2 ^ i + w.toNat >>> (i + 1) * 2 ^ (i + 1) =
      2 ^ i * (2 * (w.toNat >>> (i + 1)) + 1) + w.toNat % 2 ^ i := by
    simp only [Nat.add_sub_cancel_left]
    ring
  unfold Word.withBits Word.bit
  rw [BitVec.toNat_ofNat, Nat.testBit_mod_two_pow, hsplit,
    Nat.testBit_two_pow_mul_add _ (Nat.mod_lt _ (Nat.two_pow_pos i))]
  rcases Nat.lt_trichotomy j i with h | rfl | h
  · simp [hj, h, h.ne, Nat.testBit_mod_two_pow]
  · simp [hj]
  · obtain ⟨k, rfl⟩ : ∃ k, j = i + 1 + k := ⟨j - (i + 1), by omega⟩
    have hk : i + 1 + k - i = k + 1 := by omega
    simp [hj, hk, Nat.testBit_add_one, Nat.mul_add_div, Nat.testBit_shiftRight, Nat.not_lt.mpr h.le, h.ne']

/-- A register written with other than its reset word reads back, whatever the store held. -/
theorem regWord_setReg_of_ne_reset (s : State) {a : Nat} {w : Word} (h : w ≠ resetWord a) : regWord (setReg a w s) a = w := by
  simp [regWord, setReg, putReg, h]

/-- A bit that is clear at reset reads set once the register is written with it set. -/
theorem flag_raise {s : State} {a i j : Nat} (hj : j < 32) (hr : (resetWord a).bit j = false) (h : j = i ∨ flag s a j = true) :
    flag (raise a i s) a j = true := by
  have hbit : ((regWord s a).withBits i i 1).bit j = true := by
    rw [bit_withBits_one _ hj]
    rcases h with h | h
    · simp [h]
    · rw [flag] at h; simp [h]
  have hne : (regWord s a).withBits i i 1 ≠ resetWord a := fun e => by simp [e, hr] at hbit
  rw [flag, raise, setFld, regWord_setReg_of_ne_reset s hne, hbit]

/-! ## What a reset of any kind leaves (R88 to R91) -/

@[simp] theorem saveTime_sent (s : State) : (saveTime s).sent = s.sent := by
  unfold saveTime; split <;> rfl

@[simp] theorem resetBy_cmd (k : Nat) (s : State) : (resetBy k s).cmd = {} := by
  simp only [resetBy, apply_ite State.cmd, raise_cmd, setFld_cmd, loseState, ite_self]

@[simp] theorem resetBy_sent (k : Nat) (s : State) : (resetBy k s).sent = s.sent := by
  simp only [resetBy, apply_ite State.sent, raise_sent, setFld_sent, loseState, saveTime_sent, ite_self]

@[simp] theorem resetBy_held (k : Nat) (s : State) : (resetBy k s).boot.held = true := by
  simp only [resetBy, apply_ite State.boot, raise_boot, setFld_boot, loseState, ite_self]

/-- With no reset or boot in progress a reset of a kind between brown-out and watchdog sets the cause bit of its kind. -/
theorem flag_resetBy {k : Nat} {s : State} (hp : kindInProgress s = none) (h1 : 1 ≤ k) (h5 : k ≤ 5) :
    flag (resetBy k s) 0x000050 k = true := by
  have hreset : ∀ k ≤ 5, 1 ≤ k → (resetWord 0x000050).bit k = false := by decide +kernel
  have hr := hreset k h5 h1
  simp only [resetBy, hp, if_neg (show k ≠ 0 by omega), if_neg (show k ≠ 6 by omega)]
  split
  · exact flag_raise (by omega) hr (.inr (flag_raise (by omega) hr (.inl rfl)))
  · exact flag_raise (by omega) hr (.inl rfl)

/-! ## The command warm reset (R57) -/

theorem warmReset_early {s : State} {w : Nat} (hw : s.boot.warmAt = some w) (h : s.now < w) : warmReset s = s := by
  simp [warmReset, hw, Nat.not_le.mpr h]

theorem warmReset_due {s : State} {w : Nat} (hw : s.boot.warmAt = some w) (h : w ≤ s.now) : warmReset s = resetBy 3 s := by
  simp [warmReset, hw, h]

theorem exec_commandWarmReset (t : Nat) (s : State) : exec (.commandWarmReset t) s = .next (warmReset (tick t s)) := rfl

/-- Settles O8: the completion goes out as the answer of DEVICE_RESET; the warm reset waits for its instant, then loses the commands in
flight and sends nothing. -/
theorem deviceResetWarms : Obligations.DeviceResetWarms := by
  unfold Obligations.DeviceResetWarms
  refine ⟨?_, ?_, ?_⟩
  · intro h b s u hs hu
    exact run_done hs hu rfl
  · rintro t s _ w rfl hw hlt
    rw [exec_commandWarmReset, warmReset_early hw hlt]
  · rintro t s _ w rfl hw hle
    refine ⟨resetBy 3 (tick t s), ?_, ?_, ?_, ?_, ?_⟩
    · rw [exec_commandWarmReset, warmReset_due hw hle]
    · rw [resetBy_cmd]
    · rw [resetBy_sent, tick_sent]
    · exact resetBy_held 3 _
    · exact fun hp => flag_resetBy hp (by decide) (by decide)

end Sys2Proof.Machine

/-! SUPPORT. The serial lanes (04): fields of a word, and the transmit FIR register whose MAIN yields (R98). -/
namespace Sys2Proof

/-! ## Fields of a word -/

theorem Word.testBit_bits (w : Word) (hi lo i : Nat) : (w.bits hi lo).testBit i = (decide (i < hi + 1 - lo) && w.bit (lo + i)) := by
  rw [Word.bits, Nat.testBit_mod_two_pow, Nat.testBit_shiftRight, Word.bit]

/-- Within the field a bit is the value's; below and above it is the word's. -/
theorem Word.bit_withBits (w : Word) {hi lo : Nat} (v : Nat) (h : lo ≤ hi) {j : Nat} (hj : j < 32) :
    (w.withBits hi lo v).bit j = if lo ≤ j ∧ j ≤ hi then v.testBit (j - lo) else w.bit j := by
  obtain ⟨d, rfl⟩ := Nat.exists_eq_add_of_le h
  have hsplit : w.toNat % 2 ^ lo + v % 2 ^ (lo + d + 1 - lo) * 2 ^ lo + w.toNat >>> (lo + d + 1) * 2 ^ (lo + d + 1) =
      2 ^ lo * (2 ^ (d + 1) * (w.toNat >>> (lo + d + 1)) + v % 2 ^ (d + 1)) + w.toNat % 2 ^ lo := by
    rw [show lo + d + 1 - lo = d + 1 by omega]
    ring
  unfold Word.withBits Word.bit
  rw [BitVec.toNat_ofNat, Nat.testBit_mod_two_pow, hsplit, Nat.testBit_two_pow_mul_add _ (Nat.mod_lt _ (Nat.two_pow_pos lo)),
    Nat.testBit_two_pow_mul_add _ (Nat.mod_lt _ (Nat.two_pow_pos (d + 1)))]
  simp only [hj, decide_true, Bool.true_and, Nat.testBit_mod_two_pow, Nat.testBit_shiftRight]
  by_cases hlo : j < lo
  · simp [hlo, Nat.not_le.mpr hlo]
  · by_cases hhi : j - lo < d + 1
    · simp [hlo, hhi, show lo ≤ j ∧ j ≤ lo + d by omega]
    · simp [hlo, hhi, show ¬ j ≤ lo + d by omega, show lo + d + 1 + (j - lo - (d + 1)) = j by omega]

theorem Word.bits_withBits_same (w : Word) {hi lo : Nat} (v : Nat) (h : lo ≤ hi) (hhi : hi < 32) :
    (w.withBits hi lo v).bits hi lo = v % 2 ^ (hi + 1 - lo) := by
  refine Nat.eq_of_testBit_eq fun i => ?_
  rw [Word.testBit_bits, Nat.testBit_mod_two_pow]
  by_cases hi' : i < hi + 1 - lo
  · rw [Word.bit_withBits w v h (by omega), if_pos (by omega), Nat.add_sub_cancel_left]
  · simp [hi']

theorem Word.bits_withBits_other (w : Word) {hi lo hi' lo' : Nat} (v : Nat) (h : lo ≤ hi) (hhi : hi' < 32) (hd : hi < lo' ∨ hi' < lo) :
    (w.withBits hi lo v).bits hi' lo' = w.bits hi' lo' := by
  refine Nat.eq_of_testBit_eq fun i => ?_
  rw [Word.testBit_bits, Word.testBit_bits]
  by_cases hi'' : i < hi' + 1 - lo'
  · rw [Word.bit_withBits w v h (by omega), if_neg (by omega)]
  · simp [hi'']

/-- Two words that agree under a mask agree in each field the mask covers. -/
theorem Word.bits_eq_of_masked {x y m : Word} {hi lo : Nat} (h : (x ^^^ y) &&& m = 0) (hm : ∀ j, lo ≤ j → j ≤ hi → m.bit j = true) :
    x.bits hi lo = y.bits hi lo := by
  refine Nat.eq_of_testBit_eq fun i => ?_
  rw [Word.testBit_bits, Word.testBit_bits]
  by_cases hi' : i < hi + 1 - lo
  · have hone : m.getLsbD (lo + i) = true := hm (lo + i) (by omega) (by omega)
    have hxor := congrArg (BitVec.getLsbD · (lo + i)) h
    have hbit : x.getLsbD (lo + i) = y.getLsbD (lo + i) := by simpa [hone] using hxor
    simp only [Word.bit, BitVec.testBit_toNat, hbit]
  · simp [hi']

end Sys2Proof

namespace Sys2Proof.Machine
open Sys2Proof

/-! ## What a register write asks for, applies and reports -/

theorem Legal.apply_range {lo hi : Nat} (h : lo ≤ hi) (width v : Nat) : (Legal.range lo hi).apply width v = max lo (min hi v) := by
  simp only [Legal.apply]
  split_ifs <;> omega

theorem askedWord_allOnes (s : State) (a : Nat) (w : Word) : askedWord s a w 0xFFFFFFFF = w := by
  have hones : (0xFFFFFFFF : Word) = BitVec.allOnes 32 := rfl
  rw [askedWord, hones, BitVec.not_allOnes, BitVec.and_zero, BitVec.and_allOnes, BitVec.zero_or]

/-- What reads back as asked is not reported. -/
theorem reportWrite_eq_nil {a : Nat} {w : Word} {s : State} (h : w = liveWord s a) : reportWrite a w s = [] := by
  simp [reportWrite, h]

/-- A field that writes set and that reads back other than asked is reported. -/
theorem reportWrite_of_bits_ne {a : Nat} {w : Word} {s : State} {hi lo : Nat} (ha : a < 2 ^ 24)
    (hm : ∀ j, lo ≤ j → j ≤ hi → (rwMask a).bit j = true) (h : w.bits hi lo ≠ (liveWord s a).bits hi lo) :
    reportWrite a w s = [asApplied (w32 (0xFF000000 + a)) w (liveWord s a)] := by
  have hdiff : ¬ (w ^^^ liveWord s a) &&& rwMask a = 0 := fun e => h (Word.bits_eq_of_masked e hm)
  have hne : w ≠ liveWord s a := fun e => h (by rw [← e])
  rw [reportWrite, if_neg hdiff, reportReg, if_neg hne, show a % 0x1000000 = a from Nat.mod_eq_of_lt ha]

/-! ## The transmit FIR registers (Table 4.3) -/

section
variable {n a : Nat} (hn : n < 36) (ha : a = 0x011004 + 0x20 * n)
include hn ha

/-- The register of every lane has the fields of Table 4.3; main and auxiliary lanes differ in reset values only. -/
theorem fieldsAt_txFir : ∃ main pre, fieldsAt a = firFields main pre := by
  have hmain : ∀ n < 32, fieldsAt (0x011004 + 0x20 * n) = firFields 52 4 := by decide +kernel
  have haux : ∀ n < 36, 32 ≤ n → fieldsAt (0x011004 + 0x20 * n) = firFields 56 0 := by decide +kernel
  subst ha
  rcases Nat.lt_or_ge n 32 with h | h
  · exact ⟨_, _, hmain n h⟩
  · exact ⟨_, _, haux n hn h⟩

theorem rwMask_txFir : rwMask a = 0x001F7F1F := by
  obtain ⟨main, pre, hf⟩ := fieldsAt_txFir hn ha
  simp only [rwMask, hf, firFields, fS, List.foldl]
  decide

theorem liveWord_txFir (s : State) : liveWord s a = regWord s a := by
  have hblock : a / 0x10000 = 1 := by omega
  have hro : roLne s (a % 0x10000) = 0 := by
    rw [roLne, if_neg (by omega), if_neg (by omega), if_neg (by omega)]
  have hzero : roWord s a = 0 := by
    simp only [roWord, hblock, hro]
    rfl
  rw [liveWord, hzero]
  exact BitVec.or_zero

theorem slotOf_txFir : slotOf a 0x011004 0x20 36 = some n := by
  rw [slotOf, if_pos (by omega)]
  congr 1
  omega

theorem beforeWrite_txFir (s : State) : beforeWrite a s = s := by
  have hperf : slotOf a 0x130100 4 48 = none := if_neg (by omega)
  rw [beforeWrite, if_neg (by omega), if_neg (by omega), if_neg]
  simp only [hperf, Option.isSome_none, Bool.false_eq_true, or_false]
  omega

theorem afterWrite_txFir (old : State) (ones : Word) (s : State) : afterWrite a old ones s = (s, []) := by
  have hblock : a / 0x10000 = 1 := by omega
  have hquad : slotOf a 0x010000 4 9 = none := if_neg (by omega)
  have hrxEq : slotOf a 0x011008 0x20 36 = none := if_neg (by omega)
  have hbond : a ≠ 0x010200 := by omega
  simp only [afterWrite, hblock, hquad, hrxEq, hbond, if_false]
  rfl

/-- No side effect and no other rule stands between a transmit FIR register and the word it takes. -/
theorem writeOne_txFir (w : Word) (s : State) : ∃ x, x = yielded s a (mergeWord a (regWord s a) w w) ∧
    writeOne a w 0xFFFFFFFF s = (setReg a x s, reportWrite a w (setReg a x s)) := by
  refine ⟨_, rfl, ?_⟩
  have hmatch : a ≠ matchHi 7 := by simp only [matchHi]; omega
  have htamper : slotOf a 0x110000 4 17 = none := if_neg (by omega)
  have hones : w &&& 0xFFFFFFFF = w := BitVec.and_allOnes
  simp only [writeOne, askedWord_allOnes, hones, hmatch, htamper, beforeWrite_txFir hn ha, afterWrite_txFir hn ha,
    show a ≠ 0x040030 by omega, show a ≠ 0x04003C by omega, show a ≠ 0x040040 by omega, show a ≠ 0x110044 by omega,
    false_and, if_false, Option.isSome_none, Bool.false_eq_true, List.append_nil]

/-- A write takes each field within its legal values. -/
theorem bits_mergeWord_txFir (old w ones : Word) : (mergeWord a old w ones).bits 20 16 = min 16 (w.bits 20 16) ∧
    (mergeWord a old w ones).bits 14 8 = max 32 (min 64 (w.bits 14 8)) ∧
    (mergeWord a old w ones).bits 4 0 = min 16 (w.bits 4 0) := by
  obtain ⟨main, pre, hf⟩ := fieldsAt_txFir hn ha
  simp (disch := decide) only [mergeWord, hf, firFields, fS, List.foldl, Legal.apply_range, Word.bits_withBits_same,
    Word.bits_withBits_other]
  omega

theorem yielded_txFir (s : State) (x : Word) : yielded s a x =
    if 64 < x.bits 20 16 + x.bits 14 8 + x.bits 4 0 then x.withBits 14 8 (64 - x.bits 20 16 - x.bits 4 0) else x := by
  rw [yielded, if_neg (by omega), if_neg (by omega), if_pos (by rw [slotOf_txFir hn ha, Option.isSome_some])]

/-- MAIN alone yields. -/
theorem bits_yielded_txFir (s : State) (x : Word) : (yielded s a x).bits 20 16 = x.bits 20 16 ∧
    (yielded s a x).bits 14 8 =
      (if 64 < x.bits 20 16 + x.bits 14 8 + x.bits 4 0 then 64 - x.bits 20 16 - x.bits 4 0 else x.bits 14 8) ∧
    (yielded s a x).bits 4 0 = x.bits 4 0 := by
  rw [yielded_txFir hn ha]
  split
  · refine ⟨Word.bits_withBits_other _ _ (by decide) (by decide) (by decide), ?_,
      Word.bits_withBits_other _ _ (by decide) (by decide) (by decide)⟩
    rw [Word.bits_withBits_same _ _ (by decide) (by decide)]
    exact Nat.mod_eq_of_lt (by omega)
  · exact ⟨rfl, rfl, rfl⟩

/-- The bits of MAIN are among those that a write sets. -/
theorem rwMask_txFir_main {j : Nat} (hlo : 8 ≤ j) (hhi : j ≤ 14) : (rwMask a).bit j = true := by
  rw [rwMask_txFir hn ha]
  interval_cases j <;> rfl

end

/-- Settles O20: the three fields are clamped one by one, then MAIN alone yields; a word in which MAIN has yielded differs from the one asked for
in MAIN, which is what is reported. -/
theorem transmitFirYields : Obligations.TransmitFirYields := by
  unfold Obligations.TransmitFirYields
  intro s n w a t r post main pre hc hn ha hwrite hpost hpre hmain
  obtain ⟨x, hx, hone⟩ := writeOne_txFir hn ha w s
  obtain ⟨rfl, rfl⟩ := Prod.mk.inj (hone.symm.trans hwrite)
  obtain ⟨hmergedPost, hmergedMain, hmergedPre⟩ := bits_mergeWord_txFir hn ha (regWord s a) w w
  obtain ⟨hxPost, hxMain, hxPre⟩ := bits_yielded_txFir hn ha s (mergeWord a (regWord s a) w w)
  rw [← hx, hmergedPost, ← hpost] at hxPost
  rw [← hx, hmergedPre, ← hpre] at hxPre
  rw [← hx, hmergedPost, hmergedMain, hmergedPre, ← hpost, ← hmain, ← hpre, show post + main + pre = pre + main + post by omega,
    Nat.sub_right_comm] at hxMain
  have hreads : regWord (setReg a x s) a = x := regWord_setReg_same hc.regs a x
  have hlive : liveWord (setReg a x s) a = x := (liveWord_txFir hn ha _).trans hreads
  simp only [fld, hreads]
  refine ⟨hxPost, hxPre, hxMain, ?_, fun hover => ?_, fun hsame => ?_, fun c hca => regWord_setReg_other s x hca, setReg_lane s a x⟩
  · rw [hxMain]
    split <;> omega
  · have hyields : w.bits 14 8 ≠ x.bits 14 8 := by
      rw [hxMain, if_pos hover]
      omega
    rw [← hlive] at hyields
    rw [reportWrite_of_bits_ne (by omega) (fun j => rwMask_txFir_main hn ha) hyields, hlive]
  · exact reportWrite_eq_nil (hsame.trans hlive.symm)

end Sys2Proof.Machine

/-! SUPPORT. Tamper response (17): what recording and notifying leave of the tamper unit, and what a source that is off does (R479). -/
namespace Sys2Proof.Machine
open Sys2Proof

/-! ## Recording an event and ending a long operation leave the tamper unit -/

@[simp] theorem subCount_tmp (sp i n : Nat) (s : State) : (subCount sp i n s).tmp = s.tmp := by
  unfold subCount; split <;> simp

@[simp] theorem countApfesia_tmp (v : Via) (tags body i : Nat) (s : State) : (countApfesia v tags body i s).tmp = s.tmp := by
  unfold countApfesia; split <;> simp

@[simp] theorem stageOne_tmp (code flags : Nat) (data : List Nat) (s : State) : (stageOne code flags data s).tmp = s.tmp := by
  simp only [stageOne, apply_ite State.tmp, bump_tmp, ite_self]

@[simp] theorem stageRecords_tmp (code flags : Nat) (recs : List (List Nat)) (s : State) :
    (stageRecords code flags recs s).tmp = s.tmp := by
  rcases recs with _ | ⟨a, _ | ⟨b, r⟩⟩ <;> simp only [stageRecords, stageOne_tmp, apply_ite State.tmp, ite_self]

@[simp] theorem stageEvent_tmp (code flags : Nat) (recs : List (List Nat)) (resp : Nat) (s : State) :
    (stageEvent code flags recs resp s).tmp = s.tmp := by
  simp only [stageEvent, apply_ite State.tmp, stageRecords_tmp, bump_tmp, ite_self]

@[simp] theorem setBank_tmp (k : Nat) (b : SnapBank) (s : State) : (setBank k b s).tmp = s.tmp := by
  unfold setBank; split <;> rfl

@[simp] theorem takeSnap_tmp (k src at_ : Nat) (s : State) : (takeSnap k src at_ s).tmp = s.tmp := by simp [takeSnap]

@[simp] theorem fireSnap_tmp (src at_ : Nat) (s : State) : (fireSnap src at_ s).tmp = s.tmp := by
  simp only [fireSnap, apply_ite State.tmp, setBank_tmp, takeSnap_tmp, stageEvent_tmp, bumpFld_tmp, ite_self]

@[simp] theorem snapTrigger_tmp (src at_ : Nat) (s : State) : (snapTrigger src at_ s).tmp = s.tmp := by
  unfold snapTrigger; split <;> simp

@[simp] theorem recordResp_tmp (code flags : Nat) (recs : List (List Nat)) (resp : Nat) (s : State) :
    (recordResp code flags recs resp s).tmp = s.tmp := by
  simp only [recordResp, apply_ite State.tmp, snapTrigger_tmp, stageEvent_tmp, ite_self]

@[simp] theorem record_tmp (code : Nat) (data : List Nat) (s : State) : (record code data s).tmp = s.tmp := recordResp_tmp ..

@[simp] theorem sendDone_tmp (c : Completion) (s : State) : (sendDone c s).tmp = s.tmp := by
  cases hvia : c.via <;> simp only [sendDone, hvia, apply_ite State.tmp, send_tmp, countApfesia_tmp, perf_tmp, ite_self]

@[simp] theorem notify_tmp (c : NotifyClass) (body : List Nat) (s : State) : (notify c body s).tmp = s.tmp := by
  unfold notify
  refine List.foldlRecOn (motive := fun t : State => t.tmp = s.tmp) _ _ rfl fun t ht x _ => ?_
  dsimp only
  split
  · exact ht
  · simpa using ht

@[simp] theorem endOp_tmp (n status : Nat) (elems : Body) (s : State) : (endOp n status elems s).tmp = s.tmp := by
  unfold endOp; split <;> simp

@[simp] theorem startOp_tmp (opcode world mailbox tag : Nat) (s : State) : (startOp opcode world mailbox tag s).tmp = s.tmp := rfl

/-! ## A source that is off raises nothing -/

theorem raises_off {s : State} {n : Nat} (h : sourceOn s n = false) : raises s n = false := by simp [raises, h]

/-- The condition of one source has no part in whether another raises an alarm. -/
theorem raises_addCond_other {s : State} {n k : Nat} (h : n ≠ k) :
    raises { s with tmp := { s.tmp with cond := Nat.lor s.tmp.cond (2 ^ n) } } k = raises s k := by
  have hbit : (Nat.lor s.tmp.cond (2 ^ n)).testBit k = s.tmp.cond.testBit k := by
    change (s.tmp.cond ||| 2 ^ n).testBit k = _
    rw [Nat.testBit_or, Nat.testBit_two_pow_of_ne h, Bool.or_false]
  unfold raises
  rw [hbit]
  rfl

theorem rearm_quiet {s : State} (again : Nat → Bool) (h : ∀ k, k < 16 → raises s k = false) : rearm again s = s := by
  have hnone : (List.range 16).filter (raises s) = [] := by
    rw [List.filter_eq_nil_iff]
    intro k hk
    simp [h k (List.mem_range.mp hk)]
  rw [rearm, hnone, alarm, if_pos rfl]

/-- Where nothing else is due, a source that is off only has its condition noted. -/
theorem tamperAlarm_off {s : State} {n : Nat} (hn : n < 16) (hoff : sourceOn s n = false) (hquiet : ∀ k, k < 16 → raises s k = false) :
    tamperAlarm (2 ^ n) s = { s with tmp := { s.tmp with cond := Nat.lor s.tmp.cond (2 ^ n) } } := by
  have hmod : 2 ^ n % 65536 = 2 ^ n := Nat.mod_eq_of_lt (Nat.pow_lt_pow_right (by decide : 1 < 2) hn)
  rw [tamperAlarm, hmod]
  refine rearm_quiet _ fun k hk => ?_
  by_cases h : n = k
  · subst h
    exact raises_off hoff
  · rw [raises_addCond_other h, hquiet k hk]

theorem exec_tamperAlarm (t sources : Nat) (s : State) : exec (.tamperAlarm t sources) s = .next (tamperAlarm sources (tick t s)) := rfl

/-! ## A source that is off is passed over by TAMPER_TEST (R489) -/

/-- The source whose turn it is reports result 2. -/
theorem nextTested_off {s : State} {t : TmpTest} {n fuel : Nat} {r : List Nat} (ht : s.tmp.test = some t) (hl : t.left = n :: r)
    (hoff : sourceOn s n = false) : nextTested (fuel + 1) s = nextTested fuel { s with tmp := { s.tmp with
      test := some { t with left := r, results := t.results ++ [testResult n 2 0] } } } := by
  simp [nextTested, ht, hl, hoff]

/-- With no source left the test ends and changes nothing else of the tamper unit. -/
theorem nextTested_end_tmp {s : State} {t : TmpTest} {fuel : Nat} (ht : s.tmp.test = some t) (hl : t.left = []) :
    (nextTested (fuel + 1) s).tmp = { s.tmp with test := none } := by
  simp [nextTested, ht, hl]

/-- A test of one source that is off ends at once. -/
theorem nextTested_only_off_tmp {s : State} {t : TmpTest} {n fuel : Nat} (ht : s.tmp.test = some t) (hl : t.left = [n])
    (hoff : sourceOn s n = false) : (nextTested (fuel + 2) s).tmp = { s.tmp with test := none } := by
  rw [nextTested_off ht hl hoff, nextTested_end_tmp rfl rfl]

theorem sources_of_single {n : Nat} (hn : n < 16) : ((List.range 16).filter fun k => (2 ^ n).testBit k) = [n] := by
  revert n
  decide

theorem exec_tamperTest (h : Hdr) (b : Body) (s : State) :
    exec (.tamperTest h b) s = run (.tamperTest h b) opTamperTest h b (ansTamperTest h b) s := rfl

/-- Without a test in progress, a test of one source that is off is taken and leaves the tamper unit as it was. -/
theorem ansTamperTest_off {h : Hdr} {b : Body} {u : State} {n : Nat} (hn : n < 16) (hm : maskOf b = 2 ^ n) (hoff : sourceOn u n = false)
    (hfree : u.tmp.test = none) : ∃ v, ansTamperTest h b u = .prog [opIdElem (nextOp u)] v ∧ v.tmp = u.tmp := by
  have hleft : ((List.range 16).filter fun k => (maskOf b).testBit k) = [n] := by rw [hm, sources_of_single hn]
  refine ⟨_, if_neg (by simp [hfree]), ?_⟩
  exact Eq.trans (nextTested_only_off_tmp rfl hleft hoff) (by simp [← hfree])

/-! ## TMP_COND -/

theorem bitmap_succ (n : Nat) (p : Nat → Bool) : bitmap (n + 1) p = 2 ^ n * (p n).toNat + bitmap n p := by
  simp only [bitmap, List.range_succ, List.foldl_append, List.foldl_cons, List.foldl_nil]
  cases p n <;> simp [Nat.add_comm]

theorem bitmap_lt (n : Nat) (p : Nat → Bool) : bitmap n p < 2 ^ n := by
  induction n with
  | zero => exact Nat.one_pos
  | succ n ih => rw [bitmap_succ]; cases p n <;> simp <;> omega

/-- Bit `i` of a bitmap is the test of `i`. -/
theorem testBit_bitmap {n i : Nat} (p : Nat → Bool) (h : i < n) : (bitmap n p).testBit i = p i := by
  induction n with
  | zero => omega
  | succ n ih =>
    rw [bitmap_succ, Nat.testBit_two_pow_mul_add _ (bitmap_lt n p)]
    by_cases hi : i < n
    · rw [if_pos hi, ih hi]
    · obtain rfl : i = n := by omega
      cases p i <;> simp

theorem bit_w32 (v : Nat) {i : Nat} (h : i < 32) : (w32 v).bit i = v.testBit i := by
  rw [Word.bit, w32, BitVec.toNat_ofNat, Nat.testBit_mod_two_pow, decide_eq_true h, Bool.true_and]

/-- TMP_COND shows the conditions of the sources that no fuse disables. -/
theorem bit_readWord_cond {s : State} {n : Nat} (hn : n < 16) (h0 : regWord s 0x110048 = 0) :
    (readWord s 0x110048).bit n = (s.tmp.cond.testBit n && !s.tmp.fused.testBit n) := by
  have hread : readWord s 0x110048 = regWord s 0x110048 ||| w32 (bitmap 16 fun k => s.tmp.cond.testBit k && !s.tmp.fused.testBit k) := rfl
  rw [hread, h0, show (0 : Word) = 0#32 from rfl, BitVec.zero_or, bit_w32 _ (by omega), testBit_bitmap _ hn]

/-- Settles O13: an alarm is raised, a test stimulates, only where `sourceOn` holds; TMP_COND is a bitmap of conditions without the fused
sources. -/
theorem disabledSourcesRaiseNothing : Obligations.DisabledSourcesRaiseNothing := by
  unfold Obligations.DisabledSourcesRaiseNothing
  refine ⟨?_, ?_, ?_, ?_⟩
  · rintro t n s _ rfl hn hoff hquiet
    rw [exec_tamperAlarm, tamperAlarm_off hn hoff hquiet]
  · intro h b s u n hs hu hn hm hoff hfree
    obtain ⟨v, hans, hv⟩ := ansTamperTest_off (h := h) hn hm hoff hfree
    exact ⟨v, (exec_tamperTest h b s).trans (run_prog hs hu hans), by rw [hv, hfree], by rw [hv], by rw [hv]⟩
  · intro s n hn h0 hfused
    rw [bit_readWord_cond hn h0, hfused, Bool.not_false, Bool.and_true]
  · intro s n hn h0 hfused
    rw [bit_readWord_cond hn h0, hfused, Bool.not_true, Bool.and_false]

end Sys2Proof.Machine

/-! SUPPORT. Power management (18): what a loss of state leaves of each register field (R91), and the resets that end every power transition
(R502) or follow an overload in low-power mode (R514). -/
namespace Sys2Proof.Machine
open Sys2Proof

/-! ## The fields of a register stand apart -/

/-- Every field lies in the word, and no two share a bit. -/
abbrev FieldsApart (fs : List Field) : Prop :=
  (∀ f ∈ fs, f.lo ≤ f.hi ∧ f.hi < 32) ∧ fs.Pairwise fun f g => f.hi < g.lo ∨ g.hi < f.lo

theorem fieldsApart_rows : ∀ l ∈ [regsA, regsB, regsC, regsD], ∀ r ∈ l, FieldsApart r.fields := by decide +kernel

theorem fieldsApart_fieldsAt (a : Nat) : FieldsApart (fieldsAt a) := by
  have hrow : ∀ l ∈ [regsA, regsB, regsC, regsD], ∀ r, l.find? (·.covers a) = some r → FieldsApart r.fields :=
    fun l hl r hr => fieldsApart_rows l hl r (List.mem_of_find?_eq_some hr)
  simp only [List.forall_mem_cons, List.not_mem_nil, false_implies, implies_true, and_true] at hrow
  obtain ⟨hA, hB, hC, hD⟩ := hrow
  unfold fieldsAt
  dsimp only
  split
  next r hr =>
    split_ifs at hr
    · exact hA r hr
    · exact hB r hr
    · exact hC r hr
    · exact hD r hr
  next => exact ⟨by simp, .nil⟩

/-- Filling fields that stand apart from `f` leaves `f`. -/
theorem bits_fill_other {f : Field} {fs : List Field} (v : Field → Nat) (w : Word) (hf : f.hi < 32) (hin : ∀ g ∈ fs, g.lo ≤ g.hi)
    (hap : ∀ g ∈ fs, f.hi < g.lo ∨ g.hi < f.lo) :
    (fs.foldl (fun w g => w.withBits g.hi g.lo (v g)) w).bits f.hi f.lo = w.bits f.hi f.lo := by
  induction fs generalizing w with
  | nil => rfl
  | cons g r ih =>
    rw [List.forall_mem_cons] at hin hap
    rw [List.foldl_cons, ih _ hin.2 hap.2, Word.bits_withBits_other w (v g) hin.1 hf hap.1.symm]

/-- Each field of a word filled field by field holds the value it was given. -/
theorem bits_fill {fs : List Field} (h : FieldsApart fs) (v : Field → Nat) (w : Word) {f : Field} (hf : f ∈ fs) :
    (fs.foldl (fun w g => w.withBits g.hi g.lo (v g)) w).bits f.hi f.lo = v f % 2 ^ (f.hi + 1 - f.lo) := by
  induction fs generalizing w with
  | nil => cases hf
  | cons g r ih =>
    obtain ⟨hin, hap⟩ := h
    rw [List.forall_mem_cons] at hin
    rw [List.pairwise_cons] at hap
    rw [List.foldl_cons]
    rcases List.mem_cons.mp hf with rfl | hr
    · rw [bits_fill_other v _ hin.1.2 (fun x hx => (hin.2 x hx).1) hap.1, Word.bits_withBits_same w (v f) hin.1.1 hin.1.2]
    · exact ih ⟨hin.2, hap.2⟩ _ hr

theorem bits_wordOf {a : Nat} (v : Field → Nat) {f : Field} (hf : f ∈ fieldsAt a) :
    (wordOf (fieldsAt a) v).bits f.hi f.lo = v f % 2 ^ (f.hi + 1 - f.lo) := bits_fill (fieldsApart_fieldsAt a) v 0 hf

/-! ## What a loss of state leaves of a register (R91) -/

/-- The word a loss leaves at an address: the fields kept from `w`, the others at reset. -/
def keptWord (keep : RClass → Bool) (a : Nat) (w : Word) : Word :=
  wordOf (fieldsAt a) fun f => if keep f.cls then w.bits f.hi f.lo else f.reset

theorem bits_keptWord (keep : RClass → Bool) {a : Nat} (w : Word) {f : Field} (hf : f ∈ fieldsAt a) :
    (keptWord keep a w).bits f.hi f.lo = if keep f.cls then w.bits f.hi f.lo else (resetWord a).bits f.hi f.lo := by
  rw [keptWord, bits_wordOf _ hf, resetWord, bits_wordOf _ hf]
  split
  · exact Nat.mod_mod _ _
  · rfl

theorem keepRegs_cons (keep : RClass → Bool) (a : Nat) (w : Word) (m : KMap Word) : keepRegs keep ((a, w) :: m) =
    if keptWord keep a w = resetWord a then keepRegs keep m else (a, keptWord keep a w) :: keepRegs keep m := by
  split
  next h => exact List.filterMap_cons_none (if_pos h)
  next h => exact List.filterMap_cons_some (if_neg h)

theorem look_keepRegs_none (keep : RClass → Bool) {m : KMap Word} {a : Nat} (h : look m a = none) : look (keepRegs keep m) a = none := by
  induction m with
  | nil => rfl
  | cons e r ih =>
    obtain ⟨k, w⟩ := e
    rw [look_cons] at h
    split at h
    · cases h
    next hk =>
      rw [keepRegs_cons]
      split
      · exact ih h
      · rw [look_cons, if_neg hk, ih h]

/-- In a store whose addresses rise, a loss acts on the word of each address listed. -/
theorem look_keepRegs_some (keep : RClass → Bool) {m : KMap Word} {b : Option Nat} (hm : risingFrom b m = true) {a : Nat} {w : Word}
    (h : look m a = some w) : (look (keepRegs keep m) a).getD (resetWord a) = keptWord keep a w := by
  induction m generalizing b with
  | nil => cases h
  | cons e r ih =>
    obtain ⟨k, x⟩ := e
    have hr : risingFrom (some k) r = true := by
      cases b with
      | none => exact hm
      | some b => exact (Bool.and_eq_true_iff.mp hm).2
    rw [look_cons] at h
    rw [keepRegs_cons]
    split at h
    next hk =>
      obtain rfl := hk
      obtain rfl := Option.some.inj h
      split
      next heq => rw [look_keepRegs_none keep (look_below hr le_rfl), Option.getD_none, heq]
      next => rw [look_cons, if_pos rfl, Option.getD_some]
    next hk =>
      split
      · exact ih hr h
      · rw [look_cons, if_neg hk, ih hr h]

/-- A loss of state keeps the fields of the classes kept; every other field takes its reset value. -/
theorem fld_loseState (keepS keepP : Bool) {s : State} (h : Regs.wf s.regs = true) {a : Nat} {f : Field} (hf : f ∈ fieldsAt a) :
    fld (loseState keepS keepP s) a f.hi f.lo =
      if classKept keepS keepP f.cls then fld s a f.hi f.lo else fld State.reset a f.hi f.lo := by
  have hregs : (loseState keepS keepP s).regs = keepRegs (classKept keepS keepP) s.regs := rfl
  have hreset : regWord State.reset a = resetWord a := rfl
  simp only [Regs.wf, Bool.and_eq_true, wfTable] at h
  rw [fld, fld, fld, hreset, regWord, hregs, regWord]
  cases hl : look s.regs a with
  | none => rw [look_keepRegs_none _ hl, Option.getD_none, ite_self]
  | some w => rw [look_keepRegs_some _ h.1 hl, bits_keptWord _ _ hf, Option.getD_some]

/-- A register none of whose fields is kept is left at its reset word, in whatever form the store was. -/
theorem regWord_loseState_lost {keepS keepP : Bool} (s : State) {a : Nat} (h : ∀ f ∈ fieldsAt a, classKept keepS keepP f.cls = false) :
    regWord (loseState keepS keepP s) a = resetWord a := by
  have hregs : (loseState keepS keepP s).regs = keepRegs (classKept keepS keepP) s.regs := rfl
  have hlost : ∀ w, keptWord (classKept keepS keepP) a w = resetWord a := fun w =>
    List.foldl_ext _ _ _ fun x f hf => by simp only [h f hf, Bool.false_eq_true, if_false]
  have hnone : look (keepRegs (classKept keepS keepP) s.regs) a = none := by
    generalize s.regs = m
    induction m with
    | nil => rfl
    | cons e r ih =>
      obtain ⟨k, w⟩ := e
      rw [keepRegs_cons]
      split
      · exact ih
      next hne =>
        rw [look_cons, if_neg fun hk : a = k => hne (hk ▸ hlost w), ih]
  rw [regWord, hregs, hnone, Option.getD_none]

/-! ## Resets and the power unit -/

/-- A reset of any kind leaves of the power unit at most the wake cause: RUN, with no transition, no queued request and no command
waiting for one. -/
theorem resetBy_pwr (k : Nat) (s : State) : ∃ w, (resetBy k s).pwr = { wakeCause := w } := by
  simp only [resetBy, apply_ite State.pwr, raise_pwr, setFld_pwr, loseState, ite_self]
  exact ⟨_, rfl⟩

/-- Settles O9: a reset leaves the power unit and the command interface as at power-on but for the wake cause, and sends nothing. -/
theorem resetsEndTransitions : Obligations.ResetsEndTransitions := by
  unfold Obligations.ResetsEndTransitions
  rintro k s _ rfl
  obtain ⟨w, hpwr⟩ := resetBy_pwr k s
  rw [hpwr, resetBy_cmd, resetBy_sent]
  exact ⟨rfl, rfl, rfl, rfl, rfl, rfl⟩

/-! ## The power-on reset -/

/-- A power-on reset is the earliest kind of Table 3.7, so it applies whatever was in progress: time is saved, then nothing but
battery-backed state, flash and fuses stays. -/
theorem resetBy_powerOn (s : State) : resetBy 0 s =
    { loseState false false (saveTime s) with boot := { (loseState false false (saveTime s)).boot with
        kind := some 0, supplyOk := false, supplyLost := (saveTime s).now, resetN := false } } := by
  cases hp : kindInProgress s <;> simp [resetBy, hp, loseState]

theorem saveTime_eq (s : State) : ∃ tod rtc, saveTime s = { s with time := { s.time with savedTod := tod, savedRtc := rtc } } := by
  unfold saveTime
  split
  · exact ⟨_, _, rfl⟩
  · exact ⟨_, _, rfl⟩

theorem fld_resetBy_powerOn {s : State} (h : Regs.wf s.regs = true) {a : Nat} {f : Field} (hf : f ∈ fieldsAt a) :
    fld (resetBy 0 s) a f.hi f.lo = if f.cls = .b then fld s a f.hi f.lo else fld State.reset a f.hi f.lo := by
  obtain ⟨tod, rtc, hsave⟩ := saveTime_eq s
  have hlose := fld_loseState false false (s := saveTime s) (by rwa [hsave]) hf
  rw [resetBy_powerOn]
  refine Eq.trans hlose ?_
  rw [hsave]
  cases f.cls <;> rfl

/-- POR is a class P field whose reset value is 1. -/
theorem flag_resetBy_powerOn (s : State) : flag (resetBy 0 s) 0x000050 0 = true := by
  have hlost : ∀ f ∈ fieldsAt 0x000050, classKept false false f.cls = false := by decide +kernel
  have hpor : (resetWord 0x000050).bit 0 = true := by decide +kernel
  rw [resetBy_powerOn]
  exact (congrArg (Word.bit · 0) (regWord_loseState_lost (saveTime s) hlost)).trans hpor

/-! ## An overload in low-power mode (R514) -/

theorem exec_aonBrownout (t : Nat) (s : State) : exec (.aonBrownout t) s = .next (aonBrownout (tick t s)) := rfl

theorem aonBrownout_lowPower {s : State} (h : s.pwr.regLp = true) : aonBrownout s = resetBy 0 s := if_pos h

theorem aonBrownout_normal {s : State} (h : s.pwr.regLp = false) : aonBrownout s = s := by simp [aonBrownout, h]

theorem fld_tick (t : Nat) (s : State) (a hi lo : Nat) : fld (tick t s) a hi lo = fld s a hi lo := by
  rw [fld, regWord, tick_regs]; rfl

/-- Settles O10: in low-power mode the overload is a power-on reset, of which the battery-backed domain keeps its fields and state; in
normal mode nothing happens. -/
theorem overloadInLowPower : Obligations.OverloadInLowPower := by
  unfold Obligations.OverloadInLowPower
  refine ⟨?_, ?_⟩
  · rintro t s _ rfl hlp
    have hfld : Canon s → ∀ a f, f ∈ fieldsAt a → fld (resetBy 0 (tick t s)) a f.hi f.lo =
        if f.cls = .b then fld s a f.hi f.lo else fld State.reset a f.hi f.lo := fun hc a f hf => by
      rw [fld_resetBy_powerOn (by rw [tick_regs]; exact hc.regs) hf, fld_tick]
    refine ⟨resetBy 0 (tick t s), ?_, resetBy_held 0 _, flag_resetBy_powerOn _, ?_, ?_, ?_⟩
    · rw [exec_aonBrownout, aonBrownout_lowPower hlp]
    · intro hc a f hf hcls
      rw [hfld hc a f hf, if_neg (by rcases hcls with h | h | h <;> simp [h])]
    · intro hc a f hf hcls
      rw [hfld hc a f hf, if_pos hcls]
    · obtain ⟨tod, rtc, hsave⟩ := saveTime_eq (tick t s)
      rw [resetBy_powerOn, hsave]
      simp [loseState, keepRecorder]
  · rintro t s _ rfl hlp
    rw [exec_aonBrownout, aonBrownout_normal hlp]

end Sys2Proof.Machine

/-! SUPPORT. The step, the frame of every command, and the frame of the rows that only answer (00, 02, 95): what recording an event and
sending a completion may change. -/
namespace Sys2Proof.Machine
open Sys2Proof

/-! ## The step and the reset state -/

/-- Settles O1: each clause is an equation of `step`; with nothing parked no turn can be taken. -/
theorem stepRunsFrontCommand : Obligations.StepRunsFrontCommand := by
  unfold Obligations.StepRunsFrontCommand
  have hnone : ∀ (l : List Flight) (s : State), s.cmd.parked = [] → takeTurns exec l s = .next s := by
    intro l s hp
    induction l with
    | nil => rfl
    | cons f r ih => rw [takeTurns, hp]; exact ih
  refine ⟨?_, fun c s => rfl, ?_, ?_⟩
  · intro c r s h
    rw [step, h]
  · intro s h
    rw [step, h]
  · intro s h hp
    rw [step, h]
    exact hnone _ s hp

/-- Settles O2: the stores of the reset state are empty, and its fields are those of the reset words, evaluated. -/
theorem resetIsCanonical : Obligations.ResetIsCanonical := by
  unfold Obligations.ResetIsCanonical
  have hmain : ∀ n < 32, (resetWord (0x011004 + 0x20 * n)).bits 20 16 = 8 ∧ (resetWord (0x011004 + 0x20 * n)).bits 14 8 = 52 ∧
      (resetWord (0x011004 + 0x20 * n)).bits 4 0 = 4 := by decide +kernel
  have haux : ∀ n < 36, 32 ≤ n → (resetWord (0x011004 + 0x20 * n)).bits 14 8 = 56 ∧
      (resetWord (0x011004 + 0x20 * n)).bits 4 0 = 0 := by decide +kernel
  have hmaps : ∀ q < 9, (resetWord (0x010000 + 4 * q)).bits 15 8 = 0xE4 ∧ (resetWord (0x010000 + 4 * q)).bits 7 0 = 0xE4 := by
    decide +kernel
  have hdvfs : ∀ b < 4, (resetWord (0x120020 + 4 * b)).bits 10 0 = 1600 := by decide +kernel
  have hetype : (resetWord 0x1F0000).bits 15 0 = 0x88B5 := by decide +kernel
  have hidle : (resetWord 0x1F0008).bits 11 0 = 899 := by decide +kernel
  have hwindow : (resetWord 0x000048).bits 15 8 = 30 := by decide +kernel
  have hcause : (resetWord 0x000050).bit 0 = true := by decide +kernel
  have hroll : (resetWord 0x100008).bits 23 16 = 24 := by decide +kernel
  exact ⟨⟨rfl, rfl, rfl⟩, rfl, rfl, rfl, rfl, fun a => rfl, fun ch a => by simp only [ddrByte, channel]; split <;> rfl,
    hetype, hidle, hwindow, hmain, fun n h32 h36 => haux n h36 h32, hmaps, hcause, hroll, hdvfs⟩

/-! ## Every step and every command -/

/-- A canonical state is kept against itself, whatever may change. -/
theorem kept_refl {s : State} (W : Part → Bool) (hc : Canon s) : Kept s.pending s.now W s s :=
  ⟨rfl, le_rfl, hc.regs, ⟨hc.mem0, fun _ => rfl⟩, ⟨hc.mem1, fun _ => rfl⟩, fun p _ => by cases p <;> first | rfl | exact ⟨rfl, rfl⟩⟩

/-- Settles O3: every operation keeps the canonical form, the queue and the order of time, so the step does. -/
theorem stepsKeepCanonicalForm : Obligations.StepsKeepCanonicalForm := by
  unfold Obligations.StepsKeepCanonicalForm
  intro s hc
  have hstep := kept_step s (kept_refl (fun _ => true) hc) (fun _ _ _ _ => rfl) (fun _ _ => rfl)
  generalize step s = o at hstep
  obtain ⟨h⟩ := hstep
  exact ⟨_, rfl, ⟨h.regs, h.mem0.1, h.mem1.1⟩, h.queue, h.time⟩

theorem Part.same_symm {p : Part} {a b : State} (h : p.same a b) : p.same b a := by
  cases p <;> first | exact Eq.symm h | exact ⟨h.1.symm, h.2.symm⟩

/-- Settles O4: a command is run where only the parts of its row may change. -/
theorem commandsTouchOnlyTheirParts : Obligations.CommandsTouchOnlyTheirParts := by
  unfold Obligations.CommandsTouchOnlyTheirParts
  intro i s hc
  have hexec := kept_exec i s (kept_refl (fun p => decide (p ∈ touches i)) hc) (fun p hp => decide_eq_true hp)
  generalize exec i s = o at hexec
  obtain ⟨h⟩ := hexec
  exact ⟨_, rfl, h.queue, fun p hp => Part.same_symm (h.frame p (decide_eq_false hp))⟩

/-! ## What recording and sending change -/

/-- The registers that recording an event and sending a completion may change: the Apfesia counters of the sub-ports, `OBS_SNAP_STAT` and the
recorder's counts of lost and suppressed events. -/
def AnswerReg (a : Nat) : Prop := a / 0x1000 = 0x21 ∨ a = 0x130008 ∨ a = 0x14000C ∨ a = 0x140010

/-- Every other register is as it was. -/
structure KeepsRegs (s t : State) : Prop where
  word : ∀ a, ¬ AnswerReg a → regWord t a = regWord s a

theorem KeepsRegs.trans {s t u : State} (h : KeepsRegs s t) (h' : KeepsRegs t u) : KeepsRegs s u :=
  ⟨fun a ha => (h'.word a ha).trans (h.word a ha)⟩

theorem KeepsRegs.of_regs {s t : State} (h : t.regs = s.regs) : KeepsRegs s t :=
  ⟨fun a _ => by rw [regWord, h, regWord]⟩

/-- `t` differs from `s` at most in what recording an event and sending a completion may change: what is sent, the registers named above,
snapshots and counters, the event recorder, and of the command interface the slow port's completions and the plain rejections counted. -/
structure Answered (s t : State) : Prop where
  eqn  : ∃ sent regs obs evr out pos un, t = { s with
    sent := sent, regs := regs, obs := obs, evr := evr, cmd := { s.cmd with slowOut := out, slowPos := pos, unauth := un } }
  regs : KeepsRegs s t

namespace Answered

/-- A change that leaves the registers. -/
theorem of_eqn {s t : State} (h : ∃ sent obs evr out pos un, t = { s with
    sent := sent, obs := obs, evr := evr, cmd := { s.cmd with slowOut := out, slowPos := pos, unauth := un } }) : Answered s t := by
  obtain ⟨_, _, _, _, _, _, rfl⟩ := h
  exact ⟨⟨_, _, _, _, _, _, _, rfl⟩, .of_regs rfl⟩

theorem refl (s : State) : Answered s s := .of_eqn ⟨_, _, _, _, _, _, rfl⟩

theorem trans {s t u : State} (h : Answered s t) (h' : Answered t u) : Answered s u := by
  refine ⟨?_, h.regs.trans h'.regs⟩
  obtain ⟨_, _, _, _, _, _, _, rfl⟩ := h.eqn
  obtain ⟨_, _, _, _, _, _, _, rfl⟩ := h'.eqn
  exact ⟨_, _, _, _, _, _, _, rfl⟩

theorem ite {s t u : State} {p : Prop} [Decidable p] (h : Answered s t) (h' : Answered s u) : Answered s (if p then t else u) := by
  split <;> assumption

variable {s t : State} (h : Answered s t)
include h

theorem sessions : t.cmd.sessions = s.cmd.sessions := by obtain ⟨_, _, _, _, _, _, _, rfl⟩ := h.eqn; rfl
theorem flights : t.cmd.flights = s.cmd.flights := by obtain ⟨_, _, _, _, _, _, _, rfl⟩ := h.eqn; rfl
theorem now : t.now = s.now := by obtain ⟨_, _, _, _, _, _, _, rfl⟩ := h.eqn; rfl
theorem boot : t.boot = s.boot := by obtain ⟨_, _, _, _, _, _, _, rfl⟩ := h.eqn; rfl
theorem keys : t.keys = s.keys := by obtain ⟨_, _, _, _, _, _, _, rfl⟩ := h.eqn; rfl
theorem sas : t.sas = s.sas := by obtain ⟨_, _, _, _, _, _, _, rfl⟩ := h.eqn; rfl
theorem que : t.que = s.que := by obtain ⟨_, _, _, _, _, _, _, rfl⟩ := h.eqn; rfl
theorem cls : t.cls = s.cls := by obtain ⟨_, _, _, _, _, _, _, rfl⟩ := h.eqn; rfl
theorem trk : t.trk = s.trk := by obtain ⟨_, _, _, _, _, _, _, rfl⟩ := h.eqn; rfl
theorem time : t.time = s.time := by obtain ⟨_, _, _, _, _, _, _, rfl⟩ := h.eqn; rfl
theorem dks : t.dks = s.dks := by obtain ⟨_, _, _, _, _, _, _, rfl⟩ := h.eqn; rfl
theorem tmp : t.tmp = s.tmp := by obtain ⟨_, _, _, _, _, _, _, rfl⟩ := h.eqn; rfl
theorem mem : t.mem = s.mem := by obtain ⟨_, _, _, _, _, _, _, rfl⟩ := h.eqn; rfl
theorem pwr : t.pwr = s.pwr := by obtain ⟨_, _, _, _, _, _, _, rfl⟩ := h.eqn; rfl

end Answered

theorem answered_setReg {a : Nat} (h : AnswerReg a) (w : Word) (s : State) : Answered s (setReg a w s) :=
  ⟨⟨_, _, _, _, _, _, _, rfl⟩, ⟨fun _ hc => regWord_setReg_other s w fun e => hc (e ▸ h)⟩⟩

theorem answered_bumpFld {a : Nat} (h : AnswerReg a) (hi lo n : Nat) (s : State) : Answered s (bumpFld a hi lo n s) :=
  .ite (.refl s) (answered_setReg h _ s)

theorem answered_perf (blk ev n : Nat) (s : State) : Answered s (perf blk ev n s) :=
  .ite (.refl s) (.of_eqn ⟨_, _, _, _, _, _, rfl⟩)

theorem answered_subCount (sp : Nat) {i : Nat} (hi : i < 12) (n : Nat) (s : State) : Answered s (subCount sp i n s) := by
  unfold subCount
  split
  · exact answered_bumpFld (.inl (by omega)) ..
  · exact .refl s

theorem answered_countApfesia (v : Via) (tags body : Nat) {i : Nat} (hi : i < 11) (s : State) :
    Answered s (countApfesia v tags body i s) := by
  unfold countApfesia
  split
  · exact (answered_subCount _ (by omega) ..).trans (answered_subCount _ (by omega) ..)
  · exact .refl s

theorem answered_stageOne (code flags : Nat) (data : List Nat) (s : State) : Answered s (stageOne code flags data s) := by
  refine .ite (.of_eqn ⟨_, _, _, _, _, _, rfl⟩) (.ite (.of_eqn ⟨_, _, _, _, _, _, rfl⟩) ?_)
  exact .trans (.of_eqn ⟨_, _, _, _, _, _, rfl⟩) (answered_bumpFld (.inr (.inr (.inl rfl))) ..)

theorem answered_stageRecords (code flags : Nat) (recs : List (List Nat)) (s : State) : Answered s (stageRecords code flags recs s) := by
  have hlost : Answered s (if s.evr.lostPending ≠ 0 ∧ roomToStage s = true then
      stageOne 0x1304 4 (beBytes 4 s.evr.lostPending) { s with evr := { s.evr with lostPending := 0 } } else s) :=
    .ite (.trans (.of_eqn ⟨_, _, _, _, _, _, rfl⟩) (answered_stageOne ..)) (.refl s)
  unfold stageRecords
  dsimp only
  split
  · exact hlost
  · exact hlost.trans (answered_stageOne ..)
  · exact (hlost.trans (answered_stageOne ..)).trans (answered_stageOne ..)

theorem answered_stageEvent (code flags : Nat) (recs : List (List Nat)) (resp : Nat) (s : State) :
    Answered s (stageEvent code flags recs resp s) := by
  refine .ite (answered_stageRecords ..) (.ite ?_ ?_)
  · exact .trans (.of_eqn ⟨_, _, _, _, _, _, rfl⟩) (answered_bumpFld (.inr (.inr (.inr rfl))) ..)
  · exact .trans (.of_eqn ⟨_, _, _, _, _, _, rfl⟩) (answered_stageRecords ..)

theorem answered_setBank (k : Nat) (b : SnapBank) (s : State) : Answered s (setBank k b s) :=
  .ite (.of_eqn ⟨_, _, _, _, _, _, rfl⟩) (.of_eqn ⟨_, _, _, _, _, _, rfl⟩)

theorem answered_takeSnap (k src at_ : Nat) (s : State) : Answered s (takeSnap k src at_ s) :=
  .trans (.of_eqn ⟨_, _, _, _, _, _, rfl⟩) (answered_setBank ..)

theorem answered_fireSnap (src at_ : Nat) (s : State) : Answered s (fireSnap src at_ s) := by
  refine .ite (answered_setBank ..) (.ite (answered_setBank ..) (.ite (answered_takeSnap ..) (.ite (answered_takeSnap ..) ?_)))
  exact (answered_bumpFld (.inr (.inl rfl)) ..).trans (.ite (answered_takeSnap ..) (answered_stageEvent ..))

theorem answered_snapTrigger (src at_ : Nat) (s : State) : Answered s (snapTrigger src at_ s) := .ite (answered_fireSnap ..) (.refl s)

theorem answered_recordResp (code flags : Nat) (recs : List (List Nat)) (resp : Nat) (s : State) :
    Answered s (recordResp code flags recs resp s) :=
  (answered_stageEvent ..).trans (.ite (answered_snapTrigger ..) (.refl _))

theorem answered_record (code : Nat) (data : List Nat) (s : State) : Answered s (record code data s) := answered_recordResp ..

theorem answered_sendDone (c : Completion) (s : State) : Answered s (sendDone c s) := by
  have hport : ∀ v, Answered s (if viaUp (perf 6 (if c.notify then 4 else 3) 1 s) v
      then send (.done c) (countApfesia v (bit c.vlan.isSome) (bodyLen c.elems) 2 (perf 6 (if c.notify then 4 else 3) 1 s))
      else perf 6 (if c.notify then 4 else 3) 1 s) := fun v => by
    refine (answered_perf ..).trans (.ite ?_ (.refl _))
    exact (answered_countApfesia _ _ _ (by decide) _).trans (.of_eqn ⟨_, _, _, _, _, _, rfl⟩)
  unfold sendDone
  dsimp only
  split
  · exact (answered_perf ..).trans (.of_eqn ⟨_, _, _, _, _, _, rfl⟩)
  · exact hport _

theorem answered_answer (f : Flight) (st d : Nat) (e : Body) (s : State) : Answered s (answer f st d e s) := answered_sendDone ..

theorem answered_rejectPlain (f : Flight) (st d : Nat) (s : State) : Answered s (rejectPlain f st d s) := by
  have hrec := answered_record Config.unauthEvent [] s
  have hcount : ∀ (u : State) un, Answered u { u with cmd := { u.cmd with unauth := un } } := fun _ _ => .of_eqn ⟨_, _, _, _, _, _, rfl⟩
  unfold rejectPlain
  dsimp only
  split
  · exact hrec.trans (hcount _ _)
  · exact (hrec.trans (.of_eqn ⟨_, _, _, _, _, _, rfl⟩)).trans (answered_sendDone ..)

/-! ## Frames that fail the first checks of R49 -/

/-- Settles O7: each check of R49 that a frame fails is the branch of `admitFrame` taken, and a plain rejection records, counts and
sends. -/
theorem framesRejected : Obligations.FramesRejected := by
  unfold Obligations.FramesRejected
  refine ⟨?_, ?_, ?_, ?_, ?_, ?_, ?_, ?_⟩
  · intro i op h b m s ht hdown
    rw [run, runCommand]
    dsimp only
    rw [if_neg (by rw [ht]; nofun), if_pos hdown]
  · intro i op h b m s ht hcmd hlive hover
    rw [run, runCommand]
    dsimp only
    rw [if_neg (by rw [ht]; nofun), if_neg (by simp [hcmd, hlive]), if_pos hover]
  · intro i op h b m s ht hno
    rw [run, runCommand_taken ht, admitFrame, if_pos hno]
  · intro i op h b m s ht hmagic hdone hver
    rw [run, runCommand_taken ht, admitFrame, if_neg (by simp [hmagic, hdone]), if_pos hver, rejectPlain_flightFor]
  · intro i op h b m s ht hmagic hdone hver hlen
    rw [run, runCommand_taken ht, admitFrame, if_neg (by simp [hmagic, hdone]), if_neg (by simp [hver]), if_pos hlen, rejectPlain_flightFor]
  · rintro i op h b m s ht hw (⟨h0, hsess⟩ | ⟨h0, hnone⟩)
    · exact run_unidentified ht hw (by simp [identify, h0, hsess])
    · exact run_unidentified ht hw (by simp [identify, h0, hnone])
  · intro i op h b m s x ht hw h0 hx hc hmac
    exact run_unidentified ht hw (by simp [identify, h0, hx, hc, hmac])
  · rintro f st d s _ rfl
    have h := answered_rejectPlain f st d s
    exact ⟨h.sessions, h.flights, h.keys, h.sas, h.que, h.cls⟩

/-! ## The registers of the rows that only answer -/

theorem keepsRegs_dropFlight (f : Flight) (s : State) : KeepsRegs s (dropFlight f s) := .of_regs rfl

theorem keepsRegs_foldl {β : Type} {f : State → β → State} (l : List β) (s : State) (h : ∀ s x, KeepsRegs s (f s x)) :
    KeepsRegs s (l.foldl f s) := by
  induction l generalizing s with
  | nil => exact .of_regs rfl
  | cons x r ih => exact (h s x).trans (ih _)

theorem keepsRegs_settleCloses (s : State) : KeepsRegs s (settleCloses s) :=
  keepsRegs_foldl _ s fun s f => (answered_answer f 0 0 [] s).regs.trans (.of_regs rfl)

theorem keepsRegs_finish (f : Flight) (st d : Nat) (e : Body) (s : State) : KeepsRegs s (finish f st d e s) :=
  ((answered_answer ..).regs.trans (keepsRegs_dropFlight f _)).trans (keepsRegs_settleCloses _)

/-- Every state that an answer carries keeps the registers of `s`. -/
def AnsKeepsRegs (s : State) : Ans → Prop
  | .fail .. | .defer | .hold => True
  | .spent _ t | .done _ t | .prog _ t | .wait _ t | .waits _ _ t => KeepsRegs s t

theorem ansKeepsRegs_done (e : Body) (s : State) : AnsKeepsRegs s (.done e s) := KeepsRegs.of_regs (t := s) rfl

theorem ansKeepsRegs_ite {s : State} {p : Prop} [Decidable p] {a b : Ans} (ha : AnsKeepsRegs s a) (hb : AnsKeepsRegs s b) :
    AnsKeepsRegs s (if p then a else b) := by
  split <;> assumption

theorem keepsRegs_identify {op : Op} {h : Hdr} {b : Body} {s u : State} {w : Option Nat} (hu : identify op h b s = .inl (u, w)) :
    KeepsRegs s u := by
  unfold identify at hu
  split at hu
  · split at hu <;> cases hu
    exact .of_regs rfl
  · split at hu
    · cases hu
    · split_ifs at hu
      cases hu
      exact .of_regs rfl

section
variable {i : Instr} {op : Op} {h : Hdr} {b : Body} {f : Flight} {m : State → Ans} (hm : ∀ s, AnsKeepsRegs s (m s))
include hm

theorem keepsRegs_start (s : State) : KeepsRegs s (start i op b f m s) := by
  have hpark : ∀ u : State, KeepsRegs u (park i f u) := fun u => .of_regs rfl
  have hans := hm s
  unfold start
  split
  · split_ifs
    · exact (hpark s).trans (.of_regs rfl)
    · exact keepsRegs_finish ..
    · exact keepsRegs_finish ..
    · generalize m s = a at hans
      cases a with
      | fail | defer => exact keepsRegs_finish ..
      | spent _ t | done _ t | prog _ t => exact KeepsRegs.trans hans (keepsRegs_finish ..)
      | wait _ t | waits _ _ t => exact KeepsRegs.trans hans (.of_regs rfl)
      | hold => exact (hpark s).trans (.of_regs rfl)
  · exact hpark s

theorem keepsRegs_admitFrame (s : State) : KeepsRegs s (admitFrame i op h b f m s) := by
  unfold admitFrame
  split_ifs
  · exact .of_regs rfl
  · exact (answered_rejectPlain ..).regs
  · exact (answered_rejectPlain ..).regs
  · split
    · exact (answered_rejectPlain ..).regs
    next u w hu =>
      refine (keepsRegs_identify hu).trans ?_
      split
      · exact (answered_answer ..).regs
      · split
        · exact (answered_answer ..).regs
        · split
          · exact (answered_answer ..).regs
          · refine KeepsRegs.trans ?_ (keepsRegs_start hm _)
            exact .of_regs (by simp)

end

theorem keepsRegs_takeFrame (h : Hdr) (s : State) : KeepsRegs s (takeFrame h s) := by
  unfold takeFrame
  split
  · exact .of_regs rfl
  · exact (answered_countApfesia _ _ _ (by decide) s).regs

theorem keepsRegs_untaken (h : Hdr) (s : State) : KeepsRegs s (untaken h s) := by
  unfold untaken
  split
  · exact ((answered_countApfesia _ _ _ (by decide) s).trans (answered_subCount _ (by decide) ..)).regs
  · exact .of_regs rfl

theorem keepsRegs_oversize (h : Hdr) (s : State) : KeepsRegs s (oversize h s) := by
  unfold oversize
  split
  · exact ((answered_subCount _ (by decide) 1 s).trans (.ite (answered_subCount _ (by decide) ..) (.refl _))).regs
  · exact .of_regs rfl

theorem keepsRegs_takeTurn (f : Flight) (s : State) : KeepsRegs s (takeTurn f s) := .of_regs rfl

theorem keepsRegs_tick (t : Nat) (s : State) : KeepsRegs s (tick t s) := .of_regs (tick_regs s t)

theorem keepsRegs_runCommand {i : Instr} {op : Op} {h : Hdr} {b : Body} {m : State → Ans} (hm : ∀ s, AnsKeepsRegs s (m s)) (s : State) :
    KeepsRegs s (runCommand i op h b m s) := by
  refine (keepsRegs_tick h.t s).trans ?_
  unfold runCommand
  dsimp only
  split_ifs
  · exact (keepsRegs_takeTurn ..).trans (keepsRegs_start hm _)
  · exact .of_regs rfl
  · exact keepsRegs_oversize ..
  · exact keepsRegs_untaken ..
  · exact (keepsRegs_takeFrame ..).trans (keepsRegs_admitFrame hm _)

/-- A row that runs a command keeps the registers where its meaning does. -/
theorem keepsRegs_run {i : Instr} {op : Op} {h : Hdr} {b : Body} {m : State → Ans} (hm : ∀ s, AnsKeepsRegs s (m s)) {s t : State}
    (e : run i op h b m s = .next t) : KeepsRegs s t := by
  cases e
  exact keepsRegs_runCommand hm s

/-- The meanings of the status and read commands and of SESSION_CLOSE give back the registers they were given. -/
theorem ansKeepsRegs_sessionClose (h : Hdr) (s : State) : AnsKeepsRegs s (ansSessionClose h s) := by
  unfold ansSessionClose
  split
  · trivial
  · exact KeepsRegs.of_regs rfl

theorem ansKeepsRegs_opStatus (h : Hdr) (n : Nat) (s : State) : AnsKeepsRegs s (ansOpStatus h n s) := by
  unfold ansOpStatus
  split
  · trivial
  · split_ifs
    · trivial
    · exact ansKeepsRegs_done ..

theorem ansKeepsRegs_eventSubscribe (h : Hdr) (n : Nat) (l : List NotifyClass) (s : State) :
    AnsKeepsRegs s (ansEventSubscribe h n l s) := by
  unfold ansEventSubscribe
  split_ifs
  · trivial
  · exact KeepsRegs.of_regs rfl

theorem ansKeepsRegs_idRead (b : Body) (s : State) : AnsKeepsRegs s (ansIdRead b s) := by
  unfold ansIdRead
  split_ifs <;> exact ansKeepsRegs_done ..

theorem ansKeepsRegs_portStatsRead (b : Body) (s : State) : AnsKeepsRegs s (ansPortStatsRead b s) := by
  unfold ansPortStatsRead
  split
  · trivial
  · split_ifs <;> exact ansKeepsRegs_done ..

theorem ansKeepsRegs_tableRead (b : Body) (s : State) : AnsKeepsRegs s (ansTableRead b s) := by
  unfold ansTableRead
  dsimp only
  split_ifs
  · trivial
  · exact ansKeepsRegs_done ..
  · trivial
  · split
    · exact ansKeepsRegs_done ..
    · trivial

theorem ansKeepsRegs_saRead (b : Body) (s : State) : AnsKeepsRegs s (ansSaRead b s) := by
  unfold ansSaRead
  dsimp only
  split
  · trivial
  · split
    · trivial
    · split
      · split
        · trivial
        · exact ansKeepsRegs_done ..
      · exact ansKeepsRegs_done ..

theorem ansKeepsRegs_trunkPmRead (b : Body) (s : State) : AnsKeepsRegs s (ansTrunkPmRead b s) :=
  ansKeepsRegs_ite (ansKeepsRegs_done ..) (ansKeepsRegs_ite trivial (ansKeepsRegs_ite trivial (ansKeepsRegs_done ..)))

theorem ansKeepsRegs_snapRead (b : Body) (s : State) : AnsKeepsRegs s (ansSnapRead b s) := by
  unfold ansSnapRead
  dsimp only
  split
  · trivial
  · exact (Answered.ite (answered_setBank ..) (.refl s)).regs

/-- A frame that no opcode takes is at most counted, answered and recorded. -/
theorem keepsRegs_unknownFrame (h : Hdr) (b : Body) (opcode : Nat) (s : State) : KeepsRegs s (unknownFrame h b opcode s) := by
  have hrefuse : ∀ (f : Flight) (u : State), KeepsRegs u (refuseFrame h b opcode f u) := fun f u => by
    have hplain : ∀ st d, KeepsRegs u (rejectPlain f st d u) := fun st d => (answered_rejectPlain f st d u).regs
    have hreject : ∀ {v : State} (st d : Nat), KeepsRegs u v → KeepsRegs u (reject f st d v) :=
      fun st d hv => hv.trans (answered_answer f st d [] _).regs
    unfold refuseFrame
    split
    · exact .of_regs rfl
    split
    · exact hplain ..
    split
    · exact hplain ..
    split
    · exact hplain ..
    next v w hv =>
      have hr := keepsRegs_identify hv
      split_ifs
      · exact hreject _ _ hr
      · exact hreject _ _ hr
      · exact .of_regs rfl
      · exact hreject _ _ hr
  refine (keepsRegs_tick h.t s).trans ?_
  unfold unknownFrame
  dsimp only
  split_ifs
  · exact .of_regs rfl
  · exact keepsRegs_oversize ..
  · exact keepsRegs_untaken ..
  · exact (keepsRegs_takeFrame ..).trans (hrefuse ..)

/-- The rows that only answer keep every register but those of recording and sending. -/
theorem keepsRegs_exec {i : Instr} {s t : State} (hi : touches i = answering) (hperf : ∀ h b, i ≠ .perfConfig h b)
    (hwake : ∀ h b, i ≠ .wakeConfig h b) (e : exec i s = .next t) : KeepsRegs s t := by
  cases i with
  | sessionClose h b =>
    cases e
    exact (keepsRegs_runCommand (ansKeepsRegs_sessionClose h) s).trans (keepsRegs_settleCloses _)
  | nop h b => exact keepsRegs_run (fun s => ansKeepsRegs_done _ s) e
  | opStatus h b n => exact keepsRegs_run (ansKeepsRegs_opStatus h n) e
  | eventSubscribe h b n l => exact keepsRegs_run (ansKeepsRegs_eventSubscribe h n l) e
  | idRead h b => exact keepsRegs_run (ansKeepsRegs_idRead b) e
  | deviceStatus h b => exact keepsRegs_run (fun s => ansKeepsRegs_done _ s) e
  | imageStatus h b => exact keepsRegs_run (fun s => ansKeepsRegs_done _ s) e
  | portStatsRead h b => exact keepsRegs_run (ansKeepsRegs_portStatsRead b) e
  | timeRead h b => exact keepsRegs_run (fun s => ansKeepsRegs_done _ s) e
  | tableRead h b => exact keepsRegs_run (ansKeepsRegs_tableRead b) e
  | saRead h b => exact keepsRegs_run (ansKeepsRegs_saRead b) e
  | trunkPmRead h b => exact keepsRegs_run (ansKeepsRegs_trunkPmRead b) e
  | bondStatus h b => exact keepsRegs_run (fun s => ansKeepsRegs_done _ s) e
  | memStatus h b => exact keepsRegs_run (fun s => ansKeepsRegs_done _ s) e
  | snapRead h b => exact keepsRegs_run (ansKeepsRegs_snapRead b) e
  | unknownOpcodeFrame h b n =>
    cases e
    exact keepsRegs_unknownFrame h b n s
  | perfConfig h b => exact absurd rfl (hperf h b)
  | wakeConfig h b => exact absurd rfl (hwake h b)
  | _ => cases hi

/-- Settles O5: the rows that only answer change registers by counting, recording and sending alone. -/
theorem answersLeaveRegisters : Obligations.AnswersLeaveRegisters := by
  unfold Obligations.AnswersLeaveRegisters
  intro i s t a hi hperf hwake e hblock hsnap hlost hsupp
  refine (keepsRegs_exec hi hperf hwake e).word a ?_
  rintro (h | h | h | h)
  · exact hblock h
  · exact hsnap h
  · exact hlost h
  · exact hsupp h

end Sys2Proof.Machine

/-! SUPPORT. Start-up and reset (03): images and banks (R79 to R86), the reset kinds and what they keep (R88 to R91), the boot (R72 to R86), SLEEP and
the wake from it (R505 to R507). -/
namespace Sys2Proof.Machine
open Sys2Proof

/-! ## Events -/

/-- An event row has its effect on the state once time has reached its instant. -/
theorem ev_next {t : Nat} {f : State → State} {s u v : State} (hu : u = tick t s) (h : f u = v) : ev t f s = .next v := by
  rw [ev, ← hu, h]

theorem Canon.tick {s : State} (h : Canon s) (t : Nat) : Canon (tick t s) := by
  refine ⟨?_, ?_, ?_⟩
  · rw [tick_regs]; exact h.regs
  · rw [tick_mem]; exact h.mem0
  · rw [tick_mem]; exact h.mem1

/-! ## Banks and images -/

/-- A bank set leaves of the start-up state all but that bank. -/
theorem setFlashBank_eq (b : Bool) (x : Bank) (s : State) : setFlashBank b x s = { s with boot := { s.boot with
    bankA := if b then s.boot.bankA else x, bankB := if b then x else s.boot.bankB } } := by
  cases b <;> rfl

@[simp] theorem flashBank_setFlashBank (b : Bool) (x : Bank) (s : State) : flashBank (setFlashBank b x s) b = x := by
  cases b <;> rfl

theorem ansImageWrite_spare {b : Body} {u : State} {e : Elem} (ht : u.boot.trialBoot = false) (he : elemOf b 0x8203 = some e) :
    ansImageWrite b u = .done [] (setFlashBank (spare u)
      { cmd := if wordAt (wordsOf b 0x8201) 0 = 1
          then writeSlot (flashBank u (spare u)).cmd (wordAt (wordsOf b 0x8202) 0).toNat e.len e.val else (flashBank u (spare u)).cmd,
        vlt := if wordAt (wordsOf b 0x8201) 0 = 1 then (flashBank u (spare u)).vlt
          else writeSlot (flashBank u (spare u)).vlt (wordAt (wordsOf b 0x8202) 0).toNat e.len e.val,
        spoiled := true, m3 := [] } u) := by
  have hkind : (wordAt (wordsOf b 0x8201) 0).toNat = 1 ↔ wordAt (wordsOf b 0x8201) 0 = 1 := BitVec.toNat_inj (y := 1#32)
  simp only [ansImageWrite, ht, he, hkind, Bool.false_eq_true, if_false]
  split <;> rfl

theorem ansImageActivate_good {h : Hdr} {u : State} (hr : u.boot.resealing = none)
    (hok : bankOk true (flashBank u (spare u)) u.boot.minSvn = true) : ∃ v, ansImageActivate h true u = .prog [opIdElem (nextOp u)] v ∧
      v.boot.resealing = some (nextOp u) ∧ (flashBank v (spare v)).spoiled = false ∧ v.boot.committedB = u.boot.committedB := by
  have hfree : ¬ u.boot.resealing.isSome = true := by simp [hr]
  refine ⟨_, (if_neg hfree).trans (if_neg (by rw [show (startOp 0x0201 h.world h.mailbox h.tag u).boot = u.boot from rfl, hok]; nofun)), ?_⟩
  cases hb : u.boot.committedB <;> simp [setFlashBank, flashBank, spare, startOp, hb]

theorem ansImageActivate_bad {h : Hdr} {u : State} (hr : u.boot.resealing = none) : ansImageActivate h false u =
    .prog [opIdElem (nextOp u)] (endOp (nextOp u) stAuth [] (startOp 0x0201 h.world h.mailbox h.tag u)) := by
  have hfree : ¬ u.boot.resealing.isSome = true := by simp [hr]
  exact (if_neg hfree).trans (if_pos rfl)

/-- Settles O22: the spare bank takes what is written; the trial is committed from the bank that runs. -/
theorem imagesRun : Obligations.ImagesRun := by
  unfold Obligations.ImagesRun
  refine ⟨?_, ?_, ?_, ?_, ?_, ?_⟩
  · rintro h b s u _ _ e hs hu ht rfl rfl he
    exact run_done hs hu (ansImageWrite_spare ht he)
  · rintro h b s u _ hs hu hr rfl hok
    obtain ⟨v, hans, hv⟩ := ansImageActivate_good (h := h) hr hok
    exact ⟨v, run_prog hs hu hans, hv⟩
  · intro h b s u hs hu hr
    exact run_prog hs hu (ansImageActivate_bad hr)
  · intro t s u op hu hr
    refine ⟨_, ev_next hu (by simp only [resealDone, hr]; rfl), ?_⟩
    exact ⟨rfl, rfl, rfl, rfl, rfl⟩
  · intro h b s u hs hu
    exact ⟨_, run_done hs hu rfl, rfl, rfl⟩
  · intro t s u f hu hf ht hdue
    refine ⟨_, ev_next hu (by simp only [trialCommit, hf]; exact if_pos ⟨ht, hdue⟩), ?_⟩
    exact ⟨rfl, rfl, rfl, rfl⟩

/-! ## What a reset of any kind leaves -/

/-- The kind that applies: the earlier in Table 3.7, where a reset or boot is in progress (R89). -/
def kindApplied (k : Nat) (s : State) : Nat := match kindInProgress s with | some j => min j k | none => k

/-- The state once the loss of the kind that applies is noted, before the cause bits are set. -/
def lostBy (n k : Nat) (s : State) : State :=
  let v := loseState (decide (2 ≤ n)) (decide (1 ≤ n)) (if n = 0 then saveTime s else s)
  { v with boot := { v.boot with
    kind := some n, supplyOk := v.boot.supplyOk && decide (2 ≤ k), supplyLost := if k ≤ 1 then v.now else v.boot.supplyLost,
    resetN := v.boot.resetN && decide (3 ≤ k) } }

/-- The cause bits of a kind are set, and after a tamper reset the sources that caused it are kept. -/
def noteCause (n src bits : Nat) (halt : Bool) (s : State) : State :=
  let r := if halt then raise 0x000050 7 (raise 0x000050 n s) else raise 0x000050 n s
  if n = 6 then setFld 0x000050 15 12 src { r with tmp := { r.tmp with lastBits := bits } } else r

/-- A reset of kind `k` in which the kind `n` applies. -/
def resetAs (n k : Nat) (s : State) : State :=
  let old := if n = 0 then saveTime s else s
  if n = 0 then lostBy n k s else noteCause n old.tmp.resetSrc old.tmp.resetBits (halted s) (lostBy n k s)

theorem resetBy_eq (k : Nat) (s : State) : resetBy k s = resetAs (kindApplied k s) k s := by
  unfold kindApplied resetBy
  cases kindInProgress s <;> rfl

theorem noteCause_eq (n src bits : Nat) (halt : Bool) (s : State) : ∃ regs last, noteCause n src bits halt s =
    { s with regs := regs, tmp := { s.tmp with lastBits := last } } := by
  unfold noteCause
  dsimp only
  split_ifs <;> exact ⟨_, _, rfl⟩

/-- Apart from registers and the sources noted, a reset leaves what its loss does. -/
theorem resetAs_eq (n k : Nat) (s : State) : ∃ regs last, resetAs n k s =
    { lostBy n k s with regs := regs, tmp := { (lostBy n k s).tmp with lastBits := last } } := by
  unfold resetAs
  generalize lostBy n k s = v
  dsimp only
  split
  · exact ⟨v.regs, v.tmp.lastBits, rfl⟩
  · exact noteCause_eq ..

/-- What a loss is given: time is saved where it is a power-on. -/
theorem savedFor_eq (n : Nat) (s : State) : ∃ tod rtc, (if n = 0 then saveTime s else s) =
    { s with time := { s.time with savedTod := tod, savedRtc := rtc } } := by
  split
  · exact saveTime_eq s
  · exact ⟨_, _, rfl⟩

theorem regWord_noteCause_other (n src bits : Nat) (halt : Bool) (s : State) {a : Nat} (ha : a ≠ 0x000050) :
    regWord (noteCause n src bits halt s) a = regWord s a := by
  have hraise : ∀ i u, regWord (raise 0x000050 i u) a = regWord u a := fun i u => regWord_setFld_other u i i 1 ha
  have hr : regWord (if halt then raise 0x000050 7 (raise 0x000050 n s) else raise 0x000050 n s) a = regWord s a := by
    split
    · rw [hraise, hraise]
    · rw [hraise]
  unfold noteCause
  generalize (if halt then raise 0x000050 7 (raise 0x000050 n s) else raise 0x000050 n s) = r at hr ⊢
  dsimp only
  split
  · rw [regWord_setFld_other _ _ _ _ ha]
    exact hr
  · exact hr

/-- The registers after a reset are those that the loss leaves, but for the cause register. -/
theorem regWord_resetBy_other (k : Nat) (s : State) {a : Nat} (ha : a ≠ 0x000050) : regWord (resetBy k s) a =
    regWord (loseState (decide (2 ≤ kindApplied k s)) (decide (1 ≤ kindApplied k s)) s) a := by
  have hlost : ∀ n, regWord (lostBy n k s) a = regWord (loseState (decide (2 ≤ n)) (decide (1 ≤ n)) s) a := fun n => by
    obtain ⟨_, _, h⟩ := savedFor_eq n s
    unfold lostBy
    rw [h]
    rfl
  rw [resetBy_eq, resetAs, ← hlost]
  split
  · rfl
  · exact regWord_noteCause_other _ _ _ _ _ ha

/-- Settles O11: the loss of the kind that applies keeps fields by their class, and only the cause register is written after it. -/
theorem resetsKeepTheirClasses : Obligations.ResetsKeepTheirClasses := by
  unfold Obligations.ResetsKeepTheirClasses
  intro k n s a f hc hf ha _ hn
  have hn : n = kindApplied k s := by
    rw [hn]
    unfold kindApplied
    cases kindInProgress s <;> rfl
  rw [fld, regWord_resetBy_other k s ha, ← fld, ← hn]
  refine (fld_loseState _ _ hc.regs hf).trans ?_
  have hkept : classKept (decide (2 ≤ n)) (decide (1 ≤ n)) f.cls = true ↔ f.cls = .b ∨ (f.cls = .p ∧ 1 ≤ n) ∨ (f.cls = .s ∧ 2 ≤ n) := by
    cases f.cls <;> simp [classKept]
  simp only [hkept]

/-! ## The reset kinds -/

theorem resetBy_kind (k : Nat) (s : State) : (resetBy k s).boot.kind = some (kindApplied k s) := by
  obtain ⟨_, _, h⟩ := resetAs_eq (kindApplied k s) k s
  rw [resetBy_eq, h]
  rfl

/-- Registers after a reset depend on the kind that applies alone. -/
theorem resetAs_regs (n j k : Nat) (s : State) : (resetAs n j s).regs = (resetAs n k s).regs := by
  have hnote : ∀ src bits halt (u v : State), u.regs = v.regs → (noteCause n src bits halt u).regs = (noteCause n src bits halt v).regs := by
    intro src bits halt u v huv
    have hraise : ∀ i (u v : State), u.regs = v.regs → (raise 0x000050 i u).regs = (raise 0x000050 i v).regs := fun i u v e => by
      simp only [raise, setFld, setReg, regWord, e]
    have hr := hraise n u v huv
    unfold noteCause
    dsimp only
    split_ifs
    · simp only [setFld, setReg, regWord, hraise 7 _ _ hr]
    · simp only [setFld, setReg, regWord, hr]
    · exact hraise 7 _ _ hr
    · exact hr
  unfold resetAs
  dsimp only
  split
  · rfl
  · exact hnote _ _ _ _ _ rfl

/-- Settles O23: each row is its kind of reset where it is due; a reset leaves what the loss of the kind that applies leaves. -/
theorem resetKindsAct : Obligations.ResetKindsAct := by
  unfold Obligations.ResetKindsAct
  have hlost : ∀ k s, ∃ regs last, resetBy k s = { lostBy (kindApplied k s) k s with
      regs := regs, tmp := { (lostBy (kindApplied k s) k s).tmp with lastBits := last } } := fun k s => by
    rw [resetBy_eq]
    exact resetAs_eq ..
  refine ⟨?_, ?_, ?_, ?_, ?_, ?_, ?_, ?_, ?_, ?_, ?_, ?_, ?_, ?_⟩
  · exact fun t s u hu => ev_next hu rfl
  · exact fun t s u hu => ev_next hu rfl
  · exact fun t s u hu => ev_next hu rfl
  · exact fun t s u w hu hw hle => ev_next hu (warmReset_due hw hle)
  · exact fun t s u hu => ev_next hu rfl
  · exact fun t s u hu => ev_next hu rfl
  · exact fun t s u w hu hw hle => ev_next hu (by simp only [tamperReset, hw, if_pos hle])
  · rintro t s u _ hu rfl h1 hhalt hdue
    exact ev_next hu (if_pos ⟨hhalt, h1, hdue⟩)
  · exact fun t s u hu hlp => ev_next hu (aonBrownout_lowPower hlp)
  · intro j k s hj
    have hk : kindApplied k s = min j k := by rw [kindApplied, hj]
    have hmin : kindApplied (min j k) s = min j k := by rw [kindApplied, hj]; simp
    refine ⟨by rw [resetBy_kind, hk], ?_⟩
    rw [resetBy_eq, resetBy_eq, hk, hmin]
    exact resetAs_regs ..
  · intro k s hnone
    rw [resetBy_kind, kindApplied, hnone]
  · rintro k s _ rfl
    obtain ⟨_, _, h⟩ := hlost k s
    obtain ⟨_, _, hsave⟩ := savedFor_eq (kindApplied k s) s
    rw [h, lostBy, hsave]
    exact ⟨rfl, rfl, rfl, rfl, rfl, rfl, rfl, rfl, rfl, rfl, rfl⟩
  · intro k s
    obtain ⟨_, _, h⟩ := hlost k s
    obtain ⟨_, _, hsave⟩ := savedFor_eq (kindApplied k s) s
    rw [h, lostBy, hsave]
    exact ⟨rfl, rfl, rfl⟩
  · intro k s
    obtain ⟨_, _, h⟩ := hlost k s
    obtain ⟨_, _, hsave⟩ := savedFor_eq (kindApplied k s) s
    rw [h, lostBy, hsave]
    exact ⟨rfl, rfl, rfl, rfl, rfl, rfl, rfl, rfl, rfl⟩

end Sys2Proof.Machine

/-! SUPPORT. The boot (R72 to R86, Table 3.2), SLEEP and the wake from it (R498, R505 to R507, R515). -/
namespace Sys2Proof.Machine
open Sys2Proof

/-! ## The trial -/

theorem beginTrial_eq (s : State) : ∃ regs j0 j1, beginTrial s = { s with
    regs := regs
    boot := { s.boot with trialBoot := s.boot.trialPending, trialPending := false, recoveryFallback := s.boot.trialBoot,
                          journal0 := j0, journal1 := j1 }
    keys := { s.keys with spareHalf := if s.boot.trialBoot then [] else s.keys.spareHalf } } := by
  unfold beginTrial
  dsimp only
  split <;> split <;> exact ⟨_, _, _, rfl⟩

/-! ## The boot ROM chooses a bank -/

/-- A state in which the lanes alone differ. -/
theorem powerLanes_eq (s : State) : ∃ lane, powerLanes s = { s with lane := lane } := by
  unfold powerLanes
  refine List.foldlRecOn (motive := fun t : State => ∃ lane, t = { s with lane := lane }) _ _ ⟨_, rfl⟩ ?_
  rintro _ ⟨_, rfl⟩ n -
  exact ⟨_, rfl⟩

theorem openKeys_eq (s : State) : ∃ keys, openKeys s = { s with keys := keys } := by
  unfold openKeys
  split <;> exact ⟨_, rfl⟩

theorem drawMemKey_boot (s : State) : (drawMemKey s).boot = s.boot := by simp [drawMemKey, drawBits, drbgUse]

theorem drawMemKey_regs (s : State) : (drawMemKey s).regs = s.regs := by simp [drawMemKey, drawBits, drbgUse]

/-- The firmware starts at step 5; nothing else of the start-up state changes, and no register but those of recording. -/
theorem startFirmware_boot (s : State) : (startFirmware s).boot = { s.boot with step := 5 } ∧ KeepsRegs s (startFirmware s) := by
  have hstart : ∀ u : State, ∃ v, powerLanes (drawMemKey (bootKeys (openKeys u))) = v ∧ v.boot = u.boot ∧ v.regs = u.regs := fun u => by
    obtain ⟨_, hlanes⟩ := powerLanes_eq (drawMemKey (bootKeys (openKeys u)))
    obtain ⟨_, hopen⟩ := openKeys_eq u
    refine ⟨_, hlanes, ?_, ?_⟩
    · have hboot : (openKeys u).boot = u.boot := by rw [hopen]
      exact (drawMemKey_boot _).trans hboot
    · have hregs : (openKeys u).regs = u.regs := by rw [hopen]
      exact (drawMemKey_regs _).trans hregs
  unfold startFirmware
  dsimp only
  obtain ⟨v, hv, hboot, hregs⟩ := hstart { s with
    boot := { s.boot with step := 5 }
    eng := { s.eng with srcOk := true, d0 := { s.eng.d0 with ok := true, last := s.now }, d1 := { s.eng.d1 with ok := true, last := s.now } } }
  rw [hv]
  have hrec := answered_record Config.certEvent [] v
  split
  · exact ⟨hboot, .of_regs hregs⟩
  · exact ⟨hrec.boot.trans hboot, KeepsRegs.trans (.of_regs hregs) hrec.regs⟩

section
variable {okA okB : Bool} {s : State} (hheld : s.boot.held = false) (hrom : s.boot.romRecovery = false) (h1 : 1 ≤ s.boot.step)
  (h4 : s.boot.step < 4)
include hheld hrom h1 h4

/-- The ROM runs. -/
theorem imageBoot_runs : ¬ (s.boot.held = true ∨ s.boot.romRecovery = true ∨ s.boot.step < 1 ∨ 4 ≤ s.boot.step) := by
  simp only [hheld, hrom, Bool.false_eq_true, false_or]
  omega

theorem imageBoot_committed (ht : s.boot.trialBoot = false) (hc : s.boot.committedB = false) (hok : bootable s false okA = true) :
    imageBoot okA okB s = startFirmware (measureBank false { s with boot := { s.boot with runningB := false } }) := by
  rw [imageBoot, if_neg (imageBoot_runs hheld hrom h1 h4)]
  simp [ht, hc, hok]

theorem imageBoot_trial (ht : s.boot.trialBoot = true) (hc : s.boot.committedB = false) (hok : bootable s true okB = true) :
    imageBoot okA okB s = startFirmware (measureBank true { s with boot := { s.boot with runningB := true } }) := by
  rw [imageBoot, if_neg (imageBoot_runs hheld hrom h1 h4)]
  simp [ht, hc, hok, spare]

/-- A trial bank that is not bootable falls back to the committed one. -/
theorem imageBoot_fallback (ht : s.boot.trialBoot = true) (hc : s.boot.committedB = false) (hB : bootable s true okB = false)
    (hA : bootable s false okA = true) : ∃ keys, imageBoot okA okB s = startFirmware (measureBank false
      { raise 0x000054 2 s with boot := { s.boot with trialBoot := false, recoveryFallback := true, runningB := false }, keys := keys }) := by
  refine ⟨{ s.keys with spareHalf := [] }, ?_⟩
  rw [imageBoot, if_neg (imageBoot_runs hheld hrom h1 h4)]
  simp [ht, hc, hA, hB, spare]
  rfl

/-- With no bootable bank the ROM waits for images. -/
theorem imageBoot_recovery (hA : bootable s false okA = false) (hB : bootable s true okB = false) : ∃ regs boot keys,
    imageBoot okA okB s = { s with regs := regs, boot := boot, keys := keys } ∧ boot.romRecovery = true ∧ boot.step = s.boot.step := by
  have hcan : ∀ b, bootable s b (if b = true then okB else okA) = false := fun b => by cases b <;> simp [hA, hB]
  rw [imageBoot, if_neg (imageBoot_runs hheld hrom h1 h4)]
  simp only [hcan, Bool.false_eq_true, if_false, Bool.not_false, Bool.and_true]
  split <;> exact ⟨_, _, _, rfl, rfl, rfl⟩

end

theorem measureBank_eq (b : Bool) (s : State) : ∃ x y, measureBank b s = { s with boot := { s.boot with bankA := x, bankB := y } } :=
  ⟨_, _, setFlashBank_eq b _ s⟩

/-- The bank that runs after a fallback. -/
theorem fallback_boot (s : State) (boot : BootSt) (keys : KeySt) :
    ∃ x y, (startFirmware (measureBank false { raise 0x000054 2 s with boot := boot, keys := keys })).boot =
      { boot with bankA := x, bankB := y, step := 5 } ∧
    KeepsRegs (raise 0x000054 2 s) (startFirmware (measureBank false { raise 0x000054 2 s with boot := boot, keys := keys })) := by
  obtain ⟨x, y, hm⟩ := measureBank_eq false { raise 0x000054 2 s with boot := boot, keys := keys }
  obtain ⟨hboot, hregs⟩ := startFirmware_boot (measureBank false { raise 0x000054 2 s with boot := boot, keys := keys })
  refine ⟨x, y, ?_, KeepsRegs.trans (.of_regs ?_) hregs⟩
  · rw [hboot, hm]
  · rw [hm]

/-! ## The vault's tests and the datapath -/

/-- What is put under a run of keys is found under each. -/
theorem get_foldl_put_range {α : Type} (n a : Nat) (v d : α) (m : KMap α) {i : Nat} (hi : i < n) :
    get ((List.range n).foldl (fun m i => put m (a + i) v) m) (a + i) d = v := by
  induction n with
  | zero => omega
  | succ n ih =>
    rw [List.range_succ, List.foldl_append, List.foldl_cons, List.foldl_nil]
    by_cases h : i = n
    · rw [h, get_put_same]
    · rw [get_put_other _ _ _ (by omega), ih (by omega)]

theorem brick_setBrick_same (b : Nat) (x : Brick) (s : State) : brick (setBrick b x s) b = x := get_put_same ..

theorem brick_setBrick_other {b c : Nat} (x : Brick) (s : State) (h : c ≠ b) : brick (setBrick b x s) c = brick s c := get_put_other _ _ _ h

theorem look_map_range {α : Type} (n : Nat) (f : Nat → α) {k : Nat} (hk : k < n) : look ((List.range n).map fun k => (k, f k)) k = some (f k) := by
  have hfrom : ∀ m a, a ≤ k → k < a + m → look ((List.range' a m).map fun k => (k, f k)) k = some (f k) := by
    intro m
    induction m with
    | zero => intro a _ _; omega
    | succ m ih =>
      intro a h1 h2
      rw [List.range'_succ, List.map_cons, look_cons]
      split
      next h => rw [h]
      next h => exact ih (a + 1) (by omega) (by omega)
  rw [List.range_eq_range']
  exact hfrom n 0 (by omega) (by omega)

theorem freshTiles_ok (s : State) (b : Nat) {k : Nat} (hk : k < 6) : (get (freshTiles s b) k {}).ok = true := by
  rw [freshTiles, get, look_map_range 6 _ hk]
  rfl

/-- Every tile of the datapath that starts has passed its test. -/
theorem expressReady_runs {s : State} (h : s.boot.step = 6) : ∃ v, expressReady s = v ∧ v.boot.step = 8 ∧
    ∀ b k, b < 4 → k < 6 → (get (brick v b).tiles k {}).ok = true := by
  have htiles : ∀ b k, b < 4 → k < 6 →
      (get (brick ([0, 1, 2, 3].foldl (fun s b => setBrick b { brick s b with tiles := freshTiles s b } s) s) b).tiles k {}).ok = true := by
    intro b k hb hk
    simp only [List.foldl]
    interval_cases b
    · rw [brick_setBrick_other _ _ (by decide), brick_setBrick_other _ _ (by decide), brick_setBrick_other _ _ (by decide),
        brick_setBrick_same]
      exact freshTiles_ok _ _ hk
    · rw [brick_setBrick_other _ _ (by decide), brick_setBrick_other _ _ (by decide), brick_setBrick_same]
      exact freshTiles_ok _ _ hk
    · rw [brick_setBrick_other _ _ (by decide), brick_setBrick_same]
      exact freshTiles_ok _ _ hk
    · rw [brick_setBrick_same]
      exact freshTiles_ok _ _ hk
  refine ⟨_, if_pos h, rfl, fun b k hb hk => ?_⟩
  exact htiles b k hb hk

/-- Settles O24: each row of Table 3.2 acts where its step is the one reached; the ROM's choice is the first of the wanted bank and the other
that is bootable. -/
theorem bootRuns : Obligations.BootRuns := by
  unfold Obligations.BootRuns
  refine ⟨?_, ?_, ?_, ?_, ?_, ?_, ?_, ?_, ?_, ?_, ?_, ?_, ?_, ?_⟩
  · exact fun t balls s u hu hheld hsup => ev_next hu (if_pos ⟨hheld, hsup⟩)
  · intro t balls s u hu hsup hlost
    refine ev_next hu (if_neg ?_)
    rintro ⟨-, h | h⟩
    · rw [hsup] at h; cases h
    · omega
  · rintro s _ rfl
    obtain ⟨_, _, _, h⟩ := beginTrial_eq s
    rw [h]
    exact ⟨rfl, rfl, rfl, fun ht => by rw [ht]; rfl, fun ht => by rw [ht]; rfl⟩
  · exact fun t okA okB s u hu hheld hrom h1 h4 ht hc hok => ev_next hu (imageBoot_committed hheld hrom h1 h4 ht hc hok)
  · exact fun t okA okB s u hu hheld hrom h1 h4 ht hc hok => ev_next hu (imageBoot_trial hheld hrom h1 h4 ht hc hok)
  · intro t okA okB s u hcan hu hheld hrom h1 h4 ht hc hB hA
    obtain ⟨keys, hboots⟩ := imageBoot_fallback hheld hrom h1 h4 ht hc hB hA
    obtain ⟨x, y, hboot, hregs⟩ := fallback_boot u { u.boot with trialBoot := false, recoveryFallback := true, runningB := false } keys
    refine ⟨_, ev_next hu hboots, ?_⟩
    rw [hboot]
    refine ⟨rfl, rfl, rfl, rfl, ?_⟩
    rw [flag, hregs.word 0x000054 (by simp [AnswerReg])]
    have hclear : (resetWord 0x000054).bit 2 = false := by decide +kernel
    exact flag_raise (by decide) hclear (.inl rfl)
  · intro t okA okB s u hu hheld hrom h1 h4 hA hB
    obtain ⟨_, _, _, h, hr, hstep⟩ := imageBoot_recovery hheld hrom h1 h4 hA hB
    exact ⟨_, ev_next hu h, hr, hstep⟩
  · intro t s u hu h5
    refine ⟨_, ev_next hu (if_pos h5), rfl, fun i hi => ?_⟩
    dsimp only
    exact get_foldl_put_range 17 24 u.now 0 _ hi
  · intro t s u hu h6
    obtain ⟨v, h, hv⟩ := expressReady_runs h6
    exact ⟨v, ev_next hu h, hv⟩
  · rintro t s u _ _ hu h8 hoff rfl rfl
    exact ev_next hu (if_pos ⟨h8, hoff⟩)
  · exact fun t s u w hu hw hle => ev_next hu (by simp only [windowExpiry, hw, if_pos hle])
  · rintro t s u _ hu hpast hstate hhalt hnext rfl
    exact ev_next hu ((if_pos ⟨hpast, hstate, hhalt⟩).trans (if_pos hnext))
  · rintro t s u _ hu hpast hstate hhalt hnext rfl
    exact ev_next hu ((if_pos ⟨hpast, hstate, hhalt⟩).trans (if_neg (by simp [hnext])))
  · exact fun t s u hu hw => ev_next hu (if_pos hw)

end Sys2Proof.Machine

/-! SUPPORT. The command interface (02): sessions (R43 to R47), the common commands (R54 to R59, R69, R70), the slow port (R37, R38, R572), and the
register commands (R66, R67). -/
namespace Sys2Proof.Machine
open Sys2Proof

/-! ## Sessions -/

theorem ansSessionOpen_opens {h : Hdr} {cred : Cred} {challenge pub key : Nat} {ek : List Word} {el : Body} {u w : State}
    (hkiln : kilnOut u = false) (hlat : latticeOut u = false) (hdrbg : drbgOut u = false)
    (hlive : ∃ c ∈ u.cmd.challenges, c.1 = challenge ∧ u.now ≤ c.2 + 30 * sec) (hcred : cred ≠ .bootstrap)
    (hworld : credWorld u h.via cred = some h.world) (hroom : u.cmd.sessions.length < 256)
    (hagree : sessionAgree challenge pub ek (drbgUse { u with cmd := { u.cmd with
      challenges := u.cmd.challenges.filter fun c => decide (c.1 ≠ challenge) } }) = ((key, el), w)) :
    ansSessionOpen h cred challenge pub ek true u = .done (rawElem 1 [w32 (freeSession u.cmd.sessions)] :: el)
      { w with cmd := { w.cmd with
        sessions := put w.cmd.sessions (freeSession u.cmd.sessions)
          { cred := cred, world := h.world, last := u.now, via := h.via, key := key } } } := by
  have hany : (u.cmd.challenges.any fun c => decide (c.1 = challenge) && decide (u.now ≤ c.2 + 30 * sec)) = true := by
    simpa using hlive
  unfold ansSessionOpen
  dsimp only
  rw [if_neg (by simp [hkiln, hlat, hdrbg]), if_neg (by simp [hany]), hworld]
  dsimp only
  rw [if_neg (by simp), if_neg (by omega), hagree, if_neg hcred]

theorem ansSessionClose_open {h : Hdr} {u : State} {x : Session} (hx : look u.cmd.sessions h.session = some x) : ansSessionClose h u =
    .wait .close { u with cmd := { u.cmd with sessions := put u.cmd.sessions h.session { x with closing := true } } } := by
  rw [ansSessionClose, hx]

/-- Settles O14: each command's meaning takes the branch its conditions name. -/
theorem sessionCommandsComplete : Obligations.SessionCommandsComplete := by
  unfold Obligations.SessionCommandsComplete
  refine ⟨?_, ?_, ?_, ?_, ?_⟩
  · intro h b s u c v hs hu hdrbg hdraw
    exact run_done hs hu (by rw [ansSessionChallenge, hdrbg, hdraw]; rfl)
  · rintro h b cred challenge pub ek _ s u _ _ key el w hs hu hkiln hlat hdrbg hlive rfl hcred hworld hroom rfl rfl hagree
    exact run_done hs hu (ansSessionOpen_opens hkiln hlat hdrbg hlive hcred hworld hroom hagree)
  · intro h b s u x hs hu hx
    have hrun := run_wait (i := .sessionClose h b) hs hu (ansSessionClose_open hx)
    exact congrArg (fun v => (Host.Outcome.next (settleCloses v) : Out)) (Host.Outcome.next.inj hrun)
  · intro t n s x hx hidle hnone
    exact ev_next rfl (by simp only [idleOut, hx]; exact if_pos ⟨hidle, hnone⟩)
  · exact fun t s u hu => ev_next hu rfl

/-! ## The common commands -/

theorem ansOpStatus_known {h : Hdr} {n : Nat} {u : State} {o : LongOp} (ho : look u.cmd.ops n = some o)
    (hw : worldClass h.world < 3 ∨ o.world = h.world) :
    ansOpStatus h n u = .done (rawElem 1 [w32 n, w32 (bit o.done), w32 o.status] :: o.elems) u := by
  simp only [ansOpStatus, ho]
  exact if_neg (by rintro ⟨h3, hne⟩; rcases hw with hw | hw <;> [omega; exact hne hw])

theorem ansCmdAbort_waiting {h : Hdr} {target : Nat} {u : State} {f : Flight}
    (hf : u.cmd.flights.find? (fun f => decide (f.mailbox = h.mailbox) && decide (f.tag = target) && decide (f.tag ≠ h.tag)) = some f)
    (hstart : f.await = .start) : ansCmdAbort h target u = .done [] (finish f stAborted 0 [] u) := by
  simp only [ansCmdAbort, hf, hstart, if_true]

/-- A frame that passes the first nine checks but names no opcode is answered ST_UNKNOWN_OPCODE. -/
theorem refuseFrame_unknown {h : Hdr} {b : Body} {opcode : Nat} {f : Flight} {s u : State} {w : Option Nat} (hw : wellFramed h = true)
    (hid : identify (opUnknown opcode) h b s = .inl (u, w)) (hclass : worldClass h.world ≠ 5) (hbox : mailboxWorld h.mailbox = h.world)
    (hworld : w.getD h.world = h.world) (htag : h.tag ≠ 0xFFFF) (hfree : ∀ g ∈ u.cmd.flights, g.mailbox ≠ h.mailbox ∨ g.tag ≠ h.tag)
    (hno : opcode ∉ opcodes) : refuseFrame h b opcode f s = reject f stUnknownOpcode 0 u := by
  simp only [wellFramed, Bool.and_eq_true, Bool.not_eq_true', decide_eq_true_eq] at hw
  obtain ⟨⟨⟨⟨⟨hmagic, hdone⟩, hver⟩, h4⟩, hmax⟩, hlen⟩ := hw
  have hbusy : ¬ (u.cmd.flights.any fun g => decide (g.mailbox = h.mailbox) && decide (g.tag = h.tag)) = true := by
    simp only [List.any_eq_true, Bool.and_eq_true, decide_eq_true_eq, not_exists, not_and]
    exact fun g hg hm ht => (hfree g hg).elim (· hm) (· ht)
  unfold refuseFrame
  rw [if_neg (by simp [hmagic, hdone]), if_neg (by simp [hver]), if_neg (by omega), hid]
  dsimp only
  rw [if_neg (by simp [hclass, hbox, hworld]), if_neg (by simp only [htag, false_or]; exact hbusy), if_neg (by simpa using hno)]

/-- Settles O15: each command's meaning takes the branch its conditions name. -/
theorem commonCommandsComplete : Obligations.CommonCommandsComplete := by
  unfold Obligations.CommonCommandsComplete
  refine ⟨?_, ?_, ?_, ?_, ?_, ?_⟩
  · exact fun h b s u hs hu => run_done hs hu rfl
  · rintro h b n s u o _ rfl hs hu ho hw
    exact run_done hs hu (ansOpStatus_known ho hw)
  · rintro h b target s u f _ rfl hs hu hf hstart
    exact run_done hs hu (ansCmdAbort_waiting hf hstart)
  · rintro h b mailbox classes s u _ rfl hs hu hbox
    exact run_done hs hu (if_neg (by simp [hbox]))
  · exact fun h b s u hs hu => run_done hs hu rfl
  · intro h b opcode s u w hcmd hlive hsize htakes hwf hid hclass hbox hworld htag hfree hno
    refine congrArg Host.Outcome.next ?_
    unfold unknownFrame
    dsimp only
    rw [if_neg (by simp [hcmd, hlive]), if_neg (by simp [hsize]), if_neg (by simp [htakes])]
    exact refuseFrame_unknown hwf hid hclass hbox hworld htag hfree hno

/-! ## The slow port -/

section
variable {s : State} (hr : slowRuns s = true)
include hr

theorem slowAppend_joins {l : List Nat} (h0 : 0 < l.length) (h255 : l.length ≤ 255) (hfit : s.cmd.slowIn.length + l.length ≤ 8240) :
    slowAppend l true s = { s with cmd := { s.cmd with slowIn := s.cmd.slowIn ++ l } } := by
  rw [slowAppend, if_neg (by simp only [hr, Bool.true_eq_false, false_or]; omega),
    if_neg (by simp only [Bool.true_eq_false, false_or]; omega)]

theorem slowAppend_badPec {l : List Nat} (h0 : 0 < l.length) (h255 : l.length ≤ 255) :
    slowAppend l false s = { s with cmd := { s.cmd with slowIn := [] } } := by
  rw [slowAppend, if_neg (by simp only [hr, Bool.true_eq_false, false_or]; omega), if_pos (.inl rfl)]

theorem slowSubmit_good : slowSubmit true s = { s with cmd := { s.cmd with
    slowIn := [], slowFrame := some s.cmd.slowIn, slowPos := 0,
    slowOut := if s.cmd.slowPos ≠ 0 then s.cmd.slowOut.drop 1 else s.cmd.slowOut } } := by
  rw [slowSubmit, if_neg (by simp [hr]), if_neg (by simp)]

/-- A block read takes the next 255 bytes, or the rest, of the oldest completion. -/
theorem slowRead_part {c : List Nat} {r : List (List Nat)} (hc : s.cmd.slowOut = c :: r) (hmore : s.cmd.slowPos + 255 < c.length) :
    slowRead s = send (.slow ((c.drop s.cmd.slowPos).take 255)) { s with cmd := { s.cmd with slowPos := s.cmd.slowPos + 255 } } := by
  have hlen : ((c.drop s.cmd.slowPos).take 255).length = 255 := by
    rw [List.length_take, List.length_drop]; omega
  rw [slowRead, if_neg (by simp [hr]), hc]
  dsimp only
  rw [hlen, if_neg (by omega)]
  rfl

theorem slowRead_last {c : List Nat} {r : List (List Nat)} (hc : s.cmd.slowOut = c :: r) (hpos : s.cmd.slowPos ≤ c.length)
    (hlast : c.length ≤ s.cmd.slowPos + 255) :
    slowRead s = send (.slow (c.drop s.cmd.slowPos)) { s with cmd := { s.cmd with slowOut := r, slowPos := 0 } } := by
  have hlen : (c.drop s.cmd.slowPos).length = c.length - s.cmd.slowPos := List.length_drop
  have htake : (c.drop s.cmd.slowPos).take 255 = c.drop s.cmd.slowPos := List.take_of_length_le (by omega)
  rw [slowRead, if_neg (by simp [hr]), hc]
  dsimp only
  rw [htake, hlen, if_pos (by omega)]
  rfl

end

/-- The slow port gives a row its frame where the bytes submitted begin with the row's header and elements and have its length. -/
theorem slowGives_iff {s : State} {h : Hdr} {code : Nat} {b : Body} {l : List Nat} (hl : s.cmd.slowFrame = some l) :
    slowGives s h code b = true ↔ (headBytes h code ++ b.flatMap elemBytes).isPrefixOf l = true ∧ l.length = 48 + h.bodyBytes := by
  simp only [slowGives, hl, Bool.and_eq_true, decide_eq_true_eq, List.isPrefixOf_iff_prefix, List.prefix_iff_eq_take]
  exact and_congr_left fun _ => eq_comm

theorem taken_slow {h : Hdr} {op : Op} {b : Body} {s : State} (hv : h.via = .slow) (hcmd : takesCommands s = true) :
    taken op h b s = true ↔ s.cmd.turn = none ∧ slowGives s h op.code b = true := by
  have hlive : viaLive s .slow = true := rfl
  have hsize : viaOversize s h = false := by rw [viaOversize, hv]; rfl
  have htakes : viaTakes s h op.code b = slowGives s h op.code b := by rw [viaTakes, hv]
  simp only [taken, hcmd, hv, hlive, hsize, htakes, Bool.true_and, Bool.not_false, Bool.and_eq_true, decide_eq_true_eq]
  exact and_comm

/-- Settles O16: where the port runs, each row is one of the two branches of its function. -/
theorem slowPortTransfers : Obligations.SlowPortTransfers := by
  unfold Obligations.SlowPortTransfers
  refine ⟨?_, ?_, ?_, ?_, ?_, ?_, ?_, ?_, ?_⟩
  · exact fun t l s u hu hr h0 h255 hfit => ev_next hu (slowAppend_joins hr h0 h255 hfit)
  · exact fun t l s u hu hr h0 h255 => ev_next hu (slowAppend_badPec hr h0 h255)
  · intro t s u hu hr hpos
    exact ev_next hu (by rw [slowSubmit_good hr, if_neg (not_not.mpr hpos), ← hpos])
  · intro t s u hu hr hpos
    exact ev_next hu (by rw [slowSubmit_good hr, if_pos hpos])
  · intro h op b s l hv hcmd hl
    rw [taken_slow hv hcmd, slowGives_iff hl]
    exact and_congr_right fun _ => and_comm
  · exact fun t s u c r hu hr hc hmore => ev_next hu (slowRead_part hr hc hmore)
  · exact fun t s u c r hu hr hc hpos hlast => ev_next hu (slowRead_last hr hc hpos hlast)
  · exact fun t s u hu hr => ev_next hu (if_pos hr)
  · exact fun t s u hu => ev_next hu rfl

/-! ## Register reads -/

theorem ansRegRead_reads {h : Hdr} {b : Body} {u v : State} {n : Nat} {l : List Nat} (h1 : 1 ≤ n) (h64 : n ≤ 64)
    (hn : elemOf b 0x0104 = some (elemW 0x0104 [w32 n])) (hl : l = addrRange (addrOf b) n) (hex : ∀ a ∈ l, blockExists a = true)
    (hup : ∀ a ∈ l, domainDown u a = false) (haudit : h.world = 2 → ∀ a ∈ l, auditBarred a = false)
    (hv : v = if l.any countsCycles then perfSettle u else u) :
    ansRegRead h b u = .done [elemW 0x8102 (readAll l v).1] (readAll l v).2 := by
  have hword : wordAt (elemW 0x0104 [w32 n]).val 0 = w32 n := rfl
  have hnat : (w32 n).toNat = n := by rw [w32, BitVec.toNat_ofNat]; omega
  have hcount : Legal.apply (.range 1 64) 32 n = n := by rw [Legal.apply_range (by decide)]; omega
  have hbarred : ¬ (h.world = 2 ∧ l.any auditBarred = true) := by
    rintro ⟨hw, hany⟩
    obtain ⟨a, ha, hb⟩ := List.any_eq_true.mp hany
    rw [haudit hw a ha] at hb
    cases hb
  have hall : ¬ l.all blockExists = false := by simpa using hex
  have hdown : ¬ l.any (domainDown u) = true := by simpa using hup
  unfold ansRegRead
  rw [hn]
  dsimp only
  rw [hword, hnat, hcount, ← hl, if_neg hbarred, if_neg hall, if_neg hdown, ← hv]
  simp [reportElem]

/-- A range is at least one register long. -/
theorem ansRegRead_missing {h : Hdr} {b : Body} {u : State} (hw : h.world ≠ 2) (hno : blockExists (addrOf b) = false) :
    ansRegRead h b u = .fail stNotFound 0 := by
  have hfirst : ∀ n, 1 ≤ n → (addrRange (addrOf b) n).all blockExists = false := fun n hn => by
    rw [List.all_eq_false]
    exact ⟨addrOf b, List.mem_map.mpr ⟨0, List.mem_range.mpr hn, rfl⟩, by simp [hno]⟩
  unfold ansRegRead
  dsimp only
  rw [if_neg (fun e => hw e.1), if_pos (hfirst _ (by rw [Legal.apply_range (by decide)]; omega))]

/-- Settles O17: reads answer with what the device holds; an address that maps no field reads 0. -/
theorem registerReadsComplete : Obligations.RegisterReadsComplete := by
  unfold Obligations.RegisterReadsComplete
  have hone : ∀ w : Word, w.toNat = 1 ↔ w = 1 := fun w => BitVec.toNat_inj (y := 1#32)
  refine ⟨?_, ?_, ?_, ?_, ?_, ?_⟩
  · exact fun h b s u hs hu hw => run_done hs hu (if_pos ((hone _).mpr hw))
  · exact fun h b s u hs hu hw => run_done hs hu (if_neg fun e => hw ((hone _).mp e))
  · exact fun h b s u hs hu => run_done hs hu rfl
  · exact fun h b s u n l v hs hu h1 h64 hn hl hex hup haudit hv => run_done hs hu (ansRegRead_reads h1 h64 hn hl hex hup haudit hv)
  · intro h b s u hs hu hw hno
    exact (run_starts hs).trans (by rw [← hu, ansRegRead_missing hw hno]; rfl)
  · intro s a hf hro hlow hnone
    have hreset : resetWord a = 0 := by rw [resetWord, hf]; rfl
    have hreg : regWord s a = 0 := by rw [regWord, hnone, Option.getD_none, hreset]
    rw [readWord, if_neg (by omega), if_neg (by omega), liveWord, hreg, hro]
    rfl

/-! ## Register writes -/

/-- A row that is a REG_WRITE of a body writes its registers. -/
theorem writesRegisters_of_runWrite {i : Instr} {h : Hdr} {b c : Body} (hi : ∀ s, exec i s = runWrite i h c s) (hb : c = b) :
    writesRegisters i h b := by
  subst hb
  intro s u t r hs hu hex hup hgo hwrite happroved
  have hall : ¬ ((writesOf c).all fun x => blockExists x.1) = false := by simpa using hex
  have hdown : ¬ ((writesOf c).any fun x => domainDown u x.1) = true := by simpa using hup
  have hnone : (writesOf c).findSome? (goRefused u (writeMask c)) = none := List.findSome?_eq_none_iff.mpr hgo
  rw [hi]
  refine run_done hs hu ?_
  unfold ansRegWrite
  dsimp only
  rw [if_neg hall, if_neg hdown, hnone]
  dsimp only
  rw [hwrite, if_neg fun e => e.2 (happroved e.1)]

/-- Settles O18: each row is the REG_WRITE of its body, its index within range. -/
theorem registerWritesComplete : Obligations.RegisterWritesComplete := by
  unfold Obligations.RegisterWritesComplete
  have hmod : ∀ {n m : Nat}, n < m → n % m = n := Nat.mod_eq_of_lt
  refine ⟨?_, ?_, ?_, ?_, ?_, ?_, ?_, ?_, ?_, ?_, ?_, ?_, ?_, ?_, ?_, ?_, ?_, ?_, ?_, ?_, ?_, ?_, ?_, ?_, ?_, ?_, ?_, ?_⟩
  · exact fun h b => writesRegisters_of_runWrite (fun s => rfl) rfl
  · exact fun h w => writesRegisters_of_runWrite (fun s => rfl) rfl
  · exact fun h => writesRegisters_of_runWrite (fun s => rfl) rfl
  · exact fun h => writesRegisters_of_runWrite (fun s => rfl) rfl
  · exact fun h => writesRegisters_of_runWrite (fun s => rfl) rfl
  · exact fun h => writesRegisters_of_runWrite (fun s => rfl) rfl
  · exact fun h n hi hn hhi => writesRegisters_of_runWrite (fun s => rfl) (by rw [hmod hn, hmod hhi, matchHi])
  · exact fun h n hi hn hhi => writesRegisters_of_runWrite (fun s => rfl) (by rw [hmod hn, hmod hhi, matchHi])
  · exact fun h b hb => writesRegisters_of_runWrite (fun s => rfl) (by rw [hmod hb])
  · exact fun h b hb => writesRegisters_of_runWrite (fun s => rfl) (by rw [hmod hb])
  · exact fun h n w hn => writesRegisters_of_runWrite (fun s => rfl) (by rw [hmod hn])
  · exact fun h n w hn => writesRegisters_of_runWrite (fun s => rfl) (by rw [hmod hn])
  · exact fun h q w hq => writesRegisters_of_runWrite (fun s => rfl) (by rw [hmod hq])
  · exact fun h w => writesRegisters_of_runWrite (fun s => rfl) rfl
  · exact fun h p hp => writesRegisters_of_runWrite (fun s => rfl) (by rw [hmod hp])
  · exact fun h p hp => writesRegisters_of_runWrite (fun s => rfl) (by rw [hmod hp])
  · exact fun h p w hp => writesRegisters_of_runWrite (fun s => rfl) (by rw [hmod hp])
  · exact fun h e w => writesRegisters_of_runWrite (fun s => rfl) rfl
  · exact fun h w => writesRegisters_of_runWrite (fun s => rfl) rfl
  · exact fun h => writesRegisters_of_runWrite (fun s => rfl) rfl
  · exact fun h => writesRegisters_of_runWrite (fun s => rfl) rfl
  · exact fun h k hk => writesRegisters_of_runWrite (fun s => rfl) (by rw [hmod hk])
  · exact fun h => writesRegisters_of_runWrite (fun s => rfl) rfl
  · exact fun h => writesRegisters_of_runWrite (fun s => rfl) rfl
  · exact fun h => writesRegisters_of_runWrite (fun s => rfl) rfl
  · exact fun h b w hb => writesRegisters_of_runWrite (fun s => rfl) (by rw [hmod hb])
  · exact fun h w i tag hi ht => writesRegisters_of_runWrite (fun s => rfl) (by rw [hmod hi, hmod ht])
  · intro h w i tag d hi ht hd
    refine writesRegisters_of_runWrite (fun s => rfl) ?_
    rw [hmod hi, hmod ht, List.take_left' hd]

end Sys2Proof.Machine

/-! SUPPORT. Links, pause, captures and counters (05), and the time of day and its pins (06). -/
namespace Sys2Proof.Machine
open Sys2Proof

/-! ## Links (R114, R128) -/

/-- Settles O27: each event takes the branch its conditions name. -/
theorem linksComeUp : Obligations.LinksComeUp := by
  unfold Obligations.LinksComeUp
  refine ⟨?_, ?_, ?_, ?_⟩
  · exact fun t sp s u hu hmay hdown => ev_next hu (if_pos ⟨hmay, hdown⟩)
  · exact fun t sp s u hu hsp hup => ev_next hu (if_pos ⟨hsp, .inl hup⟩)
  · exact fun t sp s u hu hsp => ev_next hu (if_pos ⟨hsp, .inr rfl⟩)
  · rintro t sp ok s u _ hu rfl hsp hport hup hwait hon hoff
    exact ev_next hu (if_pos ⟨hsp, hport, hup, hwait, hon, hoff⟩)

/-! ## Pause (R123 to R125) -/

theorem spPort_lt_two {sp : Nat} (h : sp < 16) : spPort sp < 2 := by
  unfold spPort
  split
  · decide
  · decide

/-- A MAC control frame that passes the receive checks on a clear sub-port: it is counted, then its pause content is taken. -/
theorem macControl_clear {sp : Nat} {f : Frame} {u : State} (hsp : sp < 16) (hup : (subPort u sp).link = true)
    (hok : failedRx sp f (rxStamp (countRx sp f u) sp) (countRx sp f u) = none) {i : PauseInfo} (hi : f.pause = some i) :
    macControl sp f u =
      if i.pfc then i.times.foldl (fun s e => if e.1 < 8 ∧ flag s (0x020080 + 4 * spPort sp) e.1 = true then pauseClass sp e.1 e.2 true s
        else s) (subCount sp 7 1 (countRx sp f u))
      else if flag (subCount sp 7 1 (countRx sp f u)) (0x020080 + 4 * spPort sp) 8 then
        match i.times with
        | [] => subCount sp 7 1 (countRx sp f u)
        | e :: _ => (List.range 8).foldl (fun s c => pauseClass sp c e.2 false s) (subCount sp 7 1 (countRx sp f u))
      else subCount sp 7 1 (countRx sp f u) := by
  have hport := spPort_lt_two hsp
  unfold macControl
  rw [if_neg (by simp only [hup, Bool.true_eq_false, or_false]; omega)]
  dsimp only
  rw [if_neg (by omega), hok]
  dsimp only
  rw [if_pos (by omega), hi]
  exact if_neg (by omega)

theorem subPort_setSub_same (sp : Nat) (x : SubPort) (s : State) : subPort (setSub sp x s) sp = x := get_put_same ..

theorem fld_setSub (sp : Nat) (x : SubPort) (s : State) (a hi lo : Nat) : fld (setSub sp x s) a hi lo = fld s a hi lo := rfl

/-- Whether a class is paused, from its record: a PAUSE time or, where the class is not express, a PFC time still running (R124). -/
theorem paused_setSub_same (sp c : Nat) (x : SubPort) (q : PauseSt) (m : KMap PauseSt) (s : State) :
    paused (setSub sp { x with pause := put m c q } s) sp c =
      (decide (s.now < q.until_) || (decide (s.now < q.pfc) && !(fld s (0x020008 + 0x10 * spPort sp) 23 16).testBit c)) := by
  simp only [paused, subPort_setSub_same, get_put_same, fld_setSub, setSub_now]

theorem pauseClass_ignored {sp c d : Nat} {pfc : Bool} {s : State} (h : s.now < (get (subPort s sp).pause c {}).ignore) :
    pauseClass sp c d pfc s = s := if_pos h

/-- What a pause frame leaves a class it reaches: the new time of its kind, the other kind's time as it was. -/
theorem paused_pauseClass {sp c d : Nat} {pfc : Bool} {s : State} (h : (get (subPort s sp).pause c {}).ignore ≤ s.now) :
    paused (pauseClass sp c d pfc s) sp c =
      (decide (s.now < if pfc then (get (subPort s sp).pause c {}).until_ else s.now + d) ||
        (decide (s.now < if pfc then s.now + d else (get (subPort s sp).pause c {}).pfc) &&
          !(fld s (0x020008 + 0x10 * spPort sp) 23 16).testBit c)) := by
  unfold pauseClass
  rw [if_neg (by omega)]
  cases pfc <;> exact paused_setSub_same ..

/-- Settles O28: a frame's pause content by `macControl_clear`, what it does to a class by `paused_pauseClass`, the timers by the branch their
conditions name. -/
theorem pauseIsHonoured : Obligations.PauseIsHonoured := by
  unfold Obligations.PauseIsHonoured
  refine ⟨?_, ?_, ?_, ?_, ?_, ?_, ?_, ?_, ?_⟩
  · rintro t sp f i s u _ hu hsp hup rfl hok hi hpfc
    exact ev_next hu ((macControl_clear hsp hup hok hi).trans (if_pos hpfc))
  · rintro t sp f i c d r s u _ hu hsp hup rfl hok hi hpfc htimes hflag
    refine ev_next hu ((macControl_clear hsp hup hok hi).trans ?_)
    rw [if_neg (by simp [hpfc]), if_pos hflag, htimes]
  · rintro t sp f s u _ hu h16 h18 hup rfl hok hi
    refine ev_next hu ?_
    unfold macControl
    rw [if_neg (by simp only [hup, Bool.true_eq_false, or_false]; omega)]
    dsimp only
    rw [if_pos (by omega), hok]
    dsimp only
    rw [hi, if_pos h18]
  · rintro sp c d pfc s _ rfl h
    exact pauseClass_ignored h
  · intro sp c d s h hd
    rw [paused_pauseClass h]
    simp [hd]
  · intro sp c d s h hd
    rw [paused_pauseClass h]
    simp [hd, Bool.or_comm]
  · rintro t sp c s u _ hu rfl hp hs
    exact ev_next hu (if_pos ⟨hp, hs⟩)
  · rintro t sp c s u _ t0 hu rfl hs hsp hp hdue
    exact ev_next hu (by simp only [watchdogTrip, hs]; exact if_pos ⟨hsp, hp, hdue⟩)
  · rintro t sp c s u _ hu rfl hne hdue
    exact ev_next hu (if_pos ⟨hne, hdue⟩)

/-! ## Captures and counters (R127, R132, R135, R136) -/

/-- An operand in its range is applied as it is asked, so nothing is reported. -/
theorem reportElem_w32_toNat (typ idx : Nat) (w : Word) : reportElem typ idx w (w32 w.toNat) = [] := by
  rw [reportElem, w32, BitVec.ofNat_toNat, BitVec.setWidth_eq, if_pos rfl]

theorem ansCaptureRead_count {b : Body} {u : State} {n : Elem} (hn : elemOf b 0x0312 = some n) (h1 : 1 ≤ (wordAt n.val 0).toNat)
    (h3 : (wordAt n.val 0).toNat ≤ 3) : ansCaptureRead b u = .done ((u.port.capture.take (wordAt n.val 0).toNat).map captureElem ++
      [elemW 0x0314 [w32 (u.port.capture.drop (wordAt n.val 0).toNat).length, w32 (fld u 0x020100 31 16)]])
      (setFld 0x020100 31 16 0 { u with port := { u.port with capture := u.port.capture.drop (wordAt n.val 0).toNat } }) := by
  have hrange : Legal.apply (.range 1 3) 32 (wordAt n.val 0).toNat = (wordAt n.val 0).toNat := by
    rw [Legal.apply_range (by decide)]; omega
  simp only [ansCaptureRead, hn, hrange, reportElem_w32_toNat, List.append_nil]

theorem counterPoll_runs {t : Nat} {s u : State} (hu : u = tick t s) (h5 : 5 ≤ u.boot.step) (h3 : u.pwr.state < 3) :
    exec (.counterPoll t) s = .next (pollCounters u) := by
  subst hu
  exact congrArg Host.Outcome.next (if_pos ⟨h5, h3⟩)

/-- Settles O29: each command's meaning takes the branch its conditions name. -/
theorem portCountersAndCapture : Obligations.PortCountersAndCapture := by
  unfold Obligations.PortCountersAndCapture
  refine ⟨?_, ?_, ?_, ?_, ?_⟩
  · exact fun h b s u n hs hu hn h1 h3 => run_done hs hu (ansCaptureRead_count hn h1 h3)
  · intro h b s u sp hs hu hsp hlt
    exact run_done hs hu (by simp only [ansPortStatsRead, hsp]; exact if_pos hlt)
  · intro h b s u sp hs hu hsp hge
    exact run_done hs hu (by simp only [ansPortStatsRead, hsp]; exact if_neg (by omega))
  · exact fun t s u hu h5 h3 => counterPoll_runs hu h5 h3
  · intro t k f s u hu hup hen hmac hno
    refine ev_next hu ?_
    unfold mgmtFrame mgmtIn
    rw [if_neg (by simp [hup, hen]), if_neg hmac, if_neg]
    rintro ⟨he, htags, -, hfcs, -⟩
    rcases hno with h | h | h
    · exact h he
    · omega
    · simp [hfcs] at h

/-! ## The time of day (R140, R142, R162 to R164, R171) -/

theorem matchFire_reached {t n : Nat} {s u : State} (hu : u = tick t s) (hn : n < 8) (harmed : (matchOf u n).armed = true)
    (hdue : fastDiff (matchOf u n).instant (fast u) ≤ matchLead n) : exec (.matchFire t n) s = .next (fireMatch n false false u) := by
  subst hu
  exact congrArg Host.Outcome.next ((if_pos hn).trans (if_pos ⟨harmed, hdue⟩))

/-- Settles O30: each command's and each event's meaning takes the branch its conditions name. -/
theorem timeRuns : Obligations.TimeRuns := by
  unfold Obligations.TimeRuns
  refine ⟨?_, ?_, ?_, ?_, ?_, ?_, ?_⟩
  · exact fun h b s u hs hu => run_done hs hu rfl
  · exact fun h b s u hs hu => run_done hs hu rfl
  · intro t n s u hu hn harmed hdue
    have hlead : matchLead n = 0 := if_neg (by omega)
    rw [matchFire_reached hu (by omega) harmed (by rw [hlead]; exact hdue), fireMatch]
    simp only [Bool.false_eq_true, if_false]
    rw [if_neg (by omega), if_neg (by omega)]
  · exact fun t n s u hu hn harmed hdue => matchFire_reached hu hn harmed hdue
  · intro t s u hu hsync hlast
    refine ev_next hu (if_pos ⟨hsync, ?_⟩)
    cases hl : u.time.lastMeas with
    | none => rfl
    | some l => exact decide_eq_true (hlast l hl)
  · rintro t s u _ hu hslew hdone rfl
    exact ev_next hu (if_pos ⟨hslew, decide_eq_true hdone⟩)
  · intro t s u hu hrun hrtc
    exact ev_next hu ((if_pos hrtc).trans (if_pos hrun))

/-! ## The time pins (R169, R170, R173, R174) -/

/-- An edge of PPS_IN where steps are allowed and the servo does not follow it. -/
theorem ppsEdge_apart {u : State} (hstep : u.time.stepAvail = true) (hsrc : servoSrc u ≠ 2) : ppsEdge u =
    if flag u 0x040050 7 then { u with time := { u.time with
      ppsInEdge := some u.now, ppsLost := false, ppsStamp := todNs u * 4 + todFrac u / 16384, ppsSec := todSec u % 2 ^ 32, ppsInOk := true } }
    else { u with time := { u.time with ppsInEdge := some u.now, ppsLost := false, ppsInOk := true } } := by
  have hflag : ∀ x, flag { u with time := x } 0x040050 7 = flag u 0x040050 7 := fun _ => rfl
  have hservo : ∀ x, servoSrc { u with time := x } = servoSrc u := fun _ => rfl
  cases hb : flag u 0x040050 7 <;>
    simp only [ppsEdge, hflag, hb, hservo, hstep, hsrc, if_false, if_true, Bool.false_eq_true, Bool.true_eq_false, false_and] <;> rfl

/-- Settles O31: each event takes the branch its conditions name. -/
theorem timePinsAct : Obligations.TimePinsAct := by
  unfold Obligations.TimePinsAct
  refine ⟨?_, ?_, ?_, ?_, ?_, ?_, ?_, ?_, ?_⟩
  · exact fun t s u hu hsel => ev_next hu (if_neg (by simp [hsel]))
  · exact fun t s u hu hsel hcfg => ev_next hu ((if_pos ⟨hcfg, rfl⟩).trans (if_neg (by simp [hsel])))
  · exact fun t s u hu hsel hcfg => ev_next hu ((if_neg fun h => hcfg h.1).trans (if_pos hsel))
  · exact fun t s u hu hoff hstep hsrc => ev_next hu ((ppsEdge_apart hstep hsrc).trans (if_neg (by simp [hoff])))
  · exact fun t s u hu hon hstep hsrc => ev_next hu ((ppsEdge_apart hstep hsrc).trans (if_pos hon))
  · rintro t s u _ hu hrun hlost rfl hdue hsrc
    exact ev_next hu ((if_pos ⟨hrun, hlost, hdue⟩).trans (if_neg hsrc))
  · rintro t s u _ hu hrun hlost rfl hdue hsrc
    exact ev_next hu ((if_pos ⟨hrun, hlost, hdue⟩).trans (if_pos hsrc))
  · intro t s u hu hwhole hmode hlast
    refine ev_next hu (if_pos ⟨hwhole, hmode, ?_⟩)
    cases hl : u.time.ppsLast with
    | none => rfl
    | some e => exact decide_eq_false (Nat.not_lt.mpr (hlast e hl))
  · intro t s u f hu hf hdue hout
    exact ev_next hu (by simp only [ppsFalls, hf]; exact if_pos ⟨hout, hdue⟩)

end Sys2Proof.Machine

/-! SUPPORT. The classification tables (07): entries, the copy with new seeds, prefixes, learning and ageing. -/
namespace Sys2Proof.Machine
open Sys2Proof

/-- What an event guarded by a condition does where the condition holds. -/
theorem ev_if {t : Nat} {s u v : State} {p : State → Prop} [DecidablePred p] {f : State → State} (hu : u = tick t s) (hp : p u)
    (h : f u = v) : ev t (fun s => if p s then f s else s) s = .next v := by
  subst hu
  exact congrArg Host.Outcome.next ((if_pos hp).trans h)

/-- A command whose meaning answers a failure is completed with its status and detail. -/
theorem run_fail {i : Instr} {op : Op} {h : Hdr} {b : Body} {m : State → Ans} {s u : State} {st d : Nat} (hs : starts op h b s = true)
    (hu : u = begun op h b s) (hm : m u = .fail st d) : run i op h b m s = .next (finish (flightOf h op.code .start) st d [] u) := by
  rw [run_starts hs, ← hu, hm]; rfl

/-! ## Entries of a table -/

section
variable {s : State} {b : Nat}

theorem tabs_chain : (tabs s b).chain = (tables s b).chain := by
  unfold tabs
  dsimp only
  cases hr : (tables s b).chain.bind (·.held) with
  | none =>
    dsimp only
    split
    · split <;> rfl
    · rfl
  | some h =>
    dsimp only
    split
    · split <;> split <;> rfl
    · split <;> rfl

end

/-- A key with no entry but a free way takes that way, and no other entry moves. -/
theorem insertNew_free {s : State} {b w : Nat} {x : BrickTables} {e : FlowEntry} {o : Option Nat} (hw : freeWay x (keyWays x e.key) = some w) :
    insertNew s b x e o = some (flowPut (cuckooDepth s b) w e x) := by
  simp only [insertNew, placeFor, hw]

section
variable {b : Body} {u : State}

theorem ansTableInsert_vlan {w : Word} (hidle : engineIdle u (tabBrick b) = true) (h0 : tabTable b = 0)
    (hw : w = vlanApplied (wordAt (wordsOf b 0x8504) 0)) (hst : vlanStanding u (tabBrick b) w = some false) :
    ∃ r, ansTableInsert b u = .done r (setVlan (tabBrick b) (tabIndex b) w u) := by
  have hput : ∀ rep, putVlan (tabBrick b) (tabIndex b) w rep u = .done rep (setVlan (tabBrick b) (tabIndex b) w u) := fun _ => if_pos hidle
  rw [ansTableInsert, if_pos h0, insertVlan, ← hw, hst]
  exact ⟨_, hput _⟩

theorem ansTableInsert_flow (h0 : tabTable b ≠ 0) (hst : scStanding u (brickSc (tabBrick b) (staticEntry b).sc) = some false) :
    ansTableInsert b u = putFlow (tabBrick b) (staticEntry b) u := by
  simp only [ansTableInsert, h0, if_false, insertFlow, hst, onSc]

end

section
variable {k : Nat} {u : State} {e : FlowEntry}

theorem chain_of_engineIdle (h : engineIdle u k = true) : (tabs u k).chain = none := by
  simp only [engineIdle, engineFree, Bool.and_eq_true, Option.isNone_iff_eq_none] at h
  rw [tabs_chain, h.1]

theorem putFlow_new {w : Nat} (hidle : engineIdle u k = true) (hno : findFlow (tabs u k) e.key = none)
    (hw : freeWay (tabs u k) (keyWays (tabs u k) e.key) = some w) :
    putFlow k e u = .done [] (setTables k (flowPut (cuckooDepth u k) w e (tabs u k)) u) := by
  have hchain : (flowPut (cuckooDepth u k) w e (tabs u k)).chain = none := chain_of_engineIdle hidle
  have hins : hostInsert k (tables u k).nextJob e u = (setTables k (flowPut (cuckooDepth u k) w e (tabs u k)) u, some stOk) := by
    simp only [hostInsert, hno, insertNew_free hw, hchain]
    rfl
  simp only [putFlow, hidle, Bool.true_eq_false, if_false, hins, if_true]

theorem putFlow_again {w : Nat} {o : FlowEntry} (hidle : engineIdle u k = true) (hold : findFlow (tabs u k) e.key = some (w, o)) :
    putFlow k e u = .done [] (setTables k (flowPut (cuckooDepth u k) w e (tabs u k)) u) := by
  have hins : hostInsert k (tables u k).nextJob e u = (setTables k (flowPut (cuckooDepth u k) w e (tabs u k)) u, some stOk) := by
    simp only [hostInsert, hold]
  simp only [putFlow, hidle, Bool.true_eq_false, if_false, hins, if_true]

end

/-- Settles O33: each command's meaning takes the branch its conditions name. -/
theorem tableCommandsComplete : Obligations.TableCommandsComplete := by
  unfold Obligations.TableCommandsComplete
  refine ⟨?_, ?_, ?_, ?_, ?_, ?_, ?_, ?_, ?_, ?_, ?_⟩
  · rintro h b s u _ w hs hu rfl hidle h0 hw hst
    obtain ⟨r, hr⟩ := ansTableInsert_vlan hidle h0 hw hst
    exact ⟨r, run_done hs hu hr⟩
  · rintro h b s u _ _ _ f hs hu rfl hidle h0 rfl hst rfl hno hw
    exact run_done hs hu ((ansTableInsert_flow h0 hst).trans (putFlow_new hidle hno hw))
  · rintro h b s u _ _ _ w o hs hu rfl hidle h0 rfl hst rfl hold
    exact run_done hs hu ((ansTableInsert_flow h0 hst).trans (putFlow_again hidle hold))
  · rintro h b s u _ _ _ hs hu rfl hidle h0 rfl hst rfl
    exact run_waits hs hu ((ansTableInsert_flow h0 hst).trans (if_pos hidle))
  · rintro h b s u _ hs hu rfl hidle h0
    exact run_done hs hu ((if_pos h0).trans (if_pos hidle))
  · rintro h b s u _ _ w e hs hu rfl hidle h0 rfl hold
    have hrem : hostRemove (tabBrick b) (tabKey b) u = (setTables (tabBrick b) (flowDel w (tabs u (tabBrick b))) u, stOk) := by
      simp only [hostRemove, hold]
    exact run_done hs hu (by simp only [ansTableDelete, h0, hidle, Bool.true_eq_false, if_false, hrem, if_true])
  · rintro h b s u _ hs hu h0 rfl hfree
    exact run_done hs hu ((if_pos h0).trans (if_neg (by simp [hfree])))
  · rintro h b s u _ w e hs hu h0 rfl hfree hold
    exact run_done hs hu (by simp only [ansTableRead, h0, hfree, Bool.false_eq_true, if_false, hold])
  · rintro h b s u _ _ _ _ hs hu rfl rfl hnone rfl rfl
    exact ⟨_, run_prog hs hu (if_neg (by simp [hnone]))⟩
  · rintro t k s u _ r _ hu hk rfl hr hc rfl hb
    exact ev_if (p := fun _ => k < 4) (f := rehashSwap k) hu hk (by simp [rehashSwap, hr, hc, hb])
  · rintro t k s u _ r _ hu hk rfl hr hc rfl hb
    exact ev_if (p := fun _ => k < 4) (f := rehashSwap k) hu hk (by simp [rehashSwap, hr, hc, hb])

/-! ## Prefixes -/

/-- The entry that LPM_ADD makes of an address and length and its action word. -/
def lpmEntry (f n a : Nat) (w : Word) : Lpm := { family := f, len := n, addr := a, action := w.bits 3 2, cls := w.bits 18 16 }

theorem anySame_iff {l : List Lpm} {f n a : Nat} :
    (l.any fun o => decide (o.family = f) && decide (o.len = n) && decide (o.addr = a)) = true ↔
      ∃ o ∈ l, o.family = f ∧ o.len = n ∧ o.addr = a := by
  simp [and_assoc]

section
variable {b : Body} {u : State} {f n a : Nat} (hp : prefixOf b = (f, n, a))
include hp

/-- LPM_ADD: the entry replaces one of the same address and length, or joins where the list then fits. -/
theorem ansLpmAdd_eq : ansLpmAdd b u =
    if ∃ o ∈ (tables u (tabBrick b)).lpm, o.family = f ∧ o.len = n ∧ o.addr = a then
      .done [] (setTables (tabBrick b) { tables u (tabBrick b) with
        lpm := (tables u (tabBrick b)).lpm.map fun o => if (decide (o.family = f) && decide (o.len = n) && decide (o.addr = a)) = true then
          lpmEntry f n a (wordAt (wordsOf b 0x8509) 0) else o } u)
    else if lpmFits ((tables u (tabBrick b)).lpm ++ [lpmEntry f n a (wordAt (wordsOf b 0x8509) 0)]) = true then
      .done [] (setTables (tabBrick b) { tables u (tabBrick b) with
        lpm := (tables u (tabBrick b)).lpm ++ [lpmEntry f n a (wordAt (wordsOf b 0x8509) 0)] } u)
    else .fail stNoSpace 0 := by
  unfold ansLpmAdd
  simp only [hp]
  exact if_congr anySame_iff rfl rfl

theorem ansLpmDelete_present (h : ∃ o ∈ (tables u (tabBrick b)).lpm, o.family = f ∧ o.len = n ∧ o.addr = a) : ansLpmDelete b u =
    .done [] (setTables (tabBrick b) { tables u (tabBrick b) with
      lpm := (tables u (tabBrick b)).lpm.filter fun o => !(o.family == f && o.len == n && o.addr == a) } u) := by
  unfold ansLpmDelete
  simp only [hp]
  exact if_pos (anySame_iff.mpr h)

end

/-! ## Learning and ageing -/

theorem applyLearn_remove {m : LearnMsg} {s : State} {w : Nat} {e : FlowEntry} (hrem : m.remove = true) (hmir : m.mirrored = true)
    (hold : findFlow (tabs s m.brick) m.key = some (w, e)) (hdyn : e.static = false) :
    applyLearn m s = setTables m.brick (flowDel w (tabs s m.brick)) s := by
  simp [applyLearn, hold, hrem, hdyn, learnSent, hmir]

theorem applyLearn_new {m : LearnMsg} {s : State} {w : Nat} {c : Sc} (hrem : m.remove = false) (hmir : m.mirrored = true)
    (hc : scOf s (scKey m.brick false m.sc) = some c) (hlive : c.deleting = false) (hno : findFlow (tabs s m.brick) m.key = none)
    (hw : freeWay (tabs s m.brick) (keyWays (tabs s m.brick) m.key) = some w) : applyLearn m s =
      setTables m.brick (flowPut (cuckooDepth s m.brick) w { key := m.key, sc := m.sc, static := false, hit := true } (tabs s m.brick)) s := by
  have hins := insertNew_free (s := s) (b := m.brick) (e := { key := m.key, sc := m.sc, static := false, hit := true }) (o := none) hw
  simp [applyLearn, hno, hrem, hc, hlive, hins, learnSent, hmir]

theorem agerAct_running {b w : Nat} {s : State} {e : FlowEntry} (he : look (tabs s b).flow w = some e) (hdyn : e.static = false)
    (hlive : e.tomb = false) (hon : flag s (0x050000 + 0x100 * b) 16 = true) (hrole : standby s = false) (hpow : s.pwr.state < 2) :
    agerAct b w s =
      if e.hit = true then setTables b (flowPut (cuckooDepth s b) w { e with hit := false, age := 0 } (tabs s b)) s
      else if e.age < 15 then setTables b (flowPut (cuckooDepth s b) w { e with age := e.age + 1 } (tabs s b)) s
      else addWork b (.aged e.key) s := by
  simp only [agerAct, he]
  exact if_neg (by simp only [hdyn, hlive, hon, hrole, Bool.false_eq_true, Bool.true_eq_false, false_or]; omega)

/-- Settles O34: each command's and each event's meaning takes the branch its conditions name. -/
theorem prefixesLearningAgeing : Obligations.PrefixesLearningAgeing := by
  unfold Obligations.PrefixesLearningAgeing
  refine ⟨?_, ?_, ?_, ?_, ?_, ?_, ?_, ?_, ?_, ?_, ?_, ?_⟩
  · rintro h b s u _ f n a _ hs hu rfl hp rfl hnew
    have hans := (ansLpmAdd_eq (u := u) hp).trans (if_neg (by simpa using hnew))
    split
    · rename_i hfit
      exact run_done hs hu (hans.trans (if_pos hfit))
    · rename_i hfull
      exact run_fail hs hu (hans.trans (if_neg hfull))
  · rintro h b s u _ f n a _ hs hu rfl hp rfl hold
    exact run_done hs hu ((ansLpmAdd_eq hp).trans (if_pos hold))
  · rintro h b s u _ f n a hs hu rfl hp hold
    exact run_done hs hu (ansLpmDelete_present hp hold)
  · intro t k s u m r hu hk hpow hwork hfree
    exact ev_if (p := fun s => k < 2 ∧ s.pwr.state < 2) (f := learnApply k) hu ⟨hk, hpow⟩ (by simp only [learnApply, hwork, hfree, if_true])
  · rintro m s _ w e rfl hrem hmir hold hdyn
    exact applyLearn_remove hrem hmir hold hdyn
  · rintro m s _ w c rfl hrem hmir hc hlive hno hw
    exact applyLearn_new hrem hmir hc hlive hno hw
  · rintro t k s u _ c w a hu rfl hc hheld hdue hmoves hvoid hor
    exact ev_next hu (by simp [tombstoneFree, hc, hheld, hmoves, hvoid, hor, Nat.not_lt.mpr hdue])
  · rintro t k s u _ c w a hu rfl hc hheld hearly
    exact ev_next hu (by simp [tombstoneFree, hc, hheld, hearly])
  · exact fun t k w s u hu hk => ev_if (p := fun _ => k < 4) (f := agerVisit k w) hu hk rfl
  · rintro b w s _ e rfl he hdyn hlive hon hrole hpow
    exact agerAct_running he hdyn hlive hon hrole hpow
  · rintro b key s _ w e h2 rfl hold hdyn hcold hage
    simp [agedOut, hold, hdyn, hcold, Nat.not_lt.mpr hage, Nat.not_lt.mpr h2]
  · rintro b key s _ w e rfl hold hhit
    simp [agedOut, hold, hhit]

end Sys2Proof.Machine

/-! SUPPORT. The secure channels (08): the commands of SCs, SAs and MKA, and their timers. -/
namespace Sys2Proof.Machine
open Sys2Proof

/-! ## The commands of SCs and SAs -/

section
variable {h : Hdr} {b : Body} {u : State} (hrole : standby u = false)
include hrole

section
variable (hidle : scBusy u (refKey b) = false)
include hidle

theorem ansScCreate_new (hca : inCa u (refKey b) = false) (hno : scOf u (refKey b) = none) : ∃ r c,
    c.cfg = cfgApplied (scRx (refKey b)) (wordAt (wordsOf b 0x8602) 0) ∧
    c.sci = (if (cfgApplied (scRx (refKey b)) (wordAt (wordsOf b 0x8602) 0)).bit 29 then 0 else bytesNat (wordsOf b 0x8603) 0 8) ∧
    c.window = min (wordAt (wordsOf b 0x0604) 0).toNat (2 ^ 30) ∧ c.ans = [] ∧
    ansScCreate b u = .done r (considerAuto (refKey b) (mirrorSc (refKey b) true (setSc (refKey b) c u))) := by
  unfold ansScCreate
  dsimp only
  rw [hrole, hidle, hca, hno]
  exact ⟨_, _, rfl, rfl, rfl, rfl, rfl⟩

section
variable {c : Sc} (hc : scOf u (refKey b) = some c) (hlive : c.deleting = false)
include hc hlive

theorem ansScDelete_free (htx : ptpTxSc u (refKey b) = false) (hrx : ptpRxSc u (refKey b) = false) (hca : inCa u (refKey b) = false) :
    ansScDelete b u = if c.ans = [] then .done [] (beginDelete (refKey b) u)
      else .wait (.zeroised (c.ans.map (·.2)) (some (refKey b))) (beginDelete (refKey b) u) := by
  simp only [ansScDelete, hrole, hidle, hc, hlive, htx, hrx, hca, Bool.false_eq_true, if_false, or_self]

/-- SA_INSTALL of a receive SA on a free AN: the key goes out on the key bus. -/
theorem ansSaInstall_receive {k : Key} {n init : Nat} {v : State} (hxpn : c.xpn = false)
    (hinit : init = if hasElem b 0x8609 then bytesNat (wordsOf b 0x8609) 0 8 else 1) (hend : init ≤ c.pnEnd)
    (hca : inCa u (refKey b) = false) (hold : entryOn c (anOf b) = none) (hrx : scRx (refKey b) = true)
    (hkey : keyFor u h.world (wordAt (wordsOf b 0x8608) 0).toNat [uDecrypt] mBus = .ok k) (halg : k.alg = c.suite % 2 + 1)
    (hfree : freeEntry u = some n) (hslot : takeSlot 0 u = some v) :
    ansSaInstall h b u = .wait (.keyBus n) (touchKey (wordAt (wordsOf b 0x8608) 0).toNat { v with sas := { v.sas with
      bus := v.sas.bus ++ [{ scKey := refKey b, entry := n, handle := (wordAt (wordsOf b 0x8608) 0).toNat, rewrite := false,
                             sa := newSa (refKey b) (anOf b) (wordAt (wordsOf b 0x8608) 0).toNat (maskedKey v (c.suite % 2 = 1) k.value) init c
                                     (ivBase c (wordAt (wordsOf b 0x860A) 0) (wordsOf b 0x860B)) none }] } }) := by
  unfold ansSaInstall
  dsimp only
  rw [hrole, hidle, hc]
  dsimp only
  rw [hlive, ← hinit, hca, hold, hrx]
  simp only [Bool.false_eq_true, if_false, if_true, Nat.not_lt.mpr hend, hxpn, false_and, Option.bind_none, hkey, halg, ne_eq,
    not_true_eq_false, Bool.true_eq_false, or_self, hfree, hslot, Option.isSome_none]

section
variable {e : Nat} {a : Sa} (he : entryOn c (anOf b) = some e) (ha : saOf u e = some a)
include he ha

theorem ansSaSwitchTx_unused (hca : inCa u (refKey b) = false) (htx : scRx (refKey b) = false) (hst : a.st = 0) :
    ansSaSwitchTx b u =
      if (match saOf (beginSwitch (refKey b) (anOf b) u) e with | some x => x.st == 1 | none => false) then
        .done [elemW 0x060D [w32 ((match activeTx u c with | some (_, o) => o.pn - 1 | none => 0) / 2 ^ 32),
          w32 (match activeTx u c with | some (_, o) => o.pn - 1 | none => 0), w32 (a.pn / 2 ^ 32), w32 a.pn]]
          (beginSwitch (refKey b) (anOf b) u)
      else .wait (.switch (refKey b)) (beginSwitch (refKey b) (anOf b) u) := by
  unfold ansSaSwitchTx
  dsimp only
  rw [hrole, hidle, hc]
  dsimp only
  rw [hlive, hca, htx, he]
  dsimp only
  rw [ha]
  dsimp only
  rw [hst]
  rfl

theorem ansSaErase_live (hca : inCa u (refKey b) = false) (hst : a.rx = true ∨ a.st ≠ 1) (h3 : a.st ≠ 3) :
    ansSaErase b u = .wait (.zeroised [e] none) (beginErase e u) := by
  have hkeep : ¬ (inCa u (refKey b) = true ∨ (a.rx = false ∧ a.st = 1)) := by
    rcases hst with h | h <;> simp [hca, h]
  unfold ansSaErase
  dsimp only
  rw [hrole, hc]
  dsimp only
  simp only [he, Option.bind_some, ha, Option.map_some, hlive, hidle, h3, Bool.false_eq_true, if_false, false_and, hkeep]

end
end
end

/-- MKA_CONFIG that makes a CA of the parameters at their defaults. -/
theorem ansMkaConfig_new {x : MkaCa} {k : Key} (hfl : ∀ f ∈ u.cmd.flights, f.await ≠ .caDeleted (caRef b)) (hact : mkaAction b = 1)
    (hno : look u.sas.cas (caRef b) = none) (hpar : hasElem b 0x0623 = false)
    (hx : x = { ckn := (elemOf b 0x8621).toList, cak := (wordAt (wordsOf b 0x8622) 0).toNat,
                txSc := bytesNat (wordsOf b 0x8624) 0 2, rxSc := bytesNat (wordsOf b 0x8624) 2 2, lastHello := u.now, lastSak := u.now })
    (hfree : ∀ n ∈ caScs (caRef b) x, has u.sas.scs n = false ∧ ∀ e ∈ u.sas.cas, e.1 ≠ caRef b → n ∉ caScs e.1 e.2)
    (hkey : keyFor u h.world x.cak [uDerive] mCore = .ok k) (halg : k.alg = 1 ∨ k.alg = 2) :
    ansMkaConfig h b u = .done [] (mkaSc (caRef b) x false x.txSc (ownSci u (caRef b / 128)) (setCa (caRef b) x u)) := by
  have hnone : u.cmd.flights.any (fun f => decide (f.await = .caDeleted (caRef b))) = false := by simpa using hfl
  have htaken : ((caScs (caRef b) x).any fun k => ((none : Option MkaCa).isNone && has u.sas.scs k) ||
      u.sas.cas.any fun e => decide (e.1 ≠ caRef b) && (caScs e.1 e.2).contains k) = false := by
    simp only [List.any_eq_false, Bool.or_eq_true, Bool.and_eq_true, List.any_eq_true, decide_eq_true_eq, List.contains_iff_mem, not_or,
      not_and, not_exists, Bool.not_eq_true]
    exact fun n hn => ⟨fun _ => (hfree n hn).1, fun e hin hne => (hfree n hn).2 e hin hne⟩
  subst hx
  unfold ansMkaConfig
  dsimp only
  rw [hrole, hnone, hact, hno, hpar]
  simp only [Bool.false_eq_true, if_false, one_ne_zero, Option.getD_none, ne_eq, not_true_eq_false, decide_false, Bool.or_self]
  refine (if_neg ?_).trans ?_
  · simp only [false_or, Bool.not_eq_true]
    exact htaken
  · rw [hkey]
    exact if_neg (by rcases halg with h | h <;> simp [h])

end

theorem ansSaRead_sa {b : Body} {u : State} {c : Sc} {e : Nat} {a : Sa} (hidle : scBusy u (refKey b) = false)
    (hc : scOf u (refKey b) = some c) (hel : hasElem b 0x8607 = true) (he : entryOn c (anOf b) = some e) (ha : saOf u e = some a) :
    ansSaRead b u = .done ([saState e a, counterElem (if scRx (refKey b) then 3 else 2) 0 a.counters] ++
      (if scRx (refKey b) then [elemB 0x0610 (bitmapBytes a.bitmap)] else [])) u := by
  simp only [ansSaRead, hidle, hc, hel, he, ha, Bool.false_eq_true, if_false, if_true, Option.bind_some, Option.map_some]

/-- Settles O35: each command's meaning takes the branch its conditions name. -/
theorem channelCommandsComplete : Obligations.ChannelCommandsComplete := by
  unfold Obligations.ChannelCommandsComplete
  refine ⟨?_, ?_, ?_, ?_, ?_, ?_, ?_, ?_, ?_⟩
  · rintro h b s u _ _ hs hu rfl hrole hidle hca hno rfl
    obtain ⟨r, c, hcfg, hsci, hwin, hans, hdone⟩ := ansScCreate_new hrole hidle hca hno
    exact ⟨r, c, hcfg, hsci, hwin, hans, run_done hs hu hdone⟩
  · rintro h b s u _ c hs hu rfl hrole hidle hc hlive htx hrx hca hans
    exact run_done hs hu ((ansScDelete_free hrole hidle hc hlive htx hrx hca).trans (if_pos hans))
  · rintro h b s u _ c hs hu rfl hrole hidle hc hlive htx hrx hca hans
    exact run_wait hs hu ((ansScDelete_free hrole hidle hc hlive htx hrx hca).trans (if_neg hans))
  · rintro h b s u _ c k n v init _ _ hs hu rfl hrole hidle hc hlive hxpn hinit hend hca hold rfl hrx hkey halg hfree hslot rfl
    exact run_wait hs hu (ansSaInstall_receive hrole hidle hc hlive hxpn hinit hend hca hold hrx hkey halg hfree hslot)
  · rintro h b s u _ c e a _ x _ hs hu rfl hrole hidle hc hlive hca htx he ha hst rfl hx h1 rfl
    exact run_done hs hu ((ansSaSwitchTx_unused hrole hidle hc hlive he ha hca htx hst).trans (if_pos (by simp [hx, h1])))
  · rintro h b s u _ c e a _ x hs hu rfl hrole hidle hc hlive hca htx he ha hst rfl hx h1
    exact run_wait hs hu ((ansSaSwitchTx_unused hrole hidle hc hlive he ha hca htx hst).trans (if_neg (by simp [hx, h1])))
  · rintro h b s u _ c e a hs hu rfl hrole hidle hc hlive he ha hca hst h3
    exact run_wait hs hu (ansSaErase_live hrole hidle hc hlive he ha hca hst h3)
  · rintro h b s u _ c e a hs hu rfl hidle hc hel he ha
    exact run_done hs hu (ansSaRead_sa hidle hc hel he ha)
  · rintro h b s u _ x k hs hu rfl hrole hfl hact hno hpar hx hfree hkey halg
    exact run_done hs hu (ansMkaConfig_new hrole hfl hact hno hpar hx hfree hkey halg)

/-! ## The timers of SAs and of MKA -/

theorem look_upd_same {α : Type} (m : KMap α) (k : Nat) (f : α → α) : look (upd m k f) k = (look m k).map f := by
  unfold upd
  cases h : look m k with
  | none => exact h
  | some v => exact look_put_same ..

theorem zeroise_free {e : Nat} {u : State} {a : Sa} (ha : saOf u e = some a) (hst : a.st = 3) (href : refCount u e = 0)
    (hlive : ∀ c, scOf u a.scKey = some c → c.deleting = false) : zeroise e u = settleErasures e { u with
      sas := { u.sas with
        sas := del u.sas.sas e,
        scs := upd u.sas.scs a.scKey fun c => if entryOn c a.an = some e then { c with ans := del c.ans a.an } else c },
      bnd := { u.bnd with rxCeil := del u.bnd.rxCeil e, rxAsked := del u.bnd.rxAsked e } } := by
  have hkeep : ∀ c, look (upd u.sas.scs a.scKey fun c => if entryOn c a.an = some e then { c with ans := del c.ans a.an } else c) a.scKey =
      some c → c.deleting = false := by
    intro c hc
    rw [look_upd_same] at hc
    obtain ⟨c₀, h₀, rfl⟩ := Option.map_eq_some_iff.mp hc
    have := hlive c₀ h₀
    split <;> exact this
  unfold zeroise
  rw [ha]
  dsimp only
  rw [if_neg (by simp [hst, href])]
  congr 1
  split
  · rename_i c hc
    exact if_neg (by simp [hkeep c hc])
  · rfl

section
variable {ca : Nat} {u : State} {x : MkaCa} (hx : look u.sas.cas ca = some x) (hlive : x.deleting = false) (hrun : mkaRuns u (ca / 128) = true)
include hx hlive hrun

theorem mkpduRx_joins {m : Mkpdu} (hicv : m.icvOk = true) (hnew : ∀ p ∈ x.peers, p.sci ≠ m.sci) (hm : m.live = true)
    (hroom : x.peers.length < 16) : mkpduRx ca m u = joinPeer ca x m u := by
  have hfind : x.peers.find? (fun p => decide (p.sci = m.sci)) = none := by simpa using hnew
  simp only [mkpduRx, hx, hlive, hrun, hicv, hfind, hm, hroom, Bool.false_eq_true, Bool.true_eq_false, or_self, if_false, and_self, if_true]

/-- The key server with peers makes a new SAK and hands it out. -/
theorem distributeSak_server {v : Nat} {w : State} (hpeers : x.peers ≠ []) (hserver : isServer u ca x = true) (heng : u.eng.failed = false)
    (hdraw : (v, w) = drawBits (sakBits (nextSak u x)) u) : distributeSak ca u =
      sendMkpdu ca (nextSak u x) (some ((nextSak u x).an, (nextSak u x).keyNum,
        Config.keyWrap (kekOf w (nextSak u x)) (beBytes (sakBits (nextSak u x) / 8) v)))
        (installSak ca (nextSak u x) v (record 0x0805 (sakEvent ca (nextSak u x) 0) w)) := by
  unfold distributeSak
  rw [hx]
  dsimp only
  rw [if_neg (by simp [hlive, hpeers, hserver, hrun, heng]), ← hdraw]

end

/-- Settles O36: each event takes the branch its conditions name. -/
theorem channelTimersRun : Obligations.ChannelTimersRun := by
  unfold Obligations.ChannelTimersRun
  refine ⟨?_, ?_, ?_, ?_, ?_, ?_, ?_, ?_, ?_⟩
  · intro t key s u c n hu hc hn
    exact ev_next hu (by simp only [switchDue, hc, Option.bind_some, hn])
  · intro key n s c e k hc he hk hready
    simp only [beginSwitch, hc, Option.bind_some, he, hk, hready, if_true]
  · intro t e s u a d hu ha hd hst hdue
    exact ev_next hu (by simp only [retireExpire, ha, hd]; exact if_pos ⟨hst, hdue⟩)
  · exact fun t e s u a hu ha hst href hlive => ⟨_, ev_next hu (zeroise_free ha hst href hlive), rfl⟩
  · exact fun t k n s u hu => ev_next hu rfl
  · exact fun t ca m s u x hu hx hlive hrun hicv hnew hm hroom => ev_next hu (mkpduRx_joins hx hlive hrun hicv hnew hm hroom)
  · intro t ca s u x hu hx hlive hrun hdue
    exact ev_next hu (by simp only [mkaHello, hx]; exact if_pos ⟨hdue, hrun, hlive⟩)
  · rintro t ca n s u x p _ _ hu hx hlive hrun hp hdue rfl rfl
    exact ev_next hu (by simp only [mkaPeerLost, hx, hp]; exact if_pos ⟨hdue, hrun, hlive⟩)
  · rintro t ca s u x _ v w hu hx hre hdue hlive hpeers hserver hrun heng rfl hdraw
    refine ev_next hu ?_
    simp only [mkaRekey, hx]
    exact (if_pos ⟨hre, hdue⟩).trans (distributeSak_server hx hlive hrun hpeers hserver heng hdraw)

end Sys2Proof.Machine

/-! SUPPORT. Frames that arrive (05, 07, 08) and frames in a brick (09). -/
namespace Sys2Proof.Machine
open Sys2Proof

/-! ## Clear sub-ports -/

section
variable {sp : Nat} {f : Frame} {u : State} (hsp : sp < 16) (hex : subExists u sp = true) (hup : (subPort u sp).link = true)
    (hmac : f.etype ≠ 0x8808) (hcmd : isCommand u (spPort sp) (spIdx sp) f = false)
include hsp hex hup hmac hcmd

theorem clearRx_badLength (hlen : f.len < 64 ∨ frameMax (countRx sp f u) (spPort sp) < f.len) :
    clearRx sp f u = failFrame sp f (countRx sp f u) := by
  unfold clearRx
  dsimp only
  rw [if_neg (by omega), if_neg (by simp only [hex, hup, Bool.true_eq_false, or_self, or_false]; omega), if_neg hmac, if_neg (by simp [hcmd]),
    if_pos hlen]

theorem clearRx_classified {r : Resolved} {w : State} (h64 : 64 ≤ f.len) (hmax : f.len ≤ frameMax (countRx sp f u) (spPort sp))
    (htakes : takesNone (countRx sp f u) (spPort sp) = false) (hptp : isPtp f = false) (hgdoi : isGdoi (countRx sp f u) sp f = false)
    (hres : resolveTx (spPort sp) (spIdx sp) f (perf (spPort sp) 1 1 (countRx sp f u)) = (r, w)) (hsc : r.sc = none) :
    clearRx sp f u = clearChosen
      { id := w.brk.nextId, brick := spPort sp, port := spPort sp, sub := spIdx sp, frame := f, stamp := rxStamp (takeId w).2 sp, drop := r.drop,
        missed := r.missed, cls := r.cls, sc := none, express := false, stage := .staging, eport := 2 + spPort sp, chan := 511, outLen := f.len,
        secy := r.secy, clear := fld (takeId w).2 (0x060000 + 4 * spPort sp) 3 2 } sp r (takeId w).2 := by
  unfold clearRx
  dsimp only
  rw [if_neg (by omega), if_neg (by simp only [hex, hup, Bool.true_eq_false, or_self, or_false]; omega), if_neg hmac, if_neg (by simp [hcmd]),
    if_neg (by omega), if_neg (by simp [htakes]), if_neg (by simp [hptp]), if_neg (by simp [hgdoi]), hres]
  dsimp only
  rw [hsc]
  rfl

end

/-- A frame with no SC that no express lane takes is staged. -/
theorem clearChosen_bulk {h : Held} {sp : Nat} {r : Resolved} {s : State} (hdrop : r.drop = none) (hsc : r.sc = none)
    (hexp : expressFit s h.brick r.cls h.frame.len none 0 = false) : clearChosen h sp r s = stage h (fallback h.brick r.cls s) := by
  simp only [clearChosen, hdrop, hsc, hexp, Option.isSome_none, Bool.false_eq_true, if_false]

/-! ## Line ports -/

section
variable {p : Nat} {f : Frame} {u : State} (hp : p < 2) (htrunk : lpTrunk u p = false) (hup : (subPort u (18 + p)).link = true)
    (hmac : f.etype ≠ 0x8808) (hmka : f.etype ≠ 0x888E) (h64 : 64 ≤ f.len) (hmax : f.len ≤ frameMax (countRx (18 + p) f u) (2 + p))
    (htakes : takesNone (countRx (18 + p) f u) (2 + p) = false)
include hp htrunk hup hmac hmka h64 hmax htakes

theorem lineRx_classified {r : Resolved} {w : State} (htag : hasSecTag (countRx (18 + p) f u) p f = false) (hptp : isPtp f = false)
    (hres : resolveRx (2 + p) f (perf (2 + p) 1 1 (countRx (18 + p) f u)) = (r, w)) (hsc : r.sc = none) :
    lineRx p f u = lineChosen
      { id := w.brk.nextId, brick := 2 + p, port := 2 + p, sub := 0, frame := f, stamp := rxStamp (takeId w).2 (18 + p), drop := r.drop, cls := r.cls,
        sc := none, express := false, stage := .staging, eport := p, esub := r.sub, chan := r.sub, outLen := f.len, secy := r.secy,
        clear := fld (takeId w).2 (0x060000 + 4 * p) 3 2 } (18 + p) r false (takeId w).2 := by
  unfold lineRx
  dsimp only
  rw [if_neg (by simp only [htrunk, hup, Bool.false_eq_true, Bool.true_eq_false, or_self, or_false]; omega), if_neg hmac, if_neg (by omega),
    if_neg (by simp [htakes]), if_neg hmka, htag]
  rw [if_neg (by simp), hres]
  dsimp only
  rw [if_neg (by simp [hptp]), hsc]
  rfl

theorem lineRx_badTag {g : SecTag} (htag : hasSecTag (countRx (18 + p) f u) p f = true) (hg : f.sec = some g) (hbad : badTag f g = true)
    (hfcs : f.fcsOk = true) : lineRx p f u = secyCount p 2 (countRx (18 + p) f u) := by
  unfold lineRx
  dsimp only
  rw [if_neg (by simp only [htrunk, hup, Bool.false_eq_true, Bool.true_eq_false, or_self, or_false]; omega), if_neg hmac, if_neg (by omega),
    if_neg (by simp [htakes]), if_neg hmka, htag, hg]
  simp only [if_true, Option.any_some, hbad, hfcs]

end

/-- Settles O37: each frame takes the branch its conditions name. -/
theorem framesArrive : Obligations.FramesArrive := by
  unfold Obligations.FramesArrive
  refine ⟨?_, ?_, ?_, ?_, ?_, ?_, ?_⟩
  · rintro t sp f s u _ r w _ _ hu hsp hex hup hmac hcmd rfl h64 hmax htakes hptp hgdoi hres hsc rfl rfl
    exact ev_next hu (clearRx_classified hsp hex hup hmac hcmd h64 hmax htakes hptp hgdoi hres hsc)
  · rintro t sp f s u _ hu hsp hex hup hmac hcmd rfl hlen
    exact ev_next hu (clearRx_badLength hsp hex hup hmac hcmd hlen)
  · exact fun h sp r s hdrop hsc hexp => clearChosen_bulk hdrop hsc hexp
  · exact fun h s hfit => if_neg (Nat.not_lt.mpr hfit)
  · exact fun h s hfull => if_pos hfull
  · rintro t p f s u _ r w _ _ hu hp htrunk hup hmac hmka rfl h64 hmax htakes htag hptp hres hsc rfl rfl
    exact ev_next hu (lineRx_classified hp htrunk hup hmac hmka h64 hmax htakes htag hptp hres hsc)
  · rintro t p f s u _ g hu hp htrunk hup hmac hmka rfl h64 hmax htakes htag hg hbad hfcs
    exact ev_next hu (lineRx_badTag hp htrunk hup hmac hmka h64 hmax htakes htag hg hbad hfcs)

/-! ## Frames in a brick -/

section
variable {id : Nat} {u : State} {h : Held} (hh : frameOf u id = some h)
include hh

theorem stagingRelease_parsed (hst : h.stage = .staging) (hfcs : h.frame.fcsOk = true) (hdrop : h.drop = none)
    (hfull : parserFull u h.brick h.sc = false) (hroom : bulkInUse u h.brick < 1472) (hmiss : h.missed = false) :
    stagingRelease id u = atContext id (updFrame id (fun x => { x with missed := false }) u) := by
  unfold stagingRelease
  rw [hh]
  dsimp only
  rw [if_neg (by simp [hst]), if_neg (by simp [hfcs]), if_neg (by simp [hdrop]),
    if_neg (by simp only [hfull, Bool.false_eq_true, false_or]; omega), hmiss]
  rfl

theorem contextFetched_waited {key : Nat} (hsc : h.sc = some key) (hst : h.stage = .miss)
    (hmiss : ((brick u h.brick).misses.take 8).contains key = true) : contextFetched id u =
      ((brick u h.brick).held.filter fun y => decide (y.stage = .miss) && decide (y.sc = some key)).foldl (fun s y => contextKnown y.id s)
        (setBrick h.brick { brick u h.brick with
          misses := (brick u h.brick).misses.filter (· ≠ key),
          cache := if 4096 < ((brick u h.brick).cache ++ [key]).length then ((brick u h.brick).cache ++ [key]).drop 1
            else (brick u h.brick).cache ++ [key] } u) := by
  unfold contextFetched
  rw [hh]
  dsimp only
  rw [hsc]
  dsimp only
  rw [if_neg (by simp only [hst, hmiss, ne_eq, not_true_eq_false, Bool.true_eq_false, or_self, not_false_eq_true])]

theorem bulkDispatch_first {k : Nat} (hst : h.stage = .dispatch)
    (hfirst : ∀ y ∈ (brick u h.brick).held, y.stage = .dispatch → h.disp ≤ y.disp) (hroom : bulkEntries u h.brick < 1472)
    (hdata : dataHeld u = false) (hk : nextTile u h.brick = some k) : bulkDispatch id u = dispatch h k u := by
  have hall : ((brick u h.brick).held.filter fun y => decide (y.stage = .dispatch)).all (fun y => decide (h.disp ≤ y.disp)) = true := by
    simpa [imp_iff_not_or] using hfirst
  unfold bulkDispatch
  rw [hh]
  dsimp only
  rw [hall, if_neg (by simp only [hst, hdata, ne_eq, not_true_eq_false, Bool.true_eq_false, Bool.false_eq_true, false_or, or_false]; omega), hk]

theorem laneStart_clear (hst : h.stage = .laneWait) (hfirst : behind u h = false) (hb : h.brick < 2) (hsc : h.sc = none) :
    laneStart id u = updFrame h.id (fun x => { x with stage := .tile, tile := some 0 }) u := by
  unfold laneStart
  rw [hh]
  dsimp only
  rw [if_neg (by simp [hst, hfirst]), if_pos hb, laneTx, hsc]

end

theorem dispatch_clear {h : Held} {k : Nat} {s : State} {c : Cells} (hsc : h.sc = none) (hsa : h.sa = none)
    (hc : admitCells { h with tagRes := some true } h.frame.len s = .inl c) : dispatch h k s =
      updFrame h.id (fun _ => { h with tagRes := some true, stage := .tile, tile := some k })
        (setBrick h.brick { brick (perf 4 1 (cellsOf c) { s with que := { s.que with cells := s.que.cells ++ [c] } }) h.brick with last := k }
          (perf 4 1 (cellsOf c) { s with que := { s.que with cells := s.que.cells ++ [c] } })) := by
  have hgive : dispatch h k s = giveTile { h with tagRes := some true } k h.frame.len s := by
    unfold dispatch
    split
    · rfl
    · rename_i hkey
      rw [hsc] at hkey
      cases hkey
  rw [hgive, giveTile, hc]
  dsimp only
  rw [hsa]

theorem reorderRelease_bulk {id : Nat} {u : State} {h : Held} (hh : [0, 1, 2, 3].findSome? (heldBy u · id) = some h)
    (hmay : mayRelease u h = true) (hbulk : h.express = false) (hgone : h.gone = false) : reorderRelease id u =
      { leaveBrick id u with que := { (leaveBrick id u).que with
        frames := (leaveBrick id u).que.frames ++ [{ h with stage := .queue, queuedAt := (leaveBrick id u).now }] } } := by
  unfold reorderRelease
  rw [hh]
  dsimp only
  rw [if_neg (by simp [hmay, awaitsHold, hbulk]), if_neg (by simp [hbulk, hgone])]

/-- Settles O38: each event takes the branch its conditions name. -/
theorem brickFramesAdvance : Obligations.BrickFramesAdvance := by
  unfold Obligations.BrickFramesAdvance
  refine ⟨?_, ?_, ?_, ?_, ?_, ?_, ?_, ?_, ?_⟩
  · exact fun t id s u h hu hh hst hfcs hdrop hfull hroom hmiss => ev_next hu (stagingRelease_parsed hh hst hfcs hdrop hfull hroom hmiss)
  · rintro t id s u h key _ _ hu hh hsc hst rfl hmiss rfl
    exact ev_next hu (contextFetched_waited hh hsc hst hmiss)
  · exact fun t id s u h k hu hh hst hfirst hroom hdata hk => ev_next hu (bulkDispatch_first hh hst hfirst hroom hdata hk)
  · rintro h k s c _ hsc hsa hc rfl
    exact dispatch_clear hsc hsa hc
  · exact fun t id s u h hu hh hst hfirst hb hsc => ev_next hu (laneStart_clear hh hst hfirst hb hsc)
  · exact fun t id s u hu => ev_next hu rfl
  · rintro t id s u h _ hu hh hmay hbulk hgone rfl
    exact ev_next hu (reorderRelease_bulk hh hmay hbulk hgone)
  · rintro t k s u _ hu hk hc hfree hprot rfl
    have htwo : (decide (k = 0) && protLine u) = false := by
      simpa using hprot
    refine ev_if (p := fun _ => k < 4) (f := roleSwitch k) hu hk ?_
    unfold roleSwitch
    dsimp only
    rw [hc]
    dsimp only
    rw [htwo, if_pos ⟨hfree, .inl rfl⟩]
    rfl
  · rintro t k s u _ hu hk0 hk hc hgone rfl
    refine ev_if (p := fun _ => k < 4) (f := roleSwitch k) hu hk ?_
    unfold roleSwitch
    dsimp only
    rw [hc]
    dsimp only
    rw [if_neg (by simpa using hgone), if_neg (by omega)]

end Sys2Proof.Machine

/-! SUPPORT. The trunk (10): course headers and keys, slots and units, its commands and performance seconds. -/
namespace Sys2Proof.Machine
open Sys2Proof

theorem trunk_setTrunk_same (p : Nat) (x : Trunk) (s : State) : trunk (setTrunk p x s) p = x := by
  unfold trunk setTrunk
  split <;> rfl

/-! ## Course headers and trunk keys -/

theorem headerTx_onGrid {p : Nat} {u : State} (hrun : framerRuns u p = true) (hstart : (trunk (sendGroup p u) p).started = true)
    (hjust : flag (sendGroup p u) (trkCfg p) 2 = false) {w : State}
    (hw : w = beginCourse p (((trunk (sendGroup p u) p).course + 1) % 64) 0 (setTrunk p { trunk (sendGroup p u) p with
      gridErr := (trunk (sendGroup p u) p).gridErr + (courseTime (sendGroup p u) p : Int) -
        unitTime (sendGroup p u) ((sendGroup p u).now - (trunk (sendGroup p u) p).lastDep)
      lastDep := (sendGroup p u).now } (sendGroup p u))) :
    headerTx p u = sendTrunk p ((courseHdr w p).wire (trkCompat w p)) (setTrunk p { trunk w p with bip := 0 } w) := by
  unfold headerTx
  rw [if_neg (by simp [hrun])]
  dsimp only
  generalize sendGroup p u = v at *
  generalize hx : trunk v p = x at *
  have hkeep : ∀ g l, { x with started := true, transient := x.transient, gridErr := g, lastDep := l } =
      ({ x with gridErr := g, lastDep := l } : Trunk) := by
    intro g l
    cases x
    cases hstart
    rfl
  simp only [hstart, hjust, Bool.not_true, Bool.false_eq_true, if_false, if_true, hkeep, zero_ne_one, Nat.reduceEqDiff, hw]

section
variable {p : Nat} {r : CourseRx} {u : State} (hp : p < 2) (htrunk : lpTrunk u p = true) (hup : (subPort u (18 + p)).link = true)
    (hboot : 8 ≤ u.boot.step) (hout : (trunk u p).inFrame = false)
include hp htrunk hup hboot hout

/-- A header looked for while out of frame (R285): it counts towards frame where it is whole and legal, and three in a row make frame. -/
theorem headerRx_sought {faw ok : Bool} {h : CourseHdr} (hh : soughtHeader (blockBytes r.blocks) = (faw, ok, h)) : headerRx p r u =
    if faw = false ∨ ((ok || trkCompat u p) && legalJust h.just) = false then setTrunk p { trunk u p with good := 0 } u
    else
      let n := if (trunk u p).good ≠ 0 ∧ h.course = (trunk u p).next then (trunk u p).good + 1 else 1
      let x := { trunk u p with good := n, next := (h.course + 1) % 64 }
      if 3 ≤ n then
        goodHeader p h r (setTrunk p { x with inFrame := true, inSince := u.now, errWords := 0, outSince := none, courseErr := false,
                                              badGroups := [] } u)
      else setTrunk p x u := by
  unfold headerRx
  rw [if_neg (by simp only [htrunk, hup, Bool.true_eq_false, false_or]; omega)]
  dsimp only
  rw [hout]
  simp only [Bool.false_eq_true, if_false, hh, if_true]

end

theorem advanceCount_ceiling {p ph : Nat} {u : State} {k : TrunkKey} (hk : look (trunk u p).keys ph = some k) (hfull : k.ceiling ≤ k.count)
    (hasked : k.asked = none) : advanceCount p ph u = requestCeil 6 (2 * p + ph) (k.ceiling + 2 ^ 20) (.trunkCeil p ph (k.ceiling + 2 ^ 20))
      (setTrunk p { trunk u p with keys := put (trunk u p).keys ph { k with asked := some (k.ceiling + 2 ^ 20) } } u) := by
  unfold advanceCount
  dsimp only
  rw [hk]
  exact if_pos ⟨hasked, by omega⟩

/-- Settles O40: each event takes the branch its conditions name. -/
theorem trunkHeadersRun : Obligations.TrunkHeadersRun := by
  unfold Obligations.TrunkHeadersRun
  refine ⟨?_, ?_, ?_, ?_, ?_, ?_, ?_, ?_, ?_, ?_, ?_⟩
  · rintro t p s u _ _ w hu hrun rfl rfl hstart hjust hw
    exact ev_next hu (headerTx_onGrid hrun hstart hjust hw)
  · rintro t p r s u _ ok h hu hp htrunk hup hboot rfl hout hh hok hjust hgood
    refine ev_next hu ((headerRx_sought hp htrunk hup hboot hout hh).trans ?_)
    rw [if_neg (by simp [hok, hjust]), hgood]
    rfl
  · rintro t p r s u _ ok h hu hp htrunk hup hboot rfl hout hh hok hjust hgood hnext
    refine ev_next hu ((headerRx_sought hp htrunk hup hboot hout hh).trans ?_)
    rw [if_neg (by simp [hok, hjust]), hgood, hnext]
    simp
  · rintro t p r s u _ ok h hu hp htrunk hup hboot rfl hout hh
    exact ev_next hu ((headerRx_sought hp htrunk hup hboot hout hh).trans (if_pos (.inl rfl)))
  · rintro t p s u _ hu hp rfl hrun hkey hconf
    exact ev_if (p := fun _ => p < 2) (f := engage p) hu hp (if_pos ⟨hrun, hkey, hconf⟩)
  · rintro t p s u _ ph hu hp rfl hph hkey
    exact ev_if (p := fun _ => p < 2) (f := phaseSwitch p) hu hp (by simp [phaseSwitch, hph, hkey])
  · rintro t p s u _ o hu hp rfl ho hrun
    exact ev_if (p := fun _ => p < 2) (f := phaseErase p) hu hp (by simp only [phaseErase, ho]; exact if_pos hrun)
  · rintro t p s u _ k hu hp rfl hk hfull hasked
    refine ev_if (p := fun _ => p < 2) (f := countCeiling p) hu hp ?_
    simp only [countCeiling, hk]
    exact (if_pos hfull).trans (advanceCount_ceiling hk hfull hasked)
  · rintro t p s u _ t0 hu hp htrunk rfl ht0 hlof hdue
    exact ev_next hu (by simp only [lofDeclare, ht0]; exact if_pos ⟨hp, htrunk, hlof, hdue⟩)
  · rintro t p s u _ hu hp rfl hlof hin hdue
    exact ev_next hu (if_pos ⟨hp, hlof, hin, hdue⟩)
  · intro t b r s u p ph hu hbus htr
    exact ev_next hu (by simp only [busDone, hbus, htr])

/-! ## Slots and units -/

theorem buildDirectory_data {p : Nat} {u v w k : State} {l : List (SlotOut × Bool)} {q : List SlotOut} (hrun : framerRuns u p = true)
    (hstart : (trunk u p).started = true) (hg : (trunk u p).dirGroup < 8) (hmask : (trunk u p).maskKeyed = true)
    (hv : v = setTrunk p { trunk (sendGroup p u) p with dirGroup := (trunk u p).dirGroup + 1 } (sendGroup p u)) (hpow : v.pwr.state = 0)
    (hl : namePositions p ((List.range (if (trunk u p).dirGroup = 7 then 30 else 31)).map (32 * (trunk u p).dirGroup + 2 + ·)) v = (l, w))
    (hk : k = sendTrunk p (slotWire w p (32 * (trunk u p).dirGroup + 1) (dirContent (l.map fun e => (e.1.path, e.2)))) w)
    (hq : q = (l.map (·.1)).flatMap fun o => if o.pos = 16 ∧ (trunk u p).just = 0xFF then []
      else if o.pos = 15 ∧ (trunk u p).just = 1 then [o, { pos := 256 }] else [o]) :
    buildDirectory p u = runOn p 0 (setTrunk p { trunk k p with group := q } k) := by
  unfold buildDirectory
  dsimp only
  rw [if_neg (by simp only [hrun, hstart, Bool.true_eq_false, false_or]; omega), ← hv,
    if_pos (decide_eq_true ⟨hmask, hpow⟩), if_pos (decide_eq_true ⟨hmask, hpow⟩), hl]
  dsimp only
  rw [← hk, ← hq]

theorem namePosition_idle {p pos : Nat} {s : State} (hfix : fixedAt (trunk s p) pos = none) (hjust : ¬ (pos = 16 ∧ (trunk s p).just = 0xFF))
    (hspill : (trunk s p).spill = []) (hpart : (trunk s p).partial_ = none) (hnext : nextUnit p s = none) :
    namePosition p pos s = (({ pos := pos }, false), s) := by
  unfold namePosition
  dsimp only
  rw [hfix]
  dsimp only
  rw [if_neg hjust, hspill]
  dsimp only
  rw [hpart]
  dsimp only
  rw [hnext]

theorem runStart_fits {p n : Nat} {u v : State} {y : TxUnit} (hrun : framerRuns u p = true) (hmask : (trunk u p).maskKeyed = true)
    (hidle : (trunk u p).runTx = none) (hfix : hasFixed (trunk u p) n = true) (hpow : u.pwr.state = 0) (hy : pathUnit p n u = some (y, v))
    (hlen : y.len ≤ 2068) : runStart p n u = runOn p (posNow v p) (setTrunk p { trunk v p with runTx := some y } v) := by
  simp only [runStart, hrun, hmask, hidle, hfix, hpow, hy, Bool.true_eq_false, Option.isSome_none, Bool.false_eq_true, ne_eq,
    not_true_eq_false, or_self, if_false, Nat.not_lt.mpr hlen]

theorem readUnit_noSlots {s : State} {p : Nat} {c : PathCfg} {y : UnitInfo} (h : y.at_ = []) : readUnit s p c y = .idle := by
  unfold readUnit
  rw [h]

theorem readUnit_noKey {s : State} {p : Nat} {c : PathCfg} {y : UnitInfo} (h : rxKey s p = none) : readUnit s p c y = .idle := by
  have hnone : rxContent s p y.at_ y.bytes = none := by rw [rxContent, h]; rfl
  unfold readUnit
  rw [hnone]
  split
  · rename_i heq
    cases heq
  · rfl

/-- Settles O41: each event takes the branch its conditions name. -/
theorem trunkUnitsRun : Obligations.TrunkUnitsRun := by
  unfold Obligations.TrunkUnitsRun
  refine ⟨?_, ?_, ?_, ?_, ?_, ?_, ?_, ?_, ?_, ?_, ?_, ?_, ?_⟩
  · rintro t p s u v _ w k l q hu hrun rfl hstart hg hmask - hv hpow hl hk hq
    exact ev_next hu (buildDirectory_data hrun hstart hg hmask hv hpow hl hk hq)
  · rintro p pos s _ rfl hfix hjust hspill hpart hnext
    exact namePosition_idle hfix hjust hspill hpart hnext
  · exact fun t p n s u v y hu hrun hmask hidle hfix hpow hy hlen => ev_next hu (runStart_fits hrun hmask hidle hfix hpow hy hlen)
  · rintro t p g bs s u _ _ _ hu hrec rfl rfl rfl
    exact ev_next hu (if_neg (by simp [hrec]))
  · intro t p n y s u c hu hrec hc hmode
    exact ev_next hu (by simp only [unitRx, hrec, hc, hmode, Bool.true_eq_false, ne_eq, not_true_eq_false, if_false] <;> rfl)
  · exact fun s p c y h => readUnit_noSlots h
  · exact fun s p c y h => readUnit_noKey h
  · intro t p n y s u c hu hrec hadd hc hmode htakes
    exact ev_next hu (by simp only [passUnit, hrec, hadd, hc, hmode, htakes, Bool.true_eq_false, Bool.false_eq_true, or_self, ne_eq,
      not_true_eq_false, if_false] <;> rfl)
  · rintro q y s _ hsink rfl hroom
    exact (if_neg (by simp [hsink])).trans (if_neg (Nat.not_lt.mpr hroom))
  · exact fun q y s hsink hfull => (if_neg (by simp [hsink])).trans (if_pos hfull)
  · exact fun t p n s u hu hp hdue hais => ev_next hu ((if_pos ⟨hp, hdue⟩).trans (if_pos hais))
  · intro t p n s u c hu hp hcfg hfault hadd hrun hc hmode
    exact ev_next hu (if_pos ⟨hp, hcfg, hfault, hadd, hrun, by rw [hc]; exact decide_eq_true hmode⟩)
  · exact fun t sp f s u hu hsp => ev_next hu (if_neg (by omega))

/-! ## Commands and performance seconds -/

section
variable {h : Hdr} {b : Body} {u : State} (hrole : standby u = false) (hphase : elemOf b 0x8704 = none)
include hrole hphase

theorem ansPathConfig_elems {v w : State} {r r' : Body} (hkeys : elemsOf b 0x8703 = [])
    (hv : applyElems applyTrunkElem (elemsOf b 0x8701) u = some (v, r)) (hw : applyElems applyPathElem (elemsOf b 0x8702) v = some (w, r')) :
    ansPathConfig h b u = .done (r ++ yieldReports b w (yieldPasses w))
      (mirror 8 (.path (appliedElems (settleFaults (yieldPasses w)) b)) (settleFaults (yieldPasses w))) := by
  simp [ansPathConfig, hrole, hv, hkeys, applyKeys, hw, hphase]

theorem ansPathConfig_key {v : State} {e : Elem} (h1 : elemsOf b 0x8701 = []) (h2 : elemsOf b 0x8702 = []) (hkeys : elemsOf b 0x8703 = [e])
    (hv : applyKeyElem h.world e.val u = .inl v) : ansPathConfig h b u =
      .waits (.trunkKeys (bit (decide (byteAt e.val 0 - 2 = 0)) + 2 * bit (decide (byteAt e.val 0 - 2 = 1))))
        (yieldReports b v (yieldPasses v))
        (mirror 8 (.path (appliedElems (settleFaults (yieldPasses v)) b)) (settleFaults (yieldPasses v))) := by
  simp [ansPathConfig, hrole, h1, h2, hkeys, applyElems, applyKeys, hv, hphase, eq_comm]

end

/-- Two states of a port agree in all that its PM mode and second read of it: the registers, and the paths of its trunk. -/
def SamePaths (p : Nat) (s t : State) : Prop := s.regs = t.regs ∧ (trunk s p).paths = (trunk t p).paths

namespace SamePaths
variable {p : Nat} {s t v : State}

theorem refl : SamePaths p s s := ⟨rfl, rfl⟩

theorem trans (h : SamePaths p s t) (h' : SamePaths p t v) : SamePaths p s v := ⟨h.1.trans h'.1, h.2.trans h'.2⟩

theorem rawMode_eq (h : SamePaths p s t) : rawMode s p = rawMode t p := by
  simp only [rawMode, lpTrunk, flag, regWord, h.1, h.2]

theorem setTrunk {x : Trunk} (h : x.paths = (trunk s p).paths) : SamePaths p (setTrunk p x s) s :=
  ⟨setTrunk_regs .., by rw [trunk_setTrunk_same, h]⟩

theorem rawCount (obj i n : Nat) : SamePaths p (rawCount p obj i n s) s := by
  unfold Machine.rawCount
  dsimp only
  split
  · exact refl
  · exact setTrunk rfl

theorem foldl {α : Type} {f : State → α → State} (hf : ∀ s a, SamePaths p (f s a) s) (l : List α) (s : State) :
    SamePaths p (l.foldl f s) s := by
  induction l generalizing s with
  | nil => exact refl
  | cons a l ih => exact (ih _).trans (hf s a)

end SamePaths

/-- The second of a port in PM_RAW mode (R311): the raw counts are latched with the second, no bins are kept. -/
theorem pmSecond_raw {p : Nat} {u : State} (hp : p < 2) (htrunk : lpTrunk u p = true) (htime : u.time.running = true) (hraw : rawMode u p = true)
    (hin : (trunk u p).inFrame = true) (hlof : (trunk u p).lof = false) : ∃ w, pmSecond p u =
      setTrunk p { trunk w p with pm := [], secCnt := [], rawLatch := (trunk w p).raw, rawSec := todSec u } w := by
  unfold pmSecond
  rw [if_neg (by simp only [htrunk, htime, Bool.true_eq_false, or_false]; omega)]
  generalize List.range 256 = l
  dsimp only
  rw [if_neg (by simp [hin, hlof])]
  generalize hs : List.foldl _ (List.foldl _ _ _) l = w
  have hw : SamePaths p w u := by
    rw [← hs]
    refine (SamePaths.foldl ?_ _ _).trans ((SamePaths.foldl ?_ _ _).trans ?_)
    · exact fun s a => .rawCount _ _ _
    · exact fun s a => .setTrunk rfl
    · exact (SamePaths.rawCount _ _ _).trans (.rawCount _ _ _)
  rw [hw.rawMode_eq, hraw]
  exact ⟨w, rfl⟩

/-- Settles O42: each command's meaning takes the branch its conditions name; a second in PM_RAW mode by `pmSecond_raw`. -/
theorem trunkCommandsComplete : Obligations.TrunkCommandsComplete := by
  unfold Obligations.TrunkCommandsComplete
  refine ⟨?_, ?_, ?_, ?_, ?_, ?_⟩
  · intro h b s u v w r r' y hs hu hrole hkeys hphase hv hw hy
    rw [hy]
    exact run_done hs hu (ansPathConfig_elems hrole hphase hkeys hv hw)
  · rintro ws s _ rfl hdir hkeys
    exact if_pos ⟨hdir, hkeys⟩
  · intro h b s u v e p y hs hu hrole h1 h2 hphase hkeys hp' _ hv hy
    subst hp'
    rw [hy]
    exact run_waits hs hu (ansPathConfig_key hrole hphase h1 h2 hkeys hv)
  · rintro h b s u _ _ _ hs hu rfl h2 rfl rfl
    exact run_done hs hu (if_pos h2)
  · rintro h b s u _ o _ hs hu rfl h0 rfl hraw hsec ho
    exact run_done hs hu (by simp [ansTrunkPmRead, h0, hraw, hsec, get, ho])
  · intro t p s u hu hp htrunk htime hraw hin hlof _
    obtain ⟨w, hw⟩ := pmSecond_raw hp htrunk htime hraw hin hlof
    refine ⟨_, ev_next hu hw, ?_⟩
    rw [trunk_setTrunk_same]
    exact ⟨rfl, rfl, rfl, rfl⟩

end Sys2Proof.Machine

/-! SUPPORT. Queues, shapers, gates and the egress of frames (11). -/
namespace Sys2Proof.Machine
open Sys2Proof

/-! ## The queue and gate commands -/

section
variable {b : Body} {u : State} {qs : List Nat} {rep : Body} (hq : queuesNamed b = (qs, rep))
include hq

theorem ansQueueConfig_limit {e : Elem} (he : elemOf b 0x0803 = some e) : ∃ r, ansQueueConfig b u =
    .done r (qs.foldl (fun s q => setQueue q { queueEntry s q with limit := max 1 ((wordAt e.val 0).bits 17 0) } s) u) := by
  simp only [ansQueueConfig, hq, he, limitApplied]
  exact ⟨_, rfl⟩

theorem ansQueueConfig_read (he : elemOf b 0x0803 = none) : ansQueueConfig b u =
    .done ((qs.take 256).map (fun q => elemW 0x0805 (queueWords u q ++ [w32 (queueCells u q), 0])) ++ rep) u := by
  simp only [ansQueueConfig, hq, he, List.append_nil]

theorem ansShaperSet_eq : ansShaperSet b u = .done
    (rep ++ reportElem 0x8804 1 (wordAt (wordsOf b 0x8804) 1) (boundsApplied (wordAt (wordsOf b 0x8804) 1)))
    (qs.foldl (fun s q => reshape q ((wordAt (wordsOf b 0x8804) 0).bits 23 0) (boundsApplied (wordAt (wordsOf b 0x8804) 1)) s) u) := by
  simp only [ansShaperSet, hq]

end

theorem reshape_changed {q rate : Nat} {v : Word} {s : State}
    (h : ¬ ((queueEntry s q).rate = rate ∧ (queueEntry s q).hi = v.bits 31 16 ∧ (queueEntry s q).lo = signedOf 16 (v.bits 15 0))) :
    reshape q rate v s = setQueue q { queueEntry s q with
      rate := rate, hi := v.bits 31 16, lo := signedOf 16 (v.bits 15 0), clampNext := true } s := by
  refine if_neg fun heq => h ?_
  rw [← heq]
  exact ⟨rfl, rfl, rfl⟩

/-- A commit whose base time is still ahead leaves the list pending until then. -/
theorem ansGclCommit_ahead {b : Body} {u : State} {base : Nat} (hbase : base = bytesNat (wordsOf b 0x880A) 0 8 % 2 ^ 40)
    (hahead : 0 < fastDiff base (fast u)) : ∃ r, ansGclCommit b u = .done (elemW 0x080B [w32 (base / 2 ^ 32), w32 base] :: r)
      (setEgress (gclEgress b) { egress u (gclEgress b) with
        pending := some {
          entries := (List.range (Legal.apply (.range 1 1024) 16 ((wordAt (wordsOf b 0x8809) 1).bits 31 16))).map (adminEntry (egress u (gclEgress b))),
          cycle := Legal.apply (.range 1000 1000000000) 32 (wordAt (wordsOf b 0x8809) 0).toNat, base := base,
          enable := (wordAt (wordsOf b 0x8809) 1).bit 8 }
        changeT := base, late := false } u) := by
  have hlate : decide (fastDiff base (fast u) ≤ 0) = false := decide_eq_false (Int.not_le.mpr hahead)
  simp only [ansGclCommit, ← hbase, hlate, Bool.false_eq_true, if_false]
  exact ⟨_, rfl⟩

/-- Settles O43: each command's meaning takes the branch its conditions name. -/
theorem queueCommandsComplete : Obligations.QueueCommandsComplete := by
  unfold Obligations.QueueCommandsComplete
  refine ⟨?_, ?_, ?_, ?_, ?_, ?_⟩
  · rintro h b s u e _ qs rep hs hu hq he rfl
    obtain ⟨r, hr⟩ := ansQueueConfig_limit hq he
    exact ⟨r, run_done hs hu hr⟩
  · exact fun h b s u qs rep hs hu hq he => run_done hs hu (ansQueueConfig_read hq he)
  · rintro h b s u _ qs rep hs hu hq rfl
    exact run_done hs hu (ansShaperSet_eq hq)
  · rintro q rate v s _ rfl h
    exact reshape_changed h
  · rintro h b s u _ _ _ hs hu rfl rfl rfl
    exact ⟨_, run_done hs hu rfl⟩
  · rintro h b s u _ _ _ base _ hs hu rfl rfl rfl hbase hahead rfl
    obtain ⟨r, hr⟩ := ansGclCommit_ahead hbase hahead
    exact ⟨r, run_done hs hu hr⟩

/-! ## The egress of frames -/

theorem foldl_fixed_of_mem {α β : Type} {f : α → β → α} {a : α} (l : List β) (h : ∀ x ∈ l, f a x = a) : l.foldl f a = a := by
  induction l with
  | nil => rfl
  | cons x l ih =>
    rw [List.foldl_cons, h x (List.mem_cons_self ..)]
    exact ih fun y hy => h y (List.mem_cons_of_mem _ hy)

theorem egressSelect_picks {sp : Nat} {u : State} {f : Held} (hsp : sp < 16) (hsink : sinks u sp = false) (hcan : canSend u sp = true)
    (hlong : ∀ h ∈ waitingAt u sp, tooLong u h = false) (hidle : (subPort u sp).tx = none)
    (hone : ∀ o ∈ oneStepsOf u sp, 0 < stampDiff u o.2.tRel) (hsus : (subPort u sp).suspended = none)
    (hf : pick u sp 0 (fun _ => true) = some f) : egressSelect sp u = startFrame sp u.now f u := by
  have hport := spPort_lt_two hsp
  have hnone : (oneStepsOf u sp).find? (fun o => decide (stampDiff u o.2.tRel ≤ 0)) = none := by simpa using hone
  unfold egressSelect
  dsimp only
  rw [if_neg (by omega), if_neg (by simp [hsink]), if_neg (by simp only [hcan, Bool.true_eq_false, or_false]; omega),
    foldl_fixed_of_mem _ fun h hin => if_neg (by simp [hlong h hin]), hidle]
  dsimp only
  rw [hnone]
  dsimp only
  rw [hsus, hf]
  rfl

theorem frameTxDone_whole {sp : Nat} {u : State} {x : TxFrame} {h : Held} (hx : (subPort u sp).tx = some x)
    (hdue : x.started + x.remain * byteTime u sp ≤ u.now) (hparts : x.parts = 0) (hh : frameOf u x.id = some h) : frameTxDone sp u =
      leaveQueues x.id (send (.fcs sp x.id (fcsOf (x.stomp || h.stomp) (onWire x.len h.out)))
        (countTx sp x.len h.frame.dst (x.stomp || h.stomp) (setSub sp { subPort u sp with tx := none } u))) := by
  simp only [frameTxDone, hx, Nat.not_lt.mpr hdue, if_false, hh, hparts, true_or, if_true]

/-- Where no frame is being sent a change of gate entry suspends nothing. -/
theorem gateChange_idle {e : Nat} {u : State} (hidle : ∀ sp ∈ spsOf e, (subPort u sp).tx = none) :
    gateChange e u = setEgress e { egress u e with entry := gateEntry (egress u e).oper (fast u) } u := by
  refine foldl_fixed_of_mem _ fun sp hsp => ?_
  have htx : (subPort (setEgress e { egress u e with entry := gateEntry (egress u e).oper (fast u) } u) sp).tx = none := hidle sp hsp
  rw [htx]

/-- A queue that waits gains its rate's share of a period, up to the upper bound (R325). -/
theorem shape_gains {x : Queue} (hrate : x.rate ≠ 0) (hclamp : x.clampNext = false) (hroom : x.credit < (x.hi : Int) * 65536) :
    shape true x = { x with
      credit := min ((x.hi : Int) * 65536) (x.credit + ((x.rate * 256 * 65536 + x.rem) / 10000000 : Nat)),
      rem := (x.rate * 256 * 65536 + x.rem) % 10000000, clampNext := false } := by
  simp only [shape, hclamp, Bool.false_eq_true, if_false, hrate, if_true, hroom]

/-- Settles O44: each event takes the branch its conditions name. -/
theorem egressRuns : Obligations.EgressRuns := by
  unfold Obligations.EgressRuns
  refine ⟨?_, ?_, ?_, ?_, ?_, ?_, ?_, ?_, ?_, ?_⟩
  · exact fun t sp s u f hu hsp hsink hcan hlong hidle hone hsus hf => ev_next hu (egressSelect_picks hsp hsink hcan hlong hidle hone hsus hf)
  · exact fun t sp s u hu hsp hsink => ev_next hu ((if_neg (by omega)).trans (if_pos hsink))
  · intro s sp d c h hnone hfind
    simp only [classPick, hnone, Option.filter_none, hfind]
  · intro s sp d c h hhold hmay
    simp only [classPick, hhold, Option.filter_some, hmay, if_true]
  · exact fun t sp s u x h hu hsp hx hdue hparts hh =>
      ev_if (p := fun _ => sp < 20) (f := frameTxDone sp) hu hsp (frameTxDone_whole hx hdue hparts hh)
  · intro t id s u h hu hh hgone hdue
    refine ev_next hu ?_
    simp only [frameAged, hh]
    exact if_neg (by simp only [hgone, Bool.false_eq_true, false_or]; omega)
  · exact fun t s u hu => ev_next hu rfl
  · exact fun x hrate hclamp hroom => shape_gains hrate hclamp hroom
  · intro t e s u hu he hidle
    exact ev_if (p := fun _ => e < 4) (f := gateChange e) hu he (gateChange_idle hidle)
  · exact fun t e s u hu he hdue => ev_if (p := fun _ => e < 4) (f := gclChange e) hu he (if_pos hdue)

end Sys2Proof.Machine

/-! SUPPORT. The bond (12): its commands and session, the lease, and the mirror. -/
namespace Sys2Proof.Machine
open Sys2Proof

/-! ## The bond commands and the session -/

/-- A device out of any bond joins one: a role preference other than 0 is applied as 1. -/
theorem joinBond_out {world : Nat} {ws : List Word} {u : State} {k : Key} (hkey : keyFor u world (wordAt ws 2).toNat [uDerive] mCore = .ok k)
    (hrole : u.bnd.role = 0) : ∃ r, joinBond world ws u = .done r (greet (setRole 2 0 (touchKey (wordAt ws 2).toNat { dropBond u with
      bnd := { (dropBond u).bnd with joined := true, bond := bytesNat ws 2 2, peer := bytesNat ws 4 2,
                                     secondary := decide (byteAt ws 1 ≠ 0), key := (wordAt ws 2).toNat } }))) := by
  have hpref : decide ((if byteAt ws 1 = 0 then 0 else 1) = 1) = decide (byteAt ws 1 ≠ 0) := by
    split <;> simp [*]
  unfold joinBond
  dsimp only
  rw [hkey, hpref]
  dsimp only
  rw [if_neg (c := u.bnd.role = 5) (by simp [hrole]), if_neg (c := u.bnd.role = 1) (by simp [hrole])]
  exact ⟨_, rfl⟩

theorem ansBondStatus_out {u : State} (hrole : u.bnd.role = 0) (hsync : u.bnd.inSync = false) (hre : u.bnd.resync = false) : ansBondStatus u =
    .done [elemW 0x0902 [liveWord u 0x0B0004, liveWord u 0x0B0008, w32 (u.bnd.acked / 2 ^ 32), w32 u.bnd.acked, w32 0]] u := by
  simp [ansBondStatus, standby, hrole, hsync, hre]

theorem acceptHello_first {m : BondRx} {u : State} (hopen : u.bnd.shaken = false) (hnonce : u.bnd.nonce ≠ none) (hnew : u.bnd.peerNonce = none) :
    acceptHello m u = settleRoles { u with bnd := { u.bnd with
      peerNonce := some (beNat (m.body.take 32)), peerRole := m.body.getD 32 0, peerPref := m.body.getD 33 0, shaken := true } } := by
  unfold acceptHello
  dsimp only
  rw [if_neg (by simp [hnew]), if_neg (by simp [hnonce, hopen])]

section
variable {m : BondRx} {u : State} (hhear : hears u m = true) (hjoin : u.bnd.joined = true) (hfits : helloFits u m = true)
include hhear hjoin hfits

theorem helloRx_good (htype : strangeType m = false) (hmac : bondMacOk u 1 m = true) (hform : m.format = 1) : helloRx m u = acceptHello m u := by
  simp [helloRx, hhear, hjoin, hfits, htype, hmac, hform]

theorem helloRx_unproved (hbad : strangeType m = true ∨ bondMacOk u 1 m = false) : helloRx m u = authFail (m.typ.getD 1) true m u := by
  simp [helloRx, hhear, hjoin, hfits, hbad]

end

/-- Settles O45: each command's and each event's meaning takes the branch its conditions name. -/
theorem bondSessions : Obligations.BondSessions := by
  unfold Obligations.BondSessions
  refine ⟨?_, ?_, ?_, ?_, ?_, ?_, ?_, ?_, ?_⟩
  · rintro h b s u _ k _ hs hu rfl hact hkey hrole rfl
    obtain ⟨r, hr⟩ := joinBond_out hkey hrole
    exact ⟨r, run_done hs hu (by simp only [ansBondConfig, hact, hr])⟩
  · intro h b s u hs hu hact hrole
    exact run_done hs hu (by simp only [ansBondConfig, hact]; exact if_neg hrole)
  · intro h b s u hs hu hact hrole
    exact run_done hs hu (by simp only [ansBondConfig, hact]; exact if_neg (by omega))
  · rintro h b s u _ hs hu hrole hsync rfl
    refine run_done hs hu ((if_pos ⟨hrole, hsync⟩).trans ?_)
    simp [resign, hrole, hsync, resignMask]
  · rintro h b s u _ hs hu hrole hsync hre rfl
    exact run_done hs hu (ansBondStatus_out hrole hsync hre)
  · intro t s u hu hmode hdown hjoin
    exact ev_next hu (by simp [linkChange, hmode, hdown, hjoin])
  · intro t s u hu hmode hup
    exact ev_next hu (by simp [linkChange, hmode, hup])
  · exact fun t m s u hu hhear hjoin hfits htype hmac hform hopen hnonce hnew =>
      ev_next hu ((helloRx_good hhear hjoin hfits htype hmac hform).trans (acceptHello_first hopen hnonce hnew))
  · exact fun t m s u hu hhear hjoin hfits hbad => ev_next hu (helloRx_unproved hhear hjoin hfits hbad)

/-! ## The lease -/

theorem leaseTx_renewed {u : State} (hrole : u.bnd.role = 1) (hshaken : u.bnd.shaken = true) (hmode : bondMode u ≠ 0) (hfirst : u.bnd.leaseAt = none)
    (hacked : u.bnd.leaseNo ≤ u.bnd.ackNo) : leaseTx u = sendBond 2 (u.bnd.leaseNo + 1) [bit u.bnd.inSync, 0, 0, 0, 0, 0, 0, 0] [] 3 { u with
      bnd := { u.bnd with leaseNo := u.bnd.leaseNo + 1, leaseAt := some u.now, dNow := fld u 0x0B0000 15 12,
                          leases := (u.bnd.leaseNo + 1, u.now) :: u.bnd.leases.filter fun e => decide (u.bnd.ackNo < e.1) } } := by
  have hlate : decide (u.bnd.ackNo < u.bnd.leaseNo) = false := decide_eq_false (Nat.not_lt.mpr hacked)
  unfold leaseTx
  rw [hfirst]
  dsimp only
  rw [if_neg (by simp [hrole, hshaken, hmode]), hlate]
  rfl

theorem leaseRx_standby {m : BondRx} {u : State} (hrole : 3 ≤ u.bnd.role) (hnew : u.bnd.lastLease < m.number) : leaseRx m u =
    sendBond 3 m.number [u.bnd.role, 0, 0, 0, 0, 0, 0, 0] [] 3 { u with
      bnd := { u.bnd with lastLease := m.number, tRx := u.now, dNow := fld u 0x0B0000 15 12 } } := by
  unfold leaseRx
  rw [if_neg (by omega)]
  dsimp only
  rw [if_neg (by omega)]

theorem leaseAckRx_prompt {m : BondRx} {u : State} {a : Nat} (hrole : u.bnd.role = 1) (hnew : u.bnd.ackNo < m.number)
    (hlast : m.number = u.bnd.leaseNo) (ha : u.bnd.leases.find? (fun e => decide (e.1 = m.number)) = some (m.number, a))
    (hpeer : m.body.getD 0 0 = 5) (hprompt : u.now ≤ a + 250 * us) : leaseAckRx m u = { u with bnd := { u.bnd with
      ackNo := m.number, slowRun := 0, tAck := max u.bnd.tAck a, leases := u.bnd.leases.filter fun e => decide (m.number < e.1) } } := by
  unfold leaseAckRx
  rw [if_neg (by omega), ha]
  dsimp only [Option.map_some, Option.getD_some]
  rw [if_pos hlast, if_neg (Nat.not_lt.mpr hprompt), if_neg fun h => h.2.1 hpeer]

theorem fence_active {cause note : Nat} {u : State} (hrole : u.bnd.role = 1) :
    fence cause note u = sendBond 11 0 [cause, 0, 0, 0, 0, 0, 0, 0] [] 3 (fenceOff cause note u) := if_neg (by simp [hrole])

theorem resignRx_first {typ cause : Nat} {m : BondRx} {u : State} (hfirst : u.bnd.acted.contains typ = false) (hrole : u.bnd.role = 5) :
    resignRx typ cause m u = takeover cause { u with bnd := { u.bnd with acted := typ :: u.bnd.acted } } :=
  (if_neg (by simp only [hfirst, Bool.false_eq_true, not_false_eq_true])).trans (if_pos hrole)

theorem resign_forced {cause : Nat} {u : State} (hrole : u.bnd.role = 1) : resign cause true u =
    sendBond 10 0 [cause, 0, 0, 0, 0, 0, 0, 0] [] 3 (record 0x0C02 (bondEvent cause 0 (fenceOff cause 4 u)) (fenceOff cause 4 u)) := by
  simp [resign, hrole]

/-! ## The mirror -/

theorem mirrorRx_one {m : BondRx} {u : State} {r : MirrorRec} (hrole : u.bnd.role = 5) (hbased : u.bnd.based = true) (hearly : u.bnd.early = [])
    (hr : m.recs = [r]) (hnew : u.bnd.applied < r.seq) : mirrorRx m u = absorb { u with bnd := { u.bnd with early := [r] } } := by
  simp [mirrorRx, hr, hrole, hbased, hearly, hnew]

theorem drainRecs_next {n : Nat} {r : MirrorRec} {s : State} (hearly : s.bnd.early = [r]) (hseq : r.seq = s.bnd.applied + 1) :
    drainRecs (n + 1) s = drainRecs n (applyRec r.body { s with bnd := { s.bnd with applied := r.seq, early := [] } }) := by
  simp [drainRecs, hearly, hseq]

theorem retransmit_one {u : State} {x : MirrorMsg} (hon : mirrorOn u = true) (hmode : bondMode u ≠ 0) (hx : u.bnd.unacked = [x])
    (hdue : x.sent + 50 * us ≤ u.now) {v : State} (hv : v = { u with bnd := { u.bnd with unacked := [{ x with sent := u.now }] } }) :
    retransmit u = bump 0x0B001C 1 (sendBond 4 ((x.recs.head?.map (·.seq)).getD x.last) [] x.recs (mirrorLane v) v) := by
  subst hv
  simp [retransmit, hon, hmode, hx, hdue]

/-- Settles O46: each event takes the branch its conditions name. -/
theorem leaseAndMirrorRun : Obligations.LeaseAndMirrorRun := by
  unfold Obligations.LeaseAndMirrorRun
  refine ⟨?_, ?_, ?_, ?_, ?_, ?_, ?_, ?_, ?_, ?_, ?_, ?_, ?_, ?_, ?_, ?_, ?_, ?_, ?_⟩
  · rintro t s u _ hu hrole hshaken hmode hfirst hacked rfl
    exact ev_next hu (leaseTx_renewed hrole hshaken hmode hfirst hacked)
  · exact fun t m s u hu ht hrole hnew => ev_next hu ((underMac_trusted ht).trans (leaseRx_standby hrole hnew))
  · exact fun t m s u a hu ht hrole hnew hlast ha hpeer hprompt =>
      ev_next hu ((underMac_trusted ht).trans (leaseAckRx_prompt hrole hnew hlast ha hpeer hprompt))
  · rintro t s u _ hu hbind hrole hdue rfl
    exact ev_next hu ((if_pos ⟨hbind, hdue⟩).trans (fence_active hrole))
  · exact fun t s u hu hrole hdue => ev_next hu (if_pos ⟨hrole, hdue⟩)
  · rintro t s u rfl hrole
    exact congrArg Host.Outcome.next ((if_pos rfl).trans (if_pos hrole))
  · rintro t q s u rfl hq
    exact congrArg Host.Outcome.next (if_neg hq)
  · exact fun t m s u hu ht hfirst hrole => ev_next hu ((underMac_trusted ht).trans (resignRx_first hfirst hrole))
  · exact fun t m s u hu ht hfirst hrole => ev_next hu ((underMac_trusted ht).trans (resignRx_first hfirst hrole))
  · rintro t s u _ rfl hhalt hrole rfl
    have hholds : resignHolds (tick t s) 2 = some true := if_pos hhalt
    refine congrArg Host.Outcome.next ?_
    dsimp only
    rw [hholds]
    exact resign_forced hrole
  · exact fun t m s u r hu ht hrole hbased hearly hr hnew => ev_next hu ((underMac_trusted ht).trans (mirrorRx_one hrole hbased hearly hr hnew))
  · exact fun n r s hearly hseq => drainRecs_next hearly hseq
  · exact fun t m s u hu ht hrole hnew => ev_next hu ((underMac_trusted ht).trans (if_neg (by omega)))
  · exact fun t s u x hu hon hmode hx hdue => ⟨_, rfl, ev_next hu (retransmit_one hon hmode hx hdue rfl)⟩
  · intro t s u g hu hg hdue hrole
    exact ev_next hu (by simp [gapTimeout, hg, hdue, loseSync, hrole])
  · intro t m s u hu ht hrole
    exact ⟨_, ev_next hu ((underMac_trusted ht).trans (if_neg (by simp [hrole])))⟩
  · exact fun t m s u hu ht hrole => ev_next hu ((underMac_trusted ht).trans (if_neg (by simp [hrole])))
  · rintro t m s u _ hu ht hrole hre rfl
    exact ev_next hu ((underMac_trusted ht).trans (if_neg (by simp [hrole, hre])))
  · rintro t m s u _ hu ht hrole rfl
    exact ev_next hu ((underMac_trusted ht).trans (if_pos hrole))

end Sys2Proof.Machine

/-! SUPPORT. Keys, dual control (13) and the commands of the Vault's engines (14). -/
namespace Sys2Proof.Machine
open Sys2Proof

/-! ## What a command of the Vault goes through first -/

theorem withKey_ok {r : KeyRes} {k : Key} {f : Key → Ans} (h : r = .ok k) : withKey r f = f k := by rw [h]; rfl

theorem withDrbg_live {f : State → Ans} {u : State} (hdrbg : drbgOut u = false) (hstart : u.eng.startup = false) :
    withDrbg f u = f (drbgUse u) := by simp [withDrbg, hdrbg, hstart]

theorem brief_slot {e world : Nat} {f : State → Ans} {u v : State} (hout : engineOut u e = false) (hslot : takeSlot world u = some v) :
    brief e world f u = f v := by simp [brief, hout, hslot]

theorem storeNow_stored {ty us : Word} {owner x n : Nat} {rest : Body} {v w : State} (h : storeValue ty us owner x v = some (w, n)) :
    storeNow ty us owner x rest v = .done (elemW 0x8A02 [w32 n] :: rest) w := by rw [storeNow, h]

/-! ## The key commands (R383, R384, R391) -/

section
variable {h : Hdr} {b : Body} {u : State}

section
variable {ty us : Word} {rep : Body} {x : Nat} {y : State}
    (hattr : attrsFor u h.world true (wordAt (wordsOf b 0x8A01) 0) (wordAt (wordsOf b 0x8A01) 1) = some (ty, us, rep))
    (happ : notApproved u ty us = false) (hdrbg : drbgOut u = false) (hstart : u.eng.startup = false)
    (hdraw : drawBits (ty.bits 15 0) (reseed0 (drbgUse u)) = (x, y))
include hattr happ hdrbg hstart hdraw

theorem ansKeyGenerate_drawn {v w : State} {n : Nat} (hgen : generateCycles (ty.bits 31 24) = none) (hout : engineOut y 3 = false)
    (hslot : takeSlot h.world y = some v) (hstore : storeValue ty us h.world x v = some (w, n)) :
    ansKeyGenerate h b u = .done (elemW 0x8A02 [w32 n] :: rep) w := by
  simp only [ansKeyGenerate, hattr, happ, Bool.false_eq_true, if_false, withDrbg_live hdrbg hstart, hdraw, hgen, brief_slot hout hslot,
    storeNow_stored hstore]

theorem ansKeyGenerate_made {e c p : Nat} {r : Body} (hgen : generateCycles (ty.bits 31 24) = some (e, c)) (hprio : prioOf y h.world b = (p, r)) :
    ansKeyGenerate h b u = submit { engine := e, work := if isRsa (ty.bits 31 24) then 1 else 0, prio := p, world := h.world, cycles := c,
                                    result := .key ty us h.world x (publicElem (ty.bits 31 24) x :: rep ++ r) } y := by
  simp only [ansKeyGenerate, hattr, happ, Bool.false_eq_true, if_false, withDrbg_live hdrbg hstart, hdraw, hgen, hprio]

end

theorem ansKeyImport_valid {ty us own ty' us' : Word} {x n : Nat} {k : Key} {rep : Body} {v w : State}
    (hkey : keyFor u h.world (wordAt (wordsOf b 0x8A04) 0).toNat [uUnwrap] mCmd = .ok k) (halg : k.alg = 2)
    (hcode : algCodes.contains (ty.bits 31 24) = true) (hel : hasElem b 0x8A01 = false)
    (hattr : attrsFor u h.world false ty us = some (ty', us', rep)) (happ : notApproved u ty' us' = false)
    (hout : engineOut (touchKey (wordAt (wordsOf b 0x8A04) 0).toNat u) 2 = false)
    (hslot : takeSlot h.world (touchKey (wordAt (wordsOf b 0x8A04) 0).toNat u) = some v) (hstore : storeValue ty' us' h.world x v = some (w, n)) :
    ansKeyImport h b true true ty us own x u = .done (elemW 0x8A02 [w32 n] :: (importReports ty own ty' h.world ++ rep)) w := by
  simp only [ansKeyImport, withKey_ok hkey, halg, ne_eq, not_true_eq_false, Bool.true_eq_false, if_false, hcode, or_self, hel,
    Bool.false_eq_true, hattr, happ, brief_slot hout hslot, storeNow_stored hstore]

theorem ansKeyExport_allowed {k x : Key} {v : State} (hkey : keyFor u h.world (wordAt (wordsOf b 0x8A02) 0).toNat [] mCmd = .ok k)
    (hwrap : keyFor u h.world (wordAt (wordsOf b 0x8A04) 0).toNat [uWrap] mCmd = .ok x) (huse : k.use.bit 6 = true) (halg : x.alg = 2)
    (hout : engineOut u 2 = false) (hslot : takeSlot h.world u = some v) : ansKeyExport h b u =
      .done [{ typ := 0x8A05, len := (12 + materialLen k.alg + 7) / 8 * 8 + 8,
               val := Config.kwp x.value (unpack k.record ++ Config.material k.alg k.value) }]
        (touchKey (wordAt (wordsOf b 0x8A04) 0).toNat (touchKey (wordAt (wordsOf b 0x8A02) 0).toNat v)) := by
  simp only [ansKeyExport, withKey_ok hkey, withKey_ok hwrap, huse, halg, ne_eq, not_true_eq_false, Bool.true_eq_false, or_self, if_false,
    brief_slot hout hslot]

theorem ansKeyErase_named {k : Key} (hkey : keyNamed u h.world (wordAt (wordsOf b 0x8A02) 0).toNat = .ok k) : ansKeyErase h b u =
    if keyIdle u (wordAt (wordsOf b 0x8A02) 0).toNat then .done [] (eraseKey (wordAt (wordsOf b 0x8A02) 0).toNat u)
    else .wait (.keyErase (wordAt (wordsOf b 0x8A02) 0).toNat) (setKey (wordAt (wordsOf b 0x8A02) 0).toNat { k with erasing := true } u) :=
  withKey_ok hkey

end

/-- A job that names no key goes to the units of the Kiln. -/
theorem submit_kiln {j : Job} {s v : State} (hout : engineOut s j.engine = false) (hslot : takeSlot j.world s = some v) (hkey : j.key = none)
    (hkey2 : j.key2 = none) (heng : j.engine = 0) : submit j s = .wait (.job v.eng.nextJob) (fillUnits 0 { v with
      eng := { v.eng with nextJob := v.eng.nextJob + 1, jobs := put v.eng.jobs v.eng.nextJob j } }) := by
  unfold submit
  rw [hout, hslot]
  dsimp only
  rw [hkey, hkey2, heng]
  rfl

/-- Settles O47: each command's meaning takes the branch its conditions name. -/
theorem keyCommandsComplete : Obligations.KeyCommandsComplete := by
  unfold Obligations.KeyCommandsComplete
  refine ⟨?_, ?_, ?_, ?_, ?_, ?_, ?_, ?_, ?_, ?_⟩
  · exact fun h b s u ty us rep x y v w n hs hu hattr happ hdrbg hstart hgen hdraw hout hslot hstore =>
      run_done hs hu (ansKeyGenerate_drawn hattr happ hdrbg hstart hdraw hgen hout hslot hstore)
  · exact fun h b s u ty us rep a c e x y v p r hs hu hattr happ hdrbg hstart hgen hdraw hprio hsub =>
      run_wait hs hu ((ansKeyGenerate_made hattr happ hdrbg hstart hdraw hgen hprio).trans hsub)
  · rintro j s _ v hout hslot hkey hkey2 heng rfl
    exact submit_kiln hout hslot hkey hkey2 heng
  · exact fun h b ty us own x s u k ty' us' rep v w n hs hu hkey halg hcode hel hattr happ hout hslot hstore =>
      run_done hs hu (ansKeyImport_valid hkey halg hcode hel hattr happ hout hslot hstore)
  · rintro h b s u _ _ k x v hs hu rfl rfl hkey hwrap huse halg hout hslot
    exact run_done hs hu (ansKeyExport_allowed hkey hwrap huse halg hout hslot)
  · rintro h b s u _ k hs hu rfl hkey hidle
    exact run_done hs hu ((ansKeyErase_named hkey).trans (if_pos hidle))
  · rintro h b s u _ k hs hu rfl hkey hbusy
    exact run_wait hs hu ((ansKeyErase_named hkey).trans (if_neg (by simp [hbusy])))
  · intro h b s u hs hu hkind hdrbg hstart
    exact run_done hs hu ((if_pos hkind).trans (withDrbg_live hdrbg hstart))
  · exact fun k n hsym => if_pos hsym
  · exact fun k n hasym => if_neg (by simp [hasym])

/-! ## Dual control (R386 to R398) -/

theorem dual_ticket {opcode : Nat} {h : Hdr} {b : Body} {f : Nat → Nat → State → Ans} {u : State} {i : Nat} {l : List Nat}
    (ht : ticketsFor opcode 1 h b u = some (i :: l)) : dual opcode h b f u = f (credOf u h.session) i (useTickets b u) := by
  rw [dual, ht]

section
variable {h : Hdr} {b : Body} {u : State}

theorem ansDualAuthorise_officer {o id : Nat} {v : State} (ho : officerOf u h.session = some o) (hroom : u.keys.tickets.length < 16)
    (hdraw : drawBits 32 u = (id, v)) : ansDualAuthorise h b u = .done [elemW 0x8A0A [w32 id]]
      (record 0x0D04 ([o, 0] ++ beBytes 2 (bytesNat (wordsOf b 0x8A0D) 0 2) ++ beBytes 4 id) { v with
        keys := { v.keys with tickets := v.keys.tickets ++ [{
          id := id, issuer := o, opcode := bytesNat (wordsOf b 0x8A0D) 0 2,
          digest := (List.range 12).map fun i => wordAt (wordsOf b 0x8A0D) (1 + i), issued := v.now }] } }) := by
  simp only [ansDualAuthorise, ho, Nat.not_le.mpr hroom, if_false, hdraw]

section
variable {i : Nat} {l : List Nat}

theorem ansLifecycleChange_legal (ht : ticketsFor 0x0A05 1 h b u = some (i :: l))
    (htrans : transition (useTickets b u).keys.life (wordAt (wordsOf b 0x8A09) 0).toNat = true)
    (hoff : ¬ ((wordAt (wordsOf b 0x8A09) 0).toNat = 1 ∧ (useTickets b u).keys.life = 0 ∧ cryptoOfficers (useTickets b u) < 2))
    (hfips : (useTickets b u).keys.inForce = false) {w : State}
    (hw : w = startOp 0x0A05 h.world h.mailbox h.tag (useTickets b u)) : ansLifecycleChange h b u =
      .prog [opIdElem (nextOp (useTickets b u))] { w with
        keys := { w.keys with changing := true, changePending := true, changeRec := (w.keys.life, credOf u h.session, i) }
        boot := { w.boot with
          flashCode := (wordAt (wordsOf b 0x8A09) 0).toNat, flashCount := w.boot.bbdCount + 1,
          flashMac := some (lifeMac w (wordAt (wordsOf b 0x8A09) 0).toNat (w.boot.bbdCount + 1)), warmAt := some (w.now + ms) } } := by
  subst hw
  unfold ansLifecycleChange
  dsimp only
  rw [dual_ticket ht, if_neg (by simp [htrans]), if_neg hoff, if_neg (by simp [hfips])]

theorem ansOfficerEnrol_free (hboot : isBootstrap u h.session = false) (ht : ticketsFor 0x0A06 1 h b u = some (i :: l))
    (hfree : has (useTickets b u).keys.officers (byteAt (wordsOf b 0x8A0B) 0) = false) {v : State} (hv : v = useTickets b u) :
    ansOfficerEnrol h b u = .done [] (record 0x0D02
      [byteAt (wordsOf b 0x8A0B) 0, byteAt (wordsOf b 0x8A0B) 1, credOf u h.session, i]
      { v with keys := { v.keys with officers := put v.keys.officers (byteAt (wordsOf b 0x8A0B) 0) {
        role := byteAt (wordsOf b 0x8A0B) 1, cred := wordsOf b 0x8A0B,
        mac := hmac384 (beBytes 32 (kRecord v)) (unpack (wordsOf b 0x8A0B)) } } }) := by
  subst hv
  simp only [ansOfficerEnrol, hboot, Bool.false_eq_true, if_false, dual_ticket ht, enrol, hfree]

theorem ansOfficerRevoke_left {v w : State} {o : Officer} {id : Nat} (ht : ticketsFor 0x0A07 1 h b u = some (i :: l))
    (hid : id = (wordAt (wordsOf b 0x8A0C) 0).toNat) (hv : v = useTickets b u) (ho : look v.keys.officers id = some o)
    (hw : w = { v with keys := { v.keys with
      officers := del v.keys.officers id, tickets := v.keys.tickets.filter fun t => decide (t.issuer ≠ id) } })
    (hleft : v.keys.life = 0 ∨ 2 ≤ cryptoOfficers w) : ansOfficerRevoke h b u =
      .done [] (endCred (.officer id) h.mailbox h.tag (record 0x0D03 [id, o.role, credOf u h.session, i] w)) := by
  unfold ansOfficerRevoke
  dsimp only
  rw [dual_ticket ht, ← hv, ← hid, ho]
  dsimp only
  rw [← hw, if_neg (by omega)]

end

theorem ansDebugEnable_two {i j : Nat} (ht : ticketsFor 0x0A09 2 h b u = some [i, j]) (hfuse : u.boot.debugFused = false)
    (hlife : u.keys.life = 3) {v : State} (hv : v = zeroiseSas (zeroiseKeys (abortJobs (fun _ => true) stNotFound (useTickets b u)))) :
    ansDebugEnable h b u = .done [] (settleApproved (record 0x0D05
      [credOf u h.session, i, j, (wordAt (wordsOf b 0x8A0E) 0).bits 1 0]
      { v with keys := { v.keys with debugOpen := true, debugScope := (wordAt (wordsOf b 0x8A0E) 0).bits 1 0 } })) := by
  unfold ansDebugEnable
  rw [ht]
  dsimp only
  rw [← hv, if_neg (by simp [hfuse, hlife])]

end

/-- A ticket that serves is one held, of its age, command, elements and issuer (R395). -/
theorem ticketOk_some {s : State} {opc id : Nat} {dig : List Word} {own : Option Nat} {t : Ticket} (h : ticketOk s opc dig own id = some t) :
    t ∈ s.keys.tickets ∧ t.id = id ∧ s.now ≤ t.issued + 120 * sec ∧ t.opcode = opc ∧ t.digest = dig ∧ own ≠ some t.issuer := by
  unfold ticketOk at h
  split at h
  · rename_i x hx
    obtain ⟨⟨hage, hop, hdig, hown, -⟩, heq⟩ := Option.ite_none_right_eq_some.mp h
    cases heq
    exact ⟨List.mem_of_find?_eq_some hx, by simpa using List.find?_some hx, hage, hop, hdig, hown⟩
  · cases h

/-- Settles O48: each command's meaning takes the branch its conditions name; what a good ticket is by `ticketOk_some`. -/
theorem dualControlCompletes : Obligations.DualControlCompletes := by
  unfold Obligations.DualControlCompletes
  refine ⟨?_, ?_, ?_, ?_, ?_, ?_, ?_⟩
  · exact fun h b s u o id v hs hu ho hroom hdraw => run_done hs hu (ansDualAuthorise_officer ho hroom hdraw)
  · rintro h b s u _ l i _ w hs hu rfl ht rfl htrans hoff hfips hw
    exact run_prog hs hu (ansLifecycleChange_legal ht htrans hoff hfips hw)
  · rintro h b s u l i _ v hs hu hboot ht rfl hv hfree
    exact run_done hs hu (ansOfficerEnrol_free hboot ht (by rw [← hv]; exact hfree) hv)
  · exact fun h b s u l i id v o w hs hu ht hid hv ho hw hleft => run_done hs hu (ansOfficerRevoke_left ht hid hv ho hw hleft)
  · rintro h b s u i j v _ hs hu ht hfuse hlife rfl hv
    exact run_done hs hu (ansDebugEnable_two ht hfuse hlife hv)
  · exact fun t n s u hu => ev_next hu rfl
  · exact fun opc dig own id s t h => ticketOk_some h

/-! ## The engine commands (R401, R402, R410 to R425) -/

section
variable {h : Hdr} {b : Body} {u : State} {k : Key}

section
variable (hsc : schemeOf b < 8) (hkey : keyFor u h.world (wordAt (wordsOf b 0x8A02) 0).toNat [uSign] mCmd = .ok k)
    (hfits : schemeFits (schemeOf b) k.alg = true)
include hsc hkey hfits

theorem ansSign_job : ansSign h b u =
    if signDraws (schemeOf b) then withDrbg (signJob h b k.alg (wordAt (wordsOf b 0x8A02) 0).toNat) u
    else signJob h b k.alg (wordAt (wordsOf b 0x8A02) 0).toNat u := by
  have hkey' : keyFor u h.world (wordAt (wordsOf b 0x8A02) 0).toNat [if 8 ≤ schemeOf b then uMac else uSign] mCmd = .ok k := by
    rw [if_neg (by omega)]; exact hkey
  refine (withKey_ok hkey').trans ?_
  rw [if_neg (by simp [hfits]), if_neg (by omega)]

end

theorem ansVerify_handle {vd : Bool} {bad : InputCheck} {p : Nat} {r : Body}
    (hpeer : elemOf b 0x8B06 = none) (hsc : schemeOf b < 8) (hkey : keyFor u h.world (wordAt (wordsOf b 0x8A02) 0).toNat [uVerify] mCmd = .ok k)
    (hfits : schemeFits (schemeOf b) k.alg = true) (hcurve : isCurve k.alg = false)
    (hlen : (elemOf b 0x8B04).map (·.len) = some (signatureLen k.alg (algBits k.alg / 8))) (hprio : prioOf u h.world b = (p, r)) :
    ansVerify h b vd bad u =
      submit { engine := (verifyCycles k.alg (algBits k.alg / 8 / 8)).1, key := some (wordAt (wordsOf b 0x8A02) 0).toNat, prio := p, world := h.world,
               cycles := (verifyCycles k.alg (algBits k.alg / 8 / 8)).2,
               bad := if (verifyCycles k.alg (algBits k.alg / 8 / 8)).1 = 0 then checkStatus k.alg bad else 0,
               result := .reply (elemW 0x0B07 [w32 (bit vd)] :: r) } u := by
  obtain ⟨e, he, hlen⟩ := Option.map_eq_some_iff.mp hlen
  unfold ansVerify
  simp only [peerOf, hpeer, Option.map_none, withKey_ok hkey, Nat.not_le.mpr hsc, if_false, hcurve, Bool.false_and, Bool.false_eq_true,
    verifyUnder, hfits, Bool.true_eq_false, he, hlen, ne_eq, not_true_eq_false, hprio]

theorem ansKemEncap_handle {ty us : Word} {rep r : Body} {w : State} {p x z : Nat} {c : List Word} (hblocks : hasElem b 0x8B0C = false)
    (hpeer : elemOf b 0x8B06 = none) (hkey : keyFor u h.world (wordAt (wordsOf b 0x8A02) 0).toNat [uEncrypt] mCmd = .ok k)
    (hkem : isMlKem k.alg = true) (hattr : secretAttrs u h.world b = some (ty, us, rep)) (hdrbg : drbgOut u = false)
    (hstart : u.eng.startup = false) (hprio : prioOf (drbgUse u) h.world b = (p, r)) (hdraw : drawBits 256 (drbgUse u) = (x, w))
    (hc : Config.kemEncap (Config.publicKey k.alg k.value) x = (c, z)) : ansKemEncap h b .ok u =
      submit { engine := 1, key := some (wordAt (wordsOf b 0x8A02) 0).toNat, prio := p, world := h.world, cycles := encapCycles k.alg, bad := 0,
               result := .key ty us h.world z ({ typ := 0x0B09, len := ciphertextLen k.alg, val := c } :: rep ++ r) } w := by
  simp only [ansKemEncap, hblocks, Bool.false_eq_true, if_false, peerOf, hpeer, Option.map_none, withKey_ok hkey, encapTo, hkem,
    Bool.true_eq_false, hattr, withDrbg_live hdrbg hstart, hprio, hdraw, hc, if_true]

theorem ansKemDecap_handle {ty us : Word} {rep r : Body} {p : Nat} (hblocks : hasElem b 0x8B0C = false)
    (hkey : keyFor u h.world (wordAt (wordsOf b 0x8A02) 0).toNat [uDecrypt] mCmd = .ok k) (hkem : isMlKem k.alg = true)
    (hlen : (elemOf b 0x8B08).map (·.len) = some (ciphertextLen k.alg)) (hattr : secretAttrs u h.world b = some (ty, us, rep))
    (hprio : prioOf u h.world b = (p, r)) : ansKemDecap h b u =
      submit { engine := 1, key := some (wordAt (wordsOf b 0x8A02) 0).toNat, prio := p, world := h.world, cycles := decapCycles k.alg,
               result := .key ty us h.world (Config.kemDecap k.alg k.value (wordsOf b 0x8B08)) (rep ++ r) } u := by
  simp only [ansKemDecap, hblocks, Bool.false_eq_true, if_false, withKey_ok hkey, hkem, Bool.true_eq_false, hlen, ne_eq, not_true_eq_false,
    hattr, hprio]

theorem isCurve_ne_x25519 {a : Nat} (h : isCurve a = true) : a ≠ 0x13 := by
  rintro rfl
  simp [isCurve] at h

theorem ansKeyAgree_curve {ty us : Word} {rep r : Body} {p : Nat} {bad : InputCheck} (hkem : elemOf b 0x8B0A = none)
    (hkey : keyFor u h.world (wordAt (wordsOf b 0x8A02) 0).toNat [uDerive] mCmd = .ok k) (hcurve : isCurve k.alg = true)
    (hpeer : (peerOf b).map (·.1) = some k.alg) (hsym : isSymmetric (byteAt (wordsOf b 0x8A01) 0) = true)
    (hattr : attrsFor u h.world false (wordAt (wordsOf b 0x8A01) 0) (wordAt (wordsOf b 0x8A01) 1) = some (ty, us, rep))
    (hprio : prioOf u h.world b = (p, r)) : ansKeyAgree h b bad u =
      submit { engine := 0, key := some (wordAt (wordsOf b 0x8A02) 0).toNat, key2 := none, prio := p, world := h.world, cycles := agreeCycles k.alg,
               bad := if bad = .point then stPoint else 0, result := .key ty us h.world (agreedValue k none ty b) (rep ++ r) } u := by
  simp only [ansKeyAgree, hkem, Option.map_none, withKey_ok hkey, hcurve, Bool.true_or, Bool.true_eq_false, hpeer, ne_eq, not_true_eq_false,
    hsym, or_self, if_false, isCurve_ne_x25519 hcurve, false_and, and_false, hattr, hprio]

theorem ansHash_words {v : State} {m : Elem} (hout : engineOut u 3 = false) (hslot : takeSlot h.world u = some v) (hm : elemOf b 0x8B02 = some m)
    (hcont : ¬ (hashAlg b = 1 ∧ hashFinal b = true ∧ hasElem b 0x8B0F = false)) : ansHash h b u =
      .done [elemW (if hashFinal b then 0x0B11 else 0x0B10) ((List.range (if hashFinal b then digestLen (hashAlg b) / 4 else 64)).map
        (Config.hashWord (hashAlg b) (wordsOf b 0x8B0F) m.len m.val (hashFinal b)))] v := by
  simp only [ansHash, hm, Option.getD_some, brief_slot hout hslot, hcont, if_false]

theorem ansDrbgRead_default {v w : State} {e : Elem} (hn : elemOf b 0x0B12 = none) (hdrbg : drbgOut u = false) (hstart : u.eng.startup = false)
    (hslot : takeSlot h.world (drbgUse u) = some v) (he : drawElem 0x0B13 32 v = (e, w)) : ansDrbgRead h b u = .done [e] w := by
  simp only [ansDrbgRead, hn, withDrbg_live hdrbg hstart, brief_slot (e := 4) rfl hslot, he]

theorem ansVciPageAssign_free (hnone : byteAt (wordsOf b 0x8B14) 1 ≠ 0xFF) (htenant : has u.dks.tenants (byteAt (wordsOf b 0x8B14) 1) = true)
    (hfree : has u.eng.pages (byteAt (wordsOf b 0x8B14) 0) = false) (hsole : ∀ e ∈ u.eng.pages, e.2 ≠ byteAt (wordsOf b 0x8B14) 1) :
    ansVciPageAssign b u = .done [] (record 0x0B07 [byteAt (wordsOf b 0x8B14) 0, byteAt (wordsOf b 0x8B14) 1]
      { u with eng := { u.eng with pages := put u.eng.pages (byteAt (wordsOf b 0x8B14) 0) (byteAt (wordsOf b 0x8B14) 1) } }) := by
  have hlook : look u.eng.pages (byteAt (wordsOf b 0x8B14) 0) = none := by simpa [has] using hfree
  have hany : u.eng.pages.any (fun e => decide (e.2 = byteAt (wordsOf b 0x8B14) 1)) = false := by simpa using hsole
  simp only [ansVciPageAssign, hnone, if_false, htenant, Bool.true_eq_false, hlook, reduceCtorEq, hfree, hany, Bool.false_eq_true, or_self]

end

/-- Settles O49: each command's meaning takes the branch its conditions name. -/
theorem engineCommandsComplete : Obligations.EngineCommandsComplete := by
  unfold Obligations.EngineCommandsComplete
  refine ⟨?_, ?_, ?_, ?_, ?_, ?_, ?_, ?_, ?_, ?_⟩
  · rintro h b s u _ k a v _ hs hu rfl rfl hsc hkey hfits hdraws hjob
    exact run_wait hs hu ((ansSign_job hsc hkey hfits).trans ((if_neg (by simp [hdraws])).trans hjob))
  · rintro h b s u _ k a v _ hs hu rfl rfl hsc hkey hfits hdraws hdrbg hstart hjob
    exact run_wait hs hu ((ansSign_job hsc hkey hfits).trans ((if_pos hdraws).trans ((withDrbg_live hdrbg hstart).trans hjob)))
  · rintro h b vd bad s u _ k a v p r hs hu rfl hpeer hsc hkey hfits hcurve hlen hprio hsub
    exact run_wait hs hu ((ansVerify_handle hpeer hsc hkey hfits hcurve hlen hprio).trans hsub)
  · rintro h b s u _ k a v ty us rep w p r x c z hs hu rfl hblocks hpeer hkey hkem hattr hdrbg hstart hprio hdraw hc hsub
    exact run_wait hs hu ((ansKemEncap_handle hblocks hpeer hkey hkem hattr hdrbg hstart hprio hdraw hc).trans hsub)
  · rintro h b s u _ k a v ty us rep p r hs hu rfl hblocks hkey hkem hlen hattr hprio hsub
    exact run_wait hs hu ((ansKemDecap_handle hblocks hkey hkem hlen hattr hprio).trans hsub)
  · exact fun h b s u a v hs hu hblocks hans => run_wait hs hu ((if_pos hblocks).trans hans)
  · rintro h b bad s u _ k a v ty us rep p r hs hu rfl hkem hkey hcurve hpeer hsym hattr hprio hsub
    exact run_wait hs hu ((ansKeyAgree_curve hkem hkey hcurve hpeer hsym hattr hprio).trans hsub)
  · rintro h b s u v m _ hs hu hout hslot hm rfl hcont
    exact run_done hs hu (ansHash_words hout hslot hm hcont)
  · exact fun h b s u v e w hs hu hn hdrbg hstart hslot he => run_done hs hu (ansDrbgRead_default hn hdrbg hstart hslot he)
  · rintro h b s u _ _ hs hu rfl rfl hnone htenant hfree hsole
    exact run_done hs hu (ansVciPageAssign_free hnone htenant hfree hsole)

end Sys2Proof.Machine

/-! SUPPORT. Jobs of the Vault's engines, the sealed cache, the entropy source and the DRBG (14). -/
namespace Sys2Proof.Machine
open Sys2Proof

/-! ## The end of a job -/

section
variable {e k id : Nat} {u : State} {j : Job} (hj : (laneJobs u e k).find? (fun x => !x.2.suspended) = some (id, j))
include hj

theorem unitJobEnd_early {f : Option Nat} {kat : Bool} (hrun : cyclesRun u j < j.cycles + 256) : unitJobEnd e k f kat u = u := by
  simp only [unitJobEnd, hj, hrun, if_true]

section
variable (hrun : j.cycles + 256 ≤ cyclesRun u j) {kat : Bool}
include hrun

section
variable (hwork : j.work = 0)
include hwork

/-- A job of the Kiln whose cycles are done is counted and its result delivered; a job suspended in its lane goes on. -/
theorem unitJobEnd_kiln (he : e = 0) : unitJobEnd e k none kat u = fillUnits 0 (resumeJob k (deliver id j (bump 0x0D0010 1 u))) := by
  subst he
  simp only [unitJobEnd, hj, Nat.not_lt.mpr hrun, if_false, hwork, OfNat.zero_ne_ofNat, zero_ne_one, false_and, if_true]

theorem unitJobEnd_lattice (he : e = 1) : unitJobEnd e k none kat u = fillUnits 1 (deliver id j (bump 0x0E0010 1 u)) := by
  subst he
  simp only [unitJobEnd, hj, Nat.not_lt.mpr hrun, if_false, hwork, OfNat.zero_ne_ofNat, zero_ne_one, false_and, one_ne_zero]

theorem unitJobEnd_fault {c : Nat} (he : e = 1) : unitJobEnd e k (some c) kat u =
    fillUnits 1 (unitFault 1 k c kat (endJob id stEngineFault [] (bump 0x0E0010 1 u))) := by
  subst he
  simp only [unitJobEnd, hj, Nat.not_lt.mpr hrun, if_false, hwork, OfNat.zero_ne_ofNat, one_ne_zero]

end

/-- A signature of the Lattice: its attempts are drawn and counted (R417). -/
theorem unitJobEnd_attempts {n : Nat} {v : State} (he : e = 1) (hwork : j.work = 2) (hdraw : drawBits 10 (bump 0x0E0010 1 u) = (n, v)) :
    unitJobEnd e k none kat u = fillUnits 1 (deliver id j (perf 5 5 (1 + n % 1000) (bump 0x0E0014 (1 + n % 1000) v))) := by
  subst he
  simp only [unitJobEnd, hj, Nat.not_lt.mpr hrun, if_false, hwork, if_true, one_ne_zero, hdraw, OfNat.ofNat_ne_one, false_and]

end
end

theorem deliver_reply {id : Nat} {j : Job} {es : Body} {s : State} (hbad : j.bad = 0) (hr : j.result = .reply es) :
    deliver id j s = endJob id stOk es s := by simp only [deliver, hbad, ne_eq, not_true_eq_false, if_false, hr]

theorem deliver_key {id ow x n : Nat} {j : Job} {ty us : Word} {es : Body} {s v : State} (hbad : j.bad = 0) (hr : j.result = .key ty us ow x es)
    (hstore : storeValue ty us ow x s = some (v, n)) : deliver id j s = endJob id stOk (elemW 0x8A02 [w32 n] :: es) v := by
  simp only [deliver, hbad, ne_eq, not_true_eq_false, if_false, hr, hstore]

/-! ## Yielding, pages, the sealed cache and the entropy source -/

theorem yieldPoint_higher {k qid : Nat} {u : State} {x : Nat × Nat × Job} {q : Job} (hx : (yielding u).find? (fun y => decide (y.1 = k)) = some x)
    (hq : nextQueued u 0 = some (qid, q))
    (hprio : ∀ e ∈ u.eng.jobs, e.2.engine = 0 → e.2.lane.isSome = true → e.2.suspended = false → e.2.prio < q.prio)
    (hlast : ∀ y ∈ yielding u, yieldsBefore x y = true) {v : State}
    (hv : v = putJob x.2.1 { x.2.2 with suspended := true, done := cyclesRun u x.2.2 } u) : yieldPoint k u =
      perf 5 1 1 (perf 5 3 1 (bump 0x0D0014 1 (putJob qid { q with lane := some k, start := v.now + 64 * vc, displaced := true } v))) := by
  have hhigher : (u.eng.jobs.all fun e => !(decide (e.2.engine = 0) && e.2.lane.isSome && !e.2.suspended) || decide (e.2.prio < q.prio)) =
      true := by
    simp only [List.all_eq_true, Bool.or_eq_true, Bool.not_eq_true', decide_eq_true_eq]
    intro e he
    by_cases hrun : (decide (e.2.engine = 0) && e.2.lane.isSome && !e.2.suspended) = true
    · simp only [Bool.and_eq_true, decide_eq_true_eq, Bool.not_eq_true'] at hrun
      obtain ⟨⟨h0, hlane⟩, hgo⟩ := hrun
      exact .inr (hprio e he h0 hlane hgo)
    · exact .inl (by simpa using hrun)
  unfold yieldPoint
  rw [hx, hq]
  dsimp only
  rw [if_pos ⟨hhigher, List.all_eq_true.mpr hlast⟩, ← hv]

theorem pageJobEnd_done {p id : Nat} {u : State} {j : Job} (hj : (pageJobs u p).find? (fun e => e.2.lane.isSome) = some (id, j))
    (hcores : u.eng.cores = []) (hrun : (j.cycles + 3) / 4 ≤ (u.now - j.start) / vc)
    (hstay : pageLeaving (fillPage p (deliver id j u)) p = false) : pageJobEnd p u = fillPage p (deliver id j u) := by
  have hup : coresUp u = 4 := by rw [coresUp, hcores]; rfl
  unfold pageJobEnd
  rw [hj]
  dsimp only
  rw [hup, if_neg (by omega), if_neg (by simp [hstay])]

/-- Settles O50: each event takes the branch its conditions name. -/
theorem vaultJobsRun : Obligations.VaultJobsRun := by
  unfold Obligations.VaultJobsRun
  refine ⟨?_, ?_, ?_, ?_, ?_, ?_, ?_, ?_, ?_, ?_, ?_, ?_, ?_, ?_⟩
  · rintro t k kat s u id j _ hu hk hj hrun hwork rfl
    exact ev_if (p := fun _ => k < 8) (f := unitJobEnd 0 k none kat) hu hk (unitJobEnd_kiln hj hrun hwork rfl)
  · exact fun t k kat s u id j hu hk hj hrun hwork =>
      ev_if (p := fun _ => k < 2) (f := unitJobEnd 1 k none kat) hu hk (unitJobEnd_lattice hj hrun hwork rfl)
  · exact fun t k kat s u id j n v hu hk hj hrun hwork hdraw =>
      ev_if (p := fun _ => k < 2) (f := unitJobEnd 1 k none kat) hu hk (unitJobEnd_attempts hj hrun rfl hwork hdraw)
  · exact fun t k c kat s u id j hu hk hj hrun hwork =>
      ev_if (p := fun _ => k < 2) (f := unitJobEnd 1 k (some c) kat) hu hk (unitJobEnd_fault hj hrun hwork rfl)
  · exact fun t k s u id j hu hk hj hrun f kat =>
      ev_if (p := fun _ => k < 2) (f := unitJobEnd 1 k f kat) hu hk (unitJobEnd_early hj hrun)
  · exact fun id j es s hbad hr => deliver_reply hbad hr
  · exact fun id j ty us ow x es s v n hbad hr hstore => deliver_key hbad hr hstore
  · exact fun t k s u x qid q v hu hx hq hprio hlast hv => ev_next hu (yieldPoint_higher hx hq hprio hlast hv)
  · exact fun t p s u id j hu hj hcores hrun hstay => ev_next hu (pageJobEnd_done hj hcores hrun hstay)
  · intro t n s u k hu hk hplace
    exact ev_next hu (by simp only [keyReload, hk, hplace, Bool.true_eq_false, if_false, zero_ne_one])
  · intro t n s u k hu hk
    exact ev_next hu (by simp only [keyReload, hk, if_true])
  · intro t s u hu hsrc
    refine ev_next hu ((if_neg (by simp [hsrc])).trans ((if_pos rfl).trans ?_))
    simp [reseed0, hsrc]
  · intro t n s u hu hfirst
    exact ev_next hu (by simp [rngFail, hfirst])
  · intro t s u hu hgood
    exact ev_next hu (if_neg (by simp [hgood]))

end Sys2Proof.Machine

/-! SUPPORT. The domain key service (15): enrolment, distribution and rollover. -/
namespace Sys2Proof.Machine
open Sys2Proof

/-! ## Enrolment (R426, R429 to R431) -/

theorem mem_of_mem_put {α : Type} {m : KMap α} {k : Nat} {v : α} {e : Nat × α} (h : e ∈ put m k v) : e = (k, v) ∨ e ∈ m := by
  induction m with
  | nil => exact .inl (by simpa [put] using h)
  | cons a m ih =>
    rw [put] at h
    split at h
    · simpa using h
    · split at h
      · exact (List.mem_cons.mp h).imp_right (List.mem_cons_of_mem _)
      · rcases List.mem_cons.mp h with rfl | h
        · exact .inr (List.mem_cons_self ..)
        · exact (ih h).imp_right (List.mem_cons_of_mem _)

/-- Where the roster names no other replica but `d`, a new entry of `d` leaves none to tell of it. -/
theorem otherReplicas_filter_eq_nil {v t : State} {d : Nat} {r : Roster} (hroster : t.dks.roster = put v.dks.roster d r)
    (hdev : t.dks.device = v.dks.device)
    (hsole : ∀ e ∈ v.dks.roster, e.2.role = 0 ∨ e.2.revoked = true ∨ e.1 = v.dks.device ∨ e.1 = d) :
    (otherReplicas t).filter (fun x => decide (x ≠ d)) = [] := by
  simp only [List.filter_eq_nil_iff, otherReplicas, List.mem_map, List.mem_filter, Bool.and_eq_true, decide_eq_true_eq, Bool.not_eq_true',
    hroster, hdev]
  rintro x ⟨e, ⟨hmem, ⟨hrole, hlive⟩, hother⟩, rfl⟩ hd
  rcases mem_of_mem_put hmem with rfl | hold
  · exact hd rfl
  · rcases hsole e hold with h | h | h | h
    · exact hrole h
    · simp [hlive] at h
    · exact hother h
    · exact hd h

section
variable {h : Hdr} {b : Body} {u : State} (hact : domainTakes h u = true)
include hact

theorem ansEnrolChallenge_served {serial : Nat} {dig n : List Word} {v w : State} (hserv : isService u = true) (hwork : domainWork u = some v)
    (hdraw : drawWords 8 v = (n, w)) : inDdr (ansEnrolChallenge h true serial dig) u = .done [elemW 0x8C04 n] { w with
      dks := { w.dks with nonces := (w.dks.nonces.filter fun x => decide (w.now ≤ x.at_ + 300 * sec)) ++
        [{ nonce := n, serial := serial, idDig := dig, at_ := w.now }] } } := by
  refine (onActive_takes hact).trans ?_
  rw [if_neg (by simp [hserv]), serviceWork_work hwork, if_neg (by simp), hdraw]

theorem ansEnrolPrepare_stored {v w : State} {hs : List Nat} (hwork : domainWork u = some v)
    (hstore : storeAll [(0x13, uDerive), (0x31, uDecrypt)] (eraseAll v.dks.distKeys v) = some (w, hs)) :
    ∃ e t, inDdr (ansEnrolPrepare h b) u = .done [e] t ∧ e.typ = 0x8C06 ∧ e.len = 6571 ∧ t.dks.distKeys = hs := by
  have hans : inDdr (ansEnrolPrepare h b) u = _ := (onActive_takes hact).trans (serviceWork_work hwork)
  rw [hstore] at hans
  exact ⟨_, _, hans, rfl, rfl, rfl⟩

theorem ansEnrolAdmit_admits {v : State} {n : EnrolNonce} {d : Nat} (hserv : isService u = true) (hwork : domainWork u = some v)
    (hnonce : v.dks.nonces.find? (fun x => decide (x.nonce = digestWords (wordsOf b 0x8C06) 32 8) && !x.used &&
      decide (v.now ≤ x.at_ + 300 * sec)) = some n)
    (hdig : digestWords (wordsOf b 0x8C06) 1748 8 = digestWords (packWords (Config.sha384 (unpack ((wordsOf b 0x8C06).take 416)))) 0 8)
    (hlife : byteAt (wordsOf b 0x8C06) 1670 = 1 ∨ byteAt (wordsOf b 0x8C06) 1670 = 2)
    (hsvn : fld v 0x0C0100 23 16 ≤ bytesNat (wordsOf b 0x8C06) 1682 2) (hdom : bytesNat (wordsOf b 0x8C06) 24 4 = v.dks.domain)
    (hd : admitId v b (bytesNat (wordsOf b 0x8C06) 8 8) = .inl d)
    (hsole : ∀ e ∈ v.dks.roster, e.2.role = 0 ∨ e.2.revoked = true ∨ e.1 = v.dks.device ∨ e.1 = d) :
    ∃ m t, m.typ = 0x8C07 ∧ inDdr (ansEnrolAdmit h b true) u = .done [m, distResult []] t ∧
      (look t.dks.roster d).map (fun r => (r.serial, r.revoked)) = some (bytesNat (wordsOf b 0x8C06) 8 8, false) := by
  have hans : inDdr (ansEnrolAdmit h b true) u = _ := onActive_takes hact
  dsimp only at hans
  rw [if_neg (by simp [hserv]), serviceWork_work hwork, hnonce] at hans
  dsimp only at hans
  rw [if_neg (by simp [hdig]), if_neg (by omega), if_neg (by omega), if_neg (by simp [hdom]), hd] at hans
  dsimp only at hans
  rw [if_pos (otherReplicas_filter_eq_nil (by rw [(answered_record ..).dks]; rfl) (by rw [(answered_record ..).dks]; rfl) hsole)] at hans
  refine ⟨_, _, rfl, hans, ?_⟩
  rw [(answered_record ..).dks, setRoster, look_put_same]
  rfl

theorem ansEnrolAccept_own {v : State} (hser : bytesNat (wordsOf b 0x8C07) 72 8 = u.boot.serial)
    (hdig : digestWords (wordsOf b 0x8C07) 24 12 = u.dks.distDig) (hkeys : u.dks.distKeys ≠ [])
    (hown : u.dks.enrolled = false ∨ u.dks.domain ≠ (membershipOf (wordsOf b 0x8C07)).domain ∨
      u.dks.device = (membershipOf (wordsOf b 0x8C07)).device)
    (hout : engineOut u 0 = false) (hslot : takeSlot 3 u = some v) : inDdr (ansEnrolAccept h b true) u =
      .done [] (takeMembership (membershipOf (wordsOf b 0x8C07)) { v with dks := { v.dks with pendingPkg := none } }) := by
  have hmine : u.dks.enrolled = true → u.dks.domain = (membershipOf (wordsOf b 0x8C07)).domain →
      u.dks.device = (membershipOf (wordsOf b 0x8C07)).device := by
    intro hon hsame
    rcases hown with h | h | h
    · simp [hon] at h
    · exact absurd hsame h
    · exact h
  refine (onActive_takes hact).trans ?_
  rw [if_neg (by simpa [hser, hdig, hkeys] using hmine), brief_slot hout hslot]

theorem ansEnrolRevoke_listed {r : Roster} {d : Nat} (hserv : isService u = true) (hd : d = deviceWord b) (hr : look u.dks.roster d = some r)
    {v : State} (hv : v = { u with dks := { (setRoster d { r with revoked := true } u).dks with
      clients := u.dks.clients.filter fun x => decide (x ≠ d) } }) : inDdr (ansEnrolRevoke h b) u =
      .done [] (pump (sendDelta 0 d (otherReplicas v) (endCred (.device d) h.mailbox h.tag v))) := by
  subst hd hv
  refine (onActive_takes hact).trans ?_
  rw [if_neg (by simp [hserv]), hr]
  rfl

theorem ansEnrolDelta_newer {v w : State} {d : Nat} (hrep : isReplica u = true)
    (hnew : u.dks.gen < bytesNat (wordsOf b 0x8C09) 12 4 ∨
      u.dks.gen = bytesNat (wordsOf b 0x8C09) 12 4 ∧ u.dks.version < bytesNat (wordsOf b 0x8C09) 16 8)
    (hout : engineOut u 0 = false) (hslot : takeSlot 3 u = some v) (hd : d = bytesNat (wordsOf b 0x8C09) 64 2 % 1024)
    (hw : w = { v with dks := { v.dks with
      roster := put v.dks.roster d (deltaEntry (wordsOf b 0x8C09)), version := bytesNat (wordsOf b 0x8C09) 16 8,
      replica := if d = v.dks.device then (deltaEntry (wordsOf b 0x8C09)).role else v.dks.replica } }) :
    inDdr (ansEnrolDelta h b true) u =
      .done [] (if (deltaEntry (wordsOf b 0x8C09)).revoked = true then endCred (.device d) h.mailbox h.tag w else w) := by
  subst hd hw
  refine (onActive_takes hact).trans ?_
  rw [if_neg (by simpa [hrep] using fun hle => hnew.resolve_left (Nat.not_lt.mpr hle)), brief_slot hout hslot]

end

/-- Settles O51: each action takes the branch its conditions name. -/
theorem enrolmentCompletes : Obligations.EnrolmentCompletes := by
  unfold Obligations.EnrolmentCompletes
  refine ⟨?_, ?_, ?_, ?_, ?_, ?_⟩
  · exact fun h b serial dig s u v n w hs hu hact hserv hwork hdraw => run_done hs hu (ansEnrolChallenge_served hact hserv hwork hdraw)
  · intro h b s u v w l hs hu hact hwork hstore
    obtain ⟨e, t, hans, htyp, hlen, hkeys⟩ := ansEnrolPrepare_stored (b := b) hact hwork hstore
    exact ⟨e, t, run_done hs hu hans, htyp, hlen, hkeys⟩
  · intro h b s u v n d hs hu hact hserv hwork hnonce hdig hlife hsvn hdom hd hsole
    obtain ⟨m, t, htyp, hans, hentry⟩ := ansEnrolAdmit_admits hact hserv hwork hnonce hdig hlife hsvn hdom hd hsole
    exact ⟨m, t, htyp, run_done hs hu hans, hentry⟩
  · rintro h b s u v _ hs hu hact rfl hser hdig hkeys hown hout hslot
    exact run_done hs hu (ansEnrolAccept_own hact hser hdig hkeys hown hout hslot)
  · exact fun h b s u r d v hs hu hact hserv hd hr hv => run_done hs hu (ansEnrolRevoke_listed hact hserv hd hr hv)
  · rintro h b s u _ v d w hs hu hact rfl hrep hnew hout hslot hd hw
    exact run_done hs hu (ansEnrolDelta_newer hact hrep hnew hout hslot hd hw)

theorem deliverBundles_nil (kind group : Nat) (content : List Nat) (s : State) : deliverBundles kind group content [] s = s := rfl

/-! ## Distribution and rollover (R428, R432 to R435, R444 to R447) -/

section
variable {h : Hdr} {b : Body} {u : State} (hact : domainTakes h u = true)
include hact

theorem ansDomainKeyDistribute_service {x : Option Bundle} {v w y : State} {k : Nat} (hworld : h.world = 0) (hserv : isService u = true)
    (hkind : distKind b = 2 ∨ distKind b = 0) (hone : distB b = 0xFFFF) (htarget : isTarget u (distA b) = true) (hwork : domainWork u = some v)
    (hstore : storeKey (typeApplied 2) ((distUse v (distKind b) true).withBits 5 5 1) 0 v = some (w, k))
    (hy : y = deliverBundles (distKind b) w.dks.nextSvc (keyContent w k) [distA b] w) : inDdr (ansDomainKeyDistribute h b x) u =
      .wait (.svc y.dks.nextSvc) (startSvc (distKind b) [] { id := 0, kind := distKind b, key := some k } y) := by
  refine (onActive_takes hact).trans ((if_pos hworld).trans ?_)
  unfold ansDistribute
  dsimp only
  rw [if_pos hone, if_neg (by simp only [hserv, Bool.true_eq_false, false_or]; omega), if_neg (by simp [htarget]), if_neg (by omega),
    serviceWork_work hwork, if_neg (by omega), hstore]
  dsimp only
  rw [← hy]

theorem ansDomainKeyDistribute_target {x : Bundle} {v w : State} {k : Nat} (hworld : h.world = 3) (henr : u.dks.enrolled = true)
    (hfrom : fromReplica u h.session = true) (hout : engineOut u 0 = false) (hslot : takeSlot 3 u = some v)
    (hkind : distKind b = 2 ∨ distKind b = 0) (hok : bundleOk v x = true) (hpol : x.policy = none)
    (hstore : storeValue (typeApplied 2) (distUse v (distKind b) (decide (distA b = v.dks.device))) 0 x.value
      { v with dks := { v.dks with txnSeen := put v.dks.txnSeen x.sender x.txn } } = some (w, k)) :
    inDdr (ansDomainKeyDistribute h b (some x)) u = .done [ownResult w k] w := by
  have h4 : distKind b ≠ 4 := by omega
  have htake : takeBundle b x v = .done [ownResult w k] w := by
    unfold takeBundle
    rw [if_neg (by simp [hok])]
    dsimp only
    rw [hpol]
    dsimp only
    rw [if_neg h4, if_neg h4]
    have hstore' : storeValue (typeApplied 2) (distUse { v with dks := { v.dks with txnSeen := put v.dks.txnSeen x.sender x.txn } } (distKind b)
        (decide (distA b = v.dks.device))) 0 x.value { v with dks := { v.dks with txnSeen := put v.dks.txnSeen x.sender x.txn } } =
        some (w, k) := hstore
    rw [hstore']
    dsimp only
    rw [if_neg fun h => h4 h.1]
  refine (onActive_takes hact).trans ((if_neg (by omega)).trans ?_)
  dsimp only
  unfold ansTarget
  rw [if_neg (by simp [henr]), if_neg (by simp [hfrom]), brief_slot hout hslot]
  rcases hkind with hk | hk <;> rw [hk] <;> exact htake

/-- The rollover at the service of a domain with no other replica: the memberships of the new generation go out to its devices. -/
theorem ansDomainRollover_service {i d : Nat} {l hs : List Nat} {rep : Body} {v w x y : State}
    (ht : ticketsFor 0x0C02 1 h b u = some (i :: l)) (hpar : rollParams b = (d, false, rep)) (hserv : isService (useTickets b u) = true)
    (hnone : (useTickets b u).dks.rollover = none) (hwork : domainWork (useTickets b u) = some v)
    (hstore : storeAll [(0x11, uSign), (0x39, uSign)] v = some (w, hs)) (hx : x = startOp 0x0C02 h.world h.mailbox h.tag w)
    (hsole : otherReplicas x = [])
    (hy : y = { x with dks := { x.dks with rolling := 1, nextSvc := w.dks.nextSvc + 1, rollover := some {
        op := nextOp w, step := 6, deadline := x.now + d * sec, promote := false, creation := false, group := w.dks.nextSvc,
        oldGen := x.dks.gen, cred := credOf u h.session, issuer := i, handles := hs } } }) :
    inDdr (ansDomainRollover h b) u = .prog (opIdElem (nextOp w) :: rep) (pump
      (deliverTo 5 w.dks.nextSvc (fun d => packWords (membershipBytes d (y.dks.gen + 1) (y.dks.version + 1)
        (y.dks.roster.map fun e => (e.1, { e.2 with role := rolledRole y false e.1 e.2 })) hs y.dks.domainKeys y)) (otherDevices y) y)) := by
  have hstands : (!(useTickets b u).dks.enrolled && (decide ((useTickets b u).keys.life = 1) || decide ((useTickets b u).keys.life = 2))) =
      false := by
    unfold isService at hserv
    rw [(Bool.and_eq_true_iff.mp hserv).1]
    rfl
  have hsole' : otherReplicas y = [] := by rw [hy]; exact hsole
  obtain ⟨hgen, hver, hroster, hkeys⟩ : y.dks.gen = x.dks.gen ∧ y.dks.version = x.dks.version ∧ y.dks.roster = x.dks.roster ∧
      y.dks.domainKeys = x.dks.domainKeys := by
    rw [hy]
    exact ⟨rfl, rfl, rfl, rfl⟩
  dsimp only at hy
  refine (onActive_takes hact).trans ((dual_ticket ht).trans ?_)
  dsimp only
  rw [hpar]
  dsimp only
  rw [hstands, if_neg (by simp [hserv, hnone]), serviceWork_work hwork, hstore]
  dsimp only
  rw [if_neg Bool.false_ne_true]
  simp only [Bool.false_and]
  rw [← hx, ← hy, if_neg Bool.false_ne_true, hsole', deliverBundles_nil, hgen, hver, hroster, hkeys]

end

theorem rolloverDue_answered {u : State} {r : Rollover} (hr : u.dks.rollover = some r) (hstep : r.step = 6)
    (hall : ∀ d ∈ groupOf u r.group, d.status = some 0) : rolloverDue u = commitRollover r u := by
  have hok : (groupOf u r.group).all (fun d => decide (d.status = some 0)) = true := by simpa using hall
  have hreps : ∀ p : Delivery → Bool, ((groupOf u r.group).filter p).all (fun d => decide (d.status = some 0)) = true := by
    exact fun p => List.all_eq_true.mpr fun d hd => decide_eq_true (hall d (List.mem_of_mem_filter hd))
  unfold rolloverDue
  rw [hr]
  dsimp only
  rw [if_neg (by simp [hstep, hok]), if_neg fun h => by simp [hreps] at h]

theorem rolloverDue_failed {u : State} {r : Rollover} {d : Delivery} (hr : u.dks.rollover = some r) (hstep : r.step = 6)
    (hprom : r.promote = false) (hdue : r.deadline ≤ u.now) (hd : d ∈ groupOf u r.group) (hkind : d.kind = 4) (hst : d.status ≠ some 0) :
    rolloverDue u = endOp r.op stState [] (dropRollover r u) := by
  have hreps : ((groupOf u r.group).filter fun d => decide (d.kind = 4) || (otherReplicas u).contains d.target).all
      (fun d => decide (d.status = some 0)) = false := by
    rw [List.all_eq_false]
    exact ⟨d, List.mem_filter.mpr ⟨hd, by simp [hkind]⟩, by simp [hst]⟩
  unfold rolloverDue
  rw [hr]
  dsimp only
  rw [if_neg (by simp only [hstep, ne_eq, not_true_eq_false, false_or]; omega), if_pos ⟨hprom, hreps⟩]

theorem peerCompletion_grouped {d st hd i : Nat} {ret : List Word} {u : State} {x : Delivery} (hi : openTo u d = some i)
    (hx : u.dks.deliveries[i]? = some x) (hgroup : x.group ≠ 0) : peerCompletion d st hd ret u =
      settleRollover (settleAllSvc (pump (catchUp d (answered { x with status := some st, handle := hd } ret
        (setDelivery i { x with status := some st, handle := hd } u))))) := by
  unfold peerCompletion
  rw [hi]
  dsimp only
  rw [hx]
  dsimp only
  rw [if_neg hgroup]

theorem retry_due {d i : Nat} {u : State} {x : Delivery} (hi : openTo u d = some i) (hx : u.dks.deliveries[i]? = some x)
    (hdue : x.last + 5 * sec ≤ u.now) (hkind : x.kind ≠ 8 ∨ x.group = 0) : retry d u =
      settleRollover (settleAllSvc (sendDelivery x (setDelivery i { x with tries := x.tries + 1, last := u.now } u))) := by
  unfold retry
  rw [hi]
  dsimp only
  rw [hx]
  dsimp only
  rw [if_neg (by omega), if_neg (by omega)]

/-- Settles O52: each command's and each event's meaning takes the branch its conditions name. -/
theorem distributionRuns : Obligations.DistributionRuns := by
  unfold Obligations.DistributionRuns
  refine ⟨?_, ?_, ?_, ?_, ?_, ?_, ?_, ?_⟩
  · exact fun h b x s u v w k y hs hu hact hworld hserv hkind hone htarget hwork hstore hy =>
      run_wait hs hu (ansDomainKeyDistribute_service hact hworld hserv hkind hone htarget hwork hstore hy)
  · exact fun h b x s u v w k hs hu hact hworld henr hfrom hout hslot hkind hok hpol hstore =>
      run_done hs hu (ansDomainKeyDistribute_target hact hworld henr hfrom hout hslot hkind hok hpol hstore)
  · exact fun h b s u i l v w l' d rep x y hs hu hact ht hpar hserv hnone hwork hstore hx hsole hy =>
      run_prog hs hu (ansDomainRollover_service hact ht hpar hserv hnone hwork hstore hx hsole hy)
  · exact fun t s u r hu hr hstep hall => ev_next hu (rolloverDue_answered hr hstep hall)
  · exact fun t s u r d hu hr hstep hprom hdue hd hkind hst => ev_next hu (rolloverDue_failed hr hstep hprom hdue hd hkind hst)
  · rintro t d st hd ret s u i x _ hu hi hx hgroup rfl
    exact ev_next hu (peerCompletion_grouped hi hx hgroup)
  · exact fun t d s u i x hu hi hx hdue hkind => ev_next hu (retry_due hi hx hdue hkind)
  · intro t s u v w hu hdue hdraw
    exact ev_next hu ((if_pos hdue).trans (by rw [hdraw]))

end Sys2Proof.Machine

/-! SUPPORT. Group keys, tenants and domain snapshots (15). -/
namespace Sys2Proof.Machine
open Sys2Proof

/-! ## Group keys (R436 to R443) -/

section
variable {h : Hdr} {b : Body} {u : State} (hact : domainTakes h u = true)
include hact

section
variable (hserv : isService u = true) (hcert : elemOf b 0x8C10 = none) (hanchor : hasElem b 0x8C0F = false)
include hserv hcert hanchor

theorem ansGroupPolicySet_removes {g : Group} (hdel : byteAt (wordsOf b 0x8C0E) 4 = 0)
    (hg : look u.dks.groups (wordAt (wordsOf b 0x8C0E) 0).toNat = some g) {v : State} (hv : v = eraseAll (g.teks.map (·.handle)) u) :
    inDdr (ansGroupPolicySet h b) u = .done [] (copyGroup (wordAt (wordsOf b 0x8C0E) 0).toNat { v with
      dks := { v.dks with groups := del v.dks.groups (wordAt (wordsOf b 0x8C0E) 0).toNat } }) := by
  refine (onActive_takes hact).trans ?_
  dsimp only
  rw [if_neg (by simp [hserv]), hcert]
  dsimp only
  rw [if_pos hdel, hg]
  dsimp only
  rw [hanchor, if_neg Bool.false_ne_true, hv]

theorem ansGroupPolicySet_adds {l : Nat} {g : Group} {v w : State} (hset : byteAt (wordsOf b 0x8C0E) 4 = 1)
    (hroom : u.dks.groups.length < 1024) (hwork : domainWork u = some v)
    (hnew : look v.dks.groups (wordAt (wordsOf b 0x8C0E) 0).toNat = none)
    (hl : l = Legal.apply (.range 300 86400) 32 (wordAt (wordsOf b 0x8C0E) 2).toNat)
    (hg : newTek { typ := byteAt (wordsOf b 0x8C0E) 5, alg := byteAt (wordsOf b 0x8C0E) 6, lifetime := l } v.now v = some (w, g)) :
    inDdr (ansGroupPolicySet h b) u = .done (reportElem 0x8C0E 2 (wordAt (wordsOf b 0x8C0E) 2) (w32 l))
      (copyGroup (wordAt (wordsOf b 0x8C0E) 0).toNat { w with
        dks := { w.dks with groups := put w.dks.groups (wordAt (wordsOf b 0x8C0E) 0).toNat g } }) := by
  subst hl
  refine (onActive_takes hact).trans ?_
  dsimp only
  rw [if_neg (by simp [hserv]), hcert]
  dsimp only
  rw [hset, if_neg one_ne_zero, if_neg (by omega), serviceWork_work hwork, hnew, eraseAll, List.foldl_nil, hg]
  dsimp only
  rw [hanchor, if_pos rfl, if_neg Bool.false_ne_true]

end

section
variable (hrep : isReplica u = true) {e : Elem} (he : elemsOf b 0x8C11 = [e])
include hrep he

theorem ansGdoiMemberAdd_one (hroom : u.dks.members.length < 65536) : inDdr (ansGdoiMemberAdd h b) u = .done [] { u with dks := { u.dks with
      members := u.dks.members.filter (fun x => decide (x.digest ≠ (memberOf e).digest)) ++ [memberOf e] } } := by
  have hlen : (u.dks.members.filter (fun x => decide (x.digest ≠ (memberOf e).digest)) ++ [memberOf e]).length ≤ 65536 := by
    have := List.length_filter_le (fun x : Member => decide (x.digest ≠ (memberOf e).digest)) u.dks.members
    rw [List.length_append, List.length_singleton]
    omega
  refine (onActive_takes hact).trans ?_
  dsimp only
  rw [he, if_neg (by simp [hrep]), List.foldl_cons, List.foldl_nil, if_neg (by omega)]

theorem ansGdoiMemberRemove_one (hin : ∃ y ∈ u.dks.members, y.digest = (memberOf e).digest) : inDdr (ansGdoiMemberRemove h b) u =
    .done [] { u with dks := { u.dks with members := u.dks.members.filter fun m => !([(memberOf e).digest].contains m.digest) } } := by
  refine (onActive_takes hact).trans ?_
  dsimp only
  rw [he, if_neg (by simp [hrep]), if_neg (by simpa using hin)]
  rfl

end
end

section
variable {m : GdoiMsg} {u : State} (hon : gdoiOn u = true)
include hon

theorem gdoiRx_full (hslot : sharedSlot u = false) : gdoiRx m u = bump 0x0C012C 1 u := by
  simp [gdoiRx, hon, hslot]

theorem gdoiRx_phase1 (hkiln : kilnOut u = false) (hslot : sharedSlot u = true) (h1 : m.phase1 = true) : gdoiRx m u = gdoiPhase1 m u := by
  simp [gdoiRx, hon, hkiln, hslot, h1]

theorem gdoiRx_pull (hslot : sharedSlot u = true) (h1 : m.phase1 = false) : gdoiRx m u = gdoiPull m u := by
  simp [gdoiRx, hon, hslot, h1]

end

theorem gdoiPhase1_member {m : GdoiMsg} {u : State} (hok : m.ok = true) (hin : ∃ x ∈ u.dks.members, x.digest = m.digest) : gdoiPhase1 m u =
    send (.gdoi m.src true true 0 []) { u with dks := { u.dks with members := u.dks.members.map fun x =>
      if x.digest = m.digest then { x with chain := some m.chainTo, phase1 := some u.now } else x } } :=
  if_pos ⟨hok, by simpa using hin⟩

theorem gdoiPull_member {m : GdoiMsg} {u : State} {x : Member} {a : Nat} {g : Group} (hok : m.ok = true)
    (hx : u.dks.members.find? (fun y => decide (y.digest = m.digest)) = some x) (h1 : x.phase1 = some a)
    (hin : x.groups.contains m.group = true) (hg : look u.dks.groups m.group = some g) :
    gdoiPull m u = send (.gdoi m.src false true m.group (pullTeks u g)) (bump 0x0C0124 1 u) := by
  simp only [gdoiPull, hx, h1, hok, Option.isNone_some, Bool.false_eq_true, Bool.true_eq_false, or_self, if_false, hg, hin, if_true]

/-- Settles O53: each command's and each event's meaning takes the branch its conditions name. -/
theorem groupKeysRun : Obligations.GroupKeysRun := by
  unfold Obligations.GroupKeysRun
  refine ⟨?_, ?_, ?_, ?_, ?_, ?_, ?_, ?_, ?_, ?_⟩
  · rintro h b s u _ g hs hu hact hserv rfl hdel hcert hanchor hg
    exact ⟨_, rfl, run_done hs hu (ansGroupPolicySet_removes hact hserv hcert hanchor hdel hg rfl)⟩
  · rintro h b s u _ v w g l hs hu hact hserv rfl hset hcert hanchor - hroom hwork hnew hl hg
    exact run_done hs hu (ansGroupPolicySet_adds hact hserv hcert hanchor hset hroom hwork hnew hl hg)
  · rintro h b s u e _ hs hu hact hrep he rfl hroom
    exact run_done hs hu (ansGdoiMemberAdd_one hact hrep he hroom)
  · rintro h b s u e _ hs hu hact hrep he hin rfl
    exact ⟨_, fun y => by simp, run_done hs hu (ansGdoiMemberRemove_one hact hrep he hin)⟩
  · intro t n s u g k v g' hu hg hk hserv hdue hnew
    refine ev_next hu ?_
    simp only [nextTek, hg, hk]
    rw [if_pos ⟨hserv, hdue⟩, hnew]
  · rintro t n s u g _ hu hg rfl
    exact ev_next hu (by simp only [expireTeks, hg])
  · exact fun t m s u hu hon hkiln hslot h1 hok hin => ev_next hu ((gdoiRx_phase1 hon hkiln hslot h1).trans (gdoiPhase1_member hok hin))
  · exact fun t m s u x a g hu hon hslot h1 hok hx ha hin hg =>
      ev_next hu ((gdoiRx_pull hon hslot h1).trans (gdoiPull_member hok hx ha hin hg))
  · exact fun t m s u hu hon hslot => ev_next hu (gdoiRx_full hon hslot)
  · exact fun t ip mac s u hu hon hip => ev_next hu (if_pos ⟨hon, hip⟩)

/-! ## Tenants and domain snapshots (R441, R442, R448, R449) -/

theorem onActive_active {h : Hdr} {f : State → Ans} {u : State} (hact : domainStandby u h = false) : onActive h f u = f u :=
  if_neg (by simp [hact])

section
variable {h : Hdr} {b : Body} {u : State}

theorem any_await_eq_false {n : Nat} (hfree : ∀ f ∈ u.cmd.flights, f.await ≠ .tenant n) :
    u.cmd.flights.any (fun f => decide (f.await = .tenant n)) = false := by simpa using hfree

theorem ansTenantCreate_creates (hact : domainStandby u h = false)
    (hfree : ∀ f ∈ u.cmd.flights, f.await ≠ .tenant (byteAt (wordsOf b 0x8C12) 0)) (hnew : byteAt (wordsOf b 0x8C12) 1 = 1) :
    ansTenantCreate h b u = .done [] { u with dks := { u.dks with
      tenants := put u.dks.tenants (byteAt (wordsOf b 0x8C12) 0) { get u.dks.tenants (byteAt (wordsOf b 0x8C12) 0) {} with
        cred := (wordsOf b 0x8C12).drop 1 } } } := by
  refine (onActive_active hact).trans ?_
  dsimp only
  rw [any_await_eq_false hfree, if_neg Bool.false_ne_true, if_pos hnew]

theorem ansTenantRateSet_listed {x : Tenant} (hact : domainStandby u h = false)
    (hfree : ∀ f ∈ u.cmd.flights, f.await ≠ .tenant (byteAt (wordsOf b 0x8C13) 0))
    (hx : look u.dks.tenants (byteAt (wordsOf b 0x8C13) 0) = some x) : ∃ e, ansTenantRateSet h b u = .done e { u with dks := { u.dks with
      tenants := put u.dks.tenants (byteAt (wordsOf b 0x8C13) 0) { x with
        reserved := min (min 64 (bytesNat (wordsOf b 0x8C13) 4 2)) (512 - (tenantReserve u - x.reserved))
        limit := Legal.apply (.range 1 888) 16 (bytesNat (wordsOf b 0x8C13) 6 2)
        rate := min 1000000 (wordAt (wordsOf b 0x8C13) 2).toNat
        tokens := bucketDepth (min 1000000 (wordAt (wordsOf b 0x8C13) 2).toNat), refilled := u.now } } } := by
  have hans : ansTenantRateSet h b u = _ := onActive_active hact
  dsimp only at hans
  rw [any_await_eq_false hfree, if_neg Bool.false_ne_true, hx] at hans
  exact ⟨_, hans⟩

theorem ansDomainSnapshot_target {a : Nat} (hmem : u.mem.memOff = false)
    (ha : a = (bytesNat (wordsOf b 0x8C14) 0 6 * 1000000000 + bytesNat (wordsOf b 0x8C14) 6 4) * 65536)
    (hsoon : tod u + 65536 * 1000000 ≤ a) (hlate : a ≤ tod u + 549000 * (65536 * 1000000)) (hworld : h.world = 3)
    (henr : u.dks.enrolled = true) (hfrom : fromReplica u h.session = true) : ∃ e, inDdr (ansDomainSnapshot h b) u = .done [e] (armSnap a u) := by
  subst ha
  have hans : inDdr (ansDomainSnapshot h b) u = ansDomainSnapshot h b u := if_neg (by simp [hmem])
  rw [hans, ansDomainSnapshot]
  dsimp only
  rw [if_neg (by omega), if_pos hworld, if_neg (by simp [henr, hfrom])]
  exact ⟨_, rfl⟩

end

/-- Settles O54: each command's meaning takes the branch its conditions name. -/
theorem tenantsAndSnapshots : Obligations.TenantsAndSnapshots := by
  unfold Obligations.TenantsAndSnapshots
  refine ⟨?_, ?_, ?_⟩
  · rintro h b s u _ _ hs hu hact rfl rfl hfree hnew
    exact run_done hs hu (ansTenantCreate_creates hact hfree hnew)
  · rintro h b s u _ _ x _ _ _ hs hu hact rfl rfl hfree hx rfl rfl rfl
    obtain ⟨e, he⟩ := ansTenantRateSet_listed hact hfree hx
    exact ⟨e, run_done hs hu he⟩
  · intro h b s u a hs hu hmem ha hsoon hlate hworld henr hfrom
    obtain ⟨e, he⟩ := ansDomainSnapshot_target hmem ha hsoon hlate hworld henr hfrom
    exact ⟨e, run_done hs hu he⟩

end Sys2Proof.Machine

/-! SUPPORT. External memory and tamper monitors. -/
namespace Sys2Proof.Machine
open Sys2Proof

section
variable {u : State} {m ch a : Nat} {f : MemFault}

theorem memRead_initialised (hgate : gateOf u m ch a false = .open_) (hinit : initialised u a = true) (hf : faultKind u ch a f = none)
    {v : State} (hv : perf 7 1 1 (repairs ch a f u) = v) : memRead m ch a f u = memAnswer m
      (readWords (if a < 0x40000000 then verifyPath ch a false v else v) ch a f) false (if a < 0x40000000 then verifyPath ch a false v else v) := by
  subst hv
  rw [memRead, hgate]
  dsimp only
  rw [if_neg (by simp [hinit]), hf]

/-- Outside the tree's nodes a line that DDR gives unchanged reads as the words stored. -/
theorem readWords_none (ha : a < 0x40000000 ∨ 0x4A000000 ≤ a) : readWords u ch a .none = lineWords (channel u ch) (lineBase a) := by
  have hregion : region u a ≠ 1 := by
    unfold region
    split
    · decide
    · rw [if_neg (by omega)]
      split <;> [decide; split <;> decide]
  exact if_neg hregion

theorem faultKind_dueTag {b : List Nat} : faultKind u ch a (.line b (dueTag u ch (lineBase a) b)) = none := if_pos rfl

theorem memRead_uninitialised (hgate : gateOf u m ch a false = .open_) (hinit : initialised u a = false) :
    memRead m ch a f u = memAnswer m (List.replicate 16 0) false u := by
  rw [memRead, hgate]
  exact if_pos hinit

theorem memRead_faulty {k : Nat} (hgate : gateOf u m ch a false = .open_) (hinit : initialised u a = true) (hf : faultKind u ch a f = some k) :
    memRead m ch a f u = memAnswer m [] true (integrityFail (if m = 6 ∧ u.mem.rolling = true then 7 else k) m ch a u) := by
  rw [memRead, hgate]
  dsimp only
  rw [if_neg (by simp [hinit]), hf]

theorem memRead_wall (hgate : gateOf u m ch a false = .wall) : memRead m ch a f u = wallHit m ch a false u := by rw [memRead, hgate]

theorem memWrite_line {ws : List Word} (hgate : gateOf u m ch a true = .open_) (hlen : ws.length = 16) {v : State} (hv : v = perf 7 2 1 u) :
    memWrite m ch a ws true .none u = memAnswer m [] false (storeLine ch a
      (setChannel ch { channel v ch with data := putWords (channel v ch).data (lineBase a) ws } v)) := by
  subst hv
  have hfault : (if initialised u a = true then writeFault u ch a true .none else none) = none := by
    split <;> rfl
  have hws : (ws ++ List.replicate 16 0).take 16 = ws := by rw [← hlen, List.take_left]
  rw [memWrite, hgate]
  dsimp only
  rw [hfault]
  simp only [true_or, if_true, hws, mergedLine]

variable {cap : Nat} {c : Channel}

theorem trained_up (hstep : 5 ≤ u.boot.step) (hon : u.mem.memOff = false) (hc : c = channel u ch) (hdown : c.up = false) (htries : c.tries < 3) :
    trained ch true cap u = startMemory (setChannel ch { c with tries := c.tries + 1, up := true, cap := if cap = 2 then 2 else 1 } u) := by
  subst hc
  unfold trained
  dsimp only
  rw [if_neg (by simp only [hon, hdown, Bool.false_eq_true, false_or]; omega)]
  simp only [if_true]

theorem trained_given_up {v : State} (hstep : 5 ≤ u.boot.step) (hon : u.mem.memOff = false) (hc : c = channel u ch) (hdown : c.up = false)
    (htries : c.tries = 2) (hv : v = setChannel ch { c with tries := 3, up := false, cap := 0 } u) :
    trained ch false cap u = record 0x1001 [2 ^ ch, v.mem.c0.tries, v.mem.c1.tries]
      { v with mem := { v.mem with memOff := true, c0 := { v.mem.c0 with up := false }, c1 := { v.mem.c1 with up := false } } } := by
  subst hc
  unfold trained
  dsimp only
  rw [if_neg (by simp only [hon, hdown, Bool.false_eq_true, false_or]; omega)]
  simp only [Bool.false_eq_true, if_false, htries, Nat.reduceAdd, Nat.lt_irrefl]
  rw [hv]

theorem rollDue_reached {d : Nat} (hdue : u.mem.due = some d) (hd : d ≤ u.now) (hroll : rollable u = true) (hidle : u.mem.rolling = false) :
    rollDue u = startRoll none u := by
  rw [rollDue, hdue]
  exact if_neg (by simp only [hroll, hidle, Bool.true_eq_false, Bool.false_eq_true, or_false]; omega)

theorem startRoll_drawn {op : Option Nat} {k : Nat} {v : State} (hdraw : drawBits 256 (drbgUse u) = (k, v)) :
    startRoll op u = { v with mem := { v.mem with key := k, keyOld := v.mem.key, kidOld := v.mem.kid, kid := v.mem.kid % 15 + 1,
                                                  rolling := true, rollOp := op, swept := 0, sweptAt := v.now } } := by
  rw [startRoll, hdraw]

theorem sweepEnd_reached {v : State} (hrolling : u.mem.rolling = true) (hroll : rollable u = true) (hswept : chanBytes u ≤ sweptBytes u)
    (hv : v = flushNodes u) (hop : v.mem.rollOp = none) :
    sweepEnd u = record 0x1005 [v.mem.kidOld, v.mem.kid, 0] { v with mem := { v.mem with
      rolling := false, kidOld := 0, keyOld := 0, rollOp := none, swept := chanBytes v, rolls := Machine.cap 65535 (v.mem.rolls + 1),
      due := some (v.now + fld v 0x100008 23 16 * 3600 * sec) } } := by
  unfold sweepEnd
  rw [if_neg (by simp only [hrolling, hroll, Bool.true_eq_false, false_or]; omega), ← hv]
  simp only [hop, bit, Option.isSome_none, Bool.false_eq_true, if_false]

theorem ansMemKeyRoll_idle {h : Hdr} {v w : State} {k : Nat} (hhalt : u.mem.halt = false) (hon : u.mem.memOff = false) (hcap : u.mem.cap ≠ 0)
    (hidle : u.mem.rolling = false) (hdrbg : drbgOut u = false) (hstart : u.eng.startup = false) (hv : v = drbgUse u)
    (hdraw : drawBits 256 (drbgUse (startOp 0x0D00 h.world h.mailbox h.tag v)) = (k, w)) :
    ansMemKeyRoll h u = .prog [opIdElem (nextOp v)] { w with
      mem := { w.mem with key := k, keyOld := w.mem.key, kidOld := w.mem.kid, kid := w.mem.kid % 15 + 1, rolling := true,
                          rollOp := some (nextOp v), swept := 0, sweptAt := w.now } } := by
  unfold ansMemKeyRoll
  rw [if_neg (by simp [hhalt, hon]), if_neg hcap, if_neg (by simp [hidle]), withDrbg_live hdrbg hstart, ← hv]
  dsimp only
  rw [startRoll_drawn hdraw]

end

/-- Settles O55. -/
theorem memoryRuns : Obligations.MemoryRuns := by
  unfold Obligations.MemoryRuns
  refine ⟨?_, ?_, ?_, ?_, ?_, ?_, ?_, ?_, ?_, ?_, ?_, ?_, ?_, ?_⟩
  · intro h b s u v w k hs hu hhalt hon hcap hidle hdrbg hstart hv hdraw
    exact run_prog hs hu (ansMemKeyRoll_idle hhalt hon hcap hidle hdrbg hstart hv hdraw)
  · intro h b s u hs hu
    exact run_done hs hu rfl
  · intro t ch cap s u c hu hch hstep hon hc hdown htries
    exact ev_if (p := fun _ => ch < 2) (f := trained ch true cap) hu hch (trained_up hstep hon hc hdown htries)
  · intro t ch cap s u c v hu hch hstep hon hc hdown htries hv
    exact ev_if (p := fun _ => ch < 2) (f := trained ch false cap) hu hch (trained_given_up hstep hon hc hdown htries hv)
  · intro t s u hu hcap
    exact ev_next hu (if_pos hcap)
  · intro t m ch a s u hu hch hgate hinit ha
    refine ev_if (p := fun _ => ch < 2) (f := memRead m ch a .none) hu hch ((memRead_initialised hgate hinit rfl rfl).trans ?_)
    rw [if_neg (by omega), readWords_none (.inr ha)]
    rfl
  · intro t m ch a s u v hu hch hgate hinit ha hv
    refine ev_if (p := fun _ => ch < 2) (f := memRead m ch a .none) hu hch ((memRead_initialised hgate hinit rfl rfl).trans ?_)
    rw [if_pos ha, readWords_none (.inl ha), hv]
    rfl
  · intro t m ch a b f s u hu hch hgate hinit ha hf
    subst hf
    refine ev_if (p := fun _ => ch < 2) (f := memRead m ch a _) hu hch ((memRead_initialised hgate hinit faultKind_dueTag rfl).trans ?_)
    rw [if_neg (by omega)]
    rfl
  · intro t m ch a f s u hu hch hgate hinit
    exact ev_if (p := fun _ => ch < 2) (f := memRead m ch a f) hu hch (memRead_uninitialised hgate hinit)
  · intro t m ch a f k s u hu hch hgate hinit hf
    exact ev_if (p := fun _ => ch < 2) (f := memRead m ch a f) hu hch (memRead_faulty hgate hinit hf)
  · intro t m ch a f s u hu hch hgate
    exact ev_if (p := fun _ => ch < 2) (f := memRead m ch a f) hu hch (memRead_wall hgate)
  · intro t m ch a ws s u v hu hch hgate hlen hv
    exact ev_if (p := fun _ => ch < 2) (f := memWrite m ch a ws true .none) hu hch (memWrite_line hgate hlen hv)
  · intro t s u d v k hu hdue hd hroll hidle hdraw
    exact ev_next hu ((rollDue_reached hdue hd hroll hidle).trans (startRoll_drawn hdraw))
  · intro t s u v hu hrolling hroll hswept hv hop
    exact ev_next hu (sweepEnd_reached hrolling hroll hswept hv hop)

/-- An alarm of response 5 (R481) notes the tamper and resigns the lease where it may. -/
theorem alarm_notes {n : Nat} {s v w : State} (hvault : vaultOff s = false)
    (hv : v = snapTrigger 3 (tod (joinGroup [n] (countAlarm n s))) (joinGroup [n] (countAlarm n s)))
    (h0 : responseOf (joinGroup [n] (countAlarm n s)) n = 5) (h1 : responseOf v n = 5) (hw : w = noteTamper (resign 3 false v))
    (h2 : responseOf w n = 5) (hreset : w.tmp.resetAt = none) :
    alarm [n] (fun _ => false) s = recordResp 0x1101 0 [[n, 5] ++ beBytes 2 w.tmp.groupBits ++ beBytes 4 (rtcNow w)] 5 w := by
  have hlatch : latchAlarm n 5 false v = v := if_pos (by decide)
  unfold alarm
  rw [if_neg (by simp), if_neg (by simp [hvault])]
  simp only [List.foldl_cons, List.foldl_nil, List.any_cons, List.any_nil, h0, Bool.or_false, Nat.reduceLeDiff, decide_true, if_true, ← hv,
    List.flatMap_cons, List.flatMap_nil, List.append_nil, h1, hlatch, decide_false, Bool.false_eq_true, if_false, actionsOf,
    List.contains_cons, List.contains_nil, Nat.reduceBEq, Bool.or_self, act, ← hw, hreset, h2, Nat.reduceEqDiff]

section
variable {h : Hdr} {b : Body} {u v : State} {i : Nat} {l : List Nat}

theorem tamperAlarm_rearm {m : Nat} (hv : v = { u with tmp := { u.tmp with cond := Nat.lor u.tmp.cond (m % 65536) } }) :
    tamperAlarm m u = alarm ((List.range 16).filter (raises v)) (fun _ => false) v := by
  rw [tamperAlarm, ← hv, rearm]

theorem ansTamperConfig_applied {r : Body} (hb : b.foldl applyTamperElem (u, []) = (v, r)) (hforce : u.keys.inForce = false) :
    ansTamperConfig b u = .done r (settleApproved (rearm (fun _ => false) v)) := by
  rw [ansTamperConfig, hb]
  exact if_neg (by simp [hforce])

theorem ansTamperTest_idle (htest : u.tmp.test = none) (hv : v = startOp 0x0E01 h.world h.mailbox h.tag u) :
    ansTamperTest h b u = .prog [opIdElem (nextOp u)]
      (nextTested 17 { v with tmp := { v.tmp with test := some { op := nextOp u, left := (List.range 16).filter fun n => (maskOf b).testBit n,
                                                                 named := maskOf b, at_ := v.now } } }) := by
  subst hv
  exact if_neg (by simp [htest])

theorem testDone_detected {x : TmpTest} {n d : Nat} {r : List Nat} (htest : u.tmp.test = some x) (hleft : x.left = n :: r)
    (hd : d ≤ detectLimit n) : testDone (some d) u = nextTested 17 (rearm (fun _ => false) { u with tmp := { u.tmp with
      tested := Nat.lor u.tmp.tested (2 ^ n), testFail := clearBit u.tmp.testFail n,
      test := some { x with left := r, results := x.results ++ [testResult n 0 d] } } }) := by
  unfold testDone
  rw [htest]
  dsimp only
  rw [hleft]
  simp only [hd, decide_true, if_true, Bool.not_true, bit, Bool.false_eq_true, if_false, Option.getD_some]

theorem ansTamperFuse_blown {n : Nat} (hn : n = maskSource (maskOf b)) (ht : ticketsFor 0x0E02 1 h b u = some (i :: l))
    (hv : v = useTickets b u) (hsource : n ≠ 15) (hfused : v.tmp.fused.testBit n = false) (hforce : v.keys.inForce = false) :
    ansTamperFuse h b true u = .done [] (settleApproved (record 0x1105 [n, credOf u h.session, i]
      { v with tmp := { v.tmp with fused := Nat.lor v.tmp.fused (2 ^ n) } })) := by
  unfold ansTamperFuse
  dsimp only
  rw [dual_ticket ht, ← hv, ← hn, if_neg (by simp [hsource, hfused]), if_neg (by simp [hforce]), if_neg (by decide)]

theorem ansTamperRearm_clear {w : State} {n : Nat} (ht : ticketsFor 0x0E03 1 h b u = some (i :: l)) (hv : v = useTickets b u)
    (hcond : v.tmp.cond = 0) (hw : w = rearm (fun _ => false) (resetSources (record 0x1106 [credOf u h.session, i] v)))
    (hn : n = max w.boot.flashCount w.boot.bbdCount + 1) : ansTamperRearm h b u = .done [] { w with
      boot := { w.boot with flashCode := 0, flashCount := n, flashRecOk := true, flashMac := some (lifeMac w 0 n), bbdCode := 0,
                            bbdCount := n, bbdLost := false, rootSecret := none, warmAt := some (w.now + ms) } } := by
  subst hn
  unfold ansTamperRearm
  rw [dual_ticket ht, ← hv, if_neg (by simp [hcond]), ← hw]

end

/-- Settles O56. -/
theorem tamperRuns : Obligations.TamperRuns := by
  unfold Obligations.TamperRuns
  refine ⟨?_, ?_, ?_, ?_, ?_, ?_, ?_, ?_⟩
  · intro t m s u v hu hv
    exact ev_next hu (tamperAlarm_rearm hv)
  · intro n s v w hvault hv h0 h1 hw h2 hreset
    exact alarm_notes hvault hv h0 h1 hw h2 hreset
  · intro t n s u hu
    exact ev_next hu rfl
  · intro h b s u v r hs hu hb hforce
    exact run_done hs hu (ansTamperConfig_applied hb hforce)
  · intro h b s u v hs hu htest hv
    exact run_prog hs hu (ansTamperTest_idle htest hv)
  · intro t d s u x n r hu htest hleft hd
    exact ev_next hu (testDone_detected htest hleft hd)
  · intro h b s u n i l v hs hu hn ht hv hsource hfused hforce
    exact run_done hs hu (ansTamperFuse_blown hn ht hv hsource hfused hforce)
  · intro h b s u i l v w n hs hu ht hv hcond hw hn
    exact run_done hs hu (ansTamperRearm_clear ht hv hcond hw hn)

end Sys2Proof.Machine

/-! SUPPORT. Power states, wake sources and DVFS (18). -/
namespace Sys2Proof.Machine
open Sys2Proof

/-! ## The entry into STANDBY leaves every brick without frames held and contexts cached (R504) -/

/-- No brick holds a frame, a context or a miss. -/
def BricksCool (s : State) : Prop := ∀ e ∈ s.brk.bricks, e.2.held = [] ∧ e.2.cache = [] ∧ e.2.misses = []

theorem BricksCool.of_brk {s t : State} (hs : BricksCool s) (h : t.brk = s.brk) : BricksCool t := by rwa [BricksCool, h]

theorem sendDone_brk (c : Completion) (s : State) : (sendDone c s).brk = s.brk := by
  obtain ⟨_, _, _, _, _, _, _, h⟩ := (answered_sendDone c s).eqn
  rw [h]

theorem notify_brk (c : NotifyClass) (body : List Nat) (s : State) : (notify c body s).brk = s.brk := by
  unfold notify
  refine List.foldlRecOn (motive := fun t : State => t.brk = s.brk) _ _ rfl fun t ht x _ => ?_
  dsimp only
  split
  · exact ht
  · simpa [sendDone_brk] using ht

theorem lineCount_brk (p tx i n : Nat) (s : State) : (lineCount p tx i n s).brk = s.brk := by
  unfold lineCount
  split
  · rfl
  · simp only [apply_ite State.brk, notify_brk, raise_brk, ite_self]

theorem txDrop_brk (sp : Nat) (s : State) : (txDrop sp s).brk = s.brk := by
  simp only [txDrop, subCount, apply_ite State.brk, bump_brk, lineCount_brk, ite_self]

theorem leaveQueues_brk (id : Nat) (s : State) : (leaveQueues id s).brk = s.brk := perf_brk ..

theorem BricksCool.updFrame {s : State} (hs : BricksCool s) (id : Nat) (f : Held → Held) : BricksCool (updFrame id f s) := by
  intro e he
  obtain ⟨x, hx, rfl⟩ := List.mem_map.mp he
  obtain ⟨hheld, hcache, hmisses⟩ := hs x hx
  exact ⟨by simp [hheld], hcache, hmisses⟩

theorem BricksCool.dropUnits {s : State} (hs : BricksCool s) (p : Nat) : BricksCool (dropUnits p s) := by
  unfold Machine.dropUnits
  refine BricksCool.of_brk ?_ (setTrunk_brk ..)
  refine List.foldlRecOn (motive := BricksCool) _ _ hs fun t ht x _ => ?_
  split
  · split
    · exact (ht.updFrame _ _).of_brk ((txDrop_brk ..).trans (leaveQueues_brk ..))
    · exact ht
  · exact ht.of_brk (txDrop_brk ..)

theorem BricksCool.takeDown {s : State} (hs : BricksCool s) (sp : Nat) : BricksCool (takeDown sp s) := by
  unfold Machine.takeDown
  refine List.foldlRecOn (motive := BricksCool) _ _ (BricksCool.of_brk ?_ (setSub_brk ..)) fun t ht l _ => ht.of_brk rfl
  have hq : BricksCool (((subPort s sp).tx.toList ++ (subPort s sp).suspended.toList).foldl
      (fun s f => txDrop sp (leaveQueues f.id s)) s) :=
    List.foldlRecOn (motive := BricksCool) _ _ hs fun t ht f _ => ht.of_brk ((txDrop_brk ..).trans (leaveQueues_brk ..))
  split
  · exact hq.dropUnits _
  · exact hq

theorem coolBrick_empty (x : Brick) : (coolBrick x).held = [] ∧ (coolBrick x).cache = [] ∧ (coolBrick x).misses = [] := ⟨rfl, rfl, rfl⟩

/-- The bricks are cooled first, and nothing that follows puts a frame or a context into one. -/
theorem standbyEntry_reached {u : State} (hstate : u.pwr.state < 2) (htarget : u.pwr.target = some 2)
    (hidle : ∀ b ∈ [0, 1, 2, 3], engineIdle u b = true) : ∃ v, standbyEntry u = powerReached 2 v ∧ BricksCool v := by
  unfold standbyEntry
  rw [if_pos ⟨hstate, htarget, List.all_eq_true.mpr hidle⟩]
  refine ⟨_, rfl, ?_⟩
  refine List.foldlRecOn (motive := BricksCool) _ _ (BricksCool.of_brk ?_ rfl) fun t ht b _ => ?_
  · refine List.foldlRecOn (motive := BricksCool) _ _ ?_ fun t ht sp _ => ht.takeDown sp
    intro e he
    obtain ⟨x, -, rfl⟩ := List.mem_map.mp he
    exact coolBrick_empty x.2
  · dsimp only
    split
    · exact ht
    · exact ht.of_brk rfl

/-! ## Transitions -/

section
variable {h : Hdr} {b : Body} {u : State} {g : Nat}

theorem ansPowerStateSet_begins (hg : g = (wordAt (wordsOf b 0x8F03) 0).toNat) (href : powerRefused u g = false) (htarget : u.pwr.target = none)
    (hne : g ≠ u.pwr.state) : ansPowerStateSet h b u =
      .wait .power (beginPower g { u with pwr := { u.pwr with reqs := [{ mailbox := h.mailbox, tag := h.tag }] } }) := by
  unfold ansPowerStateSet
  dsimp only
  rw [← hg, if_neg (by simp [href]), htarget]
  exact if_neg hne

theorem ansPowerStateSet_there (hg : g = (wordAt (wordsOf b 0x8F03) 0).toNat) (href : powerRefused u g = false) (htarget : u.pwr.target = none)
    (heq : g = u.pwr.state) : ansPowerStateSet h b u = .done [powerResult g { mailbox := h.mailbox, tag := h.tag }] u := by
  unfold ansPowerStateSet
  dsimp only
  rw [← hg, if_neg (by simp [href]), htarget]
  exact if_pos heq

theorem powerReached_unqueued {n : Nat} {s v w : State} (hv : v = perfSettle s)
    (hw : w = record 0x1201 [v.pwr.state, n] { v with pwr := { v.pwr with state := n, target := none } }) (hq : w.pwr.queued = none) :
    powerReached n s = finishPower n w := by
  unfold powerReached
  dsimp only
  rw [← hv, ← hw, hq]

theorem standbyReturn_reached {v w : State} (hstate : u.pwr.state = 2) (htarget : u.pwr.target = some 0 ∨ u.pwr.target = some 1)
    (hv : v = { u with
      brk := { u.brk with bricks := u.brk.bricks.map fun e => (e.1, warmBrick u e.2) },
      trk := { p0 := framerReturn u.now (todSec u) u.trk.p0, p1 := framerReturn u.now (todSec u) u.trk.p1 } })
    (hw : w = [0, 1, 2, 3].foldl gateReturn (powerLanes v)) : standbyReturn u =
      [0, 1, 2, 3].foldl (fun s b => if bricksOn s then settleDvfs b false (applyStored b s) else s)
        (powerReached (w.pwr.target.getD 0) w) := by
  unfold standbyReturn
  rw [if_pos ⟨hstate, htarget⟩]
  dsimp only
  rw [← hv, ← hw]

theorem sleepCommit_reached {v w : State} (hstate : u.pwr.state < 3) (htarget : u.pwr.target = some 3) (hpast : u.pwr.pastCommit = false)
    (hhalt : halted u = false) (hq : u.pwr.queued = none)
    (hv : v = zeroiseSas (zeroiseKeys (abortJobs (fun _ => true) stAborted (commitAll (record 0x1201 [u.pwr.state, 3] u)))))
    (hw : w = finishPower 3 (markQueued (fun r => { r with wakePending := true }) (saveTime { v with
      mem := { v.mem with keyed := false, key := 0, keyOld := 0 }, eng := { v.eng with pages := [] } }))) :
    sleepCommit u = { w with pwr := { w.pwr with pastCommit := true, wakeNext := false, queued := none } } := by
  unfold sleepCommit
  rw [if_pos ⟨hstate, htarget, hpast, hhalt⟩]
  dsimp only
  rw [← hv, hq]
  simp only [Option.isSome_none, Bool.false_eq_true, if_false]
  rw [← hw]

/-! ## Wake sources -/

theorem ansWakeConfig_alarm {v : State} {ws : List Word} (hel : hasElem b 0x0F06 = true) (hws : ws = wordsOf b 0x0F06)
    (hv : v = setFld 0x120008 2 0 ((wordAt (wordsOf b 0x8F05) 0).bits 2 0) u) :
    ansWakeConfig b u = .done [] (setFld 0x120010 15 0 ((wordAt ws 0).bits 15 0) (setReg 0x12000C (wordAt ws 1) v)) := by
  subst hv hws
  exact congrArg (Ans.done []) (if_pos hel)

/-- An enabled wake source starts the wake from SLEEP with its cause. -/
theorem wakeBy_asleep {k cause : Nat} (hflag : flag u 0x120008 k = true) (hstate : u.pwr.state = 3) (hwaking : u.pwr.waking = false) :
    wakeBy k cause u = { u with pwr := { u.pwr with waking := true, regLp := false, wakeCause := cause },
                                boot := { u.boot with releasedAt := u.now + 5 * ms } } := by
  rw [wakeBy, if_pos hflag, startWake, if_pos ⟨hstate, hwaking⟩]

theorem rtcWake_due (hdue : rtcAlarmAt u ≤ rtcNow u) : rtcWake u = wakeBy 2 3 u := if_pos hdue

theorem slowWake_own : slowWake (0x58 + u.boot.slvAdr % 8) u = wakeBy 0 1 u := if_pos rfl

/-! ## DVFS -/

theorem any_awaits_dvfs_eq_false {k : Nat} (hfree : ∀ x ∈ u.cmd.flights, x.await ≠ .dvfs k) :
    u.cmd.flights.any (fun x => decide (x.await = .dvfs k)) = false := by simpa using hfree

/-- A completion of DVFS_SET, or its wait for the sequence of its brick. -/
theorem run_ite_waits {i : Instr} {op : Op} {m : State → Ans} {s v : State} {a : Await} {e : Elem} {rep : Body} {p : Prop} [Decidable p]
    (hs : starts op h b s = true) (hu : u = begun op h b s) (hm : m u = if p then .done (e :: rep) v else .waits a rep v) :
    run i op h b m s = .next (if p then completed op h (e :: rep) v else setReport (flightFor op h b) rep (waiting op h a v)) := by
  split at hm
  · next hp => rw [run_done hs hu hm, if_pos hp]
  · next hp => rw [run_waits hs hu hm, if_neg hp]

theorem ansDvfsSet_free {w : Word} {k f : Nat} {v : State} {rep : Body} (hw : w = wordAt (wordsOf b 0x8F01) 0) (hk : k = byteAt [w] 0)
    (hfree : ∀ x ∈ u.cmd.flights, x.await ≠ .dvfs k) (hphase : bricksOn u = true → (dvfsOf u k).phase = 0)
    (hf : f = Legal.apply (.steps 800 1700 25) 16 (w.bits 15 0))
    (hrep : rep = (if f = w.bits 15 0 then [] else reportElem 0x8F01 0 w (w.withBits 15 0 f)))
    (hv : v = askDvfs k f (setFld (0x120020 + 4 * k) 10 0 f u)) :
    ansDvfsSet b u = if (dvfsOf v k).phase = 0 ∧ (dvfsOf v k).stored = none then .done (dvfsResult (dvfsOf v k) false :: rep) v
      else .waits (.dvfs k) rep v := by
  unfold ansDvfsSet
  dsimp only
  rw [← hw, ← hk, ← hf, ← hrep, ← hv,
    if_neg (by simpa [any_awaits_dvfs_eq_false hfree] using hphase)]

variable {k : Nat} {d : Dvfs}

theorem voutConfirm_near {mv : Nat} (hd : d = dvfsOf u k) (hphase : d.phase = 1) (htime : u.now ≤ d.since + 2 * ms)
    (hlow : mv ≤ voltsOf d.goal + 10) (hhigh : voltsOf d.goal ≤ mv + 10) :
    voutConfirm k mv u = setDvfs k { d with vout := mv, phase := 2, since := u.now } u := by
  subst hd
  exact if_pos ⟨hphase, htime, hlow, hhigh⟩

theorem rampDone_raised (hd : d = dvfsOf u k) (hphase : d.phase = 2) (hup : d.live < d.goal)
    (htime : d.since + (d.goal - d.live) * 10 * ns ≤ u.now) : rampDone k u = endDvfs k d.goal d.vout false u := by
  subst hd
  unfold rampDone
  dsimp only
  rw [if_pos ⟨hphase, by rwa [Nat.sub_eq_zero_of_le hup.le, Nat.add_zero]⟩, if_neg (by omega)]

theorem rampDone_lowered (hd : d = dvfsOf u k) (hphase : d.phase = 2) (hdown : d.goal < d.live)
    (htime : d.since + (d.live - d.goal) * 10 * ns ≤ u.now) : rampDone k u = endDvfs k d.goal (voltsOf d.goal) false u := by
  subst hd
  unfold rampDone
  dsimp only
  rw [if_pos ⟨hphase, by rwa [Nat.sub_eq_zero_of_le hdown.le, Nat.zero_add]⟩, if_pos hdown]

theorem dvfsFault_timeout {f : Nat} (hd : d = dvfsOf u k) (hphase : d.phase = 1) (htime : d.since + 2 * ms ≤ u.now)
    (hf : f = min d.live d.goal) : dvfsFault k 0 u = endDvfs k f (voltsOf f) true
      (record 0x1202 ([k, 0] ++ beBytes 2 f ++ beBytes 2 (voltsOf f)) (raise (0x120030 + 4 * k) 31 u)) := by
  subst hd hf
  unfold dvfsFault
  dsimp only
  rw [if_neg (by omega)]

end

/-- Settles O57. -/
theorem powerStatesAndDvfsRun : Obligations.PowerStatesAndDvfsRun := by
  unfold Obligations.PowerStatesAndDvfsRun
  refine ⟨?_, ?_, ?_, ?_, ?_, ?_, ?_, ?_, ?_, ?_, ?_, ?_, ?_, ?_, ?_, ?_, ?_⟩
  · intro h b s u g hs hu hg href htarget hne
    exact run_wait hs hu (ansPowerStateSet_begins hg href htarget hne)
  · intro h b s u g hs hu hg href htarget heq
    exact run_done hs hu (ansPowerStateSet_there hg href htarget heq)
  · intro h b s u v ws hs hu hel hws hv
    exact run_done hs hu (ansWakeConfig_alarm hel hws hv)
  · intro t s u hu hstate htarget hempty
    exact ev_next hu (if_pos ⟨hstate, htarget, hempty⟩)
  · intro t s u hu hstate htarget
    exact ev_next hu (if_pos ⟨hstate, htarget⟩)
  · intro n s v w hv hw hq
    exact powerReached_unqueued hv hw hq
  · intro t s u hu hstate htarget hidle
    obtain ⟨v, hv, hcool⟩ := standbyEntry_reached hstate htarget hidle
    exact ⟨v, ev_next hu hv, hcool⟩
  · intro t s u v w hu hstate htarget hv hw
    exact ev_next hu (standbyReturn_reached hstate htarget hv hw)
  · intro t s u v w hu hstate htarget hpast hhalt hq hv hw
    exact ev_next hu (sleepCommit_reached hstate htarget hpast hhalt hq hv hw)
  · intro t s u hu hflag hstate hwaking
    exact ev_next hu (wakeBy_asleep hflag hstate hwaking)
  · intro t s u hu halarm hflag hstate hwaking
    exact ev_next (f := rtcWake) hu ((rtcWake_due halarm).trans (wakeBy_asleep hflag hstate hwaking))
  · intro t s u hu hflag hstate hwaking
    exact ev_next (f := slowWake (0x58 + u.boot.slvAdr % 8)) hu (slowWake_own.trans (wakeBy_asleep hflag hstate hwaking))
  · intro h b s u w k f v rep hs hu hw hk hfree hphase hf hrep hv
    exact run_ite_waits hs hu (ansDvfsSet_free hw hk hfree hphase hf hrep hv)
  · intro t k mv s u d hu hk hd hphase htime hlow hhigh
    exact ev_if (p := fun _ => k < 4) (f := voutConfirm k mv) hu hk (voutConfirm_near hd hphase htime hlow hhigh)
  · intro t k s u d hu hk hd hphase hup htime
    exact ev_if (p := fun _ => k < 4) (f := rampDone k) hu hk (rampDone_raised hd hphase hup htime)
  · intro t k s u d hu hk hd hphase hdown htime
    exact ev_if (p := fun _ => k < 4) (f := rampDone k) hu hk (rampDone_lowered hd hphase hdown htime)
  · intro t k s u d f hu hk hd hphase htime hf
    exact ev_if (p := fun _ => k < 4 ∧ 0 < 2) (f := dvfsFault k 0) hu ⟨hk, by decide⟩ (dvfsFault_timeout hd hphase htime hf)

end Sys2Proof.Machine

/-! SUPPORT. Snapshots, performance counters, the event recorder and in-service tests (19, 9.9). -/
namespace Sys2Proof.Machine
open Sys2Proof

section
variable {h : Hdr} {b : Body} {u : State}

/-! ## Snapshots and performance counters -/

theorem snapTrigger_fires {n : Nat} {at_ : Nat} (hsrc : n = 4 ∨ flag u 0x130000 n = true) (hstate : u.pwr.state ≠ 3) (hstep : 4 ≤ u.boot.step) :
    snapTrigger n at_ u = fireSnap n at_ u := if_pos ⟨hsrc, hstate, hstep⟩

theorem ansSnapArm_src {w : Word} (h1 : hasElem b 0x9001 = true) (h2 : hasElem b 0x9002 = false) (h3 : hasElem b 0x9003 = false)
    (h4 : hasElem b 0x9004 = false) (hw : w = wordAt (wordsOf b 0x9001) 0) :
    ansSnapArm b u = .done [] (setFld 0x130000 6 5 (w.bits 6 5) (setFld 0x130000 3 0 (w.bits 3 0) u)) := by
  subst hw
  simp only [ansSnapArm, h1, h2, h3, h4, Bool.false_eq_true, if_false, if_true]

theorem ansSnapArm_time (h1 : hasElem b 0x9001 = false) (h2 : hasElem b 0x9002 = true) (h3 : hasElem b 0x9003 = false)
    (h4 : hasElem b 0x9004 = false) : ansSnapArm b u = .done [] (armMatch 6 (bytesNat (wordsOf b 0x9002) 3 5) u) := by
  simp only [ansSnapArm, h1, h2, h3, h4, Bool.false_eq_true, if_false, if_true]

theorem ansSnapRead_named {ws : List Word} {k : Nat} (hws : ws = wordsOf b 0x9005) (hk : namedBank u (byteAt ws 0) = some k) :
    ansSnapRead b u = .done [elemW 0x1006 (snapHeader k (snapBank u k)), elemW 0x1007 (snapData (snapBank u k))]
      (if (byteAt ws 1).testBit 0 then setBank k { snapBank u k with state := 0 } u else u) := by
  subst hws
  unfold ansSnapRead
  dsimp only
  rw [hk]
  rfl

theorem ansPerfConfig_select {e : Elem} {v : State} {r : Body} (hel : elemsOf b 0x9008 = [e]) (hcmd : hasElem b 0x1009 = false)
    (happ : applySel e (perfSettle u) = (v, r)) : ansPerfConfig b u = .done r v := by
  simp only [ansPerfConfig, hel, hcmd, List.foldl_cons, List.foldl_nil, happ, List.nil_append, Bool.false_eq_true, if_false, false_and]

section
variable {n x : Nat}

theorem takeSample_kept (hn : n < 48) (hon : flag u 0x130050 0 = true) (hen : flag u (0x130100 + 4 * n) 31 = true)
    (hsel : fld u (0x130100 + 4 * n) 4 0 ≠ 0)
    (hroom : (u.obs.samples.filter fun y => decide (perfGroup y.counter = perfGroup n)).length < 16) :
    takeSample n x u = raise 0x130054 (perfGroup n) { u with obs := { u.obs with samples := u.obs.samples ++
      [{ counter := n, proc := decide (40 ≤ n), value := x % 2 ^ 32, stamp := fast u }] } } := by
  unfold takeSample
  rw [if_neg (by simp only [hon, hen, hsel, Bool.true_eq_false, or_false]; omega), if_neg (by omega)]

theorem takeSample_lost (hn : n < 48) (hon : flag u 0x130050 0 = true) (hen : flag u (0x130100 + 4 * n) 31 = true)
    (hsel : fld u (0x130100 + 4 * n) 4 0 ≠ 0)
    (hfull : 16 ≤ (u.obs.samples.filter fun y => decide (perfGroup y.counter = perfGroup n)).length) :
    takeSample n x u = bumpFld 0x130054 31 16 1 u := by
  unfold takeSample
  rw [if_neg (by simp only [hon, hen, hsel, Bool.true_eq_false, or_false]; omega), if_pos hfull]

end

/-! ## The event recorder -/

theorem commitDue_reached {r : Rec} {l : List Rec} (hall : u.evr.staged ++ u.evr.ddr = r :: l) (hstep : 4 ≤ u.boot.step)
    (hstate : u.pwr.state < 3) (hdue : 128 ≤ u.evr.staged.length ∨ r.at_ + sec ≤ u.now) :
    commitDue u = commit (128 - u.evr.written % 128) u := by
  rw [commitDue, hall]
  exact if_pos ⟨hstep, hstate, hdue⟩

theorem refillToken_below {c n : Nat} {x : Bucket} (hx : look u.evr.buckets c = some x) (hdue : x.due ≤ u.now)
    (hn : n = min x.tokens (fld u 0x140000 23 16) + 1) (hdepth : n < fld u 0x140000 23 16) : refillToken c u =
      { u with evr := { u.evr with buckets := put u.evr.buckets c { tokens := n, due := x.due + tokenGap u } } } := by
  subst hn
  unfold refillToken
  rw [hx]
  dsimp only
  rw [if_neg (by omega), if_neg (by omega)]

theorem closeWindow_reached {c : Nat} {w : SupWindow} (hw : look u.evr.windows c = some w) (htime : w.opened + 60 * sec ≤ u.now) :
    closeWindow c u = recordResp 0x1301 4 [suppressedData c w.count 60] 7 { u with evr := { u.evr with windows := del u.evr.windows c } } := by
  unfold closeWindow
  rw [hw]
  exact if_neg (by omega)

/-- Without REC_COUNT up to 64 records are read, and nothing is reported as applied. -/
theorem ansRecorderRead_unsigned {ws : List Word} {l : List Rec} (hws : ws = wordsOf b 0x900C) (hsigned : hasElem b 0x900E = false)
    (hcount : elemOf b 0x100D = none) (hl : recordsFrom (if byteAt ws 0 = 0 then u.evr.keep else u.evr.circ) (wordAt ws 1).toNat = some l) :
    ansRecorderRead b u = .done [elemB 0x100F ((l.take 64).flatMap recBytes), elemW 0x1011 [w32 (l.take 64).length, 0xFFFFFFFF]] u := by
  subst hws
  have hn : min (Legal.apply (.range 1 240) 32 (64 : Word).toNat) 240 = 64 := by decide
  have hrep : reportElem 0x100D 0 64 (w32 64) = [] := by decide
  simp only [ansRecorderRead, hsigned, hcount, Bool.false_eq_true, if_false, hl, hn, hrep, List.append_nil]

theorem ansRecorderClear_ticket {i n : Nat} {l : List Nat} {v w : State} (ht : ticketsFor 0x1005 1 h b u = some (i :: l))
    (hv : v = commitAll (useTickets b u)) (hn : n = (v.evr.circ.getLast?.map (·.seq)).getD 0)
    (hw : w = commitAll (recordResp 0x1302 4 [[credOf u h.session, i, 0, 0] ++ beBytes 4 n] 7 v)) :
    ansRecorderClear h b u = .done [] { w with evr := { w.evr with circ := w.evr.circ.drop (w.evr.circ.length - 1) } } := by
  unfold ansRecorderClear
  rw [dual_ticket ht]
  dsimp only
  rw [← hv]
  subst hn hw
  cases v.evr.circ.getLast? <;> rfl

end

/-- Settles O58. -/
theorem snapshotsAndCounters : Obligations.SnapshotsAndCounters := by
  unfold Obligations.SnapshotsAndCounters
  refine ⟨?_, ?_, ?_, ?_, ?_, ?_, ?_, ?_, ?_⟩
  · intro h b s u w hs hu h1 h2 h3 h4 hw
    exact run_done hs hu (ansSnapArm_src h1 h2 h3 h4 hw)
  · intro h b s u hs hu h1 h2 h3 h4
    exact run_done hs hu (ansSnapArm_time h1 h2 h3 h4)
  · intro t s u hu hflag hstate hstep
    exact ev_next (f := snapPin) hu (snapTrigger_fires (.inr hflag) hstate hstep)
  · intro t n s u hu hn hsrc hstate hstep
    exact ev_next (f := triggered n) hu ((if_pos hn).trans (snapTrigger_fires hsrc hstate hstep))
  · intro h b s u ws k hs hu hws hk
    exact run_done hs hu (ansSnapRead_named hws hk)
  · intro h b s u e v r hs hu hel hcmd happ
    exact run_done hs hu (ansPerfConfig_select hel hcmd happ)
  · rintro h b s u _ hs hu rfl
    exact run_done hs hu rfl
  · intro t n x s u hu hn hon hen hsel hroom
    exact ev_next hu (takeSample_kept hn hon hen hsel hroom)
  · intro t n x s u hu hn hon hen hsel hfull
    exact ev_next hu (takeSample_lost hn hon hen hsel hfull)

/-- Settles O59. -/
theorem recorderRuns : Obligations.RecorderRuns := by
  unfold Obligations.RecorderRuns
  refine ⟨?_, ?_, ?_, ?_, ?_⟩
  · intro t s u r l hu hall hstep hstate hdue
    exact ev_next hu (commitDue_reached hall hstep hstate hdue)
  · intro t c s u x n hu hx hdue hn hdepth
    exact ev_next hu (refillToken_below hx hdue hn hdepth)
  · intro t c s u w hu hw htime
    exact ev_next hu (closeWindow_reached hw htime)
  · intro h b s u ws l hs hu hws hsigned hcount hl
    exact run_done hs hu (ansRecorderRead_unsigned hws hsigned hcount hl)
  · intro h b s u i l v n w hs hu ht hv hn hw
    refine run_done hs hu (ansRecorderClear_ticket ht hv ?_ hw)
    rw [hn]
    cases v.evr.circ.getLast? <;> rfl

/-! ## In-service tests -/

section
variable {h : Hdr} {b : Body} {u : State}

theorem settleSelftest_none (hnone : u.obs.selftest = none) : settleSelftest u = u := by rw [settleSelftest, hnone]

theorem unitResult_none {n r : Nat} (hnone : u.obs.selftest = none) : unitResult n r u = u := by rw [unitResult, hnone]

theorem ansSelftestRun_units {m : Nat} {v : State} (hfull : scopeFull (wordsOf b 0x9012) = false) (hnone : u.obs.selftest = none)
    (hm : m = scopeUnits (wordsOf b 0x9012)) (hv : v = startOp 0x1006 h.world h.mailbox h.tag u) (hin : ∀ n ∈ unitsOf m, unitOut v n = false) :
    ansSelftestRun h b u = .prog [opIdElem (nextOp u)] (settleSelftest { v with obs := { v.obs with
      selftest := some { op := nextOp u, at_ := v.now, units := m, left := m, results := [], full := false } } }) := by
  have hout : (unitsOf m).filter (fun n => unitOut v n) = [] := List.filter_eq_nil_iff.mpr fun n hn => by simp [hin n hn]
  simp only [ansSelftestRun, hfull, hnone, Bool.false_eq_true, if_false, false_and, Option.isSome_none, ← hm, ← hv, hout, List.foldl_nil]

section
variable {k n : Nat} {brk : Nat} {x : Tile}

theorem tileTestStart_whole (hnone : u.obs.selftest = none) (hstep : 8 ≤ u.boot.step) (hstate : u.pwr.state = 0)
    (hon : testOn u (6 * brk + k) = true) (hx : x = tile u brk k) (hfailed : x.failed = false) (htesting : x.testing = false) (hrole : x.role = 0)
    (hfree : tileFree u brk k = true) (hwhole : wholeTest u brk k = true) :
    tileTestStart brk k u = setTile brk k { x with testing := true, segments := 0, testAt := u.now } u := by
  subst hx
  simp only [tileTestStart, settleSelftest_none hnone, hrole, hwhole, hfree, hfailed, htesting, hstate, hon, decide_true, Bool.and_self,
    Bool.true_or, if_true, ne_eq, not_true_eq_false, Bool.true_eq_false, Bool.false_eq_true, or_false, Nat.not_lt.mpr hstep,
    if_false, Nat.reduceLeDiff]

theorem tileTestDone_passes (hx : x = tile u brk k) (htesting : x.testing = true) (htime : x.testAt + 2048 * bc u brk ≤ u.now) :
    tileTestDone brk k true u = unitResult (6 * brk + k) 0
      (setTile brk k { x with testing := false, segments := 0, since := u.now, overdue := false } u) := by
  subst hx
  unfold tileTestDone
  dsimp only
  rw [if_neg (by simp only [htesting, Bool.true_eq_false, false_or]; omega), if_pos rfl]

theorem tileTestDone_fails (hx : x = tile u brk k) (htesting : x.testing = true) (htime : x.testAt + 2048 * bc u brk ≤ u.now) :
    tileTestDone brk k false u = unitResult (6 * brk + k) 1 (tileFails brk k u) := by
  subst hx
  unfold tileTestDone
  dsimp only
  rw [if_neg (by simp only [htesting, Bool.true_eq_false, false_or]; omega), if_neg (by decide)]

/-- The conditions under which a vault unit's in-service test runs. -/
theorem istRun_runs {ok : Bool} (hnone : u.obs.selftest = none) (hlow : 24 ≤ n) (hhigh : n < 41) (hstep : 6 ≤ u.boot.step)
    (hstate : u.pwr.state ≠ 3) (hon : testOn u n = true) (hin : unitOut u n = false) (hidle : unitIdle u n = true) : istRun n ok u =
      if ok then unitResult n 0 { u with obs := { u.obs with
        lastPass := put u.obs.lastPass n u.now, overdue := u.obs.overdue.filter fun v => decide (v ≠ n) } }
      else unitResult n 1 (unitFails n u) := by
  unfold istRun
  rw [settleSelftest_none hnone]
  dsimp only
  rw [if_neg (by simp only [hon, hin, hidle, hstate, Bool.true_eq_false, Bool.false_eq_true, or_false]; omega)]

theorem istOverdue_vault (hnone : u.obs.selftest = none) (hlow : 24 ≤ n) (hhigh : n < 41) (hstep : 8 ≤ u.boot.step) (hstate : u.pwr.state ≠ 3)
    (hon : flag u 0x130400 0 = true) (hin : unitOut u n = false) (hnew : n ∉ u.obs.overdue)
    (htime : testedAt u n + unitInterval n ≤ u.now) : istOverdue n u =
      record 0x0903 ([n, 0, 0, 0] ++ beBytes 4 (cap (2 ^ 32 - 1) ((u.now - testedAt u n) / sec)))
        { u with obs := { u.obs with overdue := n :: u.obs.overdue } } := by
  have hover : overdueOf u n = false := by
    rw [overdueOf, if_neg (by omega)]
    simpa using hnew
  unfold istOverdue
  rw [settleSelftest_none hnone]
  dsimp only
  rw [if_neg (by simp only [hon, hin, hover, hstate, Bool.true_eq_false, Bool.false_eq_true, false_or]; omega), if_neg (by omega)]

end
end

/-- Settles O60. -/
theorem inServiceTestsRun : Obligations.InServiceTestsRun := by
  unfold Obligations.InServiceTestsRun
  refine ⟨?_, ?_, ?_, ?_, ?_, ?_, ?_⟩
  · intro h b s u m v hs hu hfull hnone hm hv hin
    exact run_prog hs hu (ansSelftestRun_units hfull hnone hm hv hin)
  · intro t b k s u x hu hb hk hnone hstep hstate hon hx hfailed htesting hrole hfree hwhole
    exact ev_if (p := fun _ => b < 4 ∧ k < 6) (f := tileTestStart b k) hu ⟨hb, hk⟩
      (tileTestStart_whole hnone hstep hstate hon hx hfailed htesting hrole hfree hwhole)
  · intro t b k s u x hu hb hk hx htesting htime
    exact ev_if (p := fun _ => b < 4 ∧ k < 6) (f := tileTestDone b k true) hu ⟨hb, hk⟩ (tileTestDone_passes hx htesting htime)
  · intro t b k s u x hu hb hk hx htesting htime
    exact ev_if (p := fun _ => b < 4 ∧ k < 6) (f := tileTestDone b k false) hu ⟨hb, hk⟩ (tileTestDone_fails hx htesting htime)
  · intro t n s u hu hnone hlow hhigh hstep hstate hon hin hidle
    exact ev_next hu ((istRun_runs hnone hlow hhigh hstep hstate hon hin hidle).trans (unitResult_none hnone))
  · intro t n s u hu hnone hlow hhigh hstep hstate hon hin hidle
    exact ev_next hu (istRun_runs (ok := false) hnone hlow hhigh hstep hstate hon hin hidle)
  · intro t n s u hu hnone hlow hhigh hstep hstate hon hin hnew htime
    exact ev_next hu (istOverdue_vault hnone hlow hhigh hstep hstate hon hin hnew htime)

end Sys2Proof.Machine

/-! SUPPORT. PTP (6.4, 6.5): the configuration, messages and one-step frames. -/
namespace Sys2Proof.Machine
open Sys2Proof

/-- Ports that are fit and whose SCs no command holds replace the configuration. -/
theorem ansPtpConfig_fit {b : Body} {u : State} {c : Word} {kept : Body} {ports : List PtpPort}
    (hc : c = clockApplied (if hasElem b 0x0410 then wordAt (wordsOf b 0x0410) 0 else word4 0 2 0 0))
    (hkept : kept = (if c.bits 31 24 = 1 then (elemsOf b 0x8411).take 1 else elemsOf b 0x8411))
    (hports : ports = kept.map (fun e => { ptpPortOf (ptpPortApplied u (c.bits 23 16) e.val) with since := u.now }))
    (hfree : ∀ k ∈ ptpScs u ports, scHeld u k = false) (hfit : ∀ q ∈ ports, ptpPortOk u q = true) (hservo : hasElem b 0x0412 = false) :
    ∃ r, ansPtpConfig b u = .done r (fillBanks 1 0 (fillBanks 0 0 (freeReserved 1 (freeReserved 0
      { u with time := { u.time with ptpType := c.bits 31 24, ptpProfile := c.bits 23 16, ptpDomain := c.bits 15 8,
                                     ptpPrio1 := c.bits 7 0, ptpPorts := ports, ptpIn := [] } })))) := by
  have hmap : (kept.map fun e => ptpPortApplied u (c.bits 23 16) e.val).map (fun ws => { ptpPortOf ws with since := u.now }) = ports := by
    rw [hports, List.map_map]
    rfl
  have hheld : (ptpScs u ports).any (scHeld u) = false := List.any_eq_false.mpr fun k hk => by simp [hfree k hk]
  have hok : ports.all (ptpPortOk u) = true := List.all_eq_true.mpr hfit
  unfold ansPtpConfig
  dsimp only
  rw [← hc, ← hkept, hmap, if_neg (by simp [hheld]), if_neg (by simp [hok]), if_neg (by simp [hservo])]
  exact ⟨_, rfl⟩

section
variable {p : Nat} {m : PtpMsg} {u v : State} {q : PtpPort} {a : Nat}

/-! ## Messages received -/

theorem ptpRx_taken (hq : ptpPort u p = some q) (ha : takeArrival p u = some (a, v)) (heth : p < 2 ∨ lpTrunk v (p - 2) = false) :
    ptpRx p m u = if m.domain ≠ v.time.ptpDomain then { v with time := { v.time with ptpDiscard := v.time.ptpDiscard + 1 } }
      else ptpUse q m a v := by
  unfold ptpRx
  rw [hq, ha]
  refine if_neg ?_
  rintro ⟨hp, htrunk⟩
  rcases heth with h | h
  · omega
  · simp [h] at htrunk

theorem ptpRx_used {w : State} (hq : ptpPort u p = some q) (ha : takeArrival p u = some (a, v)) (heth : p < 2 ∨ lpTrunk v (p - 2) = false)
    (hdomain : m.domain = v.time.ptpDomain) (huse : ptpUse q m a v = w) : ptpRx p m u = w := by
  rw [ptpRx_taken hq ha heth, if_neg (not_not.mpr hdomain), huse]

theorem ptpUse_announce (hkind : m.kind = 1) (hother : m.clock.id ≠ clockId v) (hsteps : m.clock.steps < 255) (hbest : bestOf v q = none) :
    ptpUse q m a v = runBmca (updPtp q.port (fun x => { x with best := some (m.clock, m.source), bestAt := v.now }) v) := by
  unfold ptpUse
  rw [hkind]
  simp only [hbest, hother, Nat.not_le.mpr hsteps, Bool.true_eq_false, or_self, if_false]

theorem ptpUse_sync {c : PtpClock} (hkind : m.kind = 0) (hslave : q.state = 1) (hbest : q.best = some (c, m.source)) (hstep : m.twoStep = false) :
    ptpUse q m a v = syncMeasured q ((a : Int) - m.time - m.corr) v := by
  unfold ptpUse
  rw [hkind]
  simp only [hslave, hbest, hstep, decide_true, Bool.and_self, Bool.true_eq_false, Bool.false_eq_true, if_false]

theorem ptpUse_followUp {c : PtpClock} {x : Nat} {y : Int} (hkind : m.kind = 2) (hslave : q.state = 1) (hbest : q.best = some (c, m.source))
    (hsync : q.rxSync = some (m.seq, x, y)) : ptpUse q m a v = syncMeasured q ((x : Int) - m.time - y - m.corr) v := by
  unfold ptpUse
  rw [hkind]
  simp only [hslave, hbest, hsync, decide_true, Bool.and_self, and_self, if_true]

theorem syncMeasured_slave {d : Int} {s : State} (hslave : q.state = 1) (hsrc : servoSrc s = 1) (hprofile : 1 ≤ s.time.ptpProfile) :
    syncMeasured q d s = measure (d - q.linkDelay) (updPtp q.port (fun x => { x with syncDiff := some d, rxSync := none }) s) := by
  have hsrc' : ∀ f, servoSrc (updPtp q.port f s) = 1 := fun _ => hsrc
  simp only [syncMeasured, if_pos hprofile, hslave, hsrc', and_self, if_true]

/-! ## Messages sent -/

variable {k d : Nat} {s : State}

/-- What a port that sends a kind of message does, before its step is looked at. -/
theorem ptpTx_sends (hu : u = runBmca s) (hq : ptpPort u p = some q) (heth : p < 2 ∨ lpTrunk u (p - 2) = false) (hheld : dataHeld u = false)
    (hsends : ptpSends u q k = true) (hm : ptpMsgOf u q k = some m) : ptpTx p k d s =
      if stepOf u q = 1 ∧ (k = 0 ∨ k = 6) then inject q m d u
      else if canSend u (spKey p q.sub) = false then u
      else match ptpProtect q u with
        | (s, none) => s
        | (s, some sa) => sendPtp (spKey p q.sub) q.transport m sa (if [0, 3, 5, 6].contains k then some (txStampTod s p) else none)
            (updPtp p (ptpSent m (txStampTod s p)) s) := by
  have htrunk : ¬ (2 ≤ p ∧ lpTrunk u (p - 2) = true) := by
    rintro ⟨hp, htrunk⟩
    rcases heth with h | h
    · omega
    · simp [h] at htrunk
  unfold ptpTx
  dsimp only
  rw [← hu, hq]
  dsimp only
  rw [if_neg (by simp [htrunk, hheld, hsends]), hm] <;> rfl

theorem ptpTx_twoStep {sa : Option (Nat × Nat)} (hu : u = runBmca s) (hq : ptpPort u p = some q)
    (heth : p < 2 ∨ lpTrunk u (p - 2) = false) (hheld : dataHeld u = false) (hsends : ptpSends u q k = true) (hm : ptpMsgOf u q k = some m)
    (hstep : stepOf u q ≠ 1 ∨ (k ≠ 0 ∧ k ≠ 6)) (hcan : canSend u (spKey p q.sub) = true) (hsa : ptpProtect q u = (v, some sa)) :
    ptpTx p k d s = sendPtp (spKey p q.sub) q.transport m sa (if [0, 3, 5, 6].contains k then some (txStampTod v p) else none)
      (updPtp p (ptpSent m (txStampTod v p)) v) := by
  rw [ptpTx_sends hu hq heth hheld hsends hm, if_neg (by omega), if_neg (by simp [hcan]), hsa]

theorem ptpProtect_clear (hp : q.port < 2) : ptpProtect q u = (u, some none) := if_pos hp

theorem ptpTx_oneStep (hu : u = runBmca s) (hq : ptpPort u p = some q)
    (heth : p < 2 ∨ lpTrunk u (p - 2) = false) (hheld : dataHeld u = false) (hsends : ptpSends u q k = true) (hm : ptpMsgOf u q k = some m)
    (hstep : stepOf u q = 1) (hk : k = 0 ∨ k = 6) : ptpTx p k d s = inject q m d u := by
  rw [ptpTx_sends hu hq heth hheld hsends hm, if_pos ⟨hstep, hk⟩]

/-! ## One-step frames -/

theorem inject_stands (hdep : 4000 ≤ stampDiff s d) (hfree : has s.time.oneSteps q.port = false) :
    ∃ x, look (inject q m d s).time.oneSteps q.port = some x ∧ x.tDep = d % 2 ^ 42 ∧
      x.tRel = unsignedOf 42 ((d : Int) - (txDelayOf s q.port : Nat) - txCorr s q.port) ∧ x.dispatched = false := by
  unfold inject
  rw [if_neg (by simp only [hfree, Bool.false_eq_true, or_false]; omega)]
  exact ⟨_, look_put_same .., rfl, rfl, rfl⟩

variable {x : OneStep}

theorem oneStepDispatch_due {sa : Option (Nat × Nat)} (hx : look u.time.oneSteps p = some x) (hnew : x.dispatched = false)
    (hq : ptpPort u p = some q) (hdue : stampDiff u x.tRel * 250 ≤ (fld u 0x040060 9 0 * bc u (feeder p) : Nat)) (hstep : stepOf u q ≠ 0)
    (hsa : ptpProtect q u = (v, some sa)) : oneStepDispatch p u = { v with time := { v.time with
      oneSteps := put v.time.oneSteps p { x with
        dispatched := true, sa := sa, msg := oneStepWritten v x,
        atRelease := decide ((32 * bc v (feeder p) : Nat) ≤ stampDiff u x.tRel * 250) } } } := by
  unfold oneStepDispatch
  rw [hx]
  dsimp only
  rw [if_neg (by simp only [hnew, Bool.false_eq_true, false_or]; omega), hq]
  dsimp only
  rw [if_neg hstep, hsa]

theorem oneStepRelease_due (hx : look u.time.oneSteps p = some x) (hdue : stampDiff u x.tRel ≤ 0) (hearly : -2 ≤ stampDiff u x.tRel)
    (hclean : x.disturbed = false) (hdispatched : x.dispatched = true) (hready : x.atRelease = true) (hbusy : macBusy u x.port = false)
    (hcan : canSend u x.port = true) (ha : a = 0x040104 + 0x10 * spPort x.port)
    (hv : v = { u with time := { u.time with oneSteps := del u.time.oneSteps p } }) :
    oneStepRelease p u = sendPtp x.port x.transport x.msg x.sa none (setReg a (regWord u a + 1) v) := by
  subst ha hv
  unfold oneStepRelease
  rw [hx]
  dsimp only
  rw [if_neg (by omega), if_neg (by simp [hclean]),
    if_neg (by simp only [hdispatched, hready, hbusy, Bool.true_eq_false, Bool.false_eq_true, or_false, false_or]; omega),
    if_neg (by simp [hcan])]

end

/-- Settles O32. -/
theorem ptpRuns : Obligations.PtpRuns := by
  unfold Obligations.PtpRuns
  refine ⟨?_, ?_, ?_, ?_, ?_, ?_, ?_, ?_, ?_, ?_, ?_, ?_⟩
  · intro h b s u c kept ports hs hu hc hkept hports hfree hfit hservo
    obtain ⟨r, hr⟩ := ansPtpConfig_fit hc hkept hports hfree hfit hservo
    exact ⟨r, run_done hs hu hr⟩
  · intro t p m s u v q a hu hq ha heth hdomain
    exact ev_next hu ((ptpRx_taken hq ha heth).trans (if_pos hdomain))
  · intro t p m s u v q a hu hq ha heth hdomain hkind hother hsteps hbest
    exact ev_next hu (ptpRx_used hq ha heth hdomain (ptpUse_announce hkind hother hsteps hbest))
  · intro t p m s u v q a c hu hq ha heth hdomain hkind hslave hbest hstep
    exact ev_next hu (ptpRx_used hq ha heth hdomain (ptpUse_sync hkind hslave hbest hstep))
  · intro t p m s u v q a c x y hu hq ha heth hdomain hkind hslave hbest hsync
    exact ev_next hu (ptpRx_used hq ha heth hdomain (ptpUse_followUp hkind hslave hbest hsync))
  · exact fun q d s hslave hsrc hprofile => syncMeasured_slave hslave hsrc hprofile
  · intro t p k d s u q m hu hq hp hport hheld hsends hm hstep hcan
    exact ev_next rfl (ptpTx_twoStep hu hq (.inl hp) hheld hsends hm hstep hcan (ptpProtect_clear (by omega)))
  · intro t p k d s u v q m e n hu hq _ heth hheld hsends hm hstep hcan hsa
    exact ev_next rfl (ptpTx_twoStep hu hq (.inr heth) hheld hsends hm hstep hcan hsa)
  · intro t p k d s u q m hu hq heth hheld hsends hm hstep hk
    exact ev_next rfl (ptpTx_oneStep hu hq heth hheld hsends hm hstep hk)
  · exact fun q m d s hdep hfree => inject_stands hdep hfree
  · intro t p s u x q v sa hu hx hnew hq hdue hstep hsa
    exact ev_next hu (oneStepDispatch_due hx hnew hq hdue hstep hsa)
  · intro t p s u x a v hu hx hdue hearly hclean hdispatched hready hbusy hcan ha hv
    exact ev_next hu (oneStepRelease_due hx hdue hearly hclean hdispatched hready hbusy hcan ha hv)

end Sys2Proof.Machine

/-! SUPPORT. Bond lanes and their line codes (04). -/
namespace Sys2Proof.Machine
open Sys2Proof

/-! ## The line codes (R102 to R104, Table 4.2) -/

/-- What is stuffed is destuffed: both keep the same run and last bit, so the bit inserted stands where the other deletes one. -/
theorem destuff_stuff (run : Nat) (last : Bool) (bits : List Bool) (hrun : run < 31) :
    destuff run last (stuff run last bits).1 = (bits, (stuff run last bits).2.1, (stuff run last bits).2.2, false) := by
  induction bits generalizing run last with
  | nil => rfl
  | cons b r ih =>
    have hfresh : run ≠ 31 := by omega
    generalize hn : (if b == last then run + 1 else 1) = n
    have hle : n ≤ 31 := by
      subst hn
      split <;> omega
    by_cases hfull : n = 31
    · simp only [stuff, hn, hfull, if_true, destuff, if_neg hfresh, ih 1 (!b) (by decide), Bool.not_beq_self, Bool.or_self]
    · simp only [stuff, hn, if_neg hfull, destuff, if_neg hfresh, ih n b (by omega)]

/-- The scrambler's state does not depend on the payload, so the same bits are added twice. -/
theorem scramble_scramble (st : Nat) (bits : List Bool) : (scramble st (scramble st bits).1).1 = bits := by
  induction bits generalizing st with
  | nil => rfl
  | cons b r ih => simp only [scramble, ih, Bool.bne_assoc, bne_self_eq_false, Bool.bne_false]

theorem scramble_length (st : Nat) (bits : List Bool) : (scramble st bits).1.length = bits.length := by
  induction bits generalizing st with
  | nil => rfl
  | cons b r ih => simp only [scramble, List.length_cons, ih]

theorem bit_testBit (b i : Nat) : bit (b.testBit i) = b / 2 ^ i % 2 := by
  rw [Nat.testBit_eq_decide_div_mod_eq, bit]
  split <;> simp_all

theorem bitsLsb_cons (b : Nat) (bs : List Nat) : bitsLsb (b :: bs) = ((List.range 8).map fun i => b.testBit i) ++ bitsLsb bs := List.flatMap_cons ..

/-- A byte is read back from its bits, lowest first. -/
theorem bytesLsb_succ_bitsLsb {b : Nat} (hb : b < 256) (n : Nat) (bs : List Nat) :
    bytesLsb (n + 1) (bitsLsb (b :: bs)) = b :: bytesLsb n (bitsLsb bs) := by
  have hrange : List.range 8 = [0, 1, 2, 3, 4, 5, 6, 7] := rfl
  rw [bytesLsb, bitsLsb_cons]
  refine congr (congrArg List.cons ?_) (congrArg (bytesLsb n) (List.drop_left' (by simp)))
  simp only [hrange, List.map_cons, List.map_nil, List.cons_append, List.nil_append, List.foldl_cons, List.foldl_nil, List.getD_cons_zero,
    List.getD_cons_succ, bit_testBit]
  omega

theorem bytesLsb_bitsLsb (bs : List Nat) (h : ∀ b ∈ bs, b < 256) : bytesLsb bs.length (bitsLsb bs) = bs := by
  induction bs with
  | nil => rfl
  | cons b r ih =>
    rw [List.length_cons, bytesLsb_succ_bitsLsb (h b List.mem_cons_self), ih fun x hx => h x (List.mem_cons_of_mem _ hx)]

theorem markerOf_marker {l c : Nat} (r : Bool) (hl : l < 2) (hc : c < 65536) :
    markerOf ([true, false] ++ bitsLsb [0xB1, 2 * bit r + l, c / 256 % 256, c % 256, 0x5A, 0x3C, 0xC3, 0xA5]) = some (r, c) := by
  have hr : bit r < 2 := by cases r <;> decide
  have hbytes : bytesLsb 8 (bitsLsb [0xB1, 2 * bit r + l, c / 256 % 256, c % 256, 0x5A, 0x3C, 0xC3, 0xA5]) =
      [0xB1, 2 * bit r + l, c / 256 % 256, c % 256, 0x5A, 0x3C, 0xC3, 0xA5] := by
    refine bytesLsb_bitsLsb [0xB1, 2 * bit r + l, c / 256 % 256, c % 256, 0x5A, 0x3C, 0xC3, 0xA5] fun b hb => ?_
    simp only [List.mem_cons, List.not_mem_nil, or_false] at hb
    omega
  have hrdi : (2 * bit r + l).testBit 1 = r := by
    interval_cases l <;> cases r <;> rfl
  have hcount : c / 256 % 256 * 256 + c % 256 = c := by omega
  simp only [markerOf, List.cons_append, List.nil_append, List.drop_succ_cons, List.drop_zero, List.take_succ_cons, List.take_zero, hbytes,
    List.getD_cons_zero, List.getD_cons_succ, and_self, if_true, hrdi, hcount]

/-- Settles O26: the inverses by induction on the bits, the marker through its bytes. -/
theorem lineCodesInvert : Obligations.LineCodesInvert := by
  unfold Obligations.LineCodesInvert
  exact ⟨fun run last bits hrun => destuff_stuff run last bits hrun, fun st bits => ⟨scramble_scramble st bits, scramble_length st bits⟩,
    fun l r c hl hc => markerOf_marker r hl hc, bytesLsb_bitsLsb⟩

/-! ## Bond lanes -/

section
variable {l : Nat} {s u : State} {blk : List Bool}

theorem bondLane_setBondLane (l : Nat) (x : BondLane) (s : State) : bondLane (setBondLane l x s) l = x := by
  unfold bondLane setBondLane
  split <;> rfl

theorem bondLaneMay_setBondLane (l k : Nat) (x : BondLane) (s : State) : bondLaneMay (setBondLane l x s) k = bondLaneMay s k := by
  unfold setBondLane
  split <;> rfl

theorem laneOut_eq (l : Nat) (s : State) : laneOut l s = setBondLane l { bondLane s l with
    inFrame := false, good := 0, errored := 0, sendRdi := true, searching := true, aligned := false, fill := 8 } s := by
  unfold laneOut setBondLane bondLane
  split <;> rfl

theorem laneIn_inFrame (hmay : bondLaneMay s l = true) : (bondLane (laneIn l s) l).inFrame = true := by
  rw [laneIn, if_pos hmay, bondLane_setBondLane]

theorem bondBlock_searching {b : BondBlock} {v : State} {x : BondLane} {bits : List Bool} {n : Nat} {c e : Bool} (hl : l < 2)
    (hmay : bondLaneMay u l = true) (hv : v = (List.range b.reads).foldl (fun s _ => sendBlock l s) u) (hx : x = bondLane v l)
    (hframe : x.inFrame = false) (hbits : destuff x.rxRun x.rxLast b.bits = (bits, n, c, e)) :
    bondBlock l b u = takeBlocks l (b.bits.length / 66 + 2) (setBondLane l { x with rxBuf := x.rxBuf ++ bits, rxRun := n, rxLast := c } v) := by
  unfold bondBlock
  rw [if_neg (by simp only [hmay, Bool.true_eq_false, or_false]; omega), ← hv]
  dsimp only
  rw [← hx, hbits]
  simp only [hframe, Bool.false_eq_true, if_false, and_false]

/-- The third marker in a row puts a lane in frame (R105). -/
theorem markerBlock_third {m : Bool × Nat} (hmay : bondLaneMay s l = true) (hm : markerOf blk = some m)
    (hcount : m.2 = ((bondLane s l).count + 1) % 65536) (hout : (bondLane s l).inFrame = false) (hgood : (bondLane s l).good = 2) :
    (bondLane (markerBlock l blk s) l).inFrame = true := by
  have hgot : (markerOf blk).filter (fun m => decide (m.2 = ((bondLane s l).count + 1) % 65536)) = some m := by
    rw [hm, Option.filter_some, if_pos (by simpa using hcount)]
  unfold markerBlock
  dsimp only
  rw [hgot]
  dsimp only
  rw [if_neg (by simp [hout]), if_pos (by omega)]
  exact laneIn_inFrame (by rw [bondLaneMay_setBondLane, hmay])

/-- A marker missed takes a lane out of frame after three before it (R105). -/
theorem markerBlock_missed (hm : ∀ m, markerOf blk = some m → m.2 ≠ ((bondLane s l).count + 1) % 65536) (hin : (bondLane s l).inFrame = true) :
    (bondLane (markerBlock l blk s) l).inFrame = decide ((bondLane s l).errored < 3) := by
  have hgot : (markerOf blk).filter (fun m => decide (m.2 = ((bondLane s l).count + 1) % 65536)) = none :=
    Option.filter_eq_none_iff.mpr fun m h => by simpa using hm m h
  unfold markerBlock
  dsimp only
  rw [hgot]
  dsimp only
  rw [if_pos hin]
  by_cases herr : 3 ≤ (bondLane s l).errored
  · rw [if_pos herr, laneOut_eq, bondLane_setBondLane, decide_eq_false (by omega)]
  · rw [if_neg herr, bondLane_setBondLane, decide_eq_true (by omega)]
    exact hin

theorem plainBlock_badHeader {h : Bool} (hin : (bondLane s l).inFrame = true) (hhead : blk.take 2 = [h, h]) : plainBlock l blk s =
    blockError l (setBondLane l { bondLane s l with rxScr := (scramble (bondLane s l).rxScr (blk.drop 2)).2 } s) := by
  unfold plainBlock
  dsimp only
  rw [hhead]
  cases h <;> exact if_pos hin

theorem sendBlock_marker {x : BondLane} (hx : x = bondLane s l) (hpos : x.txPos = 0) :
    ∃ v, sendBlock l s = send (.block l (stuff x.txRun x.txLast ([true, false] ++
      bitsLsb [0xB1, 2 * bit x.sendRdi + l, x.txCount / 256 % 256, x.txCount % 256, 0x5A, 0x3C, 0xC3, 0xA5])).1) v ∧
    (bondLane v l).txPos = 1 ∧ (bondLane v l).txCount = (x.txCount + 1) % 65536 ∧ (bondLane v l).txScr = 32767 := by
  subst hx
  have hnext : nextBlock l s = (([true, false], [0xB1, 2 * bit (bondLane s l).sendRdi + l, (bondLane s l).txCount / 256 % 256,
      (bondLane s l).txCount % 256, 0x5A, 0x3C, 0xC3, 0xA5]), s) := if_pos hpos
  unfold sendBlock
  rw [hnext]
  simp only [hpos, decide_true, if_true, bit]
  exact ⟨_, rfl, by rw [bondLane_setBondLane], by rw [bondLane_setBondLane], by rw [bondLane_setBondLane]⟩

end

/-! ## Test patterns and margin -/

section
variable {h : Hdr} {b : Body} {u : State} {n pattern : Nat} {s : State}

theorem get_setLane_same (n : Nat) (f : Lane → Lane) (s : State) : get (setLane n f s).lane.lanes n {} = f (get s.lane.lanes n {}) :=
  get_put_same ..

/-- The part of a lane that its test shows. -/
def testShown (x : Lane) : Option (Nat × Nat) × Nat × Nat × Bool := (x.test, x.errored, x.compared, x.powered)

theorem testShown_adaptLane (n : Nat) (s : State) :
    testShown (get (adaptLane n s).lane.lanes n {}) = testShown (get s.lane.lanes n {}) := by
  unfold adaptLane
  dsimp only
  rw [get_setLane_same]
  rfl

/-- A lane that locks is powered, and its test goes on. -/
theorem testShown_lockLane {x : Lane} (hx : get s.lane.lanes n {} = x) (hpow : x.powered = true) :
    testShown (get (lockLane n s).lane.lanes n {}) = testShown x := by
  subst hx
  have hlock : ∀ c, testShown (get (setLane n (fun l => { l with powered := true, sigDet := true, cdrLock := true, ctleLive := c }) s).lane.lanes n
      {}) = testShown (get s.lane.lanes n {}) := fun c => by rw [get_setLane_same, testShown, testShown, hpow]
  unfold lockLane
  dsimp only
  split
  · exact (testShown_adaptLane n _).trans (hlock _)
  · exact hlock _

theorem prbsLane_generate : (prbsLane n 1 pattern s).1 = setLane n (fun _ => { get s.lane.lanes n {} with
    test := some (1, pattern), errored := 0, compared := 0, checkLock := false, powered := true, cdrLock := false, adaptDone := false }) s := rfl

/-- A test that starts has its pattern, its counts at 0 and its lane powered. -/
theorem prbsLane_starts {action : Nat} (hact : action ≠ 0) :
    testShown (get (prbsLane n action pattern s).1.lane.lanes n {}) = (some (action, pattern), 0, 0, true) := by
  unfold prbsLane
  dsimp only
  rw [if_neg hact]
  dsimp only
  have hset : ∀ t : State, t.lane = (setLane n (fun _ => { get s.lane.lanes n {} with
      test := some (action, pattern), errored := 0, compared := 0, checkLock := false, powered := true, cdrLock := false, adaptDone := false }) s).lane →
      testShown (get (lockLane n t).lane.lanes n {}) = (some (action, pattern), 0, 0, true) ∧
      testShown (get t.lane.lanes n {}) = (some (action, pattern), 0, 0, true) := by
    intro t ht
    have hget := congrArg (fun x => get x.lanes n {}) ht
    simp only [get_setLane_same] at hget
    exact ⟨testShown_lockLane hget rfl, by rw [hget]; rfl⟩
  split
  · split
    · exact (hset (drawBits 1 (setLane n _ s)).2 rfl).1
    · exact (hset (drawBits 1 (setLane n _ s)).2 rfl).2
  · exact (hset (setLane n _ s) rfl).2

theorem prbsLane_stops : (get (prbsLane n 0 pattern s).1.lane.lanes n {}).test = none := by
  unfold prbsLane
  dsimp only
  rw [if_pos rfl]
  dsimp only
  rw [get_setLane_same]

theorem ansLanePrbs_free {t : State} {es : Body} {act pat : Word}
    (hlanes : ∀ n ∈ maskLanes (wordsOf b 0x8304), laneFree u n = true ∧ patternFor n pat.toNat = pat.toNat)
    (hact : act = wordAt (wordsOf b 0x0303) 0) (hpat : pat = wordAt (wordsOf b 0x0302) 0) (hle : act.toNat ≤ 3)
    (hfold : (maskLanes (wordsOf b 0x8304)).foldl
      (fun acc n => ((prbsLane n act.toNat (patternFor n pat.toNat) acc.1).1, acc.2 ++ [(prbsLane n act.toNat (patternFor n pat.toNat) acc.1).2]))
      (u, []) = (t, es)) : ansLanePrbs b u = .done es t := by
  have hfree : (maskLanes (wordsOf b 0x8304)).all (laneFree u) = true := List.all_eq_true.mpr fun n hn => (hlanes n hn).1
  have hgood : (maskLanes (wordsOf b 0x8304)).find? (fun n => decide (patternFor n pat.toNat ≠ pat.toNat)) = none :=
    List.find?_eq_none.mpr fun n hn => by simp [(hlanes n hn).2]
  have hrep : reportElem 0x0303 0 act (w32 act.toNat) = [] := if_pos (by simp [w32])
  unfold ansLanePrbs
  dsimp only
  rw [← hact, ← hpat, if_pos hfree, if_pos hle, hfold, hgood]
  simp only [Option.map_none, ite_self, List.append_nil, hrep]

theorem ansLaneMargin_free {v : State} (htarget : elemOf b 0x0306 = none)
    (hfree : ∀ m ∈ u.lane.margins, ∀ l ∈ maskLanes (wordsOf b 0x8304), l ∉ m.lanes) (hv : v = startOp 0x0301 h.world h.mailbox h.tag u) :
    ansLaneMargin h b u = .prog [opIdElem (nextOp u)] { v with lane := { v.lane with
      margins := v.lane.margins ++ [{ op := nextOp u, lanes := maskLanes (wordsOf b 0x8304), target := 6 }] } } := by
  have hidle : (u.lane.margins.any fun m => (maskLanes (wordsOf b 0x8304)).any fun l => m.lanes.contains l) = false := by simpa using hfree
  have hn : Legal.apply (.range 4 12) 32 (6 : Word).toNat = 6 := by decide
  have hrep : reportElem 0x0306 0 6 (w32 6) = [] := by decide
  simp only [ansLaneMargin, htarget, hidle, hn, hrep, ← hv, Bool.false_eq_true, if_false]

theorem marginGroup_last {m : MarginOp} {r : List MarginOp} {v : State} {es : Body} (hm : u.lane.margins = m :: r) (hlen : m.lanes.length ≤ 4)
    (hfold : m.lanes.foldl (fun acc n => ((marginElem n acc.1).1, acc.2 ++ [(marginElem n acc.1).2])) (u, []) = (v, es)) :
    marginGroup u = endOp m.op stOk (m.results ++ es) { v with lane := { v.lane with margins := r } } := by
  unfold marginGroup
  rw [hm]
  dsimp only
  rw [List.take_of_length_le hlen, hfold]
  exact if_pos (List.drop_of_length_le hlen)

end

/-- Settles O25. -/
theorem lanesRun : Obligations.LanesRun := by
  unfold Obligations.LanesRun
  refine ⟨?_, ?_, ?_, ?_, ?_, ?_, ?_, ?_, ?_, ?_, ?_, ?_, ?_, ?_⟩
  · intro h b s u t es act pat hs hu hlanes hact hpat hle hfold
    exact run_done hs hu (ansLanePrbs_free hlanes hact hpat hle hfold)
  · exact fun n pattern s => prbsLane_generate
  · rintro n action pattern s l hact rfl
    have h := prbsLane_starts (n := n) (pattern := pattern) (s := s) hact
    simpa only [testShown, Prod.mk.injEq] using h
  · exact fun n pattern s => prbsLane_stops
  · intro h b s u v hs hu htarget hfree hv
    exact run_prog hs hu (ansLaneMargin_free htarget hfree hv)
  · intro t s u m r v es hu hm hlen hfold
    exact ev_next hu (marginGroup_last hm hlen hfold)
  · intro t l s u hu hl hmay
    exact ev_if (p := fun _ => l < 2) (f := laneIn l) hu hl (if_pos hmay)
  · intro t l s u hu hl
    exact ev_if (p := fun _ => l < 2) (f := laneOut l) hu hl (laneOut_eq l u)
  · intro t l b s u v x bits n c e hu hl hmay hv hx hframe hbits
    exact ev_next hu (bondBlock_searching hl hmay hv hx hframe hbits)
  · exact fun l blk s m _ hmay hm hcount hout hgood => markerBlock_third hmay hm hcount hout hgood
  · exact fun l blk s _ hm hin => markerBlock_missed hm hin
  · exact fun l blk s h _ hin hhead => plainBlock_badHeader hin hhead
  · exact fun l s x _ hx hpos => sendBlock_marker hx hpos
  · intro t q s u hu hq hlost
    exact ev_next (f := refRestore q) hu (if_pos ⟨hq, by simpa using hlost⟩)

end Sys2Proof.Machine

/-! SUPPORT. A partial write of a tree node that DDR gives with more bytes than a line has (16). -/
namespace Sys2Proof.Machine
open Sys2Proof

theorem storeLine_mem {ch a : Nat} (ha : 0x40000000 ≤ a) (s : State) : (storeLine ch a s).mem = s.mem := by
  rw [storeLine, countLine, if_pos ha]
  rfl

theorem channel_setChannel (ch : Nat) (c : Channel) (s : State) : channel (setChannel ch c s) ch = c := by
  unfold channel setChannel
  split <;> rfl

/-- A partial write stores all the bytes that DDR gave for a node, however many, and then its own words. -/
theorem memWrite_nodeBytes {u : State} {m ch a : Nat} {b : List Nat} {ws : List Word} (hgate : gateOf u m ch a true = .open_)
    (hinit : initialised u a = true) (ha : 0x40000000 ≤ lineBase a ∧ lineBase a < 0x4A000000) (hb : b ≠ lineBytes u ch (lineBase a)) :
    (channel (memWrite m ch a ws false (.line b (dueTag u ch (lineBase a) b)) u) ch).data =
      putWords (putWords (channel u ch).data (lineBase a) (packWords b)) (a / 4 * 4) (ws.take (16 - a % 64 / 4)) := by
  have hlow : 0x40000000 ≤ a := ha.1.trans (Nat.div_mul_le_self a 64)
  have hfault : writeFault u ch a false (.line b (dueTag u ch (lineBase a) b)) = none := by
    simp only [writeFault, faultKind_dueTag]
  have hperf : ∀ s : State, channel (perf 7 2 1 s) ch = channel s ch := fun s => by rw [channel, perf_mem, channel]
  have hbytes : ∀ s : State, lineBytes (perf 7 2 1 s) ch (lineBase a) = lineBytes s ch (lineBase a) := fun s => by
    rw [lineBytes, hperf, if_pos ha, lineBytes, if_pos ha]
  have hinit' : initialised (perf 7 2 1 u) a = initialised u a := by rw [initialised, perf_mem, perf_now, initialised]
  have hread : readWords (perf 7 2 1 u) ch a (.line b (dueTag u ch (lineBase a) b)) = packWords b := by
    rw [readWords, if_neg (by rwa [hbytes])]
    exact if_pos ha
  have hstore : ∀ (c : Channel) s, channel (memAnswer m [] false (storeLine ch a (setChannel ch c s))) ch = c := fun c s => by
    rw [memAnswer, channel, send_mem, storeLine_mem hlow, ← channel, channel_setChannel]
  unfold memWrite
  rw [hgate]
  dsimp only
  rw [if_pos hinit, hfault]
  simp only [hinit, Bool.false_eq_true, Bool.true_eq_false, or_self, if_false, repairs, hstore, mergedLine, hinit', hread, hperf]

/-- A device whose channel 0 is in use, its memory initialised and empty. -/
def emptyMemory : State := { State.reset with mem := { c0 := { up := true }, keyed := true, initDone := true } }

/-- The 65 bytes that DDR gives for the first node of the tree, one more than a line has. -/
def longNode : List Nat := List.replicate 65 1

/-- Refutes O12: DDR may give more than 64 bytes for a line of the tree under their due tag; the partial write of the controller that merges
with them stores the 65th in the line that follows. -/
theorem not_memoryWritesAndFrame : ¬ Obligations.MemoryWritesAndFrame := by
  unfold Obligations.MemoryWritesAndFrame
  rintro ⟨hframe, -⟩
  have hu : emptyMemory = tick 0 emptyMemory := (if_neg (Nat.not_lt_zero _)).symm
  have hexec : exec (.memWrite 0 6 0 0x40000000 [] false (.line longNode (dueTag emptyMemory 0 (lineBase 0x40000000) longNode))) emptyMemory =
      .next (memWrite 6 0 0x40000000 [] false (.line longNode (dueTag emptyMemory 0 (lineBase 0x40000000) longNode)) emptyMemory) :=
    ev_if (p := fun _ => 0 < 2) (f := memWrite 6 0 0x40000000 [] false _) hu (by decide) rfl
  have hkept := hframe 0 6 0 0x40000000 [] false _ emptyMemory _ 0x40000040 0 hexec (by decide) (.inr (by decide))
  have hdata := memWrite_nodeBytes (u := emptyMemory) (m := 6) (ch := 0) (a := 0x40000000) (b := longNode) (ws := []) (by decide +kernel)
    (by decide +kernel) (by decide) (by decide +kernel)
  have hstored : ddrByte (channel (memWrite 6 0 0x40000000 [] false
      (.line longNode (dueTag emptyMemory 0 (lineBase 0x40000000) longNode)) emptyMemory) 0) 0x40000040 = 1 := by
    rw [ddrByte, hdata]
    decide +kernel
  have hbefore : ddrByte (channel emptyMemory 0) 0x40000040 = 0 := by decide +kernel
  exact absurd (hstored.symm.trans (hkept.trans hbefore)) (by decide)

end Sys2Proof.Machine

/-! SUPPORT. A register write that also brings a field of the stored word to its legal values (02, 20). -/
namespace Sys2Proof.Machine
open Sys2Proof

/-- A device in life cycle state 3 whose recovery window stands at 0, below the values that R60 lets a write store. -/
def windowZero : State := { State.reset with regs := [(0x000048, 0)], keys := { State.reset.keys with life := 3 } }

theorem canon_windowZero : Canon windowZero := ⟨by decide +kernel, by decide +kernel, by decide +kernel⟩

/-- The write of TEST_REQ alone stores the window as 1 too, and reports the register. -/
theorem writeOne_windowZero_reports : (writeOne 0x000048 0x10000 0x10000 windowZero).2 ≠ [] := by decide +kernel

/-- Refutes O19: canonical form does not keep fields within their legal values, and a write of TEST_REQ to a register whose recovery window
stands at 0 is reported, for the window is brought to 1. -/
theorem not_registerRowsTakeEffect : ¬ Obligations.RegisterRowsTakeEffect := by
  unfold Obligations.RegisterRowsTakeEffect
  rintro ⟨htest, -⟩
  obtain ⟨-, hnone⟩ := htest windowZero _ _ canon_windowZero rfl rfl
  exact writeOne_windowZero_reports hnone

end Sys2Proof.Machine

/-! SUPPORT. The data flow (R16 to R18): what closing and opening ports leaves of it, and its change. -/
namespace Sys2Proof.Machine
open Sys2Proof

/-! ## Operations that leave the data flow -/

/-- The register of the data flow, the flow applied, and the streams are the same. -/
structure SameFlow (s t : State) : Prop where
  word    : regWord t 0x000040 = regWord s 0x000040
  flow    : t.brk.flow = s.brk.flow
  seqs    : t.brk.seqs = s.brk.seqs
  streams : t.brk.streams = s.brk.streams

namespace SameFlow

variable {s t u : State}

theorem refl (s : State) : SameFlow s s := ⟨rfl, rfl, rfl, rfl⟩

theorem trans (h : SameFlow s t) (h' : SameFlow t u) : SameFlow s u :=
  ⟨h'.word.trans h.word, h'.flow.trans h.flow, h'.seqs.trans h.seqs, h'.streams.trans h.streams⟩

theorem ite {p : Prop} [Decidable p] (h : SameFlow s t) (h' : SameFlow s u) : SameFlow s (if p then t else u) := by
  split <;> assumption

theorem of_eq (hregs : t.regs = s.regs) (hbrk : t.brk = s.brk) : SameFlow s t :=
  ⟨by rw [regWord, hregs, regWord], by rw [hbrk], by rw [hbrk], by rw [hbrk]⟩

/-- A change of the bricks alone. -/
theorem of_bricks {b : KMap Brick} (hregs : t.regs = s.regs) (hbrk : t.brk = { s.brk with bricks := b }) : SameFlow s t :=
  ⟨by rw [regWord, hregs, regWord], by rw [hbrk], by rw [hbrk], by rw [hbrk]⟩

theorem foldl {α : Type} {f : State → α → State} (hf : ∀ u x, SameFlow u (f u x)) (l : List α) (s : State) : SameFlow s (l.foldl f s) :=
  List.foldlRecOn (motive := SameFlow s) l f (refl s) fun u hu x _ => hu.trans (hf u x)

theorem of_answered (h : Answered s t) : SameFlow s t := by
  refine ⟨h.regs.word _ (by simp [AnswerReg]), ?_, ?_, ?_⟩ <;>
  · obtain ⟨_, _, _, _, _, _, _, rfl⟩ := h.eqn
    rfl

end SameFlow

theorem sameFlow_setFld {a : Nat} (ha : 0x40 < a) (hi lo v : Nat) (s : State) : SameFlow s (setFld a hi lo v s) :=
  ⟨regWord_setFld_other s hi lo v (by omega), rfl, rfl, rfl⟩

theorem sameFlow_bump {a : Nat} (ha : 0x40 < a) (n : Nat) (s : State) : SameFlow s (bump a n s) :=
  .ite (.refl s) (sameFlow_setFld ha ..)

theorem sameFlow_perf (blk ev n : Nat) (s : State) : SameFlow s (perf blk ev n s) := .of_eq (perf_regs ..) (perf_brk ..)

theorem sameFlow_setTrunk (p : Nat) (x : Trunk) (s : State) : SameFlow s (setTrunk p x s) := .of_eq (setTrunk_regs ..) (setTrunk_brk ..)

theorem sameFlow_setSub (sp : Nat) (x : SubPort) (s : State) : SameFlow s (setSub sp x s) := .of_eq rfl rfl

theorem sameFlow_setLane (n : Nat) (f : Lane → Lane) (s : State) : SameFlow s (setLane n f s) := .of_eq rfl rfl

theorem sameFlow_setBrick (b : Nat) (x : Brick) (s : State) : SameFlow s (setBrick b x s) := .of_bricks rfl rfl

theorem sameFlow_setSa (n : Nat) (a : Sa) (s : State) : SameFlow s (setSa n a s) := .of_eq rfl rfl

theorem sameFlow_updFrame (id : Nat) (f : Held → Held) (s : State) : SameFlow s (updFrame id f s) := .of_bricks rfl rfl

theorem sameFlow_leaveBrick (id : Nat) (s : State) : SameFlow s (leaveBrick id s) := .of_bricks rfl rfl

theorem sameFlow_leaveQueues (id : Nat) (s : State) : SameFlow s (leaveQueues id s) := by
  unfold leaveQueues
  refine SameFlow.trans ?_ (sameFlow_perf ..)
  exact .of_eq rfl rfl

theorem sameFlow_record (code : Nat) (data : List Nat) (s : State) : SameFlow s (record code data s) := .of_answered (answered_record ..)

theorem sameFlow_notify (c : NotifyClass) (body : List Nat) (s : State) : SameFlow s (notify c body s) := by
  unfold notify
  refine .foldl (fun u x => ?_) _ _
  dsimp only
  split
  · exact .refl u
  · refine SameFlow.trans ?_ (.of_answered (answered_sendDone ..))
    exact .of_eq rfl rfl

/-! ## Frames that are discarded -/

theorem sameFlow_lineCount (p tx i n : Nat) (s : State) : SameFlow s (lineCount p tx i n s) := by
  unfold lineCount
  refine .ite (.refl s) (.ite ?_ (.of_eq rfl rfl))
  refine SameFlow.trans (SameFlow.trans ?_ (sameFlow_setFld (a := 0x024800 + 8 * p + 4 * tx) (by omega) ..)) (sameFlow_notify ..)
  exact .of_eq rfl rfl

theorem sameFlow_txDrop (sp : Nat) (s : State) : SameFlow s (txDrop sp s) :=
  .ite (.ite (sameFlow_bump (by omega) ..) (.refl s)) (sameFlow_lineCount ..)

theorem sameFlow_unframe (h : Held) (s : State) : SameFlow s (unframe h s) := .ite (sameFlow_setTrunk ..) (.refl s)

theorem sameFlow_discardAt (h : Held) (s : State) : SameFlow s (discardAt h s) :=
  (((sameFlow_unframe h s).trans (sameFlow_leaveQueues ..)).trans (sameFlow_updFrame ..)).trans (sameFlow_txDrop ..)

theorem sameFlow_dropUnits (p : Nat) (s : State) : SameFlow s (dropUnits p s) := by
  unfold dropUnits
  refine SameFlow.trans (.foldl (fun u x => ?_) _ _) (sameFlow_setTrunk ..)
  split
  · exact .ite (((sameFlow_updFrame ..).trans (sameFlow_leaveQueues ..)).trans (sameFlow_txDrop ..)) (.refl u)
  · exact sameFlow_txDrop ..

/-! ## Links that go down -/

theorem sameFlow_takeDown (sp : Nat) (s : State) : SameFlow s (takeDown sp s) := by
  unfold takeDown
  refine SameFlow.trans ?_ (.foldl (fun _ _ => sameFlow_setLane ..) _ _)
  refine SameFlow.trans ?_ (sameFlow_setSub ..)
  have hq := SameFlow.foldl (fun u (f : TxFrame) => (sameFlow_leaveQueues f.id u).trans (sameFlow_txDrop sp _))
    ((subPort s sp).tx.toList ++ (subPort s sp).suspended.toList) s
  exact .ite (hq.trans (sameFlow_dropUnits ..)) hq

theorem sameFlow_trunkLos (p : Nat) (s : State) : SameFlow s (trunkLos p s) :=
  .ite ((sameFlow_setTrunk ..).trans (sameFlow_record ..)) (.refl s)

theorem sameFlow_linkDown (sp : Nat) (fault : Bool) (s : State) : SameFlow s (linkDown sp fault s) :=
  .ite (((SameFlow.ite (sameFlow_trunkLos ..) (.refl s)).trans (sameFlow_takeDown ..)).trans (sameFlow_setSub ..)) (.refl s)

theorem sameFlow_rawCount (p obj i n : Nat) (s : State) : SameFlow s (rawCount p obj i n s) := .ite (.refl s) (sameFlow_setTrunk ..)

theorem sameFlow_trkCount (p i : Nat) (s : State) : SameFlow s (trkCount p i s) := sameFlow_bump (by simp only [trkCfg]; omega) ..

theorem sameFlow_unitDone (p : Nat) (u : TxUnit) (s : State) : SameFlow s (unitDone p u s) := by
  unfold unitDone
  dsimp only
  split
  · exact (SameFlow.trans (.ite (sameFlow_setTrunk ..) (.refl s)) (.ite (sameFlow_setTrunk ..) (.refl _))).trans (sameFlow_leaveQueues ..)
  · exact .ite (sameFlow_setTrunk ..) (.refl s)

theorem sameFlow_cutPassed (q path keep : Nat) (byRun : Bool) (s : State) : SameFlow s (cutPassed q path keep byRun s) := by
  unfold cutPassed
  dsimp only
  split
  · exact .ite (.ite ((sameFlow_setTrunk ..).trans (sameFlow_trkCount ..)) ((sameFlow_setTrunk ..).trans (sameFlow_unitDone ..)))
      (sameFlow_setTrunk ..)
  · split
    · exact (sameFlow_setTrunk ..).trans (sameFlow_trkCount ..)
    · split
      · exact .ite ((sameFlow_setTrunk ..).trans (sameFlow_unitDone ..)) (sameFlow_setTrunk ..)
      · exact .refl s

theorem sameFlow_brkCount (b i : Nat) (s : State) : SameFlow s (brkCount b i s) := by
  have hbump : SameFlow s (bump (0x070010 + 0x100 * b + 4 * i) 1 s) := sameFlow_bump (by omega) ..
  unfold brkCount
  dsimp only
  split
  · exact hbump.trans (sameFlow_perf ..)
  · exact hbump.trans (sameFlow_perf ..)
  · exact hbump.trans (sameFlow_perf ..)
  · exact hbump

theorem sameFlow_abortUnits (p : Nat) (which : RxUnit → Bool) (s : State) : SameFlow s (abortUnits p which s) := by
  unfold abortUnits
  refine SameFlow.trans (sameFlow_setTrunk ..) (.foldl (fun u x => ?_) _ _)
  have hraw : SameFlow u (if x.run then rawCount p (1 + x.path) 4 1 u else u) := .ite (sameFlow_rawCount ..) (.refl u)
  refine hraw.trans ?_
  generalize (if x.run then rawCount p (1 + x.path) 4 1 u else u) = w
  refine .ite (sameFlow_cutPassed ..) ?_
  split
  · exact .refl _
  · exact .ite (.ite ((sameFlow_updFrame ..).trans ((sameFlow_brkCount ..).trans (sameFlow_record ..))) (sameFlow_updFrame ..))
      ((sameFlow_leaveQueues ..).trans (sameFlow_leaveBrick ..))

theorem sameFlow_restartLink (sp : Nat) (s : State) : SameFlow s (restartLink sp s) :=
  .ite ((sameFlow_linkDown ..).trans (.ite (.ite (sameFlow_abortUnits ..) (.refl _)) (.refl _))) (.refl s)

theorem sameFlow_lineMode (p : Nat) (s : State) : SameFlow s (lineMode p s) := by
  unfold lineMode
  exact ((sameFlow_setTrunk ..).trans (.ite (.refl _) (sameFlow_setFld (by simp only [trkCfg]; omega) ..))).trans (sameFlow_restartLink ..)

theorem sameFlow_powerLanes (s : State) : SameFlow s (powerLanes s) := .foldl (fun _ _ => sameFlow_setLane ..) _ _

/-! ## Banks and tiles -/

theorem sameFlow_giveBank (n : Nat) (s : State) : SameFlow s (giveBank n s) := by
  unfold giveBank
  split
  · exact .refl s
  · refine .ite (.refl s) ?_
    split
    · exact .refl s
    · split
      · exact .refl s
      · exact (sameFlow_setBrick ..).trans (sameFlow_setSa ..)

theorem sameFlow_fillBanks (b t : Nat) (s : State) : SameFlow s (fillBanks b t s) := .foldl (fun _ _ => sameFlow_giveBank ..) _ _

theorem sameFlow_rehomeBanks (s : State) : SameFlow s (rehomeBanks s) := by
  unfold rehomeBanks
  dsimp only
  refine SameFlow.trans (SameFlow.trans (SameFlow.trans ?_ (sameFlow_fillBanks ..)) (sameFlow_fillBanks ..)) (sameFlow_fillBanks ..)
  refine SameFlow.trans (.foldl (fun t b => ?_) _ _) (.of_eq rfl rfl)
  exact sameFlow_setBrick ..

theorem sameFlow_twinTile (s : State) : SameFlow s (twinTile s) :=
  SameFlow.trans (.ite (.refl s) (sameFlow_setBrick ..)) (sameFlow_rehomeBanks _)

theorem sameFlow_settleFaults (s : State) : SameFlow s (settleFaults s) :=
  .foldl (fun u _ => .ite (.refl u) (sameFlow_setSub ..)) _ _

/-! ## The register of the data flow (R16, R17) -/

theorem fieldsAt_flow : fieldsAt 0x000040 = [fAct 9, fHw 8 8, fHw 7 4, fW 3 3 0, fW 2 2 0, fW 1 1 0, fW 0 0 0] := by decide +kernel

/-- A write takes the four fields of the new data flow, and leaves those that the hardware sets. -/
theorem bits_mergeWord_flow (old w ones : Word) {hi lo : Nat} (hlo : 4 ≤ lo) (hhi : hi < 32) :
    (mergeWord 0x000040 old w ones).bits hi lo = old.bits hi lo := by
  simp only [mergeWord, fieldsAt_flow, List.foldl_cons, List.foldl_nil, fAct, fHw, fW]
  rw [Word.bits_withBits_other _ _ (by decide) hhi (by omega), Word.bits_withBits_other _ _ (by decide) hhi (by omega),
    Word.bits_withBits_other _ _ (by decide) hhi (by omega), Word.bits_withBits_other _ _ (by decide) hhi (by omega)]

theorem bits_yielded_flow (s : State) (x : Word) {hi lo : Nat} (hlo : 4 ≤ lo) (hhi : hi < 32) :
    (yielded s 0x000040 x).bits hi lo = x.bits hi lo := by
  rw [yielded, if_pos rfl, Word.bits_withBits_other _ _ (by decide) hhi (by omega), Word.bits_withBits_other _ _ (by decide) hhi (by omega)]

/-- A bit read as a field. -/
theorem Word.bit_eq_of_bits {x y : Word} {i : Nat} (h : x.bits i i = y.bits i i) : x.bit i = y.bit i := by
  have hx := Word.testBit_bits x i i 0
  rw [h, Word.testBit_bits] at hx
  simpa using hx.symm

/-- No other rule stands before the register of the data flow. -/
theorem writeOne_flow (w : Word) (s : State) : writeOne 0x000040 w 0xFFFFFFFF s =
    ((afterWrite 0x000040 s w (setReg 0x000040 (yielded s 0x000040 (mergeWord 0x000040 (regWord s 0x000040) w w)) s)).1,
      reportWrite 0x000040 w (afterWrite 0x000040 s w
        (setReg 0x000040 (yielded s 0x000040 (mergeWord 0x000040 (regWord s 0x000040) w w)) s)).1 ++
      (afterWrite 0x000040 s w (setReg 0x000040 (yielded s 0x000040 (mergeWord 0x000040 (regWord s 0x000040) w w)) s)).2) := by
  have hones : w &&& 0xFFFFFFFF = w := BitVec.and_allOnes
  have hmatch : ¬ 0x000040 = matchHi 7 := by decide
  have htamper : slotOf 0x000040 0x110000 4 17 = none := by decide
  have hbefore : beforeWrite 0x000040 s = s := by
    have hperf : slotOf 0x000040 0x130100 4 48 = none := by decide
    simp [beforeWrite, hperf]
  simp only [writeOne, askedWord_allOnes, hones, hmatch, htamper, hbefore, false_and, if_false, Option.isSome_none, Bool.false_eq_true,
    Nat.reduceEqDiff]

theorem afterWrite_apply {old s : State} {ones : Word} (hones : ones.bit 9 = true) (hidle : flag s 0x000040 8 = false) :
    afterWrite 0x000040 old ones s = (setFld 0x000040 8 8 1 { s with brk := { s.brk with flow := flowWanted s } }, []) := by
  have hblock : 0x000040 / 0x10000 = 0 := by decide
  simp only [afterWrite, hblock, if_true, quiet, hones, hidle, and_self]

/-- The flow that the fields ask for depends on them alone. -/
theorem flowWanted_eq_of_bits {s t : State} (h : ∀ i < 4, flag t 0x000040 i = flag s 0x000040 i) : flowWanted t = flowWanted s := by
  have hbit : ∀ i < 4, (regWord t 0x000040).bit i = (regWord s 0x000040).bit i := h
  simp only [flowWanted, hbit 0 (by decide), hbit 1 (by decide), hbit 2 (by decide), hbit 3 (by decide)]

theorem flag_setFld_same {s : State} (h : Regs.wf s.regs = true) (a hi lo v : Nat) {i : Nat} (hle : lo ≤ hi) (hi' : i < 32) :
    flag (setFld a hi lo v s) a i = if lo ≤ i ∧ i ≤ hi then v.testBit (i - lo) else flag s a i := by
  rw [flag, regWord_setFld_same h, Word.bit_withBits _ _ hle hi', flag]

theorem fld_setFld_same {s : State} (h : Regs.wf s.regs = true) (a hi lo v : Nat) (hle : lo ≤ hi) (hhi : hi < 32) :
    fld (setFld a hi lo v s) a hi lo = v % 2 ^ (hi + 1 - lo) := by
  rw [fld, regWord_setFld_same h, Word.bits_withBits_same _ _ hle hhi]

theorem fld_setFld_apart {s : State} (h : Regs.wf s.regs = true) (a hi lo v : Nat) {hi' lo' : Nat} (hle : lo ≤ hi) (hhi : hi' < 32)
    (hd : hi < lo' ∨ hi' < lo) : fld (setFld a hi lo v s) a hi' lo' = fld s a hi' lo' := by
  rw [fld, regWord_setFld_same h, Word.bits_withBits_other _ _ hle hhi hd, fld]

theorem bit_or_apply (w : Word) : (w ||| 0x200).bit 9 = true := by
  rw [Word.bit, BitVec.toNat_or, Nat.testBit_or]
  exact Bool.or_true _

/-- APPLY takes the values that the fields then have (R16). -/
theorem writeOne_flow_applies {s t : State} {w : Word} {r : Body} (hc : Canon s) (hidle : flag s 0x000040 8 = false)
    (hwrite : writeOne 0x000040 (w ||| 0x200) 0xFFFFFFFF s = (t, r)) :
    flag t 0x000040 8 = true ∧ t.brk.flow = flowWanted t ∧ fld t 0x000040 7 4 = fld s 0x000040 7 4 := by
  generalize hx : yielded s 0x000040 (mergeWord 0x000040 (regWord s 0x000040) (w ||| 0x200) (w ||| 0x200)) = x
  have hword : regWord (setReg 0x000040 x s) 0x000040 = x := regWord_setReg_same hc.regs ..
  have hkept : ∀ {hi lo : Nat}, 4 ≤ lo → hi < 32 → fld (setReg 0x000040 x s) 0x000040 hi lo = fld s 0x000040 hi lo := fun hlo hhi => by
    rw [fld, hword, ← hx, bits_yielded_flow _ _ hlo hhi, bits_mergeWord_flow _ _ _ hlo hhi, fld]
  have hidle' : flag (setReg 0x000040 x s) 0x000040 8 = false := (Word.bit_eq_of_bits (hkept (by decide) (by decide))).trans hidle
  have hwf : Regs.wf (setReg 0x000040 x s).regs = true := wf_putReg hc.regs ..
  rw [writeOne_flow, hx, afterWrite_apply (bit_or_apply w) hidle'] at hwrite
  obtain ⟨rfl, -⟩ := Prod.mk.inj hwrite
  generalize setReg 0x000040 x s = v at hkept hwf
  have hwf' : Regs.wf { v with brk := { v.brk with flow := flowWanted v } }.regs = true := hwf
  refine ⟨?_, ?_, ?_⟩
  · exact (flag_setFld_same hwf' 0x000040 8 8 1 (by decide) (by decide)).trans (if_pos (by decide))
  · refine (flowWanted_eq_of_bits fun i hi => ?_).symm
    exact (flag_setFld_same hwf' 0x000040 8 8 1 (by decide) (by omega)).trans (if_neg (by omega))
  · exact (fld_setFld_apart hwf' 0x000040 8 8 1 (by decide) (by decide) (by decide)).trans (hkept (by decide) (by decide))

/-! ## The change itself (R17, R18) -/

/-- The state in which the frames queued for the ports that change, and the units of their framers, are discarded. -/
def flowCleared (u : State) : State :=
  [0, 1].foldl (fun s p => if (portsChanging u).contains (2 + p) then dropUnits p s else s)
    (((u.que.frames ++ u.que.hold).filter fun h => (portsChanging u).contains h.eport && !h.gone).foldl (fun s h => discardAt h s) u)

/-- The fields are copied and CHANGE_PENDING falls. -/
def flowTaken (new : Nat) (s : State) : State := setFld 0x000040 8 8 0 (setFld 0x000040 7 4 new s)

/-- A change of PROT_LINE starts the streams anew. -/
def streamsAnew (was new : Nat) (s : State) : State :=
  if was.testBit 2 = new.testBit 2 then s else { s with brk := { s.brk with seqs := [], streams := [] } }

theorem sameFlow_flowCleared (u : State) : SameFlow u (flowCleared u) :=
  SameFlow.trans (.foldl (fun x h => sameFlow_discardAt h x) _ _) (.foldl (fun x _ => .ite (sameFlow_dropUnits ..) (.refl x)) _ _)

theorem canon_flowCleared {u : State} (hc : Canon u) : Canon (flowCleared u) := by
  have hcan : ∀ p, Can (fun _ => true) p := fun _ => ⟨rfl⟩
  refine List.foldlRecOn (motive := Canon) _ _ (List.foldlRecOn (motive := Canon) _ _ hc fun s hs h _ => ?_) fun s hs p _ => ?_
  · have hk := kept_discardAt h s (kept_refl (fun _ => true) hs)
    exact ⟨hk.regs, hk.mem0.1, hk.mem1.1⟩
  · split
    · have hk := kept_dropUnits p s (kept_refl (fun _ => true) hs)
      exact ⟨hk.regs, hk.mem0.1, hk.mem1.1⟩
    · exact hs

/-- Once the fields are copied and the streams begin anew, nothing touches the data flow. -/
theorem remap_drained {u : State} (hpending : flag u 0x000040 8 = true) (hdrained : flowDrained u = true) :
    SameFlow (streamsAnew (fld u 0x000040 7 4) u.brk.flow (flowTaken u.brk.flow (flowCleared u))) (remap u) := by
  unfold remap
  rw [if_neg (by simp [hpending, hdrained])]
  refine SameFlow.trans (SameFlow.trans ?_ (sameFlow_powerLanes _)) ((sameFlow_twinTile _).trans (sameFlow_settleFaults _))
  exact .foldl (fun x p => .ite (.refl x) (sameFlow_lineMode ..)) _ _

theorem remap_idle {u : State} (h : flag u 0x000040 8 = false ∨ flowDrained u = false) : remap u = u := if_pos h

theorem streamsAnew_regs (was new : Nat) (s : State) : (streamsAnew was new s).regs = s.regs := by
  unfold streamsAnew
  split <;> rfl

theorem streamsAnew_flow (was new : Nat) (s : State) : (streamsAnew was new s).brk.flow = s.brk.flow := by
  unfold streamsAnew
  split <;> rfl

/-- What the change leaves in the register and of the flow and the streams. -/
theorem remap_flow {u : State} (hc : Canon u) (hpending : flag u 0x000040 8 = true) (hdrained : flowDrained u = true) :
    flag (remap u) 0x000040 8 = false ∧ fld (remap u) 0x000040 7 4 = u.brk.flow % 16 ∧
    fld (remap u) 0x000040 3 0 = fld u 0x000040 3 0 ∧ (remap u).brk.flow = u.brk.flow ∧
    ((fld u 0x000040 7 4).testBit 2 ≠ u.brk.flow.testBit 2 → (remap u).brk.seqs = [] ∧ (remap u).brk.streams = []) := by
  have hsame := remap_drained hpending hdrained
  have hcleared := sameFlow_flowCleared u
  have hwf := (canon_flowCleared hc).regs
  generalize flowCleared u = v at hsame hcleared hwf
  have hwf' : Regs.wf (setFld 0x000040 7 4 u.brk.flow v).regs = true := wf_putReg hwf ..
  have hword : regWord (remap u) 0x000040 = regWord (flowTaken u.brk.flow v) 0x000040 := by
    rw [hsame.word, regWord, streamsAnew_regs, regWord]
  refine ⟨?_, ?_, ?_, ?_, fun hchange => ?_⟩
  · rw [flag, hword]
    exact (flag_setFld_same hwf' 0x000040 8 8 0 (by decide) (by decide)).trans (if_pos (by decide))
  · rw [fld, hword]
    exact (fld_setFld_apart hwf' 0x000040 8 8 0 (by decide) (by decide) (by decide)).trans
      (fld_setFld_same hwf 0x000040 7 4 _ (by decide) (by decide))
  · rw [fld, hword]
    refine (fld_setFld_apart hwf' 0x000040 8 8 0 (by decide) (by decide) (by decide)).trans
      ((fld_setFld_apart hwf 0x000040 7 4 _ (by decide) (by decide) (by decide)).trans ?_)
    rw [fld, hcleared.word, fld]
  · rw [hsame.flow, streamsAnew_flow]
    exact hcleared.flow
  · rw [hsame.seqs, hsame.streams, streamsAnew, if_neg hchange]
    exact ⟨rfl, rfl⟩

/-- Settles O21: the fields and the streams after the copy are those at the end, for no later operation of the change touches them. -/
theorem dataflowChanges : Obligations.DataflowChanges := by
  unfold Obligations.DataflowChanges
  refine ⟨?_, ?_, ?_⟩
  · exact fun s w t r hc hidle hwrite => writeOne_flow_applies hc hidle hwrite
  · intro t s u hu h
    exact ev_next hu (remap_idle h)
  · intro t s u hc hu hpending hdrained
    exact ⟨remap u, ev_next hu rfl, remap_flow (hu ▸ hc.tick t) hpending hdrained⟩

end Sys2Proof.Machine
